-- ==== Sys2Proof/Word.lean ====
section
/-! DEFINITION. The words of the device: bytes, the 32-bit registers of R6 and the 64-bit bank words of R321. -/
namespace Sys2Proof

/-- A byte of a bank or of host memory. -/
abbrev Byte := BitVec 8

/-- A register or mailbox word (R6: every register is 32 bits wide). -/
abbrev W32 := BitVec 32

/-- A bank word or a tag word (R91, R321). -/
abbrev W64 := BitVec 64

/-- The modulus of the device time counter (R42: 80 bits of tq). -/
def dtcMod : Nat := 2 ^ 80

end Sys2Proof
end

