-- ==== Sys2Proof/Syntax.lean ====
section
/-! DEFINITION. The commands of the block: one constructor per row of the table of operations and events. -/
namespace Sys2Proof

/-- What the outside world answers while a mailbox command runs: the Basxus followers of R71 (a mask of refusing
device numbers, and whether one does not answer within 10 ms), and the service's outcome in the secure module. -/
structure Env where
  refuse : BitVec 16
  silent : Bool
deriving DecidableEq, Repr

/-- A mailbox message: the mailbox, SEQ and LEN of its header, payload words w1 and on, and the outside answers. -/
structure Msg where
  mb : Fin 8
  seq : BitVec 8
  len : Fin 16
  words : List W32
  env : Env
deriving DecidableEq, Repr

/-- What the check bits of a word that is read say (R329). -/
inductive Ecc where
  | ok | corrected | bad
deriving DecidableEq, Repr

/-- The shadow registers of a pattern unit (R189). -/
inductive PuReg where
  | per | cmp | npulse | bper | nburst
deriving DecidableEq, Repr

/-- A 1 ms window of the reference detector (R34, R486): edges cover all of it, its mean frequency in mHz, its level in
0.1 dBm, and the tq from now to its end. -/
structure RefWin where
  complete : Bool
  present : Bool
  freq : Nat
  level : Int
  dt : Nat
deriving DecidableEq, Repr

/-- A control frame from the leader (R71, R70). -/
inductive BxCtl where
  | step (delta : Int)
  | tick (p : Nat)
  | discipline (mode window : Nat) (comp : Int)
  | cancel
  | anchor (a : Nat)
deriving DecidableEq, Repr

/-- What the receiver of a Basxus port shows (R63, R64): the lanes that are locked, and the blocks that have failed their
checks since its last row. -/
structure BxRx where
  lanes : BitVec 2
  bad : Nat
deriving DecidableEq, Repr

/-- Completed calibration hits (R117, R118): the in-line ones per code under each reference mode, and how many in all, those
off the line among them. -/
structure Hits where
  nom : List Nat
  early : List Nat
  late : List Nat
  all : Nat
deriving DecidableEq, Repr

/-- What the comparator shows in a TDR measurement (R306): for each trial code of the searches for V1 and V2, most significant bit
first, how many of its 16 steps cross as sought; and for passes A and B, tag − T of each of the 4,096 steps, in tq. -/
structure TdrResult where
  seen1 : List Nat
  seen2 : List Nat
  tagsA : List Int
  tagsB : List Int
deriving DecidableEq, Repr

/-- The times of a time-transfer frame pair (R66). -/
structure BxTimes where
  t1 : Int
  t2 : Int
  t3 : Int
  t4 : Int
deriving DecidableEq, Repr

/-- What a descriptor read returns: its eight words, or a bus error, timeout or poisoned completion (R362). -/
inductive Fetch where
  | ok (words : List W32)
  | err
deriving DecidableEq, Repr

/-- What a data read of host memory returns: words, or a cause of Table 13-5 (1 COMPLETER, 2 CPL_TIMEOUT, 3 POISONED). -/
inductive HostRd where
  | data (words : List W64)
  | err (cause : Fin 4)
deriving DecidableEq, Repr


/-- A firmware image that has been programmed into the flash from outside (R422): whether its signature verifies, its SVN,
its SHA-384 and its version word. -/
structure FwImg where
  ok : Bool
  svn : Nat
  hash : BitVec 384
  version : W32
deriving DecidableEq, Repr

/-- What the release of power-on reset finds (R422): whether the self-tests pass, and images newly programmed into slots A and B. -/
structure Boot where
  pass : Bool
  imgA : Option FwImg
  imgB : Option FwImg
deriving DecidableEq, Repr

/-- A history record that fails authentication at start-up (R135): its number, and the cycles and hours recorded before it. -/
structure HistCut where
  record : W32
  cycles : Nat
  hours : Nat
deriving DecidableEq, Repr


/-- One command of the block: a row of the table of operations and events, with what the row is given from outside. -/
inductive Instr where
  /-- SYS_PING (R379): Command that returns its payload words unchanged. -/
  | sysPing (m : Msg)
  /-- SYS_GET_INFO (R379): Command that returns the part, stepping, grade, serial number and firmware data, or the firmware hash. -/
  | sysGetInfo (m : Msg)
  /-- SYS_GET_HEALTH (R379): Command that returns status, monitor, reference, link and PCIe health words. -/
  | sysGetHealth (m : Msg)
  /-- SYS_RESET_FIRMWARE (R386): SYS_RESET with SCOPE FIRMWARE replies OK and then restarts the management core. -/
  | sysResetFirmware (m : Msg)
  /-- SYS_RESET_DEVICE (R435): SYS_RESET with SCOPE DEVICE replies OK, then resets channels, slots, decoders, microengines and banks and reruns start-up from step 1. -/
  | sysResetDevice (m : Msg)
  /-- SYS_SET_MIRROR (R343): Command that enables the status mirror from the first boundary at least 1 us ahead, with a write every N ticks. -/
  | sysSetMirror (m : Msg)
  /-- TS_SET_REFERENCE (R39): Command that selects the reference source and expected frequency and sets the REFOUT and PPSOUT modes. -/
  | tsSetReference (m : Msg)
  /-- TS_SET_TICK (R55): Command that arms a new tick period, which takes effect at the next old-period boundary or at the next second mark. -/
  | tsSetTick (m : Msg)
  /-- TS_DISCIPLINE (R46): Command that sets the PPS discipline mode, the window half-width and PPS_COMP. -/
  | tsDiscipline (m : Msg)
  /-- TS_SET_TIME_AT_TICK (R49): TS_SET_TIME AT_TICK arms a step that assigns V to the next tick boundary. -/
  | tsSetTimeAtTick (m : Msg)
  /-- TS_SET_TIME_AT_PPS (R49): TS_SET_TIME AT_PPS arms a step that assigns V to the next qualified PPS edge. -/
  | tsSetTimeAtPps (m : Msg)
  /-- TS_SET_TIME_CANCEL (R75): TS_SET_TIME CANCEL withdraws a pending step, and returns OK with no change once the step has been applied. -/
  | tsSetTimeCancel (m : Msg)
  /-- TS_RTC_SET_NOW (R453): TS_RTC_SET SET_NOW sets the calendar clock at once and makes it FREE. -/
  | tsRtcSetNow (m : Msg)
  /-- TS_RTC_SET_AT_NEXT_MARK (R453): TS_RTC_SET AT_NEXT_MARK sets and slaves the calendar clock at the first second mark at least 1 ms ahead. -/
  | tsRtcSetAtNextMark (m : Msg)
  /-- TS_RTC_SET_AT_PPS (R453): TS_RTC_SET AT_PPS arms a setting that applies at the second mark of the next in-window PPS edge. -/
  | tsRtcSetAtPps (m : Msg)
  /-- TS_RTC_SET_OFFSET_ONLY (R453): TS_RTC_SET OFFSET_ONLY schedules a change of the UTC offset. -/
  | tsRtcSetOffsetOnly (m : Msg)
  /-- TS_RTC_READ (R453): Command that latches and returns the calendar time, offset, status and DTC. -/
  | tsRtcRead (m : Msg)
  /-- CH_SET_INPUT (R106): Command that sets threshold, hysteresis, termination, edge and qualifier settings, at once for a disabled input or at a boundary B for an enabled one. -/
  | chSetInput (m : Msg)
  /-- CH_SET_OUTPUT (R197): Command that sets output source, policies, levels and queue-pair binding, at once or at a boundary B. -/
  | chSetOutput (m : Msg)
  /-- CH_ENABLE (R107): Command that enables inputs and/or outputs at the first boundary at least 1 us ahead. -/
  | chEnable (m : Msg)
  /-- CH_DISABLE (R107): Command that disables inputs and/or outputs at the first boundary at least 1 us ahead. -/
  | chDisable (m : Msg)
  /-- MEAS_DEFINE (R155): Command that configures a measurement slot, or releases it with type OFF. -/
  | measDefine (m : Msg)
  /-- MEAS_ARM (R155): Command that clears the accumulators and arms slots to start their gates at B0. -/
  | measArm (m : Msg)
  /-- MEAS_STOP (R172): Command that stops running slots at the end of a gate, or at the next boundary with NOW. -/
  | measStop (m : Msg)
  /-- MEAS_READ (R172): Command that returns the last published result of a slot with its mean or period and its spread. -/
  | measRead (m : Msg)
  /-- HIST_DEFINE (R165): Command that defines, clears or removes a slot's histogram in a bank. -/
  | histDefine (m : Msg)
  /-- SYN_PATTERN (R198): Command that starts, stops or reconfigures a pattern unit. -/
  | synPattern (m : Msg)
  /-- SYN_PATTERN_SHADOW (R198): SYN_PATTERN with SHADOW writes the shadows of a running unit under LOCK. -/
  | synPatternShadow (m : Msg)
  /-- SYN_PAIR (R208): Command that sets a pair's mode, polarities, dead times and SHORTPOL. -/
  | synPair (m : Msg)
  /-- SYN_BRAKE_CFG_SET_INPUT (R218): SYN_BRAKE_CFG with SET_INPUT sets debounce, polarity, enable and quiet time of the named brakes on the edge of execution. -/
  | synBrakeCfgSetInput (m : Msg)
  /-- SYN_BRAKE_CFG_SET_GUARD (R211): SYN_BRAKE_CFG with SET_GUARD changes channel guard masks at the next boundary at least 1 us ahead. -/
  | synBrakeCfgSetGuard (m : Msg)
  /-- SYN_BRAKE_CLEAR (R214): Command that clears tripped brakes when they are inactive and quiet, and sets RESUME_PEND on the channels that no other tripped brake guards. -/
  | synBrakeClear (m : Msg)
  /-- QD_DEFINE (R240): Command that configures, enables or disables a quadrature decoder at a boundary B. -/
  | qdDefine (m : Msg)
  /-- QD_READ (R240): Command that returns the decoder's last snapshot and its counters. -/
  | qdRead (m : Msg)
  /-- UC_LOAD (R272): Command that validates a microcode image from a bank and loads it into the control stores of the named clusters. -/
  | ucLoad (m : Msg)
  /-- TASK_SET (R290): Command that adds or replaces a task-table entry at a boundary after the schedulability check. -/
  | taskSet (m : Msg)
  /-- TASK_REMOVE (R290): Command that clears task-table entries at a boundary. -/
  | taskRemove (m : Msg)
  /-- SCHED_CHECK (R290): Command that evaluates schedulability of the task table under assumed values, without changing anything. -/
  | schedCheck (m : Msg)
  /-- TIMER_SET (R300): Command that configures a general-purpose timer and optionally starts, stops or clears its flags. -/
  | timerSet (m : Msg)
  /-- CAL_RUN (R146): Command that starts input or output offset measurements of the named channels. -/
  | calRun (m : Msg)
  /-- CAL_STATUS (R146): Command that returns a channel's calibration status words. -/
  | calStatus (m : Msg)
  /-- CAL_POLICY (R126): Command that sets the starvation policy, CAL_STARVE and CAP_H of clusters from the next boundary. -/
  | calPolicy (m : Msg)
  /-- ENV_TDR_MEASURE (R305): ENV_TDR MEASURE starts TDR measurements of the named channels one after another. -/
  | envTdrMeasure (m : Msg)
  /-- ENV_TDR_APPLY (R311): ENV_TDR APPLY sets cable terms from usable TDR results at a boundary. -/
  | envTdrApply (m : Msg)
  /-- ENV_TDR_SET (R311): ENV_TDR SET writes a manual cable term to the named channels at a boundary. -/
  | envTdrSet (m : Msg)
  /-- ENV_TDR_CLEAR (R311): ENV_TDR CLEAR sets cable terms to 0 with source NONE at a boundary. -/
  | envTdrClear (m : Msg)
  /-- ENV_MONITORS (R320): ENV_MONITORS without SET_WIN or CLEAR_TRIP returns a monitor's reading and the fault summary. -/
  | envMonitors (m : Msg)
  /-- ENV_MONITORS_SET_WIN (R316): ENV_MONITORS with SET_WIN narrows a monitor's window from the next reading. -/
  | envMonitorsSetWin (m : Msg)
  /-- ENV_MONITORS_CLEAR_TRIP (R315): ENV_MONITORS with CLEAR_TRIP clears the thermal trip when every sensor reads below 100 C. -/
  | envMonitorsClearTrip (m : Msg)
  /-- STREAM_OPEN_CAPTURE (R350): STREAM_OPEN with KIND CAPTURE opens a capture ring and DMA channel, starting at a boundary B. -/
  | streamOpenCapture (m : Msg)
  /-- STREAM_OPEN_BLOCK (R361): STREAM_OPEN with KIND BLOCK opens a descriptor-driven bank transfer channel. -/
  | streamOpenBlock (m : Msg)
  /-- STREAM_OPEN_COPY (R363): STREAM_OPEN with KIND COPY starts a direct bank-to-bank copy. -/
  | streamOpenCopy (m : Msg)
  /-- STREAM_CLOSE (R356): STREAM_CLOSE without DISCARD closes a stream at boundary B_c after draining the ring. -/
  | streamClose (m : Msg)
  /-- STREAM_CLOSE_DISCARD (R356): STREAM_CLOSE with DISCARD ends the stream at once and discards unmoved ring words. -/
  | streamCloseDiscard (m : Msg)
  /-- BANK_ASSIGN (R338): Command that hands banks to a new owner, optionally sets the add mode and clears them. -/
  | bankAssign (m : Msg)
  /-- PWR_SET_STATE_TRIM (R441): PWR_SET_STATE with RUN or TRIM gates or ungates clusters at a boundary B. -/
  | pwrSetStateTrim (m : Msg)
  /-- PWR_SET_STATE_RETAIN (R442): PWR_SET_STATE with RETAIN checks conditions and waits for the commit edge to enter RETAIN. -/
  | pwrSetStateRetain (m : Msg)
  /-- PWR_SET_STATE_BACKUP_ONLY (R446): PWR_SET_STATE with BACKUP_ONLY ends flash writes and enters RETAIN with no bank retained and SAFE_OFF set. -/
  | pwrSetStateBackupOnly (m : Msg)
  /-- PWR_RETAIN_BANKS (R453): Command that writes the bank retain masks for the next commit edge. -/
  | pwrRetainBanks (m : Msg)
  /-- GRP_PREPARE (R380): Command that checks a member command in each named cluster and reserves it in a group, or fails the group. -/
  | grpPrepare (m : Msg)
  /-- GRP_COMMIT (R381): Command that commits a group so that its members take effect at one boundary. -/
  | grpCommit (m : Msg)
  /-- GRP_ABANDON (R382): Command that releases an open or failed group. -/
  | grpAbandon (m : Msg)
  /-- BX_LINK (R63): Command that enables the Basxus ports and sets forwarding and relaying. -/
  | bxLink (m : Msg)
  /-- BX_ALIGN (R67): Command that starts or stops alignment of a follower with a given path asymmetry. -/
  | bxAlign (m : Msg)
  /-- SEC_CHALLENGE (R412): SEC_SESSION_OPEN CHALLENGE returns a 48-byte nonce. -/
  | secChallenge (m : Msg)
  /-- SEC_OPEN (R412): SEC_SESSION_OPEN OPEN verifies the role signature and derives a session key, or takes ownership in UNOWNED. -/
  | secOpen (m : Msg)
  /-- SEC_CLOSE (R413): SEC_SESSION_OPEN CLOSE closes the named session. -/
  | secClose (m : Msg)
  /-- SEC_ENROLL (R411): SEC_SESSION_OPEN ENROLL installs a User public key. -/
  | secEnroll (m : Msg)
  /-- SEC_REMOVE (R410): SEC_SESSION_OPEN REMOVE removes a User key. -/
  | secRemove (m : Msg)
  /-- SEC_SIGN_RECORD_SLOT (R420): SEC_SIGN_RECORD SLOT signs a Restojor record around a slot's last published result block. -/
  | secSignRecordSlot (m : Msg)
  /-- SEC_SIGN_RECORD_BLOB_PART (R420): SEC_SIGN_RECORD BLOB_PART absorbs a frame of host data into the hash. -/
  | secSignRecordBlobPart (m : Msg)
  /-- SEC_SIGN_RECORD_BLOB_END (R420): SEC_SIGN_RECORD BLOB_END signs a detached BLOB record over the absorbed data. -/
  | secSignRecordBlobEnd (m : Msg)
  /-- SEC_SEAL_CAL_SEAL (R424): SEC_SEAL_CAL SEAL hashes and stores the calibration seal and returns a SEAL record. -/
  | secSealCalSeal (m : Msg)
  /-- SEC_SEAL_CAL_CLEAR (R424): SEC_SEAL_CAL CLEAR removes the seal. -/
  | secSealCalClear (m : Msg)
  /-- SEC_AUDIT_READ (R425): Command that returns audit entries in clear text with an AUDIT record. -/
  | secAuditRead (m : Msg)
  /-- SEC_ZEROIZE (R427): SEC_ZEROIZE ZEROIZE destroys the keys and enters ZEROIZED. -/
  | secZeroize (m : Msg)
  /-- TAMPER_CFG (R426): SEC_ZEROIZE TAMPER_CFG sets external tamper enables and responses, and clears latched causes with ACK. -/
  | tamperCfg (m : Msg)
  /-- SEC_FW_UPDATE_BEGIN (R423): SEC_FW_UPDATE BEGIN erases the inactive slot and marks it invalid. -/
  | secFwUpdateBegin (m : Msg)
  /-- SEC_FW_UPDATE_DATA (R423): SEC_FW_UPDATE DATA writes a frame at the next offset of the inactive slot. -/
  | secFwUpdateData (m : Msg)
  /-- SEC_FW_UPDATE_COMMIT (R423): SEC_FW_UPDATE COMMIT verifies signature and SVN and marks the slot active. -/
  | secFwUpdateCommit (m : Msg)
  /-- SEC_FW_UPDATE_ABORT (R423): SEC_FW_UPDATE ABORT leaves the inactive slot invalid. -/
  | secFwUpdateAbort (m : Msg)
  /-- SEC_DEBUG_UNLOCK (R428): Command that opens the MC or SEC debug port after verifying a debug token. -/
  | secDebugUnlock (m : Msg)
  /-- SEC_EXPORT_CERT (R416): Command that returns the DIK or device CA certificate in a frame. -/
  | secExportCert (m : Msg)
  /-- DOORBELL_FRAME (R429): A host write of DB0 tells the module that an H2D frame waits. -/
  | doorbellFrame
  /-- DOORBELL_SELF_TEST (R429): A host write of DB1 runs the module self-test. -/
  | doorbellSelfTest (pass : Bool)
  /-- DOORBELL_CLOSE_SESSIONS (R413): A host write of DB2 closes the sessions. -/
  | doorbellCloseSessions
  /-- DOORBELL_LOCK_DEBUG (R428): A host write of DB3 locks debug access. -/
  | doorbellLockDebug
  /-- GO (R371): A host write of MB_CTRL.GO posts the mailbox message, clears MB_ACK and starts its timeout. -/
  | go (mb : Fin 8)
  /-- CANCEL (R374): A host write of MB_CTRL.CANCEL withdraws a posted message with ABORTED. -/
  | cancel (mb : Fin 8)
  /-- MB_DATA_WRITE (R370): A host write of MB_DATA is accepted in IDLE or DONE and discarded with WR_REJ otherwise. -/
  | mbDataWrite (mb : Fin 8) (k : Fin 16) (v : W32)
  /-- MESSAGE_TAKE (R372): Device firmware takes a posted message, sets TAKEN and checks and executes the packet. -/
  | messageTake (mb : Fin 8) (e : Env)
  /-- MAILBOX_TIMEOUT (R373): Expiry of MB_TMO before DONE sets MB_ACK.TIMEOUT. -/
  | mailboxTimeout (mb : Fin 8)
  /-- SECURE_TIMEOUT (R384): A secure message whose answer does not arrive within its bound completes with TIMEOUT. -/
  | secureTimeout (mb : Fin 8)
  /-- QP_H2D_PUSH (R383): A host write into QP_H2D pushes a word or drops it when the queue is full or disabled. -/
  | qpH2dPush (q : Fin 4) (v : W32)
  /-- QP_D2H_READ (R383): A host read of QP_D2H_DATA returns and removes the oldest word. -/
  | qpD2hRead (q : Fin 4)
  /-- QP_DESCRIPTOR_FORWARD (R183): Device firmware takes a four-word descriptor from a bound H2D queue and pushes it into the target edge queue when room exists. -/
  | qpDescriptorForward (q : Fin 4)
  /-- HOST_REGISTER_WRITE (R8): A host write to a register with no row of its own sets w fields and records READONLY when needed. -/
  | hostRegisterWrite (off : Nat) (v : W32)
  /-- HOST_ODD_SIZE_ACCESS (R6): A host BAR0 access of another size or alignment reads each covered register once or discards a write with SIZE. -/
  | hostOddSizeAccess (bar4 : Bool) (off : Nat) (len : Nat) (data : Option W32)
  /-- READ_CLEAR (R7): A read of a register holding RC fields returns them and clears them. -/
  | readClear (off : Nat)
  /-- TS_CAPTURE (R43): A host write of TS_CAPTURE latches the DTC into TS_CAP0 to TS_CAP2. -/
  | tsCapture
  /-- RTC_SUB_READ (R451): A read of RTC_SUB latches RTC_SEC into RTC_SEC_LAT. -/
  | rtcSubRead
  /-- PC_SNAP_READ (R403): A read of PC_SNAP at the lowest counter of a chain latches the whole chain. -/
  | pcSnapRead (n : Fin 64) (host : Bool)
  /-- MIRROR_DISABLE (R343): A host write of 0 to SYS_MIR_CTRL.EN stops the mirror from the next boundary. -/
  | mirrorDisable
  /-- DMA_RING_TAIL_WRITE (R357): A host write of DMA_RING_TAIL hands descriptors up to TAIL to the channel. -/
  | dmaRingTailWrite (k : Fin 16) (v : W32)
  /-- DMA_RING_HEAD_WRITE (R362): A host write of DMA_RING_HEAD to a halted channel resumes it from the written index. -/
  | dmaRingHeadWrite (k : Fin 16) (v : W32)
  /-- FLUSH (R351): A host write of DMA_STR_CMD.FLUSH completes the current descriptor PARTIAL after moving the words written so far. -/
  | flush (k : Fin 16)
  /-- HOST_BANK_ACCESS (R334): A host access through BAR2 reads or writes bank words, refused unless HOST owns the bank. -/
  | hostBankAccess (addr : Nat) (len : Nat) (data : Option (List Byte)) (e : List (Nat × Ecc))
  /-- IC_EOI (R396): A core write of IC_EOI completes the top active source, tail-chains a pending one, or counts a spurious EOI. -/
  | icEoi (sec : Bool) (n : Fin 256)
  /-- CH_EQ_PUSH (R180): A firmware write of CH_EQ_PUSH3 pushes a descriptor into the edge queue, judged for full, order and lateness. -/
  | chEqPush (n : Fin 128) (w0 : W32) (w1 : W32) (w2 : W32) (w3 : W32)
  /-- PU_CMP_WRITE (R190): A write of CH_PU_CMP in IMMEDIATE mode acts on the period in progress at its present count. -/
  | puCmpWrite (n : Fin 128) (v : W32)
  /-- PU_PER_WRITE (R191): A write of CH_PU_PER in IMMEDIATE mode ends the period in progress at p or c + 1. -/
  | puPerWrite (n : Fin 128) (v : W32)
  /-- PU_SHADOW_WRITE (R193): A write of a pattern-unit shadow register waits for the next hand-over, late if in the hand-over cycle. -/
  | puShadowWrite (n : Fin 128) (r : PuReg) (v : W32)
  /-- PU_LOCK_CLEAR (R192): Clearing CH_PU_CTRL.LOCK makes the written shadows eligible, moving them at once in IMMEDIATE mode. -/
  | puLockClear (n : Fin 128)
  /-- GPT_START (R291): A write of GPT_CMD.START loads PHASE, restarts the prescaler and starts the timer. -/
  | gptStart (n : Fin 32)
  /-- GPT_STOP (R299): A write of GPT_CMD.STOP stops the timer. -/
  | gptStop (n : Fin 32)
  /-- GPT_SYNC (R293): A write of GPT_CMD.SYNC loads PHASE and restarts the prescaler. -/
  | gptSync (n : Fin 32)
  /-- GPT_CLR_FLAGS (R299): A write of GPT_CMD.CLR_FLAGS clears OVF, CAPF and CAP_OVR. -/
  | gptClrFlags (n : Fin 32)
  /-- NOP (R246): Microword CTRL.NOP does nothing. -/
  | uNop (c : Fin 4) (ue : Bool)
  /-- RETI (R263): Microword RETI returns from a handler and completes its source. -/
  | uReti (c : Fin 4) (ue : Bool)
  /-- EI (R246): Microword EI sets IE. -/
  | uEi (c : Fin 4) (ue : Bool)
  /-- DI (R246): Microword DI clears IE. -/
  | uDi (c : Fin 4) (ue : Bool)
  /-- LDLC (R246): Microword LDLC loads the loop counter. -/
  | uLdlc (c : Fin 4) (ue : Bool)
  /-- SETF (R246): Microword SETF sets and clears user flags. -/
  | uSetf (c : Fin 4) (ue : Bool)
  /-- FAULT (R246): Microword FAULT raises a software fault with a code. -/
  | uFault (c : Fin 4) (ue : Bool)
  /-- ADD (R246): Microword ALU.ADD adds. -/
  | uAdd (c : Fin 4) (ue : Bool)
  /-- ADC (R246): Microword ALU.ADC adds with carry. -/
  | uAdc (c : Fin 4) (ue : Bool)
  /-- SUB (R246): Microword ALU.SUB subtracts. -/
  | uSub (c : Fin 4) (ue : Bool)
  /-- SBC (R246): Microword ALU.SBC subtracts with borrow. -/
  | uSbc (c : Fin 4) (ue : Bool)
  /-- AND (R246): Microword ALU.AND. -/
  | uAnd (c : Fin 4) (ue : Bool)
  /-- OR (R246): Microword ALU.OR. -/
  | uOr (c : Fin 4) (ue : Bool)
  /-- XOR (R246): Microword ALU.XOR. -/
  | uXor (c : Fin 4) (ue : Bool)
  /-- ANDN (R246): Microword ALU.ANDN. -/
  | uAndn (c : Fin 4) (ue : Bool)
  /-- MIN (R246): Microword ALU.MIN, signed minimum. -/
  | uMin (c : Fin 4) (ue : Bool)
  /-- MAX (R246): Microword ALU.MAX, signed maximum. -/
  | uMax (c : Fin 4) (ue : Bool)
  /-- MINU (R246): Microword ALU.MINU, unsigned minimum. -/
  | uMinu (c : Fin 4) (ue : Bool)
  /-- MAXU (R246): Microword ALU.MAXU, unsigned maximum. -/
  | uMaxu (c : Fin 4) (ue : Bool)
  /-- ADDSAT (R246): Microword ALU.ADDSAT, saturating add. -/
  | uAddsat (c : Fin 4) (ue : Bool)
  /-- SUBSAT (R246): Microword ALU.SUBSAT, saturating subtract. -/
  | uSubsat (c : Fin 4) (ue : Bool)
  /-- CMP (R246): Microword ALU.CMP sets flags from a subtraction. -/
  | uCmp (c : Fin 4) (ue : Bool)
  /-- TST (R246): Microword ALU.TST sets flags from an AND. -/
  | uTst (c : Fin 4) (ue : Bool)
  /-- SHL (R246): Microword SHIFT.SHL. -/
  | uShl (c : Fin 4) (ue : Bool)
  /-- SHR (R246): Microword SHIFT.SHR. -/
  | uShr (c : Fin 4) (ue : Bool)
  /-- SAR (R246): Microword SHIFT.SAR. -/
  | uSar (c : Fin 4) (ue : Bool)
  /-- ROL (R246): Microword SHIFT.ROL. -/
  | uRol (c : Fin 4) (ue : Bool)
  /-- EXT (R246): Microword SHIFT.EXT extracts a bit field. -/
  | uExt (c : Fin 4) (ue : Bool)
  /-- INS (R246): Microword SHIFT.INS inserts a bit field. -/
  | uIns (c : Fin 4) (ue : Bool)
  /-- CLZ (R246): Microword SHIFT.CLZ counts leading zeros. -/
  | uClz (c : Fin 4) (ue : Bool)
  /-- POPC (R246): Microword SHIFT.POPC counts set bits. -/
  | uPopc (c : Fin 4) (ue : Bool)
  /-- MULL (R246): Microword MUL.MULL, low 64 bits of a product. -/
  | uMull (c : Fin 4) (ue : Bool)
  /-- MULHU (R246): Microword MUL.MULHU, unsigned high product. -/
  | uMulhu (c : Fin 4) (ue : Bool)
  /-- MULHS (R246): Microword MUL.MULHS, signed high product. -/
  | uMulhs (c : Fin 4) (ue : Bool)
  /-- TADD (R246): Microword TIME.TADD adds time registers. -/
  | uTadd (c : Fin 4) (ue : Bool)
  /-- TSUB (R246): Microword TIME.TSUB subtracts time registers. -/
  | uTsub (c : Fin 4) (ue : Bool)
  /-- TADDI (R246): Microword TIME.TADDI adds a sign-extended operand to a time register. -/
  | uTaddi (c : Fin 4) (ue : Bool)
  /-- TDIFF (R246): Microword TIME.TDIFF writes a clamped time difference to a G register. -/
  | uTdiff (c : Fin 4) (ue : Bool)
  /-- TCMP (R246): Microword TIME.TCMP compares time registers. -/
  | uTcmp (c : Fin 4) (ue : Bool)
  /-- TLD (R252): Microword TIME.TLD loads the DTC at the issue edge. -/
  | uTld (c : Fin 4) (ue : Bool)
  /-- TSET (R246): Microword TIME.TSET builds a time register from G registers. -/
  | uTset (c : Fin 4) (ue : Bool)
  /-- TLOW (R246): Microword TIME.TLOW reads the low 64 bits of a time register. -/
  | uTlow (c : Fin 4) (ue : Bool)
  /-- THIGH (R246): Microword TIME.THIGH reads the high 16 bits of a time register. -/
  | uThigh (c : Fin 4) (ue : Bool)
  /-- TMOV (R246): Microword TIME.TMOV copies a time register. -/
  | uTmov (c : Fin 4) (ue : Bool)
  /-- MOVI (R246): Microword MOVE.MOVI loads an immediate. -/
  | uMovi (c : Fin 4) (ue : Bool)
  /-- MOV (R246): Microword MOVE.MOV copies a G register. -/
  | uMov (c : Fin 4) (ue : Bool)
  /-- RDSPEC (R243): Microword MOVE.RDSPEC reads a special register. -/
  | uRdspec (c : Fin 4) (ue : Bool)
  /-- WRSPEC (R243): Microword MOVE.WRSPEC writes LC or FLAGS. -/
  | uWrspec (c : Fin 4) (ue : Bool)
  /-- TAG_POP (R254): Microword TAG.POP removes the oldest tag-input word with its full time. -/
  | uTagPop (c : Fin 4) (ue : Bool)
  /-- TAG_PEEK (R254): Microword TAG.PEEK reads the oldest tag-input word without removing it. -/
  | uTagPeek (c : Fin 4) (ue : Bool)
  /-- TAG_LEVEL (R254): Microword TAG.LEVEL returns the number of words held. -/
  | uTagLevel (c : Fin 4) (ue : Bool)
  /-- TAG_CLRLOSS (R254): Microword TAG.CLRLOSS clears the tag-input overflow. -/
  | uTagClrloss (c : Fin 4) (ue : Bool)
  /-- EDGE_PUSH (R255): Microword EDGE.PUSH pushes a descriptor into a channel's edge queue and sets flags from the outcome. -/
  | uEdgePush (c : Fin 4) (ue : Bool)
  /-- EDGE_QLEVEL (R255): Microword EDGE.QLEVEL returns an edge queue's level. -/
  | uEdgeQlevel (c : Fin 4) (ue : Bool)
  /-- IO_RD (R256): Microword IO.RD reads a cluster, channel or timer register, stalling. -/
  | uIoRd (c : Fin 4) (ue : Bool)
  /-- IO_WR (R257): Microword IO.WR writes an allowed register or faults with IO_DENIED. -/
  | uIoWr (c : Fin 4) (ue : Bool)
  /-- BANK_LD (R259): Microword BANK.LD loads a word from an owned bank. -/
  | uBankLd (c : Fin 4) (ue : Bool) (e : Ecc)
  /-- BANK_ST (R259): Microword BANK.ST stores a word to an owned bank. -/
  | uBankSt (c : Fin 4) (ue : Bool) (e : Ecc)
  /-- BANK_ADD (R332): Microword BANK.ADD performs an atomic add in the bank's add mode. -/
  | uBankAdd (c : Fin 4) (ue : Bool) (e : Ecc)
  /-- BANK_SWAP (R332): Microword BANK.SWAP performs an atomic swap. -/
  | uBankSwap (c : Fin 4) (ue : Bool) (e : Ecc)
  /-- SIG (R246): Microword EVENT.SIG raises a software source of the microengine. -/
  | uSig (c : Fin 4) (ue : Bool)
  /-- EVCLR (R260): Microword EVENT.EVCLR clears one event latch. -/
  | uEvclr (c : Fin 4) (ue : Bool)
  /-- EVCLRM (R260): Microword EVENT.EVCLRM clears event latches by mask. -/
  | uEvclrm (c : Fin 4) (ue : Bool)
  /-- WAIT (R251): Microword WAIT holds the microengine until its condition holds or its timeout expires. -/
  | uWait (c : Fin 4) (ue : Bool)
  /-- WAIT_CONDITION_MET (R251): The condition of a waiting WAIT becomes true and the next microword issues. -/
  | waitConditionMet (c : Fin 4)
  /-- WAIT_TIMEOUT (R251): The timeout of a WAIT expires and the microword at TARGET issues. -/
  | waitTimeout (c : Fin 4)
  /-- JUMP (R248): Next-address form JUMP goes to TARGET when the condition holds. -/
  | uJump (c : Fin 4) (ue : Bool)
  /-- CALL (R249): Next-address form CALL pushes a CALL entry and goes to TARGET. -/
  | uCall (c : Fin 4) (ue : Bool)
  /-- RET (R249): Next-address form RET pops a CALL entry and returns. -/
  | uRet (c : Fin 4) (ue : Bool)
  /-- LOOP (R248): Next-address form LOOP decrements LC and branches while it is non-zero. -/
  | uLoop (c : Fin 4) (ue : Bool)
  /-- DISPATCH (R248): Next-address form DISPATCH jumps to TARGET plus a register value mod 16. -/
  | uDispatch (c : Fin 4) (ue : Bool)
  /-- END (R280): Next-address form END ends the task and writes TARGET to RESUME. -/
  | uEnd (c : Fin 4) (ue : Bool)
  /-- FAST_ENTRY (R262): A pending fast-class source that meets the entry conditions is entered with the fast bank. -/
  | fastEntry (c : Fin 4)
  /-- NORMAL_ENTRY (R263): A pending normal-class source that meets the entry conditions is entered, pushing an INT entry. -/
  | normalEntry (c : Fin 4)
  /-- HANDLER_LONG (R264): A handler still running FAST_MAX or NORM_MAX cycles after its decision raises a fault. -/
  | handlerLong (c : Fin 4)
  /-- BUDGET_CUT (R281): An ENFORCE task whose budget count reaches 0 is cut and the next task is dispatched. -/
  | budgetCut (c : Fin 4)
  /-- GUARD_BAND (R54): The guard band of a tick begins; no microword issues and the next tick's lists are built. -/
  | guardBand (c : Fin 4)
  /-- TICK_BOUNDARY (R52): A tick boundary passes; pending boundary actions take effect, records are emitted and tasks are dispatched. -/
  | tickBoundary
  /-- MS_PUBLISH (R153): A closing accumulator set is published into the result block in a later guard band. -/
  | msPublish (n : Fin 512)
  /-- QD_SNAPSHOT_PUBLISH (R232): The decoder's snapshot at a boundary is published in a later guard band. -/
  | qdSnapshotPublish (d : Fin 32)
  /-- MIRROR_WRITE (R344): At each mirror boundary the status mirror is snapshotted and written to host memory. -/
  | mirrorWrite
  /-- INPUT_TRANSITION (R85): A comparator transition is latched by a free interpolator or missed through dead time. -/
  | inputTransition (n : Fin 128) (rising : Bool) (dt : Nat)
  /-- CONVERSION_COMPLETE (R87): An interpolator's code is corrected into a tag, qualified and written into the channel FIFO. -/
  | conversionComplete (n : Fin 128) (code : Fin 160)
  /-- QUALIFIER_RELEASE (R82): A held leading edge is released once the DTC passes its time plus MINPW. -/
  | qualifierRelease (n : Fin 128)
  /-- LANE_PICKUP (R89): A pipeline lane picks up a tag or LOSS record from one of its channels. -/
  | lanePickup (c : Fin 4) (l : Fin 4)
  /-- MERGE_RELEASE (R19): The cluster merge releases a word in time order and distributes it to its consumers. -/
  | mergeRelease (c : Fin 4)
  /-- TAG_IMPORT (R21): A tag from another cluster's merge enters the importing cluster's merge. -/
  | tagImport (c : Fin 4)
  /-- HIST_ADD (R167): A queued histogram increment is issued to its bank as an atomic add. -/
  | histAdd (n : Fin 512) (e : Ecc)
  /-- QD_TAG_HANDLE (R220): The decoder handles a quad tag after the hold time, counting, detecting glitches, coincidences, index and strobe. -/
  | qdTagHandle (d : Fin 32)
  /-- BIN_TABLE_UPDATE (R120): After 2^20 hits an interpolator's update is computed and accepted or rejected. -/
  | binTableUpdate (n : Fin 128) (i1 : Bool) (hits : Hits)
  /-- TABLE_SWAP (R121): An accepted table becomes active once no code awaits correction. -/
  | tableSwap (n : Fin 128) (i1 : Bool)
  /-- CAL_STARVED (R123): CAL_STARVE passes without an accepted update and the interpolator is starved. -/
  | calStarved (n : Fin 128) (i1 : Bool)
  /-- STEAL_OVERDUE (R124): A channel still starved after 2 x CAL_STARVE becomes STALE. -/
  | stealOverdue (n : Fin 128)
  /-- CAL_CYCLE_START (R130): The planned interval passes and a calibration cycle measures the channels with inputs disabled. -/
  | calCycleStart
  /-- DEFERRED_CAL_MEASURE (R130): A deferred measurement starts at the boundary that disables a channel's input. -/
  | deferredCalMeasure (n : Fin 128)
  /-- CAL_MEASURE_DONE (R127): An input or output offset measurement ends and is accepted or fails the channel. -/
  | calMeasureDone (n : Fin 128) (out : Bool) (tags : List Int)
  /-- TEMP_TERM_UPDATE (R129): Every 1 ms firmware updates the temperature terms for the next boundary. -/
  | tempTermUpdate
  /-- AGEING_MEASURE (R134): Once per hour the ageing rings are counted and the projected skew is recomputed. -/
  | ageingMeasure (rings : List (W32 × W32))
  /-- REPLAN (R136): At a completed cycle or every 24 h firmware re-plans the interval and margins. -/
  | replan
  /-- BASELINE_CLEAR (R141): At the first boundary with 8 cycles and 24 h recorded, BASELINE clears and the first re-plan runs. -/
  | baselineClear
  /-- TDR_CHANNEL_DONE (R306): A channel's TDR measurement ends with its outcome and the next named channel starts. -/
  | tdrChannelDone (n : Fin 128) (r : TdrResult)
  /-- MONITOR_READING (R313): A monitor is read and faults or clears after consecutive readings. -/
  | monitorReading (k : Fin 52) (v : Int) (invalid : Bool)
  /-- THERMAL_TRIP (R315): A sensor at 125 C for 1 ms makes every driver high-impedance. -/
  | thermalTrip (k : Fin 12)
  /-- REF_WINDOW (R486): A 1 ms reference window ends and is classed, advancing the reference state. -/
  | refWindow (w : RefWin)
  /-- REF_MISSING_PULSE (R34): No REFIN edge for 1 us declares the reference absent. -/
  | refMissingPulse
  /-- REF_PHASE_ERROR (R36): The PLL phase error exceeds 10 ps and the lock is lost. -/
  | refPhaseError
  /-- PLL_ACQUIRE_START (R35): Within 1 ms of DETECTING the PLL starts to acquire and the state becomes LOCKING. -/
  | pllAcquireStart
  /-- PLL_SLEW_DONE (R38): The PLL has removed the frequency difference and SLEW clears. -/
  | pllSlewDone
  /-- REF_LOCKED (R35): Phase error below 2 ps for 1 ms after the slew makes the state LOCKED. -/
  | refLocked
  /-- REF_LOCK_TIMEOUT (R35): No lock within 10 ms after the slew returns to ABSENT or HOLDOVER. -/
  | refLockTimeout
  /-- PPS_EDGE (R47): A PPSIN edge is stamped, qualified, checked against its window and used for steering. -/
  | ppsEdge (dt : Nat) (high : Bool)
  /-- PPS_LOSS (R48): No qualified PPS edge for 1.1 s makes the state ABSENT. -/
  | ppsLoss
  /-- PHASE_SLEW_DONE (R51): The phase shifter finishes removing a residual and SLEWING clears. -/
  | phaseSlewDone
  /-- DTC_WRAP (R42): The DTC wraps modulo 2^80, setting EPOCH_WRAP and incrementing WRAPS. -/
  | dtcWrap
  /-- PPSOUT_PULSE (R58): PPSOUT rises at a second mark plus its offset for its width. -/
  | ppsoutPulse
  /-- BX_PORT_UP (R63): A Basxus port completes training and receives its device number. -/
  | bxPortUp (up : Bool) (bad : Nat)
  /-- BX_LEADER_TIMEOUT (R63): A BX_UP port with no partner within 10 ms makes its device the leader. -/
  | bxLeaderTimeout (rx : BxRx)
  /-- BX_PORT_LOST (R64): A port with no valid block for 1 us or 64 failed blocks returns to TRAINING. -/
  | bxPortLost (up : Bool) (failed : Nat)
  /-- BX_CAP_RECEIVED (R65): A partner capability word is received and checked. -/
  | bxCapReceived (up : Bool) (cap : W64) (rx : BxRx)
  /-- BX_TIME_FRAME (R66): A time-transfer frame pair is time-stamped for the offset computation. -/
  | bxTimeFrame (up : Bool) (t : BxTimes) (bad : Nat)
  /-- BX_OFFSET_UPDATE (R67): The one-second average of theta is written and drives alignment state changes. -/
  | bxOffsetUpdate (up : Bool)
  /-- BX_TAG_FRAME (R72): Forwarded tags from a partner are delivered into the remote stream or counted. -/
  | bxTagFrame (up : Bool) (src : Fin 16) (words : List W64)
  /-- BX_CONTROL_FRAME (R71): A control frame from the leader carries a time-scale command or anchor to a follower. -/
  | bxControlFrame (f : BxCtl)
  /-- BRAKE_INPUT_CHANGE (R210): A brake input changes raw level; a short activity counts as a glitch. -/
  | brakeInputChange (b : Fin 8) (dt : Nat)
  /-- BRAKE_TRIP (R212): A brake becomes debounced active and holds its guarded channels high-impedance. -/
  | brakeTrip (b : Fin 8)
  /-- BRAKE_RESUME (R214): A held channel with RESUME_PEND resumes driving at S. -/
  | brakeResume (n : Fin 128)
  /-- EDGE_COMPUTE (R173): At T minus 112 CCLK the sequencer computes the launch, applying pair, short-pulse and width rules. -/
  | edgeCompute (n : Fin 128)
  /-- EDGE_LAUNCH (R173): A fine-delay unit releases the edge at its launch time. -/
  | edgeLaunch (n : Fin 128)
  /-- OUTPUT_EVENT (R194): A channel output event is raised at its time at the reference plane. -/
  | outputEvent (n : Fin 128)
  /-- PU_GENERATE (R184): The generation point reaches a pattern-unit period start or compare and produces edges. -/
  | puGenerate (n : Fin 128)
  /-- PU_HANDOVER (R189): The hand-over cycle copies written shadows into the active registers. -/
  | puHandover (n : Fin 128)
  /-- GPT_TOP_EVENT (R292): A timer count at TOP wraps or stops the timer and raises the TOP event. -/
  | gptTopEvent (n : Fin 32)
  /-- GPT_CMP_EVENT (R293): A count that makes CNT equal CMP raises the CMP event. -/
  | gptCmpEvent (n : Fin 32)
  /-- GPT_TRIGGER (R295): A TRIGA event counts or starts a timer, and a TRIGB event captures CNT. -/
  | gptTrigger (n : Fin 32)
  /-- DIC_DELIVERY (R394): The DIC selects the highest pending source and hands its vector to MC or SEC. -/
  | dicDelivery (sec : Bool)
  /-- COAL_TIMEOUT (R392): COAL_TIME expires after the first held arrival and the source becomes pending. -/
  | coalTimeout (n : Fin 256)
  /-- ERRLOG_WRITE (R399): The log writer takes a report from the FIFO and writes an entry. -/
  | errlogWrite
  /-- DMA_DESCRIPTOR_FETCH (R360): A ring-mode channel fetches and checks the next descriptor between HEAD and TAIL. -/
  | dmaDescriptorFetch (k : Fin 16) (f : Fetch)
  /-- DMA_MOVE (R351): A channel moves ring words or block data and completes descriptors with status and OWN write-back. -/
  | dmaMove (k : Fin 16) (n : Nat) (e : List (Nat × Ecc)) (h : HostRd)
  /-- FLUSH_TIMEOUT (R351): FLUSH_T boundaries after its first word complete the descriptor PARTIAL. -/
  | flushTimeout (k : Fin 16)
  /-- COPY_STEP (R363): A COPY channel copies bank words until its count reaches 0. -/
  | copyStep (k : Fin 16) (e : Ecc)
  /-- HANDOVER_DRAIN_END (R326): The old owner's accesses drain and HANDOVER returns to 0, serving held accesses. -/
  | handoverDrainEnd (b : Fin 64)
  /-- BANK_CLEAR_DONE (R338): A BANK_ASSIGN clear finishes zeroing the bank and the command completes. -/
  | bankClearDone (b : Fin 64)
  /-- PATROL_SCRUB (R330): The patrol scrub reads a word and rewrites it if it holds a single-bit error. -/
  | patrolScrub (b : Fin 64) (e : Ecc)
  /-- RETAIN_COMMIT (R442): At the commit edge clusters gate, banks retain, MCLK stops and RETAIN is entered. -/
  | retainCommit
  /-- WAKE (R444): A wake source in RETAIN restores the banks, resumes the MC and ungates clusters. -/
  | wake
  /-- POWER_ON_RESET (R431): Internal power-on reset is released after all rails are in window and start-up runs. -/
  | powerOnReset (dt : Nat) (b : Boot)
  /-- RAIL_EXCURSION (R432): A watched rail leaving its POR window for 2 us asserts power-on reset. -/
  | railExcursion
  /-- POR_N (R433): A low on POR_N of 1 us or more asserts power-on reset. -/
  | porN
  /-- READY (R437): Start-up completes, counters are enabled and SYS_STATUS.READY is set. -/
  | ready (dt : Nat) (cut : Option HistCut) (sealOk : Bool)
  /-- MC_WATCHDOG (R436): The MC watchdog expires and restarts the management core. -/
  | mcWatchdog
  /-- HOST_RESET (R364): FLR, hot reset, PERST or data-link loss resets the host interface, mailboxes and queues. -/
  | hostReset (linkDown : Bool)
  /-- PCIE_RETRAIN (R340): The PCIe link retrains and the count increments. -/
  | pcieRetrain (width : Nat) (speed : Nat)
  /-- BACKUP_SWITCH (R447): The backup domain switches between VCC and VBAT. -/
  | backupSwitch (vbat : Bool)
  /-- BACKUP_DOMAIN_LOST (R448): The backup supply falls below 1.5 V and the calendar clock, key store and latches are lost. -/
  | backupDomainLost
  /-- XTAL_FAIL (R450): No XCLK edge for 1 ms sets XTAL_FAIL and moves the tamper sampler to the internal oscillator. -/
  | xtalFail
  /-- RTC_TRIM_MEASURE (R450): After at least 1,000 s slaved, firmware writes the crystal trim. -/
  | rtcTrimMeasure (trim : Int)
  /-- RTC_OFFSET_APPLY (R449): A pending UTC offset takes effect at the TAI second in RTC_OFS_AT. -/
  | rtcOffsetApply
  /-- TAMPER_DETECT (R426): A tamper sensor becomes active and zeroises or logs. -/
  | tamperDetect (k : Fin 8) (on : Bool)
  /-- SESSION_TIMEOUT (R413): A session with no command for 600 s closes. -/
  | sessionTimeout (mb7 : Bool)
  /-- LOCKOUT_EXPIRE (R413): A key index locked after five failed OPENs is released after 10 s. -/
  | lockoutExpire (k : Nat)
  /-- DEBOUNCED_INACTIVE (R210): A tripped brake input that has been raw inactive at DEB consecutive samples becomes debounced inactive and its ACTIVE bit clears. -/
  | debouncedInactive (b : Fin 8)
  /-- QUIET_TIME_MET (R214): A brake input that has stayed raw inactive for SYS_BRK_QUIET sets its QUIET_OK bit. -/
  | quietTimeMet (b : Fin 8)
  /-- IN_AGE_PASSED (R131): The calendar age of a channel's accepted input or output measurement passes the planned interval, so the channel becomes STALE with cause IN_AGE or OUT_AGE. -/
  | inAgePassed (n : Fin 128) (out : Bool)
  /-- SECOND_MARK (R453): The DTC reaches a second mark, and an armed TS_RTC_SET AT_NEXT_MARK takes effect there. -/
  | secondMark
  /-- BUS_MASTER_ENABLE (R340): The host sets or clears Bus Master Enable in configuration space, which SYS_PCIE_STATUS.BME reports and which gates mirror writes and DMA requests. -/
  | busMasterEnable (en : Bool)
  /-- DATA_LINK_UP (R438): PCI Express link training completes and SYS_PCIE_STATUS.DL_UP becomes 1, raising source 239. -/
  | dataLinkUp (width : Nat) (speed : Nat)
  /-- MC_RESTART_COMPLETE (R436): The management core finishes its restart, within 50 ms, and commands are taken again. -/
  | mcRestartComplete
  /-- WAKE_SCRUB_DONE (R335): A retained bank's wake scrub finishes and its BK_STATUS.SCRUB and BK_SCRUB bits clear. -/
  | wakeScrubDone (b : Fin 64) (e : List (Nat × Ecc))
  /-- JTAG_INSTRUCTION (R470): A JTAG instruction update to or from EXTEST, CLAMP or HIGHZ holds internal power-on reset, or releases it and reruns start-up from the hold phase. -/
  | jtagInstruction (k : Nat)
  /-- COUNTER_WRAP (R402): A performance counter without CHAIN wraps from 0xFFFF_FFFF to 0, sets its PC_OVF bit and raises source 241. -/
  | counterWrap (n : Fin 64)
deriving DecidableEq, Repr

end Sys2Proof
end

