-- ==== Sys2Proof/Decode.lean ====
section
/-! DEFINITION. Words that spell a command: the table of operations and events gives its rows no bits. -/
namespace Sys2Proof

/-- The command a word spells by the table's bits: none, since no row has bits. -/
def decodeTableWord (_nbits _w : Nat) : Option Instr := none

end Sys2Proof
end

