-- ==== Sys2Proof/Machine/Mem.lean ====
section
/-! DEFINITION. Bank memory: byte cells with strictly rising addresses, none equal to 0, which is what an unlisted byte reads as. -/
namespace Sys2Proof.Machine

/-- Every address of the list is above a bound, the addresses rise strictly, and no cell holds 0. -/
def Mem.wfFrom (lo : Nat) : List Host.Cell → Bool
  | [] => true
  | (a, b) :: m => decide (lo ≤ a) && decide (b ≠ 0) && Mem.wfFrom (a + 1) m

/-- The canonical form. -/
def Mem.wf (m : List Host.Cell) : Bool := Mem.wfFrom 0 m

/-- The byte at an address. -/
def Mem.read : List Host.Cell → Nat → Byte
  | [], _ => 0
  | (a, b) :: m, x => if x = a then b else if x < a then 0 else Mem.read m x

/-- A byte written; writing 0 removes the cell. -/
def Mem.write : List Host.Cell → Nat → Byte → List Host.Cell
  | [], x, v => if v = 0 then [] else [(x, v)]
  | (a, b) :: m, x, v =>
    if x = a then (if v = 0 then m else (x, v) :: m)
    else if x < a then (if v = 0 then (a, b) :: m else (x, v) :: (a, b) :: m)
    else (a, b) :: Mem.write m x v

/-- The bytes from `lo` up to, but not including, `hi` zeroed. -/
def Mem.clear : List Host.Cell → Nat → Nat → List Host.Cell
  | [], _, _ => []
  | (a, b) :: m, lo, hi => if lo ≤ a ∧ a < hi then Mem.clear m lo hi else (a, b) :: Mem.clear m lo hi

/-- Consecutive bytes written from an address. -/
def Mem.writeList : List Host.Cell → Nat → List Byte → List Host.Cell
  | m, _, [] => m
  | m, a, b :: l => Mem.writeList (Mem.write m a b) (a + 1) l

/-- Consecutive bytes read from an address. -/
def Mem.readList (m : List Host.Cell) (a : Nat) : Nat → List Byte
  | 0 => []
  | n + 1 => Mem.read m a :: Mem.readList m (a + 1) n

/-- Number of a list of bytes, least significant first. -/
def bytesNat : List Byte → Nat
  | [] => 0
  | b :: l => b.toNat + 256 * bytesNat l

/-- The n bytes of a number, least significant first. -/
def natBytes : Nat → Nat → List Byte
  | 0, _ => []
  | n + 1, v => BitVec.ofNat 8 v :: natBytes n (v / 256)

/-- A 64-bit bank word at a word address (R321). -/
def Mem.word (m : List Host.Cell) (w : Nat) : W64 := BitVec.ofNat 64 (bytesNat (Mem.readList m (8 * w) 8))

/-- A 64-bit bank word written. -/
def Mem.setWord (m : List Host.Cell) (w : Nat) (v : W64) : List Host.Cell :=
  Mem.writeList m (8 * w) (natBytes 8 v.toNat)

end Sys2Proof.Machine
end

