-- ==== Sys2Proof/Config.lean ====
section
/-! DEFINITION. What an implementation or a die fixes, and the values the spec leaves open: constants without a body. -/
namespace Sys2Proof

/-- Grade of the part: true for K4128-E (R1, R481). Free. -/
opaque Config.gradeE : Bool

/-- Serial number of the part (R379). Free. -/
opaque Config.serial : W64

/-- SVN_MIN as OTP holds it (R422, Table 19-7). Free. -/
opaque Config.svnMin : Nat

/-- SHA-384 of the OTP contents (R139, R143). Free. -/
opaque Config.otpHash : BitVec 384

/-- Factory ring counts of a cluster, stressed and unstressed, as OTP holds their ratio (R134, R139). Free. -/
opaque Config.ringRatio : Nat → Nat × Nat

/-- Line coefficient of an interpolator in fs per K, from OTP (R125, R139). Free. -/
opaque Config.lineCoef : Nat → Bool → Int

/-- Branch delay of the pulse tree to a channel in 1/16 tq, with its factory residual, from OTP (R127, R139). Free. -/
opaque Config.branch : Nat → Int

/-- δ in 0.001 ppm that the fit a·tᵐ of a cluster's hourly values gives at an operating hour (R136: no method of fitting is
given). Free. -/
opaque Config.degFit : List (Nat × Nat) → Nat → Nat

/-- The fit s0 + b·δ of accepted terms in 1/16 tq against δ in ppm (R136): s0 in 1/16 tq, b in fs per 1,000 ppm. Free. -/
opaque Config.termFit : List (Int × Nat) → Int × Int

/-- The expanded uncertainty u in fs of that fit over a change of δ in 0.001 ppm (R136). Free. -/
opaque Config.termUnc : List (Int × Nat) → Nat → Nat

/-- VALUE of MEAS_READ for a gate without the items its formula needs (R157, R159, R160). Free. -/
opaque Config.measOpen : Nat → Int

/-- Result of SHIFT.EXT and SHIFT.INS for a field length outside 1 to 64, which the spec does not state (R246). Free. -/
opaque Config.fieldOpen : W64 → Nat → Nat → W64

/-- Compression coefficient C_ch of a channel, from OTP (R178). Free. -/
opaque Config.compress : Nat → Nat

/-- TS_PPS_OFFSET for an offset outside its 32 signed bits, which the spec does not state (R47, Table 2-6). Free. -/
opaque Config.ppsOffsetOpen : Int → W32

/-- Offset of the internal oscillator against the clock recovered at BX_UP, in 0.001 ppm, at an instant (R37, R38). Free. -/
opaque Config.bxOffset : Nat → Int

/-- The steering loop of STEER (R46): the next steering value and second state, from the offset of an edge in tq and the
present two. The spec gives its order and time constant and no gains. Free. -/
opaque Config.steerLoop : Int → Int → Int → Int × Int

/-- A debug instruction leaves the management core halted, at an instant (R297, R428: the debug port's own commands are not in the
spec). Free. -/
opaque Config.debugHalts : Nat → Nat → Bool

/-- Counts of XCLK up to an instant: the crystal's own frequency and phase (R449, R450). Free. -/
opaque Config.xclk : Nat → Nat

/-- XCLK runs again at an instant, after it has failed (R450). Free. -/
opaque Config.xclkRuns : Nat → Bool

/-- Outcome of a self-test of the module that a plain register write of DB1 starts (R429). Free. -/
opaque Config.selfTest : Nat → Bool

/-! Cryptography and images. The spec names the standards (Table 16-2) and gives no tables: the functions are constants, and
no statement rests on their values. A 384-bit value holds digest byte i in bits [8i + 7:8i] (R273). -/

/-- SHA-384 of bytes. Free. -/
opaque Config.sha384 : List Byte → BitVec 384

/-- HMAC-SHA-384 under a key. Free. -/
opaque Config.hmac384 : BitVec 384 → List Byte → BitVec 384

/-- The n-th request of the DRBG (R410). Free. -/
opaque Config.drbg : Nat → BitVec 384

/-- Ephemeral public key, 25 words (97 bytes and three of padding), of the n-th DRBG request (R412). Free. -/
opaque Config.ephemeral : Nat → List W32

/-- Session key from the shared secret of the n-th request and the host's ephemeral key, with a context (R412). Free. -/
opaque Config.sessionKey : Nat → List W32 → BitVec 384 → BitVec 384

/-- A signature of 24 words verifies under a public key of 25 words over a digest (ECDSA P-384). Free. -/
opaque Config.verify : List W32 → BitVec 384 → List W32 → Bool

/-- The 24 words of a signature by the DIK over a digest, made with the n-th DRBG request (R418). Free. -/
opaque Config.sign : BitVec 384 → Nat → List W32

/-- Bytes of a certificate: false the DIK's, true the device CA's (R416). Free. -/
opaque Config.cert : Bool → List Byte

/-- The words of a firmware image carry a signature of the Glonos firmware key that verifies (R421). Free. -/
opaque Config.imageOk : List W32 → Bool

/-- SVN and version word in the header of an image (R421: the spec does not place them). Free. -/
opaque Config.imageSvn : List W32 → Nat
opaque Config.imageVersion : List W32 → W32

/-- Number of bytes of header and body of an image, which its hash covers (R421, R422). Free. -/
opaque Config.imageLen : List W32 → Nat

/-- A debug token: its signature over the words, and what it binds: serial number, level, nonce and expiry (R428). Free. -/
opaque Config.tokenOk : List W32 → Bool
opaque Config.tokenSerial : List W32 → W64
opaque Config.tokenLevel : List W32 → Nat
opaque Config.tokenNonce : List W32 → BitVec 384
opaque Config.tokenExpiry : List W32 → Nat

/-- Lead and tail of an interpolator in 1/256 tq, as OTP holds them (R139, R140). Free. -/
opaque Config.leadTail : Nat → Bool → Nat × Nat

/-- OTP terms of a channel: injector term, output term, tandem offset, input and output package terms in 1/16 tq, and
temperature coefficients in fs per K (R139). Free. -/
opaque Config.otpTerms : Nat → Int × Int × Int × Int × Int × Int × Int

/-- Sensor reading in 1/16 °C at the factory calibration of a channel's terms (R129); the spec does not place it. Free. -/
opaque Config.otpTemp : Nat → Int

end Sys2Proof
end

