-- ==== Sys2Proof/Machine/Bits.lean ====
section
/-! DEFINITION. Bit fields, saturating counters, times in words and indexed vectors: the plain helpers every family uses. -/
namespace Sys2Proof.Machine

/-- Field [hi:lo] of a word (R5's notation). -/
def bits (w : W32) (hi lo : Nat) : Nat := (w.toNat / 2 ^ lo) % 2 ^ (hi + 1 - lo)

/-- Bit k of a word. -/
def bit (w : W32) (k : Nat) : Bool := w.toNat.testBit k

/-- Field [hi:lo] of a 64-bit word. -/
def bits64 (w : W64) (hi lo : Nat) : Nat := (w.toNat / 2 ^ lo) % 2 ^ (hi + 1 - lo)

/-- Bit k of a 64-bit word. -/
def bit64 (w : W64) (k : Nat) : Bool := w.toNat.testBit k

/-- A Boolean as a one-bit field. -/
def b2n (b : Bool) : Nat := if b then 1 else 0

/-- A field of `width` bits whose lowest bit is `lo`. -/
def put (lo width v : Nat) : Nat := (v % 2 ^ width) * 2 ^ lo

/-- A 32-bit word from the sum of its disjoint fields. -/
def w32 (n : Nat) : W32 := BitVec.ofNat 32 n

/-- The two's-complement value of an n-bit field. -/
def signed (n v : Nat) : Int :=
  if v % 2 ^ n < 2 ^ (n - 1) then (v % 2 ^ n : Nat) else (v % 2 ^ n : Nat) - (2 ^ n : Nat)

/-- The n-bit two's-complement field of an integer. -/
def unsigned (n : Nat) (z : Int) : Nat := (z % (2 ^ n : Nat)).toNat

/-- Increment that stops at `top` (the saturating counters). -/
def satInc (top n : Nat) : Nat := if n < top then n + 1 else top

/-- Addition that stops at `top`. -/
def satAdd (top n k : Nat) : Nat := min top (n + k)

/-- Clamp an integer into a range. -/
def clampInt (lo hi z : Int) : Int := if z < lo then lo else if hi < z then hi else z

/-- The nearest integer to a quotient, halves away from zero. -/
def divNearest (a : Int) (b : Nat) : Int :=
  if 0 ≤ a then (2 * a + b) / (2 * b) else -((2 * (-a) + b) / (2 * b))

/-- The three words of an 80-bit time: bits [31:0], [63:32], [79:64] (R43). -/
def dtcWords (t : Nat) : List W32 :=
  [w32 (t % 2 ^ 32), w32 (t / 2 ^ 32 % 2 ^ 32), w32 (t / 2 ^ 64 % 2 ^ 16)]

/-- An 80-bit time from its three words. -/
def dtcOf (a b c : W32) : Nat := a.toNat + b.toNat * 2 ^ 32 + (c.toNat % 2 ^ 16) * 2 ^ 64

/-- Word k of a payload, counting from w1 (R376: words beyond LEN read as 0). -/
def pw (p : List W32) (k : Nat) : W32 := p.getD (k - 1) 0

/-- Element i of a vector, the index taken modulo its length. -/
def vget {α : Type} {n : Nat} [NeZero n] (v : Vector α n) (i : Nat) : α :=
  v[i % n]'(Nat.mod_lt _ (Nat.pos_of_ne_zero (NeZero.ne n)))

/-- A vector with element i (modulo its length) replaced. -/
def vset {α : Type} {n : Nat} [NeZero n] (v : Vector α n) (i : Nat) (a : α) : Vector α n :=
  v.set (i % n) a (Nat.mod_lt _ (Nat.pos_of_ne_zero (NeZero.ne n)))

/-- A vector with a function applied to element i. -/
def vmod {α : Type} {n : Nat} [NeZero n] (v : Vector α n) (i : Nat) (f : α → α) : Vector α n :=
  vset v i (f (vget v i))

/-- The indexes below n whose bit is 1 in a mask, in ascending order. -/
def maskIdx (n mask : Nat) : List Nat := (List.range n).filter (fun i => mask.testBit i)

/-- The mask of a list of indexes. -/
def idxMask (l : List Nat) : Nat := l.foldl (fun a i => a ||| 2 ^ i) 0

/-- Ceiling of a quotient. -/
def cdiv (a b : Nat) : Nat := (a + (b - 1)) / b

end Sys2Proof.Machine
end

