-- ==== Sys2Proof/Machine/StateChannel.lean ====
section
/-! DEFINITION. The state of one channel: input, calibration, output, pattern unit, pair and brake (chapters 3, 4, 6, 7). -/
namespace Sys2Proof.Machine

/-- A tag: its time (80 bits, R87), the same instant on the time scale that no step moves, its edge and its Q flag. -/
structure Tag where
  time : Nat
  phys : Int
  rising : Bool
  q : Bool
  /-- CH_LOSS_DEAD and CH_LOSS_BLANK at the latch of its edge: the losses that come before it -/
  dead : W32
  blank : W32
deriving DecidableEq, Repr

/-- A latched transition whose vernier code is awaited (R85). -/
structure Latch where
  /-- interpolator 1 took it -/
  interp1 : Bool
  /-- DTC (extended) of the latched TCLK edge, and the coarse phase -/
  tclk : Nat
  phase : Nat
  rising : Bool
  /-- instant of the latch, and what turned instants into extended time then -/
  phys : Nat
  off : Int
  /-- CH_LOSS_DEAD and CH_LOSS_BLANK at the latch -/
  dead : W32
  blank : W32
deriving DecidableEq, Repr

/-- An entry of the channel FIFO as the lane sees it: a tag, or a LOSS record that takes a pick-up slot (R101). -/
inductive FifoItem where
  | tag (t : Tag)
  | loss (cause count : Nat) (sort : Int) (dtc : Nat)
deriving DecidableEq, Repr

/-- A leading edge held by the qualifier (R82), and its minimum width. -/
structure Held where
  tag : Tag
  minpw : Nat
deriving DecidableEq, Repr

/-- The input half of a channel (chapter 3). -/
structure ChIn where
  configured : Bool
  qualPol : Bool
  /-- 1: 1 MΩ -/
  term : Bool
  /-- 0 rising, 1 falling, 2 both -/
  edge : Nat
  hys : Nat
  thr : Nat
  minpw : Nat
  en : Bool
  /-- instants of the last enabling and of the disabling after it (R107) -/
  enFrom : Int
  enTo : Option Int
  /-- transitions before this instant are blanked (R106) -/
  blankUntil : Nat
  /-- comparator output; none from power-up until the first transition shows it (R104) -/
  level : Option Bool
  /-- busy ends of the two interpolators, the one that took the previous edge, the one withheld in this tick -/
  busy : Vector Nat 2
  lastInterp : Option Bool
  withheld : Option Bool
  convs : List Latch
  /-- the previous tag of the channel (R88) -/
  lastTag : Option Tag
  hold : Option Held
  /-- edges that wait behind the held edge -/
  waiting : List Tag
  /-- instant at which the last hold that ran its length ended: words it kept back are awaited from there (R485) -/
  heldTo : Int
  /-- FIFO with the LOSS records that go before their tags, oldest first -/
  fifo : List FifoItem
  /-- highest level of a pick-up or a read since HWM was read, and the instant from which levels count (Table 3-11) -/
  hwm : Nat
  hwmFrom : Nat
  pendFifo : Nat
  pendDead : Nat
  pendBlank : Nat
  /-- the next accepted tag follows a FIFO_FULL drop (R98) -/
  afterDrop : Bool
  tagCnt : W64
  lossFifo : W32
  lossDead : W32
  lossBlank : W32
  qualCnt : W32
  deadMiss : Bool
  fifoOvf : Bool
deriving DecidableEq, Repr

def ChIn.reset : ChIn :=
  { configured := false, qualPol := false, term := false, edge := 0, hys := 0, thr := 0, minpw := 0, en := false,
    enFrom := 0, enTo := none, blankUntil := 0, level := none, busy := Vector.replicate 2 0, lastInterp := none,
    withheld := none, convs := [], lastTag := none, hold := none, waiting := [], heldTo := 0, fifo := [], hwm := 0, hwmFrom := 0, pendFifo := 0,
    pendDead := 0, pendBlank := 0, afterDrop := false, tagCnt := 0, lossFifo := 0, lossDead := 0, lossBlank := 0,
    qualCnt := 0, deadMiss := false, fifoOvf := false }

/-- Confidence values (R29, CH_STATUS.CONF). -/
inductive Conf where
  | provisional | nominal | stale | failed
deriving DecidableEq, Repr

/-- A table that has passed Table 4-2 and waits for its swap (R121). -/
structure NewTable where
  entries : List Int
  lead : Nat
  tail : Nat
deriving DecidableEq, Repr

/-- One interpolator's calibration (R116 to R125, CAL_INT, CAL_HITS). -/
structure Interp where
  /-- active bin table, 160 entries in 1/256 tq; empty before step 4 of start-up, where it reads 0 -/
  table : List Int
  lead : Nat
  tail : Nat
  next : Option NewTable
  rangeHit : Bool
  /-- a code 0 or 159 since the last accepted update: the STALE cause, which a read of RANGE_HIT leaves (R122) -/
  rangeStale : Bool
  rejected : Bool
  starved : Bool
  activeBank : Bool
  updCnt : Nat
  rejRun : Nat
  /-- updates accepted, and updates completed, since power-on or since the cluster last left gating -/
  accepted : Nat
  completed : Nat
  /-- hits of the present update, per code and mode, and in all (R118) -/
  hits : Hits
  /-- entries of the update computed last (R140) -/
  last : List Int
  /-- lead and tail at each cycle of the last 64, oldest first (R135) -/
  ltHist : List (Nat × Nat)
  /-- instant from which starvation counts, and the sensor reading at the last accepted update (R125) -/
  since : Nat
  tempAt : Int
deriving DecidableEq, Repr

/-- The counts of an update that begins. -/
def noHits : Hits := { nom := [], early := [], late := [], all := 0 }

def Interp.reset : Interp :=
  { table := [], lead := 0, tail := 0, next := none, rangeHit := false, rangeStale := false, rejected := false, starved := false,
    activeBank := false, updCnt := 0, rejRun := 0, accepted := 0, completed := 0, hits := noHits, last := [], ltHist := [], since := 0, tempAt := 0 }

/-- A measurement in progress on a channel (R127, R128). -/
structure CalMeas where
  /-- it belongs to a CAL_RUN; otherwise to a scheduled cycle -/
  run : Bool
  /-- instant of its start -/
  since : Nat
deriving DecidableEq, Repr

/-- An accepted term as the history records it (R135): the term and the tandem offset in 1/16 tq, its instant, the sensor
reading and the operating hours then. -/
structure TermRec where
  term : Int
  d1 : Int
  at_ : Nat
  temp : Int
  hours : Nat
deriving DecidableEq, Repr

/-- The accepted terms of a channel at a completed cycle, and its cluster's δ then (R135). -/
structure CycleRec where
  cycle : Nat
  deg : Nat
  inT : Option TermRec
  outT : Option TermRec
deriving DecidableEq, Repr

/-- Source of a cable term (ENV_CBL). -/
inductive CableSrc where
  | none | tdr | manual
deriving DecidableEq, Repr

/-- The calibration and deskew state of a channel (chapters 4 and 11). -/
structure ChCal where
  int0 : Interp
  int1 : Interp
  /-- tandem offset D1 in 1/16 tq -/
  d1 : Int
  /-- injector or internal and package terms in 1/16 tq, the cable term in tq, temperature terms in 1/2000 tq -/
  inTerm : Int
  outTerm : Int
  inPkg : Int
  outPkg : Int
  cable : Int
  inTemp : Int
  outTemp : Int
  /-- temperature terms computed by TEMP_TERM_UPDATE for the next boundary -/
  inTempNext : Option Int
  outTempNext : Option Int
  /-- sensor reading, in 1/16 °C, at the calibration of the input and of the output term -/
  inTempAt : Int
  outTempAt : Int
  /-- temperature coefficients, fs per K -/
  inFsK : Int
  outFsK : Int
  /-- instant of the last accepted measurement (R131) -/
  inAt : Option Nat
  outAt : Option Nat
  /-- operating hours at those measurements (R137) -/
  inHours : Nat
  outHours : Nat
  /-- the last 64 cycles, oldest first (R135) -/
  hist : List CycleRec
  /-- an accepted measurement since the present cycle started (R130) -/
  inCycle : Bool
  outCycle : Bool
  /-- an accepted measurement since the previous completed cycle (R146) -/
  inRun : Bool
  outRun : Bool
  /-- the planned interval has passed since the accepted measurement -/
  inOld : Bool
  outOld : Bool
  failed : Bool
  /-- 1 REJECTED_TWICE, 2 OFFSET_JUMP, 3 TANDEM_LIMIT -/
  failCause : Nat
  /-- a covering CAL_RUN has been accepted since `failed` was set; interpolators updated since then -/
  cleared : Bool
  /-- no measurement of the CAL_RUN in progress on the channel has been rejected -/
  runOk : Bool
  cleared0 : Bool
  cleared1 : Bool
  overdue : Bool
  /-- the confidence, the one before it, and the instant from which it is in force (R31) -/
  conf : Conf
  confPrev : Conf
  confFrom : Nat
  deferred : Bool
  /-- measurement in progress of the input and of the output -/
  meas : Option CalMeas
  measOut : Option CalMeas
  /-- b in fs per 1,000 ppm, and the projected change in fs -/
  b : Int
  proj : Nat
  /-- steals since power-on (R91) -/
  steals : W32
  /-- STEAL_ACTIVE, and the interpolator withheld when both are starved -/
  stealActive : Bool
  stealNext1 : Bool
deriving DecidableEq, Repr

def ChCal.reset : ChCal :=
  { int0 := Interp.reset, int1 := Interp.reset, d1 := 0, inTerm := 0, outTerm := 0, inPkg := 0, outPkg := 0, cable := 0,
    inTemp := 0, outTemp := 0, inTempNext := none, outTempNext := none, inTempAt := 0, outTempAt := 0, inFsK := 0,
    outFsK := 0, inAt := none, outAt := none, inHours := 0, outHours := 0, hist := [], inCycle := false, outCycle := false, inRun := false, outRun := false, inOld := false, outOld := false,
    failed := false, failCause := 0, cleared := false, runOk := false, cleared0 := false, cleared1 := false, overdue := false,
    conf := .provisional, confPrev := .provisional, confFrom := 0, deferred := false, meas := none, measOut := none, b := 0, proj := 0, steals := 0,
    stealActive := false, stealNext1 := false }

/-- The cable entry of a channel as TDR or the host has set it (ENV_CBL registers). -/
structure Cable where
  src : CableSrc
  /-- ENV_CBL_RT: outcome, and round trip in 1/16 tq -/
  outcome : Nat
  rt : Nat
  /-- ENV_CBL_CLASS and ENV_CBL_Z -/
  gamma : Int
  u : Nat
  cls : Nat
  zl : Nat
  z0 : Nat
  /-- threshold codes of passes A and B of the last measurement (R306) -/
  codeA : Nat
  codeB : Nat
deriving DecidableEq, Repr

def Cable.reset : Cable :=
  { src := .none, outcome := 0, rt := 0, gamma := 0, u := 0, cls := 0, zl := 0, z0 := 0, codeA := 0, codeB := 0 }

/-- An edge descriptor in the edge queue (R179), with what its push decided. -/
structure Desc where
  /-- T, extended -/
  t : Nat
  level : Bool
  event : Bool
  late : Bool
  /-- T not later than that of the entry pushed before it -/
  disorder : Bool
  /-- in a pair: the dead time and SHORTPOL of the output that the edge turns on, as they were at the push (R208) -/
  dt : Nat
  sp : Bool
deriving DecidableEq, Repr

/-- An edge that has entered the sequencer and is not computed: its time (extended), its level, and for an edge of X in a
pair the dead time and the SHORTPOL it meets (R208). -/
structure Entry where
  t : Int
  level : Bool
  dt : Nat
  sp : Bool
deriving DecidableEq, Repr

/-- A kept edge that is computed and not launched: its time at the reference plane and its launch, both extended. -/
structure OutEdge where
  t : Int
  level : Bool
  launch : Int
  /-- fine-delay unit -/
  unit1 : Bool
deriving DecidableEq, Repr

/-- Kinds of output event (Table 6-7). -/
inductive OutEvent where
  | zero | period | compare | queue
deriving DecidableEq, Repr

/-- The output half of a channel without its pattern unit (chapters 6 and 7). -/
structure ChOut where
  configured : Bool
  qp : Nat
  qpBind : Bool
  initLevel : Bool
  shortPol : Bool
  lateAsap : Bool
  /-- source: the pattern unit -/
  srcPu : Bool
  voh : Nat
  vol : Nat
  en : Bool
  push0 : W32
  push1 : W32
  push2 : W32
  queue : List Desc
  /-- T of the entry pushed last -/
  lastPush : Option Nat
  hwm : Nat
  lateSeen : Bool
  lateCnt : W32
  fullCnt : W32
  orderCnt : W32
  shortCnt : W32
  edgeCnt : W64
  /-- edges entered by the pattern unit -/
  entered : List Entry
  /-- kept edges not yet launched, oldest first, and the time of the kept edge launched last -/
  computed : List OutEdge
  lastT : Option Int
  /-- edges kept of the edge queue, and the level of the last one (R193) -/
  qKept : Nat
  qLevel : Option Bool
  /-- the edge of a source change that waits for its boundary has been computed -/
  chgDone : Bool
  /-- level the pin would show, and the level launched last -/
  tracked : Bool
  driven : Bool
  lastUnit1 : Bool
  /-- events not yet raised, with their times on the extended scale -/
  events : List (Int × OutEvent)
  /-- pair (R204): X edge that asks this output to turn on, last kept turn-off, output on -/
  onReq : Option Int
  /-- SHORTPOL of the on pulse asked for or in progress -/
  onPol : Bool
  lastOff : Option Int
  pairOn : Bool
  swallow : W32
deriving DecidableEq, Repr

def ChOut.reset : ChOut :=
  { configured := false, qp := 0, qpBind := false, initLevel := false, shortPol := false, lateAsap := false,
    srcPu := false, voh := 0, vol := 0, en := false, push0 := 0, push1 := 0, push2 := 0, queue := [], lastPush := none,
    hwm := 0, lateSeen := false, lateCnt := 0, fullCnt := 0, orderCnt := 0, shortCnt := 0, edgeCnt := 0, entered := [],
    computed := [], lastT := none, qKept := 0, qLevel := none, chgDone := false, tracked := false, driven := false, lastUnit1 := false,
    events := [], onReq := none, onPol := false, lastOff := none, pairOn := false, swallow := 0 }

/-- The values a pattern unit hands over: active or shadow (R189). -/
structure PuVals where
  per : Nat
  cmp : Nat
  npulse : Nat
  bper : Nat
  nburst : Nat
deriving DecidableEq, Repr

/-- Which shadows have been written since the last hand-over. -/
structure PuWritten where
  per : Bool
  cmp : Bool
  npulse : Bool
  bper : Bool
  nburst : Bool
deriving DecidableEq, Repr

/-- A pattern unit (R184 to R194, Table 6-10). -/
structure PatUnit where
  mode : Nat
  upd : Nat
  lock : Bool
  pol : Bool
  pre : Nat
  even_ : Nat
  evps : Nat
  act : PuVals
  shadow : PuVals
  written : PuWritten
  shadowLate : Bool
  wrRej : Bool
  hoRej : Bool
  run : Bool
  done : Bool
  pulsing : Bool
  t0 : Nat
  pidx : Nat
  shlate : W32
  /-- start S_n of the period at the generation point, its length and compare value -/
  s : Int
  perN : Nat
  cmpN : Nat
  started : Bool
  asserted : Bool
  /-- the compare of this period has matched or has been passed over -/
  matched : Bool
  /-- position of the period in its group, and groups completed (BURST) -/
  grpPos : Nat
  grpNo : Nat
  stopReq : Bool
  /-- shadows written by a command wait for their hand-over -/
  cmdPend : Bool
  /-- the match of this period belongs to a reserved code and raises no event (R194) -/
  quiet : Bool
  /-- CCLK cycle of the last hand-over -/
  hoCycle : Option Nat
  /-- TICK: the values of before the hand-over, and the extended time B before which the generation point still uses them -/
  old : Option (PuVals × Nat)
deriving DecidableEq, Repr

def PuVals.reset : PuVals := { per := 0, cmp := 0xFFFFFFFF, npulse := 1, bper := 1, nburst := 0 }

def PuWritten.none : PuWritten := { per := false, cmp := false, npulse := false, bper := false, nburst := false }

def PatUnit.reset : PatUnit :=
  { mode := 0, upd := 0, lock := false, pol := false, pre := 0, even_ := 0, evps := 0, act := PuVals.reset,
    shadow := PuVals.reset, written := PuWritten.none, shadowLate := false, wrRej := false,
    hoRej := false, run := false, done := false, pulsing := false, t0 := 0, pidx := 0, shlate := 0, s := 0, perN := 0,
    cmpN := 0, started := false, asserted := false, matched := false, grpPos := 0, grpNo := 0, stopReq := false, cmdPend := false,
    quiet := false, hoCycle := none, old := none }

/-- The pair and brake registers of a channel (Table 7-3). -/
structure ChPair where
  complementary : Bool
  polA : Bool
  polB : Bool
  dtA : Nat
  dtB : Nat
  guard : Nat
  held : Bool
  resumePend : Bool
  /-- extended time of the accepted clear, and S once known -/
  clearAt : Int
  resumeAt : Option Int
  /-- in a pair: both outputs have been forced off for the resumption (R214) -/
  forced : Bool
  holds : W32
  /-- state of X in a pair (even channel, R203) -/
  xOn : Bool
deriving DecidableEq, Repr

def ChPair.resetOf (n : Nat) : ChPair :=
  { complementary := false, polA := false, polB := false, dtA := 0, dtB := 0, guard := 2 ^ (n / 16), held := false,
    resumePend := false, clearAt := 0, resumeAt := none, forced := false, holds := 0, xOn := false }

/-- One channel. -/
structure Channel where
  inp : ChIn
  cal : ChCal
  out : ChOut
  pu : PatUnit
  pr : ChPair
  cable : Cable
  /-- calibration state of before a reset, as the history records it, until step 4 of start-up (R132, R135) -/
  kept : Option ChCal
deriving DecidableEq, Repr

def Channel.resetOf (n : Nat) : Channel :=
  { inp := ChIn.reset, cal := ChCal.reset, out := ChOut.reset, pu := PatUnit.reset, pr := ChPair.resetOf n,
    cable := Cable.reset, kept := none }

/-- One brake input (R209 to R214, Table 7-4). -/
structure Brake where
  en : Bool
  activeLow : Bool
  deb : Nat
  quietUs : Nat
  tripped : Bool
  /-- debounced active -/
  active : Bool
  /-- level at the ball, and the first sample that sees it -/
  ball : Bool
  ballAt : Nat
  /-- level at the last sample, and the first sample of its run, or the restart of the debouncer -/
  seen : Bool
  rawAt : Nat
  /-- instant since which the input has been raw inactive -/
  quietFrom : Nat
  quietOk : Bool
  glitchCnt : Nat
  tripCnt : Nat
deriving DecidableEq, Repr

def Brake.reset : Brake :=
  { en := true, activeLow := false, deb := 5, quietUs := 1000, tripped := false, active := false, ball := false, ballAt := 0, seen := false,
    rawAt := 0, quietFrom := 0, quietOk := false, glitchCnt := 0, tripCnt := 0 }

end Sys2Proof.Machine
end

