-- ==== Sys2Proof/Machine/StateCluster.lean ====
section
/-! DEFINITION. The state of a cluster: merge, measurement slots, decoders, microengine, scheduler slice; and the timers (chapters 1, 5, 8, 9, 10). -/
namespace Sys2Proof.Machine

/-- A word of a merged stream (Tables 3-2 and 3-3). -/
inductive Word where
  | tag (ch time : Nat) (rising q : Bool)
  | epoch (reason hi : Nat)
  | loss (ch cause count : Nat)
  | tick (stretched : Bool) (boundary : Nat)
  | calSteal (ch interp seq : Nat)
  | trace (event ch arg : Nat)
deriving DecidableEq, Repr

/-- A word with its sort time on the scale that no step moves (R94, R485), and whether it is passed as LATE_MERGE. -/
structure PWord where
  sort : Int
  /-- DTC value of the sort time -/
  dtc : Nat
  word : Word
  late : Bool
deriving DecidableEq, Repr

/-- One accumulator set of a slot, with what its gate will publish (R156, R163, R164). -/
structure Acc where
  /-- first boundary: DTC value and instant; last boundary once known -/
  start : Nat
  startAt : Int
  stop : Nat
  stopAt : Option Int
  cnt : Nat
  sum : Int
  ssq : Nat
  min : Option Int
  max : Option Int
  lost : Nat
  skip : Nat
  qcnt : Nat
  q : Bool
  loss : Bool
  gapAmbig : Bool
  lateIgn : Bool
  truncated : Bool
  stepped : Bool
  slew : Bool
  hdrop : Bool
  range : Bool
  timeout : Bool
  /-- FREQ_OMEGA: the regression has ended for this gate; FREQ_RECIP: nothing more is taken -/
  ended : Bool
deriving DecidableEq, Repr

def Acc.new (dtc : Nat) (at_ : Int) : Acc :=
  { start := dtc, startAt := at_, stop := 0, stopAt := none, cnt := 0, sum := 0, ssq := 0, min := none, max := none,
    lost := 0, skip := 0, qcnt := 0, q := false, loss := false, gapAmbig := false, lateIgn := false,
    truncated := false, stepped := false, slew := false, hdrop := false, range := false, timeout := false,
    ended := false }

/-- Slot states (Table 5-2). -/
inductive SlotState where
  | idle | defined | armed | running | stopping | stopped
deriving DecidableEq, Repr

/-- A histogram definition (R165). -/
structure Hist where
  bank : Nat
  offset : Nat
  nbins : Nat
  width : Nat
  origin : Int
deriving DecidableEq, Repr

/-- A pending start, reference, leading edge or previous tag of a slot: its time on the unstepped scale, its DTC value, its Q. -/
structure Mark where
  phys : Int
  time : Nat
  q : Bool
deriving DecidableEq, Repr

/-- A measurement slot (R147 to R168, Table 5-6). -/
structure Slot where
  type : Nat
  edgeA : Nat
  edgeB : Nat
  startLatest : Bool
  widthNeg : Bool
  chA : Nat
  chB : Nat
  g : Nat
  ngate : Nat
  ivlMax : Nat
  state : SlotState
  gatesDone : Nat
  seq : W32
  hist : Option Hist
  under : W64
  above : W64
  drop : Nat
  /-- MS_RES0 to MS_RES29 and MS_RES_SEQEND -/
  res : List W32
  seqEnd : W32
  /-- start of the gate that the result block covers (R32) -/
  resFrom : Int
  /-- a gate has been published since arming -/
  published : Bool
  /-- B0 named at arming, extended -/
  b0 : Nat
  /-- the accumulating set while RUNNING; the closing sets that await publication, oldest first -/
  acc : Option Acc
  closing : List Acc
  /-- boundaries left in the present gate; gates started since arming -/
  left : Nat
  gates : Nat
  /-- stop asked for: at the end of the gate that ends at or after this instant, or at this boundary (NOW) -/
  stopAt : Option (Bool × Int)
  /-- pairing state: pending start, reference or leading edge; previous matching tag -/
  mark : Option Mark
  last : Option Mark
  /-- a LOSS record or skipped tag lies between the previous matching tag and now -/
  gap : Bool
  /-- p of R158; 0 while undefined -/
  p : Nat
  /-- FREQ_RECIP: t_ref of the gate has been taken -/
  ref : Option Mark
  /-- sort time up to which boundaries have been published -/
  pubTo : Option Int
  /-- queued histogram increments, oldest first -/
  histq : List (Nat × Nat)
deriving DecidableEq, Repr

def Slot.reset : Slot :=
  { type := 0, edgeA := 0, edgeB := 0, startLatest := false, widthNeg := false, chA := 0, chB := 0, g := 1, ngate := 0,
    ivlMax := 0, state := .idle, gatesDone := 0, seq := 0, hist := none, under := 0, above := 0, drop := 0, res := [],
    seqEnd := 0, resFrom := 0, published := false, b0 := 0, acc := none, closing := [], left := 0, gates := 0, stopAt := none,
    mark := none, last := none, gap := false, p := 0, ref := none, pubTo := none, histq := [] }

/-- Decoder states (Table 8-2). -/
inductive QdState where
  | off | acquire | run
deriving DecidableEq, Repr

/-- What the decoder holds until its hold time has passed (R220). -/
inductive QdItem where
  | tag (role : Nat) (phys : Int) (time : Nat) (rising q : Bool)
  | loss (role count : Nat) (phys : Int) (time : Nat) (q : Bool)
  /-- the boundary of a snapshot, in stream order -/
  | boundary (phys : Int) (time : Nat)
deriving DecidableEq, Repr

/-- A count: its time on both scales, its sense (true forward) and the Q of its tag. -/
structure QdCount where
  phys : Int
  time : Nat
  fwd : Bool
  q : Bool
deriving DecidableEq, Repr

/-- A snapshot taken and not yet published, or published (R232). -/
structure QdSnap where
  pos : Nat
  rev : W32
  frac : Nat
  stall : Bool
  q : Bool
  time : Nat
  phys : Int
deriving DecidableEq, Repr

/-- A log entry of a decoder (Table 8-4). -/
structure QdEntry where
  kind : Nat
  q : Bool
  dirRev : Bool
  role : Nat
  frac : Nat
  seq : Nat
  pos : Nat
  rev : W32
  arg : W32
  time : Nat
  delta : Int
deriving DecidableEq, Repr

def QdEntry.empty : QdEntry :=
  { kind := 0, q := false, dirRev := false, role := 0, frac := 0, seq := 0, pos := 0, rev := 0, arg := 0, time := 0, delta := 0 }

/-- A quadrature decoder (R219 to R238, Table 8-5). -/
structure Decoder where
  sense : Bool
  stbEdge : Bool
  stbEn : Bool
  homeArm : Bool
  idxEdge : Bool
  idxEn : Bool
  indexPol : Nat
  en : Bool
  cprM1 : Nat
  indexPos : Nat
  qwin : Nat
  glt : Nat
  snapQ : Bool
  stall : Bool
  spdValid : Bool
  unsync : Bool
  dirRev : Bool
  lvlA : Bool
  lvlB : Bool
  /-- the level of A, of B, is known -/
  knowA : Bool
  knowB : Bool
  state : QdState
  pos : Nat
  rev : W32
  tlast : Nat
  span : Nat
  qerr : W32
  mismatch : W32
  idxCnt : W32
  idxDiff : W32
  idxT : Nat
  glitch : W32
  loss : W32
  logWr : Nat
  log : Vector QdEntry 16
  snapSeq : W32
  snap : QdSnap
  /-- a snapshot has been published since the decoder was last enabled -/
  snapNew : Bool
  held : List QdItem
  /-- latest counts, newest first, at most five -/
  counts : List QdCount
  /-- counts since the last illegal transition, loss or step, up to 5; entry to ACQUIRE: what precedes it is not handled -/
  clean : Nat
  since : Int
  /-- instant of the last DTC step: a count before it, though handled after it, gives no speed (R230) -/
  stepAt : Int
  /-- last count went against DIR -/
  against : Bool
  /-- some A or B tag handled since the last snapshot had Q = 1 -/
  qSince : Bool
  snaps : List QdSnap
deriving DecidableEq, Repr

def QdSnap.empty : QdSnap := { pos := 0, rev := 0, frac := 0, stall := false, q := false, time := 0, phys := 0 }

def Decoder.reset : Decoder :=
  { sense := false, stbEdge := false, stbEn := false, homeArm := false, idxEdge := false, idxEn := false, indexPol := 0,
    en := false, cprM1 := 0, indexPos := 0, qwin := 0x190, glt := 0, snapQ := false, stall := false, spdValid := false,
    unsync := true, dirRev := false, lvlA := false, lvlB := false, knowA := false, knowB := false, state := .off,
    pos := 0, rev := 0, tlast := 0, span := 0, qerr := 0, mismatch := 0, idxCnt := 0, idxDiff := 0, idxT := 0,
    glitch := 0, loss := 0, logWr := 0, log := Vector.replicate 16 QdEntry.empty, snapSeq := 0, snap := QdSnap.empty,
    snapNew := false, held := [], counts := [], clean := 0, since := 0, stepAt := 0, against := false, qSince := false, snaps := [] }

/-- Microengine states (Table 9-1). -/
inductive MeState where
  | halted | loading | idle | task | normal | fast
deriving DecidableEq, Repr

/-- The flags Z, N, C, V, UF0 to UF7 and IE. -/
structure MeFlags where
  z : Bool
  n : Bool
  c : Bool
  v : Bool
  uf : BitVec 8
  ie : Bool
deriving DecidableEq, Repr

def MeFlags.reset : MeFlags := { z := false, n := false, c := false, v := false, uf := 0, ie := false }

/-- A waiting WAIT microword: the instants of its issue and of its timeout (R251). -/
structure MeWait where
  since : Nat
  limit : Option Nat
deriving DecidableEq, Repr

/-- A micro-stack entry (R249): a CALL entry, or an INT entry with the flags it saved. -/
structure MeFrame where
  ret : Nat
  saved : Option MeFlags
deriving DecidableEq, Repr

/-- A handler in progress, innermost first: its source and class, the instant of its decision, and what its end restores. -/
structure MeHandler where
  src : Nat
  fast : Bool
  since : Nat
  /-- state, micro-stack and wait of the interrupted context -/
  before : MeState
  stack : List MeFrame
  wait : Option MeWait
  /-- address and, for FAST, the copies of the flags and LC (R262) -/
  pc : Nat
  flags : MeFlags
  lc : W32
  /-- cycles of handlers nested in this one, charged already, and the instant at which the last of them ended -/
  inner : Nat
  from_ : Nat
deriving DecidableEq, Repr

/-- The image header settings of a microengine (Table 9-10). -/
structure MeImage where
  nwords : Nat
  fastMax : Nat
  normMax : Nat
  reserve : Nat
  /-- channels that feed the tag input -/
  tagsel : Nat
  /-- event-latch bindings, 32 of 16 bits -/
  evb : Vector Nat 32
deriving DecidableEq, Repr

def MeImage.none : MeImage :=
  { nwords := 0, fastMax := 0, normMax := 0, reserve := 0, tagsel := 0, evb := Vector.replicate 32 0 }

/-- A result on its way: its register, the instant of its arrival, and whether a MUL made it (Table 9-7). -/
structure Ready where
  reg : Nat
  at_ : Nat
  mul : Bool
deriving DecidableEq, Repr

/-- A microengine (R241 to R276, Table 9-12). -/
structure Microengine where
  state : MeState
  /-- control store: the loaded microwords; every address beyond holds CTRL.FAULT with code 0xFF (R271, R274) -/
  store : List (BitVec 128)
  loaded : Bool
  image : MeImage
  hash : Vector W32 12
  pc : Nat
  /-- address of the microword that issued last (ME_PC) -/
  shownPc : Nat
  g : Vector W64 32
  fastBank : Vector W64 8
  tm : Vector (BitVec 80) 8
  lc : W32
  flags : MeFlags
  stack : List MeFrame
  handlers : List MeHandler
  wait : Option MeWait
  evl : BitVec 32
  /-- latches raised on CCLK cycle `evlAt`, and the latches as they stood before it (R260) -/
  evlAt : Nat
  evlRaised : BitVec 32
  evlPrev : BitVec 32
  tagq : List PWord
  /-- OVF, and the CCLK cycle of the drop that set it (R254) -/
  tagOvf : Bool
  ovfAt : Nat
  tagLoss : W32
  fltFast : Bool
  fltHandler : Bool
  fltTask : Nat
  fltAddr : Nat
  fltCause : Nat
  faultCnt : W32
  task : Nat
  taskValid : Bool
  /-- cycles left in the budget of the running task, and cycles it has occupied -/
  budget : Nat
  used : Nat
  /-- cycles charged to the interrupt reserve in this tick and in the last one -/
  irqNow : Nat
  irqLast : Nat
  irqHeld : W32
  /-- instant from which the next microword can issue -/
  nextAt : Nat
  /-- instant at which the stall of the last IO.RD ends (Table 9-7) -/
  stallTo : Nat
  /-- instant of the last write of a channel register or push (R258) -/
  wrAt : Option Nat
  /-- results still outstanding -/
  ready : List Ready
  /-- arrivals of outstanding bank accesses, with the bank of each -/
  bankOut : List (Nat × Nat)
  /-- bank and instant of the last atomic (Table 9-7) -/
  lastAtomic : Option (Nat × Nat)
deriving DecidableEq, Repr

def Microengine.reset : Microengine :=
  { state := .halted, store := [], loaded := false, image := MeImage.none, hash := Vector.replicate 12 0, pc := 0, shownPc := 0,
    g := Vector.replicate 32 0, fastBank := Vector.replicate 8 0, tm := Vector.replicate 8 0, lc := 0,
    flags := MeFlags.reset, stack := [], handlers := [], wait := none, evl := 0, evlAt := 0, evlRaised := 0, evlPrev := 0, tagq := [], tagOvf := false, ovfAt := 0,
    tagLoss := 0, fltFast := false, fltHandler := false, fltTask := 0, fltAddr := 0, fltCause := 0, faultCnt := 0,
    task := 0, taskValid := false, budget := 0, used := 0, irqNow := 0, irqLast := 0, irqHeld := 0, nextAt := 0, stallTo := 0, wrAt := none,
    ready := [], bankOut := [], lastAtomic := none }

/-- A task-table entry (Table 10-1, Table 10-7). -/
structure Task where
  en : Bool
  enforce : Bool
  auto : Bool
  pexp : Nat
  prio : Nat
  entry : Nat
  phase : Nat
  resume : Nat
  budget : Nat
  faulted : Bool
  carry : Bool
  cut : Bool
  ovrCnt : Nat
  usedMax : Nat
deriving DecidableEq, Repr

def Task.empty : Task :=
  { en := false, enforce := false, auto := false, pexp := 0, prio := 0, entry := 0, phase := 0, resume := 0, budget := 0,
    faulted := false, carry := false, cut := false, ovrCnt := 0, usedMax := 0 }

/-- A cadence-scheduler slice (R277 to R289, Table 10-7). -/
structure Sched where
  tasks : Vector Task 256
  guard : Nat
  slackLast : Nat
  slackMin : Nat
  ovr : W32
  cut : W32
  skip : W32
  /-- tasks of the present tick still to be dispatched -/
  due : List Nat
  carry : List Nat
  /-- lists built in the guard band for the next tick -/
  dueNext : List Nat
  carryNext : List Nat
  dueCnt : Nat
  doneCnt : Nat
  /-- cycles of the present tick in which the microengine was IDLE, and the instant up to which they are counted -/
  idle : Nat
  countedTo : Nat
  /-- index of the tick whose guard band has begun last -/
  guardTick : Option Nat
deriving DecidableEq, Repr

def Sched.reset : Sched :=
  { tasks := Vector.replicate 256 Task.empty, guard := 0x40, slackLast := 0, slackMin := 0x7FFFFF, ovr := 0, cut := 0,
    skip := 0, due := [], carry := [], dueNext := [], carryNext := [], dueCnt := 0, doneCnt := 0, idle := 0,
    countedTo := 0, guardTick := none }

/-- A general-purpose timer (R291 to R302, Table 10-8). -/
structure Timer where
  owner : Nat
  trigStart : Bool
  capEn : Bool
  /-- bit 0 TOP, 1 CMP, 2 CAP -/
  evEn : Nat
  master : Nat
  slave : Nat
  freeze : Bool
  oneshot : Bool
  src : Nat
  psc : Nat
  top : Nat
  cmp : Nat
  phase : Nat
  /-- CNT and prescaler as they stood at the edge `at_`; a CCLK timer counts from there -/
  cnt : Nat
  pre : Nat
  at_ : Nat
  /-- CNT before any count of the edge `at_` (R295) -/
  before : Nat
  cap : Nat
  trigA : Nat
  trigB : Nat
  /-- CCLK edges at which events of the TRIGA and TRIGB selections take effect (R295), oldest first -/
  pendA : List Nat
  pendB : List Nat
  run : Bool
  done : Bool
  ovf : Bool
  capf : Bool
  capOvr : Bool
  /-- edges of the wrap that set OVF last and of the last capture (Table 10-5) -/
  ovfAt : Nat
  capAt : Nat
deriving DecidableEq, Repr

def Timer.reset : Timer :=
  { owner := 0, trigStart := false, capEn := false, evEn := 0, master := 0, slave := 0, freeze := false, oneshot := false,
    src := 0, psc := 0, top := 0xFFFFFFFF, cmp := 0xFFFFFFFF, phase := 0, cnt := 0, pre := 0, at_ := 0, before := 0, cap := 0,
    trigA := 0, trigB := 0, pendA := [], pendB := [], run := false, done := false, ovf := false, capf := false, capOvr := false, ovfAt := 0, capAt := 0 }

/-- An IO.WR of a microengine to a timer register that has not taken effect (R298): its edge, timer, register and value. -/
structure TimWrite where
  at_ : Nat
  timer : Nat
  reg : Nat
  value : W32
deriving DecidableEq, Repr

/-- A cluster: merge, scheduler, microengine and cluster-level calibration (CAL and CL registers). -/
structure Cluster where
  me : Microengine
  sch : Sched
  /-- words picked up or imported that the merge has not released -/
  pool : List PWord
  /-- sort time of the last word released -/
  releasedTo : Option Int
  /-- channels of other clusters imported (CL_IMPORT) -/
  imports : Nat
  /-- released words on the tag exchange that an importing cluster has not yet taken, with the importing cluster -/
  exchange : List (Nat × PWord)
  /-- channel position each lane served last -/
  laneLast : Vector (Option Nat) 4
  /-- CCLK cycle after the lane's last pick-up -/
  laneFree : Vector Nat 4
  /-- CAL_CFG, CAL_PLAN.CAP_H -/
  monitor : Bool
  starveMs : Nat
  capH : Nat
  planHeld : Bool
  /-- margins in force and margins planned for the next boundary -/
  minpwGuard : Nat
  overlap : Nat
  planned : Option (Nat × Nat × Nat)
  ringS : W32
  ringU : W32
  degPpm : Nat
  /-- operating hours and δ in ppm at each hourly measurement, oldest first (R135) -/
  degHist : List (Nat × Nat)
deriving DecidableEq, Repr

def Cluster.reset : Cluster :=
  { me := Microengine.reset, sch := Sched.reset, pool := [], releasedTo := none, imports := 0, exchange := [],
    laneLast := Vector.replicate 4 none, laneFree := Vector.replicate 4 0, monitor := false, starveMs := 0x2710, capH := 0, planHeld := false,
    minpwGuard := 0x640, overlap := 0x60, planned := none, ringS := 0, ringU := 0, degPpm := 0, degHist := [] }

end Sys2Proof.Machine
end

