-- ==== Sys2Proof/Machine/StateBank.lean ====
section
/-! DEFINITION. Banks, DMA channels, mirror, PCI Express and the environment (chapters 11, 12 and 13), and the actions that wait for a boundary. -/
namespace Sys2Proof.Machine

/-- An access of the new owner that a hand-over or a clear holds (R326, R338). -/
structure HeldAccess where
  /-- first byte of the access in the bank window -/
  addr : Nat
  /-- bytes written; none for a read -/
  data : Option (List Byte)
  /-- length of a read -/
  len : Nat
  /-- what the check bits of its words say -/
  ecc : List (Nat × Ecc)
deriving DecidableEq, Repr

/-- The registers and drain state of one bank (R322 to R338, Table 12-5). -/
structure Bank where
  owner : Nat
  patrol : Bool
  addMode : Bool
  useHist : Bool
  useRing : Bool
  lost : Bool
  denySeen : Bool
  ueSeen : Bool
  scrub : Bool
  handover : Bool
  /-- instant at which the drain ends -/
  drainAt : Nat
  /-- a BANK_ASSIGN clear is in progress, and the instant at which it ends -/
  clearAt : Option Nat
  held : List HeldAccess
  ceCnt : Nat
  ueCnt : Nat
  errValid : Bool
  errReq : Nat
  errWord : Nat
  denyValid : Bool
  denyWrite : Bool
  denyReq : Nat
  denyWord : Nat
  denyCnt : Nat
  /-- word the patrol scrub reads next, and the start of the period of 256 CCLK cycles it is read in (R330) -/
  patrolAt : Nat
  patrolFrom : Nat
deriving DecidableEq, Repr

def Bank.reset : Bank :=
  { owner := 0, patrol := true, addMode := false, useHist := false, useRing := false, lost := false, denySeen := false,
    ueSeen := false, scrub := false, handover := false, drainAt := 0, clearAt := none, held := [], ceCnt := 0, ueCnt := 0,
    errValid := false, errReq := 0, errWord := 0, denyValid := false, denyWrite := false, denyReq := 0, denyWord := 0,
    denyCnt := 0, patrolAt := 0, patrolFrom := 0 }

/-- DMA_STATUS.STATE. -/
inductive DmaState where
  | idle | wait | run | halted | closing
deriving DecidableEq, Repr

/-- The descriptor a ring-mode channel works on (Table 13-4). -/
structure DmaDesc where
  words : Vector W32 8
  /-- bytes transferred -/
  moved : Nat
  /-- tick boundaries passed since the first word was moved, once one was -/
  age : Option Nat
  /-- FLUSH or a drain: value of R at which the descriptor completes PARTIAL -/
  flushTo : Option W64
deriving DecidableEq, Repr

/-- One DMA channel (R347 to R363, Table 13-10). -/
structure Dma where
  kind : Nat
  cluster : Nat
  stopPolicy : Bool
  remote : Bool
  rdev : Nat
  flushT : Nat
  head : Nat
  cause : Nat
  badSeen : Bool
  stopLoss : Bool
  dropping : Bool
  gated : Bool
  stopArmed : Bool
  state : DmaState
  baseLo : Nat
  baseHi : W32
  sizeL : Nat
  tail : Nat
  hopmax : Nat
  bank : Nat
  nbM1 : Nat
  off : Nat
  len : Nat
  hwm : Nat
  lwm : Nat
  w : W64
  r : W64
  drop : W32
  late : W32
  gates : W32
  bad : W32
  src : Nat
  dst : Nat
  cnt : Nat
  /-- channels the stream subscribes to, bit n for channel n -/
  mask : Nat
  /-- the stream writes words: it has started and has not ended -/
  writing : Bool
  /-- instants of the first boundary of the stream, of the gate in force, of the resumption, and of the close -/
  startAt : Option Int
  gateAt : Option Int
  relAt : Option Int
  closeAt : Option Int
  /-- the STOP_GATE record of the gate in force has been written -/
  gateMarked : Bool
  desc : Option DmaDesc
  /-- descriptors already processed of the chain in progress (R361) -/
  chain : Nat
  /-- value of W up to which moves have begun, and the instant of the first word written after it (R351) -/
  begunTo : W64
  heldFrom : Nat
  /-- drop counts per channel (R353), and the confidence of channels that changed while gated or dropping (R354) -/
  drops : List (Nat × Nat)
  confs : List (Nat × Nat)
  /-- traceability state at the boundary of the resumption -/
  relTrace : Nat
  /-- time bits [79:54] last carried in the stream (R44) -/
  hi : Nat
deriving DecidableEq, Repr

def Dma.reset : Dma :=
  { kind := 0, cluster := 0, stopPolicy := false, remote := false, rdev := 0, flushT := 0, head := 0, cause := 0,
    badSeen := false, stopLoss := false, dropping := false, gated := false, stopArmed := false, state := .idle,
    baseLo := 0, baseHi := 0, sizeL := 0, tail := 0, hopmax := 0x10000, bank := 0, nbM1 := 0, off := 0, len := 0, hwm := 0,
    lwm := 0, w := 0, r := 0, drop := 0, late := 0, gates := 0, bad := 0, src := 0, dst := 0, cnt := 0, mask := 0,
    writing := false, startAt := none, gateAt := none, relAt := none, closeAt := none, gateMarked := false, desc := none, chain := 0, begunTo := 0, heldFrom := 0, drops := [],
    confs := [], relTrace := 0, hi := 0 }

/-- A posted write the device has issued to host memory. -/
structure Posted where
  addr : Nat
  words : List W32
deriving DecidableEq, Repr

/-- The status mirror (R341 to R346, Table 13-9). -/
structure Mirror where
  addrLo : Nat
  addrHi : W32
  n : Nat
  en : Bool
  seq : W32
  skip : W32
  /-- boundaries left until the next mirror boundary, once the first one is past -/
  left : Option Nat
  /-- snapshot of a mirror boundary that has not been written -/
  snap : Option (List W32)
  /-- BAR4 copy and its own SEQ -/
  copy : List W32
  copySeq : W32
deriving DecidableEq, Repr

def Mirror.reset : Mirror :=
  { addrLo := 0, addrHi := 0, n := 0, en := false, seq := 0, skip := 0, left := none, snap := none,
    copy := [], copySeq := 0 }

/-- The PCI Express link (R339, R340). -/
structure Pcie where
  retrain : Nat
  bme : Bool
  dlUp : Bool
  width : Nat
  speed : Nat
deriving DecidableEq, Repr

def Pcie.reset : Pcie := { retrain := 0, bme := false, dlUp := false, width := 0, speed := 0 }

/-- One monitor (R312 to R316). -/
structure Monitor where
  value : Int
  invalid : Bool
  fault : Bool
  fcnt : Nat
  low : Int
  high : Int
  outRun : Nat
  inRun : Nat
deriving DecidableEq, Repr

/-- Default windows of Table 11-4. -/
def Monitor.defaults (m : Nat) : Int × Int :=
  match m with
  | 0 => (760, 840)
  | 1 => (873, 927)
  | 2 => (713, 788)
  | 3 => (1710, 1890)
  | 4 => (1615, 3780)
  | 5 => (4750, 5250)
  | 6 => (-2100, -1900)
  | 7 => (1800, 3600)
  | k => if k < 24 then (1615, 3780) else if k < 40 then (-200, 3780) else (-640, 1680)

def Monitor.resetOf (m : Nat) : Monitor :=
  { value := 0, invalid := false, fault := false, fcnt := 0, low := (Monitor.defaults m).1,
    high := (Monitor.defaults m).2, outRun := 0, inRun := 0 }

/-- A TDR run in one cluster (R305). -/
structure TdrRun where
  cur : Nat
  last : Nat
  auto : Bool
  /-- ref_lock was 0 at some time of the measurement in progress -/
  unlocked : Bool
  /-- instant at which that measurement began -/
  since : Nat
deriving DecidableEq, Repr

/-- The environment block (chapter 11). -/
structure Envir where
  mon : Vector Monitor 52
  runs : W32
  cur : Nat
  tdr : Vector (Option TdrRun) 4
  trip : Bool
  sensor : Nat
  /-- last valid reading of FE0 to FE3 (R314) -/
  feLast : Vector Int 4
  /-- VDDM window written by ENV_MONITORS, kept while the banks are retained (R316) -/
  vddmRun : Int × Int
deriving DecidableEq, Repr

def Envir.reset : Envir :=
  { mon := Vector.ofFn (fun i : Fin 52 => Monitor.resetOf i.val), runs := 0, cur := 0, tdr := Vector.replicate 4 none,
    trip := false, sensor := 0, feLast := Vector.replicate 4 0, vddmRun := Monitor.defaults 2 }

/-- When a deferred action takes effect. -/
inductive When where
  /-- the first boundary whose instant is at or after this one -/
  | phys (p : Nat)
  /-- the first boundary whose DTC value (extended) is at or after this one -/
  | dtc (x : Nat)
deriving DecidableEq, Repr

/-- An accepted action that waits for its boundary: the command's opcode and payload words. -/
structure Deferred where
  at_ : When
  op : Nat
  words : List W32
deriving DecidableEq, Repr

/-- The completion of the last host read: its bytes, and EP for a poisoned one (R6, R334). -/
structure Cpl where
  bytes : List Byte
  poisoned : Bool
deriving DecidableEq, Repr

/-- Device-wide status (R30, R33, chapter 4) and the stored history (R135). -/
structure Status where
  /-- SYS_STATUS.TRACE, the state before it, and the instant from which it is in force (R31) -/
  trace : Nat
  tracePrev : Nat
  traceFrom : Nat
  /-- SYS_STATUS [6:3] as the conditions stand, as they stood before, and the instant of the change's show (R33) -/
  cond : Nat
  condPrev : Nat
  condFrom : Nat
  /-- REFOUT is to run, and the instant from which that holds: it changes at a low level (R57) -/
  refout : Bool
  refoutAt : Nat
  /-- the capability word as the ports have sent it last (R65) -/
  capSent : W64
  baseline : Bool
  serviceDue : Bool
  /-- lowest trace state since the last sign-relevant reset is kept per slot; this is the device's history for BLOB records -/
  traceLog : List (Nat × Nat)
  confLog : List (Nat × Nat × Nat)
  /-- changes of ref_lock, oldest first -/
  lockLog : List (Nat × Bool)
  /-- the measured firmware hash has been recorded (R30) -/
  fwRecorded : Bool
  /-- calibration cycles and hours recorded (R135, R141) -/
  cycles : Nat
  opHours : Nat
  /-- tq in RUN, and the instant up to which they have been counted (R135) -/
  opTq : Nat
  opFrom : Nat
  intervalH : Nat
  /-- instants of the start of the present interval, of the last re-plan and of the last ageing measurement -/
  cycleAt : Nat
  planAt : Nat
  ageAt : Nat
  /-- a cycle is in progress -/
  cycleOn : Bool
  /-- a cycle has been completed since the last re-plan (R136); BASELINE ends at the next boundary (R141) -/
  planDue : Bool
  baseEnd : Bool
  /-- instant at which step 4 of start-up began (R140) -/
  calFrom : Option Nat
  /-- hosts resets since power-on (R385) -/
  hostResets : W32
  /-- READY instant, for R423's 1 h and start-up times -/
  readyAt : Nat
deriving DecidableEq, Repr

def Status.reset : Status :=
  { trace := 0, tracePrev := 0, traceFrom := 0, cond := 0, condPrev := 0, condFrom := 0, refout := false, refoutAt := 0, capSent := 0, baseline := true, serviceDue := false, traceLog := [], confLog := [], lockLog := [], fwRecorded := false, cycles := 0,
    opHours := 0, opTq := 0, opFrom := 0, intervalH := 3, cycleAt := 0, planAt := 0, ageAt := 0, cycleOn := false, planDue := false, baseEnd := false, calFrom := none, hostResets := 0, readyAt := 0 }

end Sys2Proof.Machine
end

