-- ==== Sys2Proof/Machine/StateHost.lean ====
section
/-! DEFINITION. The host side of the state: mailboxes, queue pairs, groups, interrupt controllers, error log, performance counters. -/
namespace Sys2Proof.Machine

/-- Mailbox states (Table 14-1). -/
inductive MbState where
  | idle | posted | taken | done
deriving DecidableEq, Repr

/-- What a taken message still waits for before its DONE (R372: most commands finish in one action). -/
inductive MbWait where
  /-- nothing: the message is not taken or its command is finished -/
  | none
  /-- BANK_ASSIGN: the drains (R326) and clears (R338) of these banks -/
  | banks (l : List Nat) (reply : List W32)
  /-- PWR_SET_STATE RETAIN or BACKUP_ONLY: the commit edge (R442) -/
  | retain (p : List W32)
  /-- a secure packet passed to the module (R384) -/
  | secure
deriving DecidableEq, Repr

/-- One mailbox (R369, Table 14-6). -/
structure Mailbox where
  /-- MB_DATA0 to MB_DATA15 -/
  data : Vector W32 16
  state : MbState
  ackDone : Bool
  ackTaken : Bool
  ackTimeout : Bool
  ackRestarted : Bool
  ackCode : Nat
  ackRlen : Nat
  ackSeq : Nat
  /-- MB_TMO.TMO_MS (R373) -/
  tmoMs : Nat
  applied : Bool
  wrRej : Bool
  goRej : Bool
  cancelLate : Bool
  /-- the place of this message in the order of the GO writes (R372) -/
  goOrder : Nat
  /-- instant at which the MB_TMO period ends, while it runs (R373) -/
  tmoAt : Option Nat
  /-- instant of the take, for the bounds of R384 -/
  takenAt : Nat
  wait : MbWait
deriving DecidableEq, Repr

def Mailbox.reset : Mailbox :=
  { data := Vector.replicate 16 0, state := .idle, ackDone := false, ackTaken := false, ackTimeout := false,
    ackRestarted := false, ackCode := 0, ackRlen := 0, ackSeq := 0, tmoMs := 10, applied := false, wrRej := false,
    goRej := false, cancelLate := false, goOrder := 0, tmoAt := none, takenAt := 0, wait := .none }

/-- One word-queue pair (R383, Table 14-6). -/
structure QueuePair where
  h2d : List W32
  d2h : List W32
  noteMask : Nat
  d2hEn : Bool
  h2dEn : Bool
  h2dWr : W32
  h2dCons : W32
  d2hProd : W32
  d2hRd : W32
  h2dDrop : W32
  d2hLost : W32
  resets : W32
  /-- notice sequence number, wrapping within the pair -/
  noteSeq : BitVec 16
  /-- notices dropped since the last LOST notice -/
  lostSince : W32
  /-- QP_SEC_STAT.FRAMES_REJ (QP3, R415) -/
  framesRej : Nat
  /-- QP3: unread reply frames, mailbox and words left of each, oldest first -/
  d2hFrames : List (Nat × Nat)
deriving DecidableEq, Repr

def QueuePair.reset : QueuePair :=
  { h2d := [], d2h := [], noteMask := 0, d2hEn := false, h2dEn := false, h2dWr := 0, h2dCons := 0, d2hProd := 0,
    d2hRd := 0, h2dDrop := 0, d2hLost := 0, resets := 0, noteSeq := 0, lostSince := 0, framesRej := 0, d2hFrames := [] }

/-- Group states (MB_GRP.STATE). -/
inductive GrpState where
  | free | opened | failed | committed
deriving DecidableEq, Repr

/-- A member of a group as it acts in one cluster: opcode, that cluster in a mask, payload words for it (R380). -/
structure Member where
  op : Nat
  clusters : Nat
  words : List W32
deriving DecidableEq, Repr

/-- One group register (MB_GRPk) with the members it holds. -/
structure Group where
  num : Nat
  state : GrpState
  failed : Nat
  clusters : Nat
  /-- prepares held; each gives one member per cluster of its mask -/
  prepares : Nat
  members : List Member
  /-- the commit boundary, as an extended time, once committed -/
  commitAt : Option Nat
deriving DecidableEq, Repr

def Group.reset : Group :=
  { num := 0, state := .free, failed := 0, clusters := 0, prepares := 0, members := [], commitAt := none }

/-- Interrupt targets (IC_SRC_CFG.TARGET codes 0 to 5). -/
inductive IcTarget where
  | mc | sec | me (c : Fin 4)
deriving DecidableEq, Repr

/-- A TARGET, PRIO or MODE written while the source was ACTIVE (Table 15-2). -/
structure IcLater where
  target : IcTarget
  fast : Bool
  addr : Nat
  en : Bool
deriving DecidableEq, Repr

/-- One interrupt source (R391, R392, Table 15-7). -/
structure Source where
  en : Bool
  edge : Bool
  fixed : Bool
  fast : Bool
  target : IcTarget
  prio : Nat
  addr : Nat
  coalTime : Nat
  coalCnt : Nat
  cnt : Nat
  /-- CNT before the last arrival: it stands again when the source completes in the same cycle (Table 15-2) -/
  cntPrev : Nat
  /-- arrivals held by coalescing -/
  held : Nat
  /-- instant of the first held arrival -/
  heldAt : Nat
  /-- CCLK cycle of the last arrival: events of one edge make one arrival (R389) -/
  arrAt : Option Nat
  active : Bool
  pending : Bool
  line : Bool
  /-- instant at which the source last became pending -/
  pendAt : Nat
  later : Option IcLater
deriving DecidableEq, Repr

/-- The reset of source s: IC_SRC_CFG of Table 19-4, IC_SRC_COAL 1, IC_SRC_STAT 0. -/
def Source.resetOf (s : Nat) : Source :=
  let base : Source :=
    { en := false, edge := true, fixed := false, fast := false, target := .mc, prio := 0, addr := 0, coalTime := 0,
      coalCnt := 1, cnt := 0, cntPrev := 0, held := 0, heldAt := 0, arrAt := none, active := false, pending := false, line := false, pendAt := 0, later := none }
  if s < 196 then base
  else if s < 212 then { base with en := true }
  else if 254 ≤ s then { base with edge := false }
  else
    let level := (216 ≤ s ∧ s < 224) ∨ s = 234 ∨ s = 246 ∨ s = 247 ∨ s = 248 ∨ s = 253
    { base with
      en := true
      fixed := true
      edge := decide (¬ level)
      target := if 248 ≤ s then .sec else .mc }

/-- The interrupt controllers (R389 to R398). -/
structure Ic where
  src : Vector Source 256
  /-- IC_GCTL.DIS, bit t for target t -/
  dis : Nat
  spurLast : Nat
  spurSec : Bool
  spurCnt : Nat
  /-- running stacks of MC and SEC: (source, PRIO), top first -/
  stackMc : List (Nat × Nat)
  stackSec : List (Nat × Nat)
  vbaseMc : W32
  vbaseSec : W32
  /-- the vector last handed to MC and to SEC -/
  vectorMc : W32
  vectorSec : W32
  /-- SCLK cycle of an EOI that selected the next source at once (R396) -/
  tailMc : Option Nat
  tailSec : Option Nat
  /-- IC_CICc: active fast source, and last normal source entered -/
  fastSrc : Vector Nat 4
  fastAct : Vector Bool 4
  lastN : Vector Nat 4
deriving DecidableEq, Repr

def Ic.reset : Ic :=
  { src := Vector.ofFn (fun i : Fin 256 => Source.resetOf i.val), dis := 0x3F, spurLast := 0, spurSec := false,
    spurCnt := 0, stackMc := [], stackSec := [], vbaseMc := 0, vbaseSec := 0, vectorMc := 0, vectorSec := 0, tailMc := none, tailSec := none,
    fastSrc := Vector.replicate 4 0, fastAct := Vector.replicate 4 false, lastN := Vector.replicate 4 0 }

/-- One error report (Table 15-4 without its sequence number). -/
structure Report where
  cls : Nat
  code : Nat
  object : Nat
  arg0 : W32
  arg1 : W32
  /-- DTC at the acceptance -/
  time : Nat
  /-- CCLK cycle of the acceptance, on the scale that no step moves -/
  acc : Nat
deriving DecidableEq, Repr

/-- One entry of the log; SEQ 0 where none was written. -/
structure LogEntry where
  report : Report
  seq : Nat
deriving DecidableEq, Repr

/-- The error log (R399, R400). -/
structure ErrLog where
  /-- input FIFO, oldest first, at most 16 -/
  fifo : List Report
  /-- merged reports per class, saturating at 65,535 -/
  ovf : Vector Nat 16
  /-- reports merged since the last LOST entry, and the mask of their classes -/
  merged : Nat
  mergedCls : Nat
  /-- CCLK cycle after the last acceptance, and first cycle on which the writer can take again -/
  freeFrom : Nat
  nextTake : Nat
  /-- ERR_WR -/
  wr : Nat
  entries : Vector LogEntry 256
deriving DecidableEq, Repr

def LogEntry.empty : LogEntry := { report := { cls := 0, code := 0, object := 0, arg0 := 0, arg1 := 0, time := 0, acc := 0 }, seq := 0 }

def ErrLog.reset : ErrLog :=
  { fifo := [], ovf := Vector.replicate 16 0, merged := 0, mergedCls := 0, freeFrom := 0, nextTake := 0, wr := 0,
    entries := Vector.replicate 256 LogEntry.empty }

/-- The performance counters (R401 to R403). -/
structure Perf where
  val : Vector W32 64
  en : Bool
  snapHost : Vector W32 64
  snapMc : Vector W32 64
  /-- PC_OVF0 and PC_OVF1, bit n for counter n -/
  ovf : BitVec 64
deriving DecidableEq, Repr

def Perf.reset : Perf :=
  { val := Vector.replicate 64 0, en := false, snapHost := Vector.replicate 64 0, snapMc := Vector.replicate 64 0, ovf := 0 }

end Sys2Proof.Machine
end

