-- ==== Sys2Proof/Machine/StateSecure.lean ====
section
/-! DEFINITION. The state of the Detrix module (chapter 16) and of power, start-up and the backup domain (chapter 17). -/
namespace Sys2Proof.Machine

/-- Module states (Table 16-1). -/
inductive SecState where
  | boot | error | unowned | operational | zeroized
deriving DecidableEq, Repr

/-- A secure session (R413, R414). -/
structure Session where
  /-- the handle that names it in a SESSION word -/
  handle : Nat
  /-- 1 CO, 2 User -/
  role : Nat
  /-- key index -/
  key : Nat
  /-- SK, the session key of R412 -/
  sk : BitVec 384
  /-- the command counter of R414, starting at 1 -/
  counter : W32
  /-- instant of the last command on the session -/
  lastAt : Nat
  /-- data words absorbed by BLOB_PART since the last BLOB_END -/
  blob : List W32
deriving DecidableEq, Repr

/-- A packet delivered to the module (R384). -/
structure SecReq where
  mb : Nat
  header : W32
  words : List W32
deriving DecidableEq, Repr

/-- An answer of the module that waits for the management core (R386). -/
structure SecAnswer where
  mb : Nat
  code : Nat
  reply : List W32
deriving DecidableEq, Repr

/-- One audit entry: its eight words (R425). -/
structure AuditEntry where
  seq : Nat
  kind : Nat
  role : Nat
  key : Nat
  code : Nat
  tai : Nat
  sub : Nat
  arg0 : W32
  arg1 : W32
  dtc : Nat
deriving DecidableEq, Repr

/-- One firmware slot of the flash (R421). -/
structure FwSlot where
  valid : Bool
  svn : Nat
  hash : BitVec 384
  /-- firmware version word of SYS_GET_INFO -/
  version : W32
deriving DecidableEq, Repr

/-- A firmware update in progress (R423): announced length, and the words written so far. -/
structure FwUpdate where
  len : Nat
  words : List W32
deriving DecidableEq, Repr

/-- The Detrix secure module (chapter 16, Table 16-9). -/
structure Sec where
  state : SecState
  svnMin : Nat
  fallback : Bool
  updatePending : Bool
  /-- SEC_STATUS.DEBUG: 0 locked, 1 MC, 2 SEC -/
  debug : Nat
  /-- instant at which debug access was locked last, once it has been open -/
  debugAt : Option Nat
  /-- running slot B -/
  slotB : Bool
  /-- slot marked active is B -/
  activeB : Bool
  fwA : FwSlot
  fwB : FwSlot
  /-- image being written into the slot that is not running -/
  update : Option FwUpdate
  /-- SVN and hash of the running image -/
  svnRun : Nat
  fwHash : BitVec 384
  fwVersion : W32
  /-- key store present (R410) -/
  keys : Bool
  coKey : Option (List W32)
  userKeys : Vector (Option (List W32)) 7
  /-- consecutive failed OPENs per role and key index, and locks with their ends (R413) -/
  fails : List (Nat × Nat)
  locks : List (Nat × Nat)
  /-- sessions of MB6 and MB7 -/
  sess : Vector (Option Session) 2
  /-- nonces of MB6 and MB7 with their instants (R412), and the latest of all (R428) -/
  nonce : Vector (Option (BitVec 384 × Nat)) 2
  lastNonce : BitVec 384
  /-- requests made of the DRBG, the argument of its values -/
  drbg : Nat
  handles : Nat
  /-- calibration seal hash (R424), and the sealed items as recorded in flash with T_SEAL -/
  sealHash : Option (BitVec 384)
  sealItems : List W32
  tSeal : Nat
  rctr : Nat
  auditWr : Nat
  /-- newest first, at most 16,384 -/
  audit : List AuditEntry
  /-- the service queue and what the module has answered: services waiting, first one in progress (R417); answers waiting for the MC -/
  queue : List SecReq
  answers : List SecAnswer
deriving DecidableEq, Repr

def FwSlot.empty : FwSlot := { valid := false, svn := 0, hash := 0, version := 0 }

/-- The tamper sensors and their latches (R426, R427); backup domain. -/
structure Tamper where
  extEn : Nat
  extResp : Nat
  keystoreLost : Bool
  /-- latched causes: [3:0] TAMPER_N, [7:4] MESH, TEMP, CLOCK, GLITCH -/
  latched : Nat
  time0 : W32
  time1 : Nat
  /-- sensors active now, coded as `latched` -/
  active : Nat
deriving DecidableEq, Repr

def Tamper.reset : Tamper :=
  { extEn := 0xF, extResp := 0xF, keystoreLost := false, latched := 0, time0 := 0, time1 := 0, active := 0 }

/-- Power states a register can show (Table 17-4). -/
inductive PwrState where
  | run | trim | retain
deriving DecidableEq, Repr

/-- Where start-up stands (Table 17-3). -/
inductive Startup where
  /-- internal power-on reset is held (R431) -/
  | held
  /-- no firmware slot verified: the management core stays in reset (R422) -/
  | noFirmware
  /-- the management core runs and steps 2 to 4 are in progress -/
  | running
  /-- step 5 is complete -/
  | ready
deriving DecidableEq, Repr

/-- A RETAIN or BACKUP_ONLY command waiting for the commit edge (R442). -/
structure RetainPend where
  mb : Nat
  backupOnly : Bool
  /-- the instant after which the command returns BUSY -/
  limit : Nat
deriving DecidableEq, Repr

/-- Power, reset and start-up (chapter 17). -/
structure Power where
  startup : Startup
  /-- the management core executes (it has started and is not restarting) -/
  mcUp : Bool
  /-- PWR_STATUS -/
  state : PwrState
  gated : Nat
  clCal : Nat
  sleepAbort : Bool
  safeOff : Bool
  wakeCause : Nat
  /-- PWR_WAKE -/
  wakeTimer : Nat
  wakeEn : Nat
  /-- enabled wake sources that have fired since the command was taken (R443) -/
  wakeFired : Nat
  /-- state and gating before RETAIN (R444) -/
  before : PwrState
  gatedBefore : Nat
  retain : Option RetainPend
  /-- instant from which retained banks answer after a wake (R444) -/
  banksAt : Nat
  /-- instant at which internal power-on reset was last asserted or, since then, released (R431, R438) -/
  porAt : Nat
  /-- PWR_RST -/
  devResets : Nat
  mcRestarts : Nat
  cause : Nat
  /-- BK_RETAIN masks (R453), bit b for bank b -/
  retainMask : Nat
  /-- the current JTAG instruction (R470), and the debug port holds the management core halted (R297, R428) -/
  jtag : Nat
  mcHalted : Bool
  /-- deadline of the MC watchdog service is firmware's: only expiries are events; a restart in progress ends by -/
  restartBy : Option Nat
  /-- a host reset that the management core has still to act upon (R385, R444) -/
  hostResetPend : Bool
  /-- instants at which the clusters left gating last (R441) -/
  clCalAt : Vector Nat 4
deriving DecidableEq, Repr

/-- What an armed TS_RTC_SET waits for (R453). -/
inductive RtcWait where
  /-- the second mark at this extended time -/
  | mark (at_ : Nat)
  /-- the next qualified PPSIN edge that is IN_WINDOW -/
  | pps
deriving DecidableEq, Repr

/-- An armed TS_RTC_SET. -/
structure RtcArmed where
  wait : RtcWait
  sec : Nat
  setOffset : Bool
  offset : BitVec 16
deriving DecidableEq, Repr

/-- The calendar clock (R449 to R453, Table 17-6). -/
structure Rtc where
  /-- SLAVED: the seconds set at the anchor, and the anchor D on the extended time scale -/
  slaved : Option (Nat × Int)
  /-- FREE: reading in subsecond counts at the instant `freeAt` -/
  freeCount : Nat
  freeAt : Nat
  secLat : W32
  offset : BitVec 16
  ofsPend : Bool
  ofsNext : BitVec 16
  ofsAt : W32
  bkpLost : Bool
  onVbat : Bool
  xtalFail : Bool
  /-- XCLK has edges (R450) -/
  xtalRuns : Bool
  trimValid : Bool
  trim : BitVec 8
  armed : Option RtcArmed
  set : Bool
  /-- the domain runs on VBAT now (R447) -/
  vbatNow : Bool
  /-- RTC_ANCHOR as last written -/
  anchor : Nat
  /-- instant from which the clock has been SLAVED -/
  slavedAt : Nat
  /-- the domain has no supply (R448) -/
  dead : Bool
deriving DecidableEq, Repr

def Rtc.reset : Rtc :=
  { slaved := none, freeCount := 0, freeAt := 0, secLat := 0, offset := 0, ofsPend := false, ofsNext := 0, ofsAt := 0,
    bkpLost := true, onVbat := false, xtalFail := false, xtalRuns := true, trimValid := false, trim := 0, armed := none,
    set := false, vbatNow := false, anchor := 0, slavedAt := 0, dead := false }

def Power.reset : Power :=
  { startup := .held, mcUp := false, state := .run, gated := 0, clCal := 0, sleepAbort := false, safeOff := false,
    wakeCause := 0, wakeTimer := 0, wakeEn := 3, wakeFired := 0, before := .run, gatedBefore := 0, retain := none,
    banksAt := 0, porAt := 0, devResets := 0, mcRestarts := 0, cause := 0, retainMask := 0, jtag := 1, mcHalted := false, restartBy := none,
    hostResetPend := false, clCalAt := Vector.replicate 4 0 }

end Sys2Proof.Machine
end

