-- ==== Sys2Proof/Machine/StateTime.lean ====
section
/-! DEFINITION. The time side of the state: device time counter, steps, tick, reference, PPS, Basxus link, timers (chapters 2 and 10). -/
namespace Sys2Proof.Machine

/-- A pending DTC step (R49, R67). -/
inductive StepPend where
  /-- TS_SET_TIME AT_TICK: V, to be assigned to the next boundary -/
  | atTick (v : Nat)
  /-- TS_SET_TIME AT_PPS: V, waiting for a qualified PPSIN edge -/
  | atPps (v : Nat)
  /-- AT_PPS after its edge: the applied step and the residual left for the phase shifter -/
  | stamped (delta residual : Int)
  /-- a step carried by the leader (R71) -/
  | leader (delta : Int)
deriving DecidableEq, Repr

/-- A move of the TCLK phase by the phase shifter (R51, R67): the tq it moves in all, and the instant it began. -/
structure PhaseMove where
  tq : Int
  since : Nat
deriving DecidableEq, Repr

/-- The move is in progress at an instant: its tq take `step` tq of time each. -/
def PhaseMove.runs (m : PhaseMove) (step now : Nat) : Bool := decide (now < m.since + m.tq.natAbs * step)

/-- The device time counter and the cadence tick (R41 to R56, Tables 2-4 and 2-6). -/
structure TimeBase where
  /-- the DTC, below 2^80 (R42) -/
  dtc : Nat
  /-- number of wraps since power-on reset; TS_STATUS.WRAPS shows it up to 255 -/
  wraps : Nat
  epochWrap : Bool
  /-- tq of physical time; the model's own, moved by no step -/
  phys : Nat
  /-- TS_CAP0 to TS_CAP2 -/
  cap : Nat
  /-- TS_TICK: tick period P in CCLK cycles -/
  tickP : Nat
  /-- tick anchor A, on the extended time scale (R52) -/
  anchor : Int
  /-- extended times of the start and the end of the tick in progress, and its index -/
  tickStart : Nat
  tickEnd : Nat
  tickIdx : Nat
  /-- new period waiting for its boundary (R55) -/
  tickPend : Option Nat
  step : Option StepPend
  stepDone : Bool
  stepAbandoned : Bool
  /-- tq by which the phase shifter has moved the TCLK edges, and with them the DTC against physical time (R51) -/
  phase : Int
  /-- a residual being removed (R51), and the correction of TRACK being made (R67) -/
  slew : Option PhaseMove
  track : Option PhaseMove
  /-- the phase shifter has moved TCLK at some time of the tick in progress (R154) -/
  moved : Bool
  stretchCnt : Nat
deriving DecidableEq, Repr

def TimeBase.reset : TimeBase :=
  { dtc := 0, wraps := 0, epochWrap := false, phys := 0, cap := 0, tickP := 6250, anchor := 0, tickStart := 0,
    tickEnd := 6250 * 12800, tickIdx := 0, tickPend := none, step := none, stepDone := false, stepAbandoned := false,
    phase := 0, slew := none, track := none, moved := false, stretchCnt := 0 }

/-- Reference states (Table 2-1). -/
inductive RefState where
  | absent | detecting | locking | locked | holdover
deriving DecidableEq, Repr

/-- A source the reference logic can use (SRC_ACTIVE codes 0 and 1). -/
inductive RefSource where
  | refin | bxUp
deriving DecidableEq, Repr

/-- What the PLL is removing a frequency difference for (R38, R483). -/
inductive PllSlew where
  | none
  /-- LOCKING, towards the reference -/
  | locking
  /-- back to the frequency held before a failed attempt, or to the uncorrected frequency (R39) -/
  | returning
deriving DecidableEq, Repr

/-- The internal oscillator as it clocks TCLK (R37, R38, R46); frequencies in 0.001 ppm of its uncorrected frequency. -/
structure Osc where
  /-- the frequency it has, or is moving to -/
  held : Int
  /-- what was still to be removed at instant `since` of the slew in progress -/
  diff : Int
  since : Nat
  /-- READY was set when that slew began or went on: it removes at most 1 ppm/s -/
  slow : Bool
  /-- the correction of HOLDOVER; 0 in ABSENT -/
  corr : Int
  /-- offsets that the windows of the last 100 ms showed, newest first; none for one that is not valid -/
  recent : List (Option Int)
  /-- steering value of STEER and the second state of its loop -/
  steer : Int
  steerInt : Int
deriving DecidableEq, Repr

def Osc.reset : Osc := { held := 0, diff := 0, since := 0, slow := false, corr := 0, recent := [], steer := 0, steerInt := 0 }

/-- The reference logic and the reference outputs (R34 to R40, R57, R58, Tables 2-3 and 2-6). -/
structure Reference where
  state : RefState
  /-- the state DETECTING was entered from is HOLDOVER -/
  fromHoldover : Bool
  /-- source being detected, locked or clocking; none in ABSENT and HOLDOVER -/
  source : Option RefSource
  slew : PllSlew
  osc : Osc
  /-- instant at which the frequency slew of LOCKING ended: the lock test and its timeout count from it -/
  lockFrom : Nat
  freqErr : Bool
  levelHigh : Bool
  levelLow : Bool
  /-- SRC_SEL -/
  srcSel : Nat
  /-- EXPECT of TS_SET_REFERENCE -/
  expect : Nat
  /-- nominal frequency being detected, locked or locked to -/
  nominal : Nat
  /-- class of the last window: valid, and its nominal frequency -/
  lastValid : Bool
  lastNom : Nat
  /-- consecutive valid windows of one source and nominal frequency (4 for BX_UP), and which; consecutive windows not valid -/
  validRun : Nat
  runKey : Nat
  badRun : Nat
  /-- a window has been judged incomplete because the missing-pulse detector fired in it -/
  missing : Bool
  lossCnt : Nat
  freq : W32
  level : Nat
  refoutMode : Nat
  ppsoutMode : Nat
  ppsoutOfs : Int
  ppsoutWidth : Nat
  /-- second mark up to which no more pulses come: of the last PPSOUT pulse, or the last one that a step skipped; and the
  instant at which PPSOUT falls -/
  ppsoutMark : Option Nat
  ppsoutLow : Nat
deriving DecidableEq, Repr

def Reference.reset : Reference :=
  { state := .absent, fromHoldover := false, source := none, slew := .none, osc := Osc.reset,
    lockFrom := 0, freqErr := false, levelHigh := false,
    levelLow := false, srcSel := 0, expect := 0, nominal := 0, lastValid := false, lastNom := 0, validRun := 0, runKey := 0,
    badRun := 0, missing := false, lossCnt := 0, freq := 0, level := 0x8000, refoutMode := 0, ppsoutMode := 0,
    ppsoutOfs := 0, ppsoutWidth := 0x14, ppsoutMark := none, ppsoutLow := 0 }

/-- The PPS input and its discipline (R45 to R48, Table 2-5). -/
structure Pps where
  /-- 0 OFF, 1 MONITOR, 2 STEER -/
  mode : Nat
  /-- 0 ABSENT, 1 IN_WINDOW, 2 OUT_OF_WINDOW -/
  state : Nat
  /-- window half-width in ns -/
  window : Nat
  /-- PPS_COMP in tq -/
  comp : Int
  lossCnt : Nat
  outWin : Nat
  glitch : Nat
  /-- TS_PPS_CAP and TS_PPS_OFFSET -/
  cap : Nat
  offset : W32
  /-- instant of the last qualified edge -/
  lastAt : Option Nat
deriving DecidableEq, Repr

def Pps.reset : Pps :=
  { mode := 0, state := 0, window := 1000, comp := 0, lossCnt := 0, outWin := 0, glitch := 0, cap := 0, offset := 0,
    lastAt := none }

/-- LINK_STATE of a Basxus port. -/
inductive LinkState where
  | down | training | up | refused
deriving DecidableEq, Repr

/-- A word sent in a tag frame: the number of its source device, the word, its instant (R72). -/
structure BxSent where
  src : Nat
  word : W64
  at_ : Nat
deriving DecidableEq, Repr

/-- One Basxus port (R63 to R66, R72, Table 2-8). -/
structure BxPort where
  en : Bool
  link : LinkState
  laneLock : Nat
  errCnt : Nat
  /-- PARTNER_NUM while PARTNER_VALID -/
  partner : Option Nat
  /-- BX_PCAP -/
  pcap : W64
  offset : Int
  rtt : Nat
  fwdLoss : W32
  /-- channels forwarded (bit n for channel n) -/
  fwd : Nat
  /-- sum of doubled offsets and of round trips over the frame pairs since the last average -/
  sumTheta : Int
  sumRtt : Int
  pairs : Nat
  /-- tag frames sent on the port in the last microsecond, newest first -/
  sent : List BxSent
  /-- source devices and channels with forwarded tags dropped since their last LOSS record, and their counts -/
  lossPend : List (Nat × Nat × Nat)
deriving DecidableEq, Repr

def BxPort.reset : BxPort :=
  { en := false, link := .down, laneLock := 0, errCnt := 0, partner := none, pcap := 0, offset := 0, rtt := 0,
    fwdLoss := 0, fwd := 0, sumTheta := 0, sumRtt := 0, pairs := 0, sent := [], lossPend := [] }

/-- Alignment states (R67). -/
inductive AlignState where
  | off | acquire | track | hold | fault
deriving DecidableEq, Repr

/-- The Basxus link and the alignment of this device (R63 to R73). -/
structure Basxus where
  up : BxPort
  dn : BxPort
  relay : Bool
  align : AlignState
  /-- an ACQUIRE step that waits for the conditions of R50, and the remainder it leaves -/
  stepWait : Option (Int × Int)
  faultCause : Nat
  leader : Bool
  devnum : Option Nat
  asym : Int
  /-- partner's tick anchor taken in ACQUIRE (R70), on the partner's scale -/
  anchorPend : Option Int
  /-- an average of θ has been judged since ACQUIRE began -/
  judged : Bool
  /-- control frames sent to the followers (R71), newest first -/
  ctlSent : List BxCtl
deriving DecidableEq, Repr

def Basxus.reset : Basxus :=
  { up := BxPort.reset, dn := BxPort.reset, relay := false, align := .off, stepWait := none, faultCause := 0,
    leader := false, devnum := none, asym := 0, anchorPend := none, judged := false, ctlSent := [] }

end Sys2Proof.Machine
end

