-- ==== Sys2Proof/Machine/State.lean ====
section
/-! DEFINITION. The whole state of the block, why it can stop, and the state right after reset. -/
namespace Sys2Proof.Machine

/-- Reasons a command stops the block. -/
inductive Fault where
  /-- HOST_BANK_ACCESS of bytes outside the 64 MiB of BAR2 (R334): the spec gives no such address. Safe. -/
  | noSuchAddress
deriving DecidableEq, Repr

/-- Reasons a command has no meaning. -/
inductive Refusal where
  /-- raised by an arm of `exec` that is not modelled yet. Safe. -/
  | notModelled (mnemonic : String)
deriving DecidableEq, Repr

/-- The block. -/
structure State where
  /-- the commands that wait, first in, first out -/
  pending : List Instr
  tb : TimeBase
  ref : Reference
  pps : Pps
  bx : Basxus
  ch : Vector Channel 128
  cl : Vector Cluster 4
  slot : Vector Slot 512
  dec : Vector Decoder 32
  tim : Vector Timer 32
  timWr : List TimWrite
  brk : Vector Brake 8
  bank : Vector Bank 64
  /-- bank contents as byte cells; an unlisted byte reads 0 -/
  mem : List Host.Cell
  /-- word addresses that hold an uncorrectable error, ascending -/
  ue : List Nat
  dma : Vector Dma 16
  /-- DMA_NOSTREAM -/
  noStream : W32
  /-- posted writes issued to host memory, newest first -/
  posted : List Posted
  mir : Mirror
  pcie : Pcie
  env : Envir
  st : Status
  mb : Vector Mailbox 8
  /-- the place the next GO takes in the order of R372 -/
  goNext : Nat
  qp : Vector QueuePair 4
  grp : Vector Group 4
  ic : Ic
  err : ErrLog
  perf : Perf
  sec : Sec
  tamper : Tamper
  pwr : Power
  rtc : Rtc
  /-- accepted actions that wait for their boundary, in the order of acceptance -/
  deferred : List Deferred
  /-- completion of the last host read -/
  lastRead : Cpl
  /-- counter of free values used -/
  freeCnt : Nat
deriving DecidableEq, Repr

/-- The secure module while internal power-on reset is held: BOOT, keys present, nothing else loaded but SVN_MIN. -/
def Sec.reset : Sec :=
  { state := .boot, svnMin := Config.svnMin, fallback := false, updatePending := false, debug := 0, debugAt := none, slotB := false,
    activeB := false, fwA := FwSlot.empty, fwB := FwSlot.empty, update := none, svnRun := 0, fwHash := 0, fwVersion := 0,
    keys := true, coKey := none, userKeys := Vector.replicate 7 none, fails := [], locks := [],
    sess := Vector.replicate 2 none, nonce := Vector.replicate 2 none, lastNonce := 0, drbg := 0, handles := 0,
    sealHash := none, sealItems := [], tSeal := 0, rctr := 0, auditWr := 0, audit := [], queue := [], answers := [] }

/-- The block with internal power-on reset held (R431): every register at its power-on value. -/
def State.reset : State :=
  { pending := [], tb := TimeBase.reset, ref := Reference.reset, pps := Pps.reset, bx := Basxus.reset,
    ch := Vector.ofFn (fun i : Fin 128 => Channel.resetOf i.val), cl := Vector.replicate 4 Cluster.reset,
    slot := Vector.replicate 512 Slot.reset, dec := Vector.replicate 32 Decoder.reset,
    tim := Vector.replicate 32 Timer.reset, timWr := [], brk := Vector.replicate 8 Brake.reset,
    bank := Vector.replicate 64 Bank.reset, mem := [], ue := [], dma := Vector.replicate 16 Dma.reset, noStream := 0,
    posted := [], mir := Mirror.reset, pcie := Pcie.reset, env := Envir.reset, st := Status.reset,
    mb := Vector.replicate 8 Mailbox.reset, goNext := 0, qp := Vector.replicate 4 QueuePair.reset,
    grp := Vector.replicate 4 Group.reset, ic := Ic.reset, err := ErrLog.reset, perf := Perf.reset, sec := Sec.reset,
    tamper := Tamper.reset, pwr := Power.reset, rtc := Rtc.reset, deferred := [],
    lastRead := { bytes := [], poisoned := false }, freeCnt := 0 }

end Sys2Proof.Machine
end

