-- ==== Sys2Proof/Machine/Ops.lean ====
section
/-! DEFINITION. The named operations every family shares: parts of the state, time, reports, interrupt sources, counters, latches, notices, banks. -/
namespace Sys2Proof.Machine

/-! Parts of the state. -/

def State.modCh (s : State) (n : Nat) (f : Channel → Channel) : State := { s with ch := vmod s.ch n f }
def State.modIn (s : State) (n : Nat) (f : ChIn → ChIn) : State := s.modCh n fun c => { c with inp := f c.inp }
def State.modCal (s : State) (n : Nat) (f : ChCal → ChCal) : State := s.modCh n fun c => { c with cal := f c.cal }
def State.modOut (s : State) (n : Nat) (f : ChOut → ChOut) : State := s.modCh n fun c => { c with out := f c.out }
def State.modPu (s : State) (n : Nat) (f : PatUnit → PatUnit) : State := s.modCh n fun c => { c with pu := f c.pu }
def State.modPr (s : State) (n : Nat) (f : ChPair → ChPair) : State := s.modCh n fun c => { c with pr := f c.pr }
def State.modCl (s : State) (c : Nat) (f : Cluster → Cluster) : State := { s with cl := vmod s.cl c f }
def State.modMe (s : State) (c : Nat) (f : Microengine → Microengine) : State := s.modCl c fun k => { k with me := f k.me }
def State.modSch (s : State) (c : Nat) (f : Sched → Sched) : State := s.modCl c fun k => { k with sch := f k.sch }
def State.modTask (s : State) (c t : Nat) (f : Task → Task) : State :=
  s.modSch c fun k => { k with tasks := vmod k.tasks t f }
def State.modSlot (s : State) (k : Nat) (f : Slot → Slot) : State := { s with slot := vmod s.slot k f }
def State.modDec (s : State) (d : Nat) (f : Decoder → Decoder) : State := { s with dec := vmod s.dec d f }
def State.modTim (s : State) (n : Nat) (f : Timer → Timer) : State := { s with tim := vmod s.tim n f }
def State.modBrk (s : State) (b : Nat) (f : Brake → Brake) : State := { s with brk := vmod s.brk b f }
def State.modBank (s : State) (b : Nat) (f : Bank → Bank) : State := { s with bank := vmod s.bank b f }
def State.modDma (s : State) (k : Nat) (f : Dma → Dma) : State := { s with dma := vmod s.dma k f }
def State.modMb (s : State) (m : Nat) (f : Mailbox → Mailbox) : State := { s with mb := vmod s.mb m f }
def State.modQp (s : State) (q : Nat) (f : QueuePair → QueuePair) : State := { s with qp := vmod s.qp q f }
def State.modSrc (s : State) (k : Nat) (f : Source → Source) : State := { s with ic := { s.ic with src := vmod s.ic.src k f } }

def State.chan (s : State) (n : Nat) : Channel := vget s.ch n
def State.clus (s : State) (c : Nat) : Cluster := vget s.cl c
def State.me (s : State) (c : Nat) : Microengine := (vget s.cl c).me
def State.slotAt (s : State) (k : Nat) : Slot := vget s.slot k
def State.decAt (s : State) (d : Nat) : Decoder := vget s.dec d
def State.timAt (s : State) (n : Nat) : Timer := vget s.tim n
def State.brkAt (s : State) (b : Nat) : Brake := vget s.brk b
def State.bankAt (s : State) (b : Nat) : Bank := vget s.bank b
def State.dmaAt (s : State) (k : Nat) : Dma := vget s.dma k
def State.mbAt (s : State) (m : Nat) : Mailbox := vget s.mb m
def State.qpAt (s : State) (q : Nat) : QueuePair := vget s.qp q
def State.srcAt (s : State) (k : Nat) : Source := vget s.ic.src k

/-- A function applied for each index of a list, in order. -/
def State.each (s : State) (l : List Nat) (f : State → Nat → State) : State := l.foldl f s

/-! Time (R41, R42, R52). -/

/-- tq of one CCLK cycle. -/
def cclk : Nat := 12800

/-- tq of a second. -/
def secondTq : Nat := 8000000000000

/-- tq of a microsecond, the lead of every boundary B. -/
def leadTq : Nat := 8000000

/-- The instant now, on the scale that no step moves. -/
def State.now (s : State) : Nat := s.tb.phys

/-- Extended time of the DTC (R41). -/
def State.ext (s : State) : Nat := s.tb.dtc + s.tb.wraps * dtcMod

/-- What turns an instant into extended time. -/
def State.off (s : State) : Int := (s.ext : Int) - (s.now : Int)

/-- The CCLK cycle in which an instant lies: the first edge at or after it. -/
def cycleOf (p : Nat) : Nat := cdiv p cclk

/-- The CCLK edge at or after now. -/
def State.edge (s : State) : Nat := cycleOf s.now * cclk

/-- DTC value of an instant (R42: modulo 2^80). -/
def State.dtcAt (s : State) (p : Int) : Nat := ((p + s.off) % (dtcMod : Int)).toNat

/-- A counter of Table 15-6 chained into the next one (R402). -/
def chained (n : Nat) : Bool := decide ((n % 2 = 0 ∧ n ≤ 18) ∨ n = 48)

/-- One of the 256 sources whose line is a level (Table 15-1). -/
def isLevel (k : Nat) : Bool :=
  decide ((216 ≤ k ∧ k < 224) ∨ k = 234 ∨ k = 246 ∨ k = 247 ∨ k = 248 ∨ k = 253)

/-- A source becomes pending. -/
def Source.pend (x : Source) (now : Nat) : Source := { x with pending := true, pendAt := if x.pending then x.pendAt else now }

/-- CNT counts the arrivals while ACTIVE (R391). -/
def Source.tally (x : Source) : Source := { x with cntPrev := x.cnt, cnt := if x.active then satInc 255 x.cnt else x.cnt }

/-- A held or direct arrival: what R391 and R392 do with it. -/
def Source.arrive (x : Source) (now : Nat) : Source :=
  let x := x.tally
  if x.coalCnt ≤ 1 then x.pend now
  else
    let first := if x.held = 0 then now else x.heldAt
    if x.coalCnt ≤ x.held + 1 then { x with held := 0 }.pend now
    else { x with held := x.held + 1, heldAt := first }

/-- A wake source fires: it counts from the taking of a sleep command and in RETAIN, when it is enabled (R443). -/
def State.wakeBy (s : State) (b : Nat) : State :=
  if (s.pwr.retain.isSome ∨ s.pwr.state = .retain) ∧ s.pwr.wakeEn.testBit b then
    { s with pwr := { s.pwr with wakeFired := s.pwr.wakeFired ||| 2 ^ b } }
  else s

/-- The wake source that an event source stands for: a brake trip, a reference change, a Basxus change (R443). -/
def State.wakeOf (s : State) (k : Nat) : State :=
  if 224 ≤ k ∧ k < 232 then s.wakeBy 3 else if k = 235 then s.wakeBy 4 else if k = 237 then s.wakeBy 6 else s

/-- An event source raised (R389, R391): events of one edge make one arrival; EN = 0 ignores it. -/
def State.raise (s : State) (k : Nat) : State :=
  let cyc := cycleOf s.now
  (s.wakeOf k).modSrc k fun x =>
    if !x.en || x.arrAt == some cyc then x
    else ({ x with arrAt := some cyc } : Source).arrive s.now

/-- A level source's line as it now stands (R391, LEVEL mode). -/
def State.setLine (s : State) (k : Nat) (v : Bool) : State :=
  s.modSrc k fun x =>
    if x.line = v then x
    else if !x.en then { x with line := v, pending := false }
    else if v then
      let x := ({ x with line := true, arrAt := some (cycleOf s.now) } : Source).tally
      if x.active ∧ !x.edge then x
      else if x.coalCnt ≤ 1 then x.pend s.now
      else if x.coalCnt ≤ x.held + 1 then { x with held := 0 }.pend s.now
      else { x with held := x.held + 1, heldAt := if x.held = 0 then s.now else x.heldAt }
    else if x.edge then { x with line := false }
    else { x with line := false, pending := false }

/-- A counter's overflow: its OVF bit and source 241 (R402). -/
def State.pcWrap (s : State) (n : Nat) : State :=
  { s with perf := { s.perf with ovf := s.perf.ovf ||| BitVec.ofNat 64 (2 ^ n) } }.raise 241

/-- An unchained counter or the upper one of a chain advanced. -/
def State.pcRaw (s : State) (n k : Nat) : State :=
  let v := (vget s.perf.val n).toNat + k
  let s := { s with perf := { s.perf with val := vset s.perf.val n (w32 v) } }
  if 2 ^ 32 ≤ v then s.pcWrap n else s

/-- Counter n counts k occurrences (R401, R402): carries go along the chain. -/
def State.pcAdd (s : State) (n k : Nat) : State :=
  if !s.perf.en then s
  else if chained n then
    let v := (vget s.perf.val n).toNat + k
    let s := { s with perf := { s.perf with val := vset s.perf.val n (w32 v) } }
    if 2 ^ 32 ≤ v then s.pcRaw (n + 1) (v / 2 ^ 32) else s
  else s.pcRaw n k

/-- The DTC moved on by d tq, with its wrap (R42). -/
def TimeBase.count (t : TimeBase) (d : Nat) : TimeBase :=
  let v := t.dtc + d
  if v < dtcMod then { t with dtc := v, phys := t.phys + d }
  else { t with dtc := v % dtcMod, wraps := t.wraps + v / dtcMod, epochWrap := true, phys := t.phys + d }

/-- Time passes: the DTC counts unless internal power-on reset is held; PC10 and PC11 count the CCLK edges. -/
def State.advance (s : State) (d : Nat) : State :=
  if s.pwr.startup = .held then { s with tb := { s.tb with phys := s.tb.phys + d } }
  else
    let k := (s.now + d) / cclk - s.now / cclk
    { s with tb := s.tb.count d }.pcAdd 10 k

/-- Time passes up to an instant, if it still lies ahead. -/
def State.runTo (s : State) (p : Nat) : State := if s.now < p then s.advance (p - s.now) else s

/-- tq of a tick. -/
def State.tickTq (s : State) : Nat := s.tb.tickP * cclk

/-- First element at or after x of a grid with origin g and step d. -/
def gridFrom (g d x : Nat) : Nat := if x ≤ g then g else g + cdiv (x - g) d * d

/-- First second mark at or after an extended time (R47). -/
def secondFrom (x : Nat) : Nat := cdiv x secondTq * secondTq

/-- First tick boundary (extended time) at or after an extended time, under the present tick and a pending change (R52, R55). -/
def State.boundaryFrom (s : State) (x : Nat) : Nat :=
  let old := gridFrom s.tb.tickEnd s.tickTq x
  match s.tb.tickPend with
  | none => old
  | some p =>
    let c := if s.pps.mode = 0 then s.tb.tickEnd else secondFrom s.tb.tickEnd
    if old ≤ c then old else gridFrom c (p * cclk) x

/-- Boundary B: the first tick boundary at least 1 µs ahead, as an extended time. -/
def State.boundaryB (s : State) : Nat := s.boundaryFrom (s.ext + leadTq)

/-- The instant from which a boundary B of now counts. -/
def State.whenB (s : State) : When := .phys (s.now + leadTq)

/-- The three reply words of an extended time (R376's DTC words). -/
def extWords (x : Nat) : List W32 := dtcWords (x % dtcMod)

/-- An action put off to its boundary. -/
def State.defer (s : State) (w : When) (op : Nat) (words : List W32) : State :=
  { s with deferred := s.deferred ++ [{ at_ := w, op := op, words := words }] }

/-! The error log (R399, R400). -/

/-- The writer has taken the head of the FIFO by this cycle. -/
def ErrLog.headTaken (e : ErrLog) (cyc : Nat) : Bool :=
  match e.fifo with
  | [] => false
  | r :: _ => decide (max (r.acc + 1) e.nextTake ≤ cyc)

/-- Places taken in the FIFO at this cycle. -/
def ErrLog.level (e : ErrLog) (cyc : Nat) : Nat := e.fifo.length - b2n (e.headTaken cyc)

/-- A report merged (R399). -/
def ErrLog.merge (e : ErrLog) (cls : Nat) : ErrLog :=
  { e with ovf := vmod e.ovf cls (satInc 65535), merged := e.merged + 1, mergedCls := e.mergedCls ||| 2 ^ cls }

/-- The LOST entry accepted before this cycle, when reports have been merged and there is room. -/
def ErrLog.acceptLost (e : ErrLog) (cyc : Nat) (time : Nat) : ErrLog :=
  if e.merged = 0 then e
  else if e.level cyc < 16 then
    { e with
      fifo := e.fifo ++ [{ cls := 0, code := 1, object := 0, arg0 := w32 e.merged, arg1 := w32 (e.mergedCls % 2 ^ 15),
                           time := time, acc := cyc }]
      merged := 0
      mergedCls := 0
      freeFrom := cyc + 1 }
  else e

/-- First cycle with room for a LOST entry: after the last acceptance, and after the take that frees a full FIFO. -/
def ErrLog.lostCycle (e : ErrLog) : Nat :=
  match e.fifo with
  | [] => e.freeFrom
  | r :: _ => if e.fifo.length < 16 then e.freeFrom else max e.freeFrom (max (r.acc + 1) e.nextTake)

/-- A report made now (R399): one is accepted in a cycle, the one of lowest class and object; a full FIFO merges it. -/
def State.report (s : State) (cls code object : Nat) (arg0 arg1 : W32) : State :=
  let cyc := cycleOf s.now
  let t (c : Nat) := s.dtcAt (c * cclk)
  let lc := s.err.lostCycle
  let e := if 0 < s.err.merged ∧ lc < cyc then s.err.acceptLost lc (t lc) else s.err
  let r : Report := { cls := cls, code := code, object := object % 2 ^ 24, arg0 := arg0, arg1 := arg1, time := t cyc, acc := cyc }
  if 0 < e.merged ∧ e.freeFrom ≤ cyc ∧ e.level cyc < 16 then
    { s with err := (e.acceptLost cyc (t cyc)).merge cls }.pcAdd 47 1
  else if e.freeFrom ≤ cyc then
    if e.level cyc < 16 then { s with err := { e with fifo := e.fifo ++ [r], freeFrom := cyc + 1 } }
    else { s with err := e.merge cls }.pcAdd 47 1
  else
    match e.fifo.getLast? with
    | some l =>
      if l.acc = cyc ∧ l.cls ≠ 0 ∧ (cls < l.cls ∨ (cls = l.cls ∧ object < l.object)) then
        { s with err := { e with fifo := e.fifo.dropLast ++ [r] }.merge l.cls }.pcAdd 47 1
      else { s with err := e.merge cls }.pcAdd 47 1
    | none => { s with err := e.merge cls }.pcAdd 47 1

/-! Event latches and timer triggers (R260, R295, Table 9-8). -/

/-- Latches of one microengine bound to a code are set on this CCLK cycle. -/
def Microengine.latch (m : Microengine) (cyc code : Nat) : Microengine :=
  let hit := idxMask ((List.range 32).filter fun i => decide (vget m.image.evb i = code))
  if hit = 0 then m
  else
    let prev := if m.evlAt = cyc then m.evlPrev else m.evl
    let raised := (if m.evlAt = cyc then m.evlRaised else 0) ||| BitVec.ofNat 32 hit
    { m with evl := m.evl ||| BitVec.ofNat 32 hit, evlAt := cyc, evlRaised := raised, evlPrev := prev }

/-- Timers whose trigger selections name the event: it takes effect on the next CCLK edge. -/
def Timer.trigger (t : Timer) (code sel at_ : Nat) : Timer :=
  let m (x : Nat) : Bool := decide (x % 65536 = code ∧ (sel = 4 ∨ x / 65536 = sel))
  let t := if code ≠ 0 ∧ m t.trigA then { t with pendA := t.pendA ++ [at_] } else t
  if code ≠ 0 ∧ m t.trigB then { t with pendB := t.pendB ++ [at_] } else t

/-- An event of Table 9-8 raised: kinds 1, 2 and 3 belong to cluster c, the others to no cluster (c = 4). -/
def State.event (s : State) (c kind arg : Nat) : State :=
  if c < 4 ∧ s.pwr.gated.testBit c then s
  else
    let cyc := cycleOf s.now
    let code := kind * 4096 + arg
    let s := if kind = 4 ∧ arg = s.pwr.wakeTimer then s.wakeBy 2 else s
    let s := s.each (if c < 4 then [c] else [0, 1, 2, 3]) fun s k => s.modMe k (Microengine.latch · cyc code)
    { s with tim := s.tim.map (Timer.trigger · code c ((cyc + 1) * cclk)) }

/-! Notices (R383). -/

/-- Notices and their words written into a D2H queue if they fit whole. -/
def QueuePair.write (q : QueuePair) (type : Nat) (data : List W32) : QueuePair :=
  if q.d2h.length + data.length + 1 ≤ 1024 then
    let h := w32 (put 24 8 type + put 16 8 data.length + q.noteSeq.toNat)
    { q with d2h := q.d2h ++ h :: data, d2hProd := q.d2hProd + w32 (data.length + 1), noteSeq := q.noteSeq + 1 }
  else { q with d2hLost := q.d2hLost + 1, lostSince := q.lostSince + 1 }

/-- The LOST notice, as soon as two words are free. -/
def QueuePair.putLost (q : QueuePair) : QueuePair :=
  if q.lostSince = 0 ∨ 1024 < q.d2h.length + 2 then q
  else { q.write 2 [q.lostSince] with lostSince := 0 }

/-- A notice of type 3 to 7 sent to every pair whose mask asks for it. -/
def State.notice (s : State) (type : Nat) (data : List W32) : State :=
  s.each [0, 1, 2] fun s k => s.modQp k fun q =>
    if q.d2hEn ∧ q.noteMask.testBit (type - 3) then (q.putLost).write type data else q

/-! Banks (R321 to R334). -/

/-- A refused access recorded (R324). -/
def State.deny (s : State) (b req word : Nat) (write : Bool) : State :=
  let s := s.modBank b fun k =>
    { k with denyValid := true, denyWrite := write, denyReq := req, denyWord := word, denySeen := true,
             denyCnt := satInc (2 ^ 32 - 1) k.denyCnt }
  (s.report 8 1 b (w32 (put 31 1 1 + put 24 1 (b2n write) + put 20 4 req + word)) 0).raise 243

/-- An uncorrectable error recorded (R329). -/
def State.badWord (s : State) (b req word : Nat) : State :=
  let s := s.modBank b fun k =>
    { k with errValid := true, errReq := req, errWord := word, ueSeen := true, ueCnt := satInc (2 ^ 32 - 1) k.ueCnt }
  (s.report 8 2 b (w32 (put 31 1 1 + put 20 4 req + word)) 0).raise 243

/-- A corrected error counted (R329). -/
def State.correctedWord (s : State) (b : Nat) : State :=
  (s.modBank b fun k => { k with ceCnt := satInc (2 ^ 32 - 1) k.ceCnt }).pcAdd 54 1

/-- What a read of a word finds: an error that is stored stays until a whole-word write (R329). -/
def State.eccOf (s : State) (w : Nat) (e : Ecc) : Ecc := if w ∈ s.ue then .bad else e

/-- A word that cannot be corrected, remembered. -/
def State.markBad (s : State) (w : Nat) : State := if w ∈ s.ue then s else { s with ue := s.ue ++ [w] }

/-- A word read by the identity `req`: none where it is uncorrectable. -/
def State.readWord (s : State) (w req : Nat) (e : Ecc) : State × Option W64 :=
  let b := w / 131072
  match s.eccOf w e with
  | .ok => (s, some (Mem.word s.mem w))
  | .corrected => (s.correctedWord b, some (Mem.word s.mem w))
  | .bad => ((s.markBad w).badWord b req (w % 131072), none)

/-- A whole word written: new check bits, so a stored error goes (R329). -/
def State.writeWord (s : State) (w : Nat) (v : W64) : State :=
  { s with mem := Mem.setWord s.mem w v, ue := s.ue.filter (fun x => decide (x ≠ w)) }

/-- An add in the bank's mode (R332). -/
def addWord (saturating : Bool) (word operand : W64) : W64 :=
  if saturating then BitVec.ofInt 64 (clampInt 0 (2 ^ 64 - 1) ((word.toNat : Int) + operand.toInt)) else word + operand

/-- One bank zeroed with valid check bits (R331). -/
def State.zeroBank (s : State) (b : Nat) : State :=
  { s with mem := Mem.clear s.mem (b * 1048576) ((b + 1) * 1048576)
           ue := s.ue.filter (fun w => decide (w / 131072 ≠ b)) }

/-- A posted write to host memory issued, counted by PC48 and PC49. -/
def State.post (s : State) (addr : Nat) (words : List W32) : State :=
  { s with posted := { addr := addr, words := words } :: s.posted }.pcAdd 48 1

/-- A free value is used: the counter that names the next one moves on. -/
def State.useFree (s : State) : State := { s with freeCnt := s.freeCnt + 1 }

end Sys2Proof.Machine
end

