-- ==== Sys2Proof/Machine/Operands.lean ====
section
/-! DEFINITION. Return codes, the result of a command's handler, and the operand forms that several commands share. -/
namespace Sys2Proof.Machine

/-! Return codes of Table 14-3. -/

def rcOk : Nat := 0x00
def rcBusy : Nat := 0x01
def rcBadOpcode : Nat := 0x02
def rcBadLength : Nat := 0x03
def rcRange : Nat := 0x04
def rcState : Nat := 0x05
def rcResource : Nat := 0x06
def rcGroupFailed : Nat := 0x07
def rcTimeout : Nat := 0x08
def rcDenied : Nat := 0x09
def rcNotReady : Nat := 0x0A
def rcIntegrity : Nat := 0x0B
def rcAborted : Nat := 0x0C
def rcAbortedWake : Nat := 0x0D
def rcCancelledHostReset : Nat := 0x0E
def rcNoGroup : Nat := 0x10

/-- What a handler does with a taken command: it is done with a code and reply words, or it waits. -/
inductive Res where
  | done (s : State) (code : Nat) (reply : List W32)
  | wait (s : State) (w : MbWait)

/-- A refused command: nothing changes and no reply word (R376). -/
def fail (s : State) (code : Nat) : Res := .done s code []

/-- An accepted command. -/
def okay (s : State) (reply : List W32) : Res := .done s rcOk reply

/-- The first failing check of a list gives the code; 0 when none fails. -/
def firstCode : List (Bool × Nat) → Nat
  | [] => 0
  | (b, c) :: l => if b then c else firstCode l

/-- Some bit outside a mask is set: a reserved bit (R377, RANGE). -/
def reserved (w : W32) (mask : Nat) : Bool := decide (w.toNat &&& mask ≠ w.toNat)

/-- Mask of bits [hi:lo]. -/
def fieldMask (hi lo : Nat) : Nat := (2 ^ (hi + 1 - lo) - 1) * 2 ^ lo

/-- The numbers from `a` to `b`. -/
def rangeIdx (a b : Nat) : List Nat := (List.range (b + 1 - a)).map (a + ·)

/-- A three-word DTC operand as extended time: a value of the present epoch (R42). -/
def State.extOf (s : State) (a b c : W32) : Nat := dtcOf a b c + s.tb.wraps * dtcMod

/-- The third word of a DTC operand has bits outside [15:0]. -/
def dtcReserved (c : W32) : Bool := reserved c 0xFFFF

/-- A binding or trigger code of Table 9-8 is not reserved (R260). -/
def codeOk (x : Nat) : Bool :=
  let k := x / 4096
  let a := x % 4096
  match k with
  | 0 => decide (a = 0)
  | 1 => decide (a < 128)
  | 2 => decide (a < 64 ∧ a % 8 < 6)
  | 3 => decide (a < 128)
  | 4 => decide (a < 32)
  | 5 => decide (a = 0)
  | 6 => decide (a < 8)
  | _ => false

/-- A deferred action of an opcode whose first payload word has a given low field. -/
def State.hasDeferred (s : State) (op : Nat) (p : List W32 → Bool) : Bool :=
  s.deferred.any fun d => d.op == op && p d.words

end Sys2Proof.Machine
end

