-- ==== Sys2Proof/Machine/Stream.lean ====
section
/-! DEFINITION. The words of a stream: their encoding (R90 to R93) and their order (R94, R95). -/
namespace Sys2Proof.Machine

/-- A record word: bit 63, its type, and its body. -/
def recordWord (type body : Nat) : W64 := BitVec.ofNat 64 (2 ^ 63 + put 60 3 type + body)

/-- The 64 bits of a word (Tables 3-2 and 3-3). -/
def Word.encode : Word → W64
  | .tag ch time rising q => BitVec.ofNat 64 (put 56 7 ch + put 55 1 (b2n rising) + put 54 1 (b2n q) + put 0 54 time)
  | .epoch reason hi => recordWord 0 (put 26 4 reason + put 0 26 hi)
  | .loss ch cause count => recordWord 1 (put 53 7 ch + put 50 3 cause + put 0 32 count)
  | .tick st b => recordWord 2 (put 55 1 (b2n st) + put 0 54 b)
  | .calSteal ch i seq => recordWord 3 (put 53 7 ch + put 52 1 i + put 0 32 seq)
  | .trace ev ch arg => recordWord 4 (put 52 8 ev + put 45 7 ch + put 0 45 arg)

/-- Place among words of one sort time: TRACE, EPOCH, TICK, CAL_STEAL, LOSS, then tags (R95). -/
def Word.rank : Word → Nat
  | .trace ev ch _ => ev * 128 + ch
  | .epoch _ _ => 100000
  | .tick _ _ => 100001
  | .calSteal ch _ _ => 100002 + ch
  | .loss ch cause _ => 101000 + ch * 8 + cause
  | .tag ch _ _ _ => 110000 + ch

/-- The order of a merged stream (R94, R95). -/
def PWord.before (a b : PWord) : Bool := decide (a.sort < b.sort ∨ (a.sort = b.sort ∧ a.word.rank < b.word.rank))

/-- The first word of a list in stream order. -/
def firstWord : List PWord → Option PWord
  | [] => none
  | w :: l => match firstWord l with
    | none => some w
    | some v => if v.before w then some v else some w

/-- The channel a word concerns, where it concerns one. -/
def Word.channel : Word → Option Nat
  | .tag ch .. => some ch
  | .loss ch .. => some ch
  | .calSteal ch .. => some ch
  | .trace 6 ch _ => some ch
  | _ => none

/-- LATE_MERGE sets Q (R98). -/
def Word.withQ : Word → Word
  | .tag ch t r _ => .tag ch t r true
  | w => w

/-- The word is a tag. -/
def Word.isTag : Word → Bool
  | .tag .. => true
  | _ => false

/-- A record of an event at an instant, put into the merge of a cluster. -/
def State.emit (s : State) (c : Nat) (sort : Int) (dtc : Nat) (w : Word) : State :=
  s.modCl c fun k => { k with pool := k.pool ++ [{ sort := sort, dtc := dtc, word := w, late := false }] }

/-- A record put into every cluster's merge that is not gated. -/
def State.emitAll (s : State) (sort : Int) (dtc : Nat) (w : Word) : State :=
  s.each ([0, 1, 2, 3].filter fun c => !s.pwr.gated.testBit c) fun s c => s.emit c sort dtc w

end Sys2Proof.Machine
end

