-- ==== Sys2Proof/Machine/Trace.lean ====
section
/-! DEFINITION. Deskew entries (R303), confidence (R131 to R133), the traceability state (R30, R31), the seal's validity (R144), and the lines of level sources. -/
namespace Sys2Proof.Machine

/-! The deskew entry. -/

/-- Whole tq nearest to a value in 1/2000 tq, a tie upward (R303). -/
def roundTq (z : Int) : Int := (z + 1000) / 2000

/-- Input and output terms without the temperature term, in 1/16 tq. -/
def ChCal.termIn (k : ChCal) : Int := k.inTerm + k.inPkg + 16 * k.cable
def ChCal.termOut (k : ChCal) : Int := k.outTerm + k.outPkg + 16 * k.cable

/-- lin and Lout. -/
def ChCal.lin (k : ChCal) : Int := roundTq (k.termIn * 125 + k.inTemp)
def ChCal.lout (k : ChCal) : Int := roundTq (k.termOut * 125 + k.outTemp)

def State.lin (s : State) (n : Nat) : Int := (s.chan n).cal.lin
def State.lout (s : State) (n : Nat) : Int := (s.chan n).cal.lout

/-- One of the two interpolators. -/
def ChCal.interp (k : ChCal) (i1 : Bool) : Interp := if i1 then k.int1 else k.int0
def ChCal.setInterp (k : ChCal) (i1 : Bool) (x : Interp) : ChCal := if i1 then { k with int1 := x } else { k with int0 := x }
def State.modInt (s : State) (n : Nat) (i1 : Bool) (f : Interp → Interp) : State :=
  s.modCal n fun k => k.setInterp i1 (f (k.interp i1))

/-- fine_tq (R119). -/
def ChCal.fine (k : ChCal) (i1 : Bool) (code : Nat) : Int :=
  ((k.interp i1).table.getD code 0 - 16 * (if i1 then k.d1 else 0) + 128) / 256

/-! Confidence. -/

/-- Code of CH_STATUS.CONF. -/
def Conf.code : Conf → Nat
  | .provisional => 0
  | .nominal => 1
  | .stale => 2
  | .failed => 3

/-- The order of R133. -/
def Conf.rank : Conf → Nat
  | .failed => 0
  | .stale => 1
  | .provisional => 2
  | .nominal => 3

/-- R131: the confidence, and its cause of Table 4-3. -/
def State.confOf (s : State) (n : Nat) : Conf × Nat :=
  let ch := s.chan n
  let k := ch.cal
  let starved := k.int0.starved || k.int1.starved
  if k.failed then (.failed, k.failCause)
  else if k.int0.rangeStale || k.int1.rangeStale then (.stale, 4)
  else if ch.inp.configured && k.inAt.isSome && k.inOld then (.stale, 5)
  else if (s.clus (n / 32)).monitor && starved then (.stale, 6)
  else if k.overdue then (.stale, 7)
  else if ch.out.configured && k.outAt.isSome && k.outOld then (.stale, 10)
  else if s.st.baseline then (.provisional, 8)
  else if k.int0.accepted = 0 || k.int1.accepted = 0 then (.provisional, 9)
  else if (ch.inp.configured && k.inAt.isNone) || (ch.out.configured && k.outAt.isNone) then (.provisional, 11)
  else (.nominal, 0)

/-- A channel whose input or output is enabled. -/
def Channel.enabled (c : Channel) : Bool := c.inp.en || c.out.en

/-! The seal. The sealed items: OTP hash, firmware hash, sealed channels, those of measured outputs, input terms, output terms,
T_seal, in words. -/

def sealIn (items : List W32) (n : Nat) : Int := signed 32 (items.getD (32 + n) 0).toNat
def sealOut (items : List W32) (n : Nat) : Int := signed 32 (items.getD (160 + n) 0).toNat
def sealHas (items : List W32) (n : Nat) : Bool := bit (items.getD (24 + n / 32) 0) (n % 32)
def sealHasOut (items : List W32) (n : Nat) : Bool := bit (items.getD (28 + n / 32) 0) (n % 32)

/-- The words of a 384-bit value: digest byte 4k + j in bits [8j + 7:8j] of word k (R273). -/
def words384 (h : BitVec 384) : List W32 := (List.range 12).map fun i => w32 (h.toNat / 2 ^ (32 * i))

/-- A term within the tolerance of its sealed value; `tol` in 1/16 tq. -/
def near (a b : Int) (tol : Nat) : Bool := decide (a - b ≤ (tol : Int) ∧ b - a ≤ (tol : Int))

/-- seal_valid (R144); 0 outside OPERATIONAL (R408). -/
def State.sealValid (s : State) : Bool :=
  let l := s.sec.sealItems
  decide (s.sec.state = .operational) && s.sec.sealHash.isSome && (l.take 12 == words384 Config.otpHash) && ((l.drop 12).take 12 == words384 s.sec.fwHash)
    && (List.range 128).all fun n =>
      let ch := s.chan n
      (!ch.inp.en || (sealHas l n && near ch.cal.termIn (sealIn l n) s.sec.tSeal))
        && (!ch.out.en || (sealHasOut l n && near ch.cal.termOut (sealOut l n) s.sec.tSeal))

/-! Traceability. -/

def State.refLock (s : State) : Bool := s.ref.state = .locked
def State.hashRec (s : State) : Bool :=
  s.st.fwRecorded && s.sec.debug ≠ 1 && [0, 1, 2, 3].all fun c => (s.me c).state ≠ .loading
def State.chNominal (s : State) : Bool := (List.range 128).all fun n => !(s.chan n).enabled || (s.chan n).cal.conf = .nominal

/-- R30. -/
def State.traceOf (s : State) : Nat :=
  if !s.refLock || !s.sealValid || !s.hashRec then 0 else if !s.chNominal then 1 else 2

/-- Edge on which a lowering made now takes effect: the one after now (R31). -/
def State.lowerEdge (s : State) : Nat := (s.now / cclk + 1) * cclk

/-- The confidence in force at an instant, and the traceability state in force now (R31). -/
def ChCal.confAt (k : ChCal) (now : Nat) : Conf := if now < k.confFrom then k.confPrev else k.conf
def State.traceNow (s : State) : Nat := if s.now < s.st.traceFrom then s.st.tracePrev else s.st.trace

/-- A channel's confidence set from an instant on, with its record there (R93) and the history of R32. -/
def State.setConf (s : State) (n : Nat) (v : Conf) (at_ : Int) : State :=
  let s := s.modCal n fun k => { k with conf := v, confPrev := k.confAt s.now, confFrom := at_.toNat }
  let s := { s with st := { s.st with confLog := s.st.confLog ++ [(at_.toNat, n, v.rank)] } }
  if s.pwr.gated.testBit (n / 32) then s else s.emit (n / 32) at_ (s.dtcAt at_) (.trace 6 n v.code)

/-- The traceability state set from an instant on: source 244, the notice, the record and the history. -/
def State.setTrace (s : State) (v : Nat) (at_ : Int) : State :=
  let s := { s with st := { s.st with
    trace := v, tracePrev := s.traceNow, traceFrom := at_.toNat, traceLog := s.st.traceLog ++ [(at_.toNat, v)] } }
  ((s.raise 244).notice 7 [w32 v]).emitAll at_ (s.dtcAt at_) (.trace 5 0 v)

/-- Confidences that have fallen are lowered at once. -/
def State.lowerConf (s : State) : State :=
  s.each (List.range 128) fun s n =>
    let v := (s.confOf n).1
    if v.rank < (s.chan n).cal.conf.rank then s.setConf n v s.lowerEdge else s

/-- The traceability state is lowered at once. -/
def State.lowerTrace (s : State) : State :=
  if s.traceOf < s.st.trace then s.setTrace s.traceOf s.lowerEdge else s

/-- At a boundary, confidence and state follow their conditions, raised ones too (R31). -/
def State.raiseAll (s : State) (at_ : Int) : State :=
  let s := s.each (List.range 128) fun s n =>
    let v := (s.confOf n).1
    if v ≠ (s.chan n).cal.conf then s.setConf n v at_ else s
  if s.traceOf ≠ s.st.trace then s.setTrace s.traceOf at_ else s

/-- The lines of the level sources as they stand (Table 15-1). -/
def State.lines (s : State) : State :=
  let s := s.each (List.range 8) fun s m => s.setLine (216 + m) (decide ((s.mbAt m).state = .posted))
  let s := s.setLine 234 s.env.trip
  let s := s.setLine 246 ([0, 1, 2].any fun q => !(s.qpAt q).h2d.isEmpty)
  let s := s.setLine 247 (!s.sec.answers.isEmpty)
  let s := s.setLine 248 (!s.sec.queue.isEmpty)
  s.setLine 253 (decide (s.tamper.active ≠ 0))

/-- TDR measurements in progress note a loss of the reference (R308). -/
def State.noteUnlocked (s : State) : State :=
  if s.refLock then s
  else { s with env := { s.env with tdr := s.env.tdr.map fun r => r.map fun r => { r with unlocked := true } } }

/-- The history of ref_lock (R418, word 79). -/
def State.noteLock (s : State) : State :=
  let last := match s.st.lockLog.getLast? with | some x => x.2 | none => false
  if last = s.refLock then s else { s with st := { s.st with lockLog := s.st.lockLog ++ [(s.now, s.refLock)] } }

/-! The condition bits of SYS_STATUS (R33). -/

/-- SYS_STATUS [6:3] as the conditions stand; 0 while internal power-on reset is held. -/
def State.conds (s : State) : Nat :=
  if s.pwr.startup = .held then 0
  else b2n s.refLock + put 1 1 (b2n s.chNominal) + put 2 1 (b2n s.sealValid) + put 3 1 (b2n s.hashRec)

/-- SYS_STATUS [6:3] as it reads now: a change shows from the next CCLK cycle. -/
def State.condShown (s : State) : Nat := if s.now < s.st.condFrom then s.st.condPrev else s.st.cond

/-- A change of the conditions noted. -/
def State.noteConds (s : State) : State :=
  if s.conds = s.st.cond then s
  else { s with st := { s.st with cond := s.conds, condPrev := s.condShown, condFrom := s.lowerEdge } }

/-! REFOUT (R57): TCLK / 250, counted from power-on reset. -/

/-- The outputs of a mode are driven. -/
def State.outOn (s : State) (mode : Nat) : Bool := mode = 1 || (mode = 2 && s.refLock)

/-- The square wave is high at an instant: the second half of each 250 TCLK periods. -/
def refoutHigh (p : Nat) : Bool := decide (400000 ≤ p % 800000)

/-- REFOUT runs at an instant. -/
def Status.refoutOn (x : Status) (p : Nat) : Bool := if p < x.refoutAt then !x.refout else x.refout

/-- The level of REFOUT now. -/
def State.refoutPin (s : State) : Bool := s.st.refoutOn s.now && refoutHigh s.now

/-- REFOUT starts or stops: at once while the wave is low, else when it falls. -/
def State.noteRefout (s : State) : State :=
  let want := s.outOn s.ref.refoutMode
  if want = s.st.refout then s
  else
    let at_ := if s.st.refoutOn s.now = want ∨ !refoutHigh s.now then s.now else (s.now / 800000 + 1) * 800000
    { s with st := { s.st with refout := want, refoutAt := at_ } }

/-! The capability word (Table 2-7). -/

/-- The capability word of this device. -/
def State.bxCap (s : State) : W64 :=
  BitVec.ofNat 64 (0x4128 + put 16 4 1 + put 20 4 (s.bx.devnum.getD 0xF) + put 24 1 (b2n s.bx.leader) + put 25 1 (b2n s.refLock)
    + put 26 2 s.st.trace + put 28 1 (b2n (decide (s.pps.mode ≠ 0))) + put 29 1 (b2n s.bx.devnum.isSome)
    + put 32 23 s.tb.tickP + put 56 8 1)

/-- The word is sent again on the ports that are UP when a field has changed (R65). -/
def State.noteCap (s : State) : State :=
  if s.bx.up.link ≠ .up ∧ s.bx.dn.link ≠ .up then s else { s with st := { s.st with capSent := s.bxCap } }

/-- What follows from a change of any condition: lowerings, what is shown and sent of them, and lines. -/
def State.settle (s : State) : State :=
  s.noteUnlocked.noteLock.lowerConf.lowerTrace.noteConds.noteRefout.noteCap.lines

end Sys2Proof.Machine
end

