-- ==== Sys2Proof/Machine/Input.lean ====
section
/-! DEFINITION. Input channels: the comparator's transitions, tandem conversion, the tag, the qualifier, the FIFO, and CH_SET_INPUT (chapter 3). -/
namespace Sys2Proof.Machine

/-! The channel FIFO (R100 to R102). -/

/-- Tags held in a channel FIFO; a LOSS record occupies no entry. -/
def fifoTags (l : List FifoItem) : Nat := (l.filter fun x => match x with | .tag _ => true | .loss .. => false).length

/-- Q set in the newest tag of a FIFO. -/
def markNewest : List FifoItem → List FifoItem
  | [] => []
  | .tag t :: l => if fifoTags l = 0 then .tag { t with q := true } :: l else .tag t :: markNewest l
  | x :: l => x :: markNewest l

/-- LOSS records of a channel in ascending cause (R101, R102): FIFO_FULL, DEAD_TIME and BLANKED counts, with a sort time. -/
def lossItems (full dead blank : Nat) (sort : Int) (dtc : Nat) : List FifoItem :=
  ([(0, full), (1, dead), (4, blank)].filter fun a => a.2 ≠ 0).map fun a => .loss a.1 a.2 sort dtc

/-- Of the pending losses, those of edges before a tag's edge: a tag accepted after the losses follows them in the order of the
edges, whatever the conversions still awaited at a loss. -/
def ChIn.dueDead (x : ChIn) (t : Tag) : Nat := x.pendDead - (x.lossDead - t.dead).toNat
def ChIn.dueBlank (x : ChIn) (t : Tag) : Nat := x.pendBlank - (x.lossBlank - t.blank).toNat

/-- A tag reaches the FIFO. -/
def ChIn.accept (x : ChIn) (t : Tag) : ChIn :=
  if fifoTags x.fifo < 512 then
    let l := x.fifo ++ lossItems x.pendFifo (x.dueDead t) (x.dueBlank t) t.phys t.time ++ [.tag { t with q := t.q || x.afterDrop }]
    { x with fifo := l, pendFifo := 0, pendDead := x.pendDead - x.dueDead t, pendBlank := x.pendBlank - x.dueBlank t,
             afterDrop := false, tagCnt := x.tagCnt + 1 }
  else
    { x with fifo := if x.afterDrop then x.fifo else markNewest x.fifo, afterDrop := true, lossFifo := x.lossFifo + 1,
             fifoOvf := true, pendFifo := x.pendFifo + 1 }

/-- The edge selection of CH_IN_CFG.EDGE, then the FIFO. -/
def ChIn.select (x : ChIn) (t : Tag) : ChIn :=
  if x.edge = 2 ∨ (x.edge = 0) = t.rising then x.accept t else x

/-! The qualifier (R81 to R84). -/

/-- The edge is a leading edge of the judged polarity. -/
def ChIn.leading (x : ChIn) (t : Tag) : Bool := t.rising != x.qualPol

/-- No edge was lost between two edges that follow each other (R83). -/
def Tag.follows (t h : Tag) : Bool := t.dead == h.dead && t.blank == h.blank

/-- A tag reaches the qualifier at an instant. -/
def ChIn.qualify (now : Int) (x : ChIn) (t : Tag) : ChIn :=
  match x.hold with
  | none =>
    if x.minpw ≠ 0 ∧ x.leading t then { x with hold := some { tag := t, minpw := x.minpw } }
    else x.select t
  | some h =>
    if x.waiting.isEmpty ∧ t.follows h.tag ∧ t.rising ≠ h.tag.rising ∧ t.phys - h.tag.phys < (h.minpw : Int) then
      { x with hold := none, heldTo := now, qualCnt := x.qualCnt + 1 }
    else { x with waiting := x.waiting ++ [t] }

/-- The held edge is released at an instant, and the edges behind it reach the qualifier. -/
def ChIn.release (now : Int) (x : ChIn) : ChIn :=
  match x.hold with
  | none => x
  | some h =>
    x.waiting.foldl (ChIn.qualify now) ({ x with hold := none, waiting := [], heldTo := now }.select h.tag)

/-! Lanes (R89). -/

/-- The channel a lane serves next: counting on from the one it served last. -/
def State.laneNext (s : State) (c l : Nat) : Option Nat :=
  let lo := 32 * c + 8 * l
  let from_ := match vget (s.clus c).laneLast l with | none => 0 | some p => p + 1
  ((List.range 8).map fun i => lo + (from_ + i) % 8).find? fun n => !(s.chan n).inp.fifo.isEmpty

/-- A FIFO item as the merge sees it. -/
def FifoItem.word (n : Nat) : FifoItem → PWord
  | .tag t => { sort := t.phys, dtc := t.time, word := .tag n t.time t.rising t.q, late := false }
  | .loss cause count sort dtc => { sort := sort, dtc := dtc, word := .loss n cause count, late := false }

/-- A word enters the merge of a cluster. A tag behind the released stream is late and keeps its time (R19); a record there
passes on arrival too, where the stream stands (R94, R102). -/
def Cluster.enter (k : Cluster) (w : PWord) : Cluster :=
  let w := match k.releasedTo with
    | some r =>
      if w.sort < r ∨ w.late then (if w.word.isTag then { w with late := true } else { w with late := true, sort := max w.sort r }) else w
    | none => w
  { k with pool := k.pool ++ [w] }

/-- The first cycle from now on in which a lane is free. -/
def State.laneCycle (s : State) (c l : Nat) : Nat := max (cycleOf s.now) (vget (s.clus c).laneFree l)

/-- The lane of a cluster that is free first. -/
def State.freeLane (s : State) (c : Nat) : Nat :=
  [1, 2, 3].foldl (fun a l => if vget (s.clus c).laneFree l < vget (s.clus c).laneFree a then l else a) 0

/-- A word from elsewhere takes the next cycle of the lane that is free first: it counts against the 2.5 G tags/s of the
cluster (R21, R347). -/
def State.takeLane (s : State) (c : Nat) : State :=
  let l := s.freeLane c
  let cyc := s.laneCycle c l
  (s.runTo (cyc * cclk)).modCl c fun k => { k with laneFree := vset k.laneFree l (cyc + 1) }

/-- HWM at an instant: levels count from `hwmFrom` on (Table 3-11). -/
def ChIn.hwmAt (x : ChIn) (now : Nat) : Nat := if now < x.hwmFrom then x.hwm else max x.hwm (fifoTags x.fifo)

/-- Lane l of cluster c takes the first item of channel n in its next free cycle. -/
def State.pickUp (s : State) (c l n : Nat) : State :=
  match (s.chan n).inp.fifo with
  | [] => s
  | x :: r =>
    let cyc := s.laneCycle c l
    let s := s.runTo (cyc * cclk)
    let s := s.modIn n fun i => { i with fifo := r, hwm := i.hwmAt s.now }
    s.modCl c fun k =>
      { k.enter (x.word n) with laneLast := vset k.laneLast l (some (n % 8)), laneFree := vset k.laneFree l (cyc + 1) }

/-- LANE_PICKUP: one item in a CCLK cycle. -/
def execLanePickup (c : Fin 4) (l : Fin 4) (s : State) : Host.Outcome State Fault Refusal :=
  match s.laneNext c l with
  | none => .next s
  | some n => .next (s.pickUp c l n)

/-- A pick-up of a full FIFO in the cycle of a write comes first (R100). -/
def State.roomFor (s : State) (n : Nat) : State :=
  let c := n / 32
  let l := n % 32 / 8
  if 512 ≤ fifoTags (s.chan n).inp.fifo ∧ s.laneNext c l = some n ∧ vget (s.clus c).laneFree l ≤ cycleOf s.now then s.pickUp c l n
  else s

/-! Transitions and conversions (R18, R85 to R88). -/

/-- The interpolator that takes an edge latched at an instant, if one is free (R18, R86): false for interpolator 0. -/
def ChIn.taker (x : ChIn) (now : Nat) : Option Bool :=
  let free (i : Bool) : Bool := decide (vget x.busy (b2n i) ≤ now) && x.withheld != some i
  if free false && free true then some (match x.lastInterp with | some false => true | _ => false)
  else if free false then some false
  else if free true then some true
  else none

/-- A measurement owns the channel's input: calibration (R127) or TDR (R305). -/
def State.inputTaken (s : State) (n : Nat) : Bool :=
  (s.chan n).cal.meas.isSome ||
    match vget s.env.tdr (n / 32) with
    | some r => r.cur = n
    | none => false

/-- The input yields edges at an instant: enabled, or disabled with the boundary still ahead in tag time (R107). -/
def State.inputOpen (s : State) (n : Nat) : Bool :=
  let x := (s.chan n).inp
  x.en || match x.enTo with
    | some b => decide (x.enFrom < b ∧ (s.now : Int) - s.lin n < b)
    | none => false

/-- A comparator transition now. -/
def State.transition (s : State) (n : Nat) (rising : Bool) : State :=
  let x := (s.chan n).inp
  let s := s.modIn n fun x => { x with level := some rising }
  if s.pwr.gated.testBit (n / 32) ∨ s.inputTaken n ∨ !s.inputOpen n then s
  else if s.now < x.blankUntil then
    s.modIn n fun x => { x with lossBlank := x.lossBlank + 1, pendBlank := x.pendBlank + 1 }
  else
    match x.taker s.now with
    | none =>
      s.modIn n fun x =>
        { x with lossDead := x.lossDead + 1, deadMiss := true, pendDead := x.pendDead + 1 }
    | some i =>
      let e := s.ext
      let l : Latch :=
        { interp1 := i, tclk := e / 3200 * 3200, phase := e % 3200 / 400, rising := rising, phys := s.now, off := s.off,
          dead := x.lossDead, blank := x.lossBlank }
      s.modIn n fun x =>
        { x with busy := vset x.busy (b2n i) (s.now + 25600), lastInterp := some i, convs := x.convs ++ [l] }

/-- INPUT_TRANSITION: after dt, the comparator of channel n changes; it alternates (R80) and is powered (R104). -/
def execInputTransition (n : Fin 128) (rising : Bool) (dt : Nat) (s : State) : Host.Outcome State Fault Refusal :=
  let x := (s.chan n).inp
  if !x.configured ∨ x.level = some rising then .next s else .next ((s.advance dt).transition n rising)

/-- CCLK edge on which a latched edge is corrected (R98): two cycles after its code. -/
def Latch.edge (l : Latch) : Nat := (cycleOf (l.phys + 25600) + 2) * cclk

/-- The tag of a latched edge with a code (R87), before the ordering of R88; the time is extended. -/
def ChCal.timeOf (k : ChCal) (l : Latch) (code : Nat) : Int :=
  (l.tclk + l.phase * 400 : Nat) + k.fine l.interp1 code - 184 - k.lin

/-- The tag formed from a latched edge now: strictly later than the previous one (R88), Q by R98. -/
def State.formTag (s : State) (n : Nat) (l : Latch) (code : Nat) : Tag :=
  let k := (s.chan n).cal
  let t := k.timeOf l code
  let p := t - l.off
  let q := k.confAt s.now ≠ .nominal || s.traceNow ≠ 2
  match (s.chan n).inp.lastTag with
  | some u =>
    if p ≤ u.phys then
      { time := (u.time + 1) % dtcMod, phys := u.phys + 1, rising := l.rising, q := q, dead := l.dead, blank := l.blank }
    else { time := (t % (dtcMod : Int)).toNat, phys := p, rising := l.rising, q := q, dead := l.dead, blank := l.blank }
  | none => { time := (t % (dtcMod : Int)).toNat, phys := p, rising := l.rising, q := q, dead := l.dead, blank := l.blank }

/-- A tag lies in the interval for which the input was enabled (R107). -/
def ChIn.inWindow (x : ChIn) (p : Int) : Bool :=
  decide (x.enFrom ≤ p) && (match x.enTo with | some b => decide (p < b) | none => x.en)

/-- CONVERSION_COMPLETE: the oldest code of channel n is corrected, qualified and written into the FIFO. -/
def execConversionComplete (n : Fin 128) (code : Fin 160) (s : State) : Host.Outcome State Fault Refusal :=
  match (s.chan n).inp.convs with
  | [] => .next s
  | l :: r =>
    let s := (s.runTo l.edge).roomFor n
    let t := s.formTag n l code
    let s := s.modIn n fun x =>
      let x := { x with convs := r }
      if x.inWindow t.phys then ChIn.qualify s.now { x with lastTag := some t } t else x
    let s := if code.val = 0 ∨ code.val = 159 then
        s.modInt n l.interp1 fun i => { i with rangeHit := true, rangeStale := true }
      else s
    .next s.settle

/-- Earliest time, on the unstepped scale, that a latched edge can take. -/
def State.latchBound (s : State) (n : Nat) (l : Latch) : Int := (l.tclk + l.phase * 400 : Nat) - 184 - s.lin n - l.off

/-- Instant at which a hold ends: the DTC has passed the edge's time plus MINPW (R82), and no edge still to be latched can end the
pulse within MINPW (R81). -/
def State.releaseAt (s : State) (n : Nat) (e : Int) : Nat := (max (e + 1) (e + s.lin n + 585)).toNat

/-- QUALIFIER_RELEASE: the hold of a leading edge ends, once no latched edge can still end the pulse. -/
def execQualifierRelease (n : Fin 128) (s : State) : Host.Outcome State Fault Refusal :=
  match (s.chan n).inp.hold with
  | none => .next s
  | some h =>
    let e := h.tag.phys + (h.minpw : Int)
    if (s.chan n).inp.convs.any fun l => decide (s.latchBound n l < e) then .next s
    else
      let s := (s.runTo (s.releaseAt n e)).roomFor n
      .next (s.modIn n (ChIn.release s.now))

/-! LOSS records at a boundary (R102). -/

/-- At a boundary, pending LOSS counts that no tag has claimed sort at the boundary minus 1 tq (R102). -/
def State.lossAtBoundary (s : State) (sort : Int) (dtc : Nat) : State :=
  s.each (List.range 128) fun s n =>
    if s.pwr.gated.testBit (n / 32) then s
    else s.modIn n fun x =>
      { x with fifo := x.fifo ++ lossItems x.pendFifo x.pendDead x.pendBlank sort dtc, pendFifo := 0, pendDead := 0, pendBlank := 0 }

/-! Registers of the input (R111 to R114). -/

/-- A LOSS record awaits emission: counts, or a record that its lane has not picked up. -/
def ChIn.pending (x : ChIn) : Bool :=
  x.pendFifo ≠ 0 || x.pendDead ≠ 0 || x.pendBlank ≠ 0 || x.fifo.length ≠ fifoTags x.fifo

/-- CH_STATUS (Table 3-9). -/
def Channel.status (c : Channel) : W32 :=
  w32 (put 12 1 (b2n c.pu.shadowLate) + put 8 1 (b2n c.inp.pending) + put 7 1 (b2n c.cal.stealActive)
    + put 6 1 (b2n (c.cal.int0.starved || c.cal.int1.starved)) + put 5 1 (b2n c.inp.deadMiss)
    + put 4 1 (b2n c.inp.fifoOvf) + put 3 1 (b2n c.out.en) + put 2 1 (b2n c.inp.en) + put 0 2 c.cal.conf.code)

/-! CH_SET_INPUT (R104 to R106, Table 3-6). -/

/-- FIRST and LAST of a channel range in w1. -/
def rangeFirst (p : List W32) : Nat := bits (pw p 1) 6 0
def rangeLast (p : List W32) : Nat := bits (pw p 1) 14 8

/-- A channel range is not in order or crosses a cluster. -/
def badRange (p : List W32) : Bool := rangeLast p < rangeFirst p || rangeFirst p / 32 ≠ rangeLast p / 32

/-- The channels of a range. -/
def rangeChans (p : List W32) : List Nat := rangeIdx (rangeFirst p) (rangeLast p)

/-- Two channel ranges share a channel. -/
def rangesMeet (p q : List W32) : Bool := rangeFirst p ≤ rangeLast q && rangeFirst q ≤ rangeLast p

/-- A pending action of an opcode shares a channel with a range. -/
def State.rangeBusy (s : State) (ops : List Nat) (p : List W32) : Bool :=
  s.deferred.any fun d => ops.contains d.op && rangesMeet d.words p

/-- Refusals of CH_SET_INPUT. -/
def setInputCheck (s : State) (p : List W32) : Nat :=
  let minpw := (pw p 4).toNat
  firstCode [
    (badRange p || bits (pw p 2) 1 0 = 3 || 250 < bits (pw p 2) 15 8 || (1 ≤ minpw && minpw ≤ 1999) || 12800000 < minpw
      || reserved (pw p 1) 0x7F7F || reserved (pw p 2) 0xFF0F || reserved (pw p 3) 0xFFFF, rcRange),
    (s.rangeBusy [0x0300] p, rcBusy)]

/-- The settings of CH_SET_INPUT reach a channel: first power (R104), and blanking of an enabled input (R106). -/
def ChIn.setInput (x : ChIn) (p : List W32) (now : Nat) : ChIn :=
  let thr := bits (pw p 3) 15 0
  let hys := bits (pw p 2) 15 8
  let term := bit (pw p 2) 2
  let blank := x.en && (x.thr ≠ thr || x.hys ≠ hys || x.term != term)
  { x with
    configured := true
    level := if x.configured then x.level else none
    edge := bits (pw p 2) 1 0
    term := term
    qualPol := bit (pw p 2) 3
    hys := hys
    thr := thr
    minpw := (pw p 4).toNat
    blankUntil := if blank then now + 4096000 else x.blankUntil }

/-- CH_SET_INPUT takes effect. -/
def applySetInput (s : State) (p : List W32) : State :=
  (s.each (rangeChans p) fun s n => s.modIn n (ChIn.setInput · p s.now)).settle

/-- CH_SET_INPUT: at once when every named input is disabled, otherwise at boundary B. -/
def cmdChSetInput (s : State) (p : List W32) : Res :=
  let c := setInputCheck s p
  if c ≠ 0 then fail s c
  else if (rangeChans p).any fun n => (s.chan n).inp.en then
    let b := s.boundaryB
    okay (s.defer s.whenB 0x0300 p) ((s.chan (rangeFirst p)).status :: extWords b)
  else
    let s := applySetInput s p
    okay s [(s.chan (rangeFirst p)).status, 0, 0, 0]

/-- An input enabled at the boundary whose instant is now (R107); a measurement in progress ends without
result, and one of a cycle stays deferred (R130). -/
def State.enableInput (s : State) (n : Nat) : State :=
  let s := s.modIn n fun x => if x.en then x else { x with en := true, enFrom := s.now, enTo := none }
  s.modCal n fun k => { k with meas := none, deferred := k.deferred || match k.meas with | some m => !m.run | none => false }

/-- An input disabled at the boundary whose instant is now (R107). -/
def State.disableInput (s : State) (n : Nat) : State :=
  s.modIn n fun x => if x.en then { x with en := false, enTo := some (s.now : Int) } else x

end Sys2Proof.Machine
end

