-- ==== Sys2Proof/Machine/Flags.lean ====
section
/-! DEFINITION. Every flag computation of a microengine (R246, Table 9-4). -/
namespace Sys2Proof.Machine

/-- A datapath result: the value, and C and V as Table 9-4 gives them. -/
structure Alu where
  val : W64
  c : Bool
  v : Bool
deriving DecidableEq, Repr

/-- Signed range of 64 bits. -/
def minS64 : Int := -(2 ^ 63)
def maxS64 : Int := 2 ^ 63 - 1

/-- A signed result out of range. -/
def overflows (z : Int) : Bool := decide (z < minS64 ∨ maxS64 < z)

/-- A + B + carry: C carry out, V signed overflow. -/
def aluAdd (a b : W64) (cin : Bool) : Alu :=
  { val := a + b + BitVec.ofNat 64 (b2n cin)
    c := decide (2 ^ 64 ≤ a.toNat + b.toNat + b2n cin)
    v := overflows (a.toInt + b.toInt + (b2n cin : Nat)) }

/-- A − B − borrow: C borrow, V signed overflow. -/
def aluSub (a b : W64) (bin : Bool) : Alu :=
  { val := a - b - BitVec.ofNat 64 (b2n bin)
    c := decide (a.toNat < b.toNat + b2n bin)
    v := overflows (a.toInt - b.toInt - (b2n bin : Nat)) }

/-- A value with C and V 0. -/
def aluPlain (v : W64) : Alu := { val := v, c := false, v := false }

/-- A signed value clamped to 64 bits; V when it was. -/
def aluSat (z : Int) : Alu := { val := BitVec.ofInt 64 (clampInt minS64 maxS64 z), c := false, v := overflows z }

/-- Shift left by 0 to 63: C is the last bit shifted out. -/
def aluShl (a : W64) (n : Nat) : Alu :=
  { val := a <<< n, c := decide (n ≠ 0) && a.toNat.testBit (64 - n), v := false }

/-- Logical shift right. -/
def aluShr (a : W64) (n : Nat) : Alu :=
  { val := a >>> n, c := decide (n ≠ 0) && a.toNat.testBit (n - 1), v := false }

/-- Arithmetic shift right. -/
def aluSar (a : W64) (n : Nat) : Alu :=
  { val := a.sshiftRight n, c := decide (n ≠ 0) && a.toNat.testBit (n - 1), v := false }

/-- Leading zeros of a word. -/
def clz64 (a : W64) : Nat := 64 - (if a.toNat = 0 then 0 else Nat.log2 a.toNat + 1)

/-- Set bits of a number, below bit n. -/
def popBits : Nat → Nat → Nat
  | 0, _ => 0
  | n + 1, v => v % 2 + popBits n (v / 2)

/-- Bits of A from `lo` for `len` bits, zero-extended: a field that passes bit 63 has zeros above it (EXT). -/
def extField (a : W64) (lo len : Nat) : W64 := BitVec.ofNat 64 (a.toNat / 2 ^ lo % 2 ^ len)

/-- B inserted into D at the field (INS). -/
def insField (d b : W64) (lo len : Nat) : W64 :=
  let m : W64 := BitVec.ofNat 64 ((2 ^ len - 1) * 2 ^ lo)
  (d &&& ~~~m) ||| (BitVec.ofNat 64 (b.toNat * 2 ^ lo) &&& m)

/-- Flags from a 64-bit result: Z and N from the value (R246). -/
def MeFlags.ofAlu (f : MeFlags) (r : Alu) : MeFlags :=
  { f with z := r.val = 0, n := r.val.toNat.testBit 63, c := r.c, v := r.v }

/-- Flags from an 80-bit result: N is bit 79. -/
def MeFlags.ofTime (f : MeFlags) (r : BitVec 80) (c : Bool) : MeFlags :=
  { f with z := r = 0, n := r.toNat.testBit 79, c := c, v := false }

/-- 80-bit sum with the carry out of bit 79, and difference with its borrow. -/
def timeAdd (a b : BitVec 80) : BitVec 80 × Bool := (a + b, decide (2 ^ 80 ≤ a.toNat + b.toNat))
def timeSub (a b : BitVec 80) : BitVec 80 × Bool := (a - b, decide (a.toNat < b.toNat))

/-- FLAGS special register (Table 9-2). -/
def MeFlags.word (f : MeFlags) : Nat :=
  b2n f.z + 2 * b2n f.n + 4 * b2n f.c + 8 * b2n f.v + 16 * f.uf.toNat + 4096 * b2n f.ie

/-- Bits [11:0] of FLAGS written; IE unchanged. -/
def MeFlags.ofWord (f : MeFlags) (w : Nat) : MeFlags :=
  { f with z := w.testBit 0, n := w.testBit 1, c := w.testBit 2, v := w.testBit 3, uf := BitVec.ofNat 8 (w / 16) }

end Sys2Proof.Machine
end

