-- ==== Sys2Proof/Machine/Timers.lean ====
section
/-! DEFINITION. General-purpose timers (R291 to R302). -/
namespace Sys2Proof.Machine

/-- The timer is linked to its master: by SLAVE, or by the source CHAIN (R291, R294). -/
def Timer.linked (t : Timer) : Bool := t.slave ≠ 0 || t.src = 2

/-- The timer counts TOP events of its master. -/
def Timer.isChain (t : Timer) : Bool := t.slave = 4 || t.src = 2

/-- FREEZE: no counts while the debug port holds the management core halted (R297). -/
def State.frozen (s : State) (n : Nat) : Bool := (s.timAt n).freeze && s.pwr.mcHalted

/-- A GATE timer counts only on edges on which its master runs (R294). -/
def State.gateOpen (s : State) (n : Nat) : Bool := (s.timAt n).slave ≠ 3 || (s.timAt (s.timAt n).master).run

/-- The timer counts CCLK cycles at present (R291, R294 GATE, R297). -/
def State.timCounts (s : State) (n : Nat) : Bool :=
  let t := s.timAt n
  t.run && t.src = 0 && !t.isChain && s.gateOpen n && !s.frozen n

/-- Counts left until the one that raises TOP or CMP (R292, R293). -/
def Timer.toEvent (t : Timer) : Nat :=
  let top := if t.cnt < t.top then t.top - t.cnt + 1 else 1
  if t.cnt < t.cmp ∧ t.cmp ≤ t.top then min top (t.cmp - t.cnt) else top

/-- Edge of the count that raises the next event, for a timer that counts CCLK cycles. -/
def Timer.dueAt (t : Timer) : Nat := t.at_ + (t.toEvent * 2 ^ t.psc - t.pre) * cclk

/-- CNT and prescaler brought up to an edge, but not past the next event. -/
def Timer.sync (t : Timer) (edge : Nat) : Timer :=
  let k := min ((edge - t.at_) / cclk) (t.toEvent * 2 ^ t.psc - t.pre - 1)
  { t with cnt := t.cnt + (t.pre + k) / 2 ^ t.psc, pre := (t.pre + k) % 2 ^ t.psc, at_ := t.at_ + k * cclk
           before := if k = 0 then t.before else t.cnt + (t.pre + k - 1) / 2 ^ t.psc }

/-- A timer that makes no count up to an edge: only its reference edge moves. -/
def Timer.rest (t : Timer) (edge : Nat) : Timer := if t.at_ < edge then { t with at_ := edge, before := t.cnt } else t

/-- The timer as it stands at an edge. -/
def State.timSyncTo (s : State) (n e : Nat) : State :=
  if s.timCounts n then s.modTim n (Timer.sync · e) else s.modTim n (Timer.rest · e)

/-- The timer as it stands now. -/
def State.timSync (s : State) (n : Nat) : State := s.timSyncTo n (s.now / cclk * cclk)

/-- Every timer brought up to an edge, before something changes what they count. -/
def State.timSyncAllTo (s : State) (e : Nat) : State := s.each (List.range 32) fun s n => s.timSyncTo n e

/-- Every timer brought up to now. -/
def State.timSyncAll (s : State) : State := s.timSyncAllTo (s.now / cclk * cclk)

/-- Timers linked to n in a given way. -/
def State.slavesOf (s : State) (n : Nat) (p : Timer → Bool) : List Nat :=
  (List.range 32).filter fun k => let t := s.timAt k; t.linked && t.master == n && p t

/-- The event output of a timer (R296): its source, latches of kind 4 and trigger selections. -/
def State.timOutput (s : State) (n cause : Nat) : State :=
  if (s.timAt n).evEn.testBit cause then (s.raise (160 + n)).event 4 4 n else s

/-- PHASE loaded and the prescaler restarted (R291, R293): a load is not a count. -/
def Timer.load (t : Timer) (edge : Nat) : Timer := { t.rest edge with cnt := t.phase, pre := 0, at_ := edge }

/-- SYNC of a timer and of the timers that sync with it (R294 START). -/
def State.syncTree : Nat → State → Nat → Nat → State
  | 0, s, _, _ => s
  | f + 1, s, n, edge =>
    let s := s.modTim n (Timer.load · edge)
    s.each (s.slavesOf n fun t => t.slave = 1) fun s k => s.syncTree f k edge

/-- START of a timer and of its START slaves: PHASE loaded, DONE cleared (R294, R299). -/
def State.startTree : Nat → State → Nat → Nat → State
  | 0, s, _, _ => s
  | f + 1, s, n, edge =>
    let s := s.modTim n fun t => { t.load edge with run := true, done := false }
    s.each (s.slavesOf n fun t => t.slave = 1) fun s k => s.startTree f k edge

/-- A count of a timer on an edge (R292, R293) with what its TOP event does to linked timers (R294), or the stop of a timer: a
count due on the edge is made first, by the timer and by those its running gates, and its START slaves stop with it (R299). -/
def State.timAct : Nat → Bool → State → Nat → Nat → State
  | 0, _, s, _, _ => s
  | f + 1, true, s, n, edge =>
    let due (s : State) (k : Nat) : State :=
      if s.timCounts k ∧ (s.timAt k).dueAt ≤ edge then s.timAct f false k (s.timAt k).dueAt else s.timSyncTo k edge
    let s := s.each (n :: s.slavesOf n fun t => t.slave = 3) due
    let s := s.modTim n fun t => { t with run := false }
    s.each (s.slavesOf n fun t => t.slave = 1) fun s k => s.timAct f true k edge
  | f + 1, false, s, n, edge =>
    let t := s.timAt n
    if t.cnt < t.top then
      let s := s.modTim n fun t => { t.rest edge with cnt := t.cnt + 1, pre := 0, at_ := edge }
      if t.cnt + 1 = t.cmp then s.timOutput n 1 else s
    else
      let s :=
        if t.oneshot then
          ((s.modTim n fun t => { t.rest edge with pre := 0, at_ := edge }).timAct f true n edge).modTim n fun t => { t with done := true }
        else s.modTim n fun t => { t.rest edge with cnt := 0, ovf := true, ovfAt := edge, pre := 0, at_ := edge }
      let s := s.timOutput n 0
      let s := if !t.oneshot ∧ t.cmp = 0 then s.timOutput n 1 else s
      let s := s.each (s.slavesOf n fun t => t.slave = 2) fun s k => s.syncTree 32 k edge
      s.each (s.slavesOf n Timer.isChain) fun s k =>
        let u := s.timAt k
        if !u.run ∨ s.frozen k then s
        else if u.pre + 1 < 2 ^ u.psc then s.modTim k fun t => { t.rest edge with pre := t.pre + 1 }
        else s.timAct f false k edge

/-- Counts and stops that one edge can chain: each of 32 timers counts and stops at most once. -/
def timDepth : Nat := 66

/-- One count of a timer on an edge. -/
def State.count (s : State) (n edge : Nat) : State := s.timAct timDepth false n edge

/-- A tick of an EVENT source (R291): none while the timer is frozen or its gate is shut. -/
def State.srcTick (s : State) (n edge : Nat) : State :=
  let u := s.timAt n
  if s.frozen n ∨ !s.gateOpen n then s
  else if u.pre + 1 < 2 ^ u.psc then s.modTim n fun t => { t.rest edge with pre := t.pre + 1 } else s.count n edge

/-- START on an edge: PHASE is loaded once and DONE clears. -/
def State.timStart (s : State) (n edge : Nat) : State := (s.timSyncAllTo edge).startTree 33 n edge

/-- STOP on an edge: a count due on it is made first (R299). -/
def State.timStop (s : State) (n edge : Nat) : State := (s.timSyncAllTo edge).timAct timDepth true n edge

/-- SYNC on an edge: no TOP or CMP event (R299). -/
def State.timSyncCmd (s : State) (n edge : Nat) : State := (s.timSyncAllTo edge).syncTree 33 n edge

/-- CLR_FLAGS on an edge: OVF, CAPF and CAP_OVR cleared, but OVF and CAPF stay 1 where they are set on that edge (R299). -/
def State.timClear (s : State) (n edge : Nat) : State :=
  s.modTim n fun t => { t with ovf := t.ovf && t.ovfAt = edge, capf := t.capf && t.capAt = edge, capOvr := false }

/-- A count due by an edge is made, so that a new TOP or CMP acts from the next one (R292). -/
def State.timCatch (s : State) (n edge : Nat) : State :=
  let s := s.timSyncTo n edge
  if s.timCounts n ∧ (s.timAt n).dueAt ≤ edge then (s.count n (s.timAt n).dueAt).timSyncTo n edge else s

/-- A write of GPT_TOP, GPT_CMP or GPT_CMD on an edge (R292, R298, R299). -/
def State.timWrite (s : State) (n reg : Nat) (v : W32) (edge : Nat) : State :=
  let s := s.timSyncAllTo edge
  if reg = 0x04 then (s.timCatch n edge).modTim n fun t => { t with top := v.toNat }
  else if reg = 0x08 then (s.timCatch n edge).modTim n fun t => { t with cmp := v.toNat }
  else
    let s := if bit v 3 then s.timClear n edge else s
    let s := if bit v 2 then s.timSyncCmd n edge else s
    if bit v 1 then s.timStop n edge else if bit v 0 then s.timStart n edge else s

/-- Microengine writes with an edge before an instant take effect, in order (R298). -/
def State.timSettleBy (s : State) (x : Nat) : State :=
  let due := s.timWr.filter fun w => decide (w.at_ < x)
  let s := { s with timWr := s.timWr.filter fun w => decide (x ≤ w.at_) }
  due.foldl (fun s w => s.timWrite w.timer w.reg w.value w.at_) s

/-- Microengine writes whose edge has come take effect. -/
def State.timSettle (s : State) : State := s.timSettleBy (s.now + 1)

/-- A firmware write acts on the CCLK edge at or after now, before a microengine's of that edge (R258). -/
def State.onEdge (s : State) : State := let s := s.runTo s.edge
  s.timSettleBy s.now

/-- Microengine writes that act before a timer's next event, or with GPT_CMD on its edge, take effect, each on its edge; the others
wait (R298, R299). -/
def State.timLead (s : State) (n : Nat) : State :=
  s.timWr.foldl (fun s w =>
    let lim := if s.timCounts n then (s.timAt n).dueAt else s.now
    if w.at_ < lim ∨ (w.at_ = lim ∧ w.reg = 0x24) then
      ({ s with timWr := s.timWr.erase w }.runTo w.at_).timWrite w.timer w.reg w.value w.at_
    else s) s

/-- GPT_CMD.START (R291, R299). -/
def execGptStart (n : Fin 32) (s : State) : Host.Outcome State Fault Refusal :=
  let s := s.onEdge
  .next (s.timStart n s.now).timSettle

/-- GPT_CMD.STOP (R299). -/
def execGptStop (n : Fin 32) (s : State) : Host.Outcome State Fault Refusal :=
  let s := s.onEdge
  .next (s.timStop n s.now).timSettle

/-- GPT_CMD.SYNC (R293). -/
def execGptSync (n : Fin 32) (s : State) : Host.Outcome State Fault Refusal :=
  let s := s.onEdge
  .next (s.timSyncCmd n s.now).timSettle

/-- GPT_CMD.CLR_FLAGS (R299). -/
def execGptClrFlags (n : Fin 32) (s : State) : Host.Outcome State Fault Refusal :=
  let s := s.onEdge
  .next (s.timClear n s.now).timSettle

/-- The next event of a timer is the count that raises CMP, not TOP. -/
def Timer.cmpNext (t : Timer) : Bool := decide (t.cnt < t.cmp ∧ t.cmp ≤ t.top)

/-- The count that raises a timer's next event, TOP or CMP: time runs to its edge (R292, R293). -/
def State.timEvent (s : State) (n : Nat) (cmp : Bool) : State :=
  let u := s.timLead n
  let t := u.timAt n
  if u.timCounts n ∧ t.cmpNext = cmp then ((u.runTo t.dueAt).timSyncTo n t.dueAt).count n t.dueAt else s

/-- GPT_TOP_EVENT: a timer that counts no CCLK has none due. -/
def execGptTopEvent (n : Fin 32) (s : State) : Host.Outcome State Fault Refusal := .next (s.timEvent n false)

/-- GPT_CMP_EVENT: the count that makes CNT equal CMP. -/
def execGptCmpEvent (n : Fin 32) (s : State) : Host.Outcome State Fault Refusal := .next (s.timEvent n true)

/-- A capture on an edge: CNT before any count of the edge (R295). -/
def State.capture (s : State) (n edge : Nat) : State :=
  let s := s.modTim n fun t =>
    { t with cap := if t.at_ = edge then t.before else t.cnt, capOvr := t.capOvr || t.capf, capf := true, capAt := edge }
  s.timOutput n 2

/-- A trigger event reaches the timer: capture first, then the EVENT count or the START (R295). -/
def execGptTrigger (n : Fin 32) (s : State) : Host.Outcome State Fault Refusal :=
  let t := s.timAt n
  match t.pendA.head?, t.pendB.head? with
  | none, none => .next s
  | a, b =>
    let e := match a, b with
      | some x, some y => min x y
      | some x, none => x
      | none, some y => y
      | none, none => s.now
    let s := ((s.runTo e).timSettleBy e).timSyncTo n e
    let s := if b = some e then
        let s := s.modTim n fun t => { t with pendB := t.pendB.tail }
        if (s.timAt n).capEn then s.capture n e else s
      else s
    if a = some e then
      let s := s.modTim n fun t => { t with pendA := t.pendA.tail }
      let t := s.timAt n
      if t.run then .next (if t.src = 1 ∧ ¬ t.isChain then s.srcTick n e else s)
      else if t.trigStart then .next (s.timStart n e)
      else .next s
    else .next s

/-- Following MASTER from a timer comes back to it: a linkage loop (R294). -/
def State.linkLoop (s : State) (start : Nat) : Nat → Nat → Bool
  | 0, _ => true
  | f + 1, n =>
    let t := s.timAt n
    if !t.linked then false else if t.master = start then true else s.linkLoop start f t.master

/-- The GPT_CTRL image of TIMER_SET written into a timer (Table 10-8). -/
def Timer.setCtrl (t : Timer) (w : W32) : Timer :=
  { t with owner := bits w 26 24, trigStart := bit w 20, capEn := bit w 19, evEn := bits w 18 16, master := bits w 15 11,
           slave := bits w 10 8, freeze := bit w 7, oneshot := bit w 6, src := bits w 5 4, psc := bits w 3 0 }

/-- GPT_STATUS. -/
def Timer.statusWord (t : Timer) : W32 :=
  w32 (b2n t.run + 2 * b2n t.done + 4 * b2n t.ovf + 8 * b2n t.capf + 16 * b2n t.capOvr)

/-- The timer after the words of TIMER_SET. -/
def Timer.configured (t : Timer) (p : List W32) : Timer :=
  { t.setCtrl (pw p 2) with top := (pw p 3).toNat, cmp := (pw p 4).toNat, phase := (pw p 5).toNat,
                            trigA := bits (pw p 6) 17 0, trigB := bits (pw p 7) 17 0 }

/-- A trigger selection of Table 10-8 is not reserved: bits [17:16] name a cluster for kinds 1 to 3 only (R295). -/
def trigOk (w : W32) : Bool :=
  let k := bits w 15 12
  !reserved w 0x3FFFF && codeOk (bits w 15 0) && (decide (1 ≤ k ∧ k ≤ 3) || bits w 17 16 = 0)

/-- The refusals of TIMER_SET (Table 10-6). -/
def timerSetCheck (s : State) (p : List W32) : Nat :=
  let n := bits (pw p 1) 4 0
  let t := s.timAt n
  let u := t.configured p
  firstCode [
    (reserved (pw p 1) 0xF1F || reserved (pw p 2) 0x071FFFFF || u.top < u.phase || u.master = n
      || 4 < u.owner || 4 < u.slave || u.src = 3 || !trigOk (pw p 6) || !trigOk (pw p 7), rcRange),
    (t.run && !bit (pw p 1) 9 && (u.slave ≠ t.slave || u.master ≠ t.master || u.src ≠ t.src || u.psc ≠ t.psc
      || u.phase ≠ t.phase || u.trigA ≠ t.trigA || u.trigB ≠ t.trigB || u.owner ≠ t.owner), rcState),
    (s.hasDeferred 0x0704 fun w => bits (pw w 1) 4 0 = n, rcBusy),
    ((s.modTim n fun _ => u).linkLoop n 33 n, rcResource)]

/-- TIMER_SET (R300): STOP, then the change, then the START, at once or at boundary B. -/
def cmdTimerSet (s : State) (p : List W32) : Res :=
  let n := bits (pw p 1) 4 0
  let c := timerSetCheck s p
  if c ≠ 0 then fail s c
  else
    let s := s.onEdge
    let s := if bit (pw p 1) 9 then s.timStop n s.now else (s.timSyncAllTo s.now).timCatch n s.now
    let s := s.modTim n (Timer.configured · p)
    let s := if bit (pw p 1) 11 then s.timClear n s.now else s
    if bit (pw p 1) 8 then
      if bit (pw p 1) 10 then
        let b := s.boundaryB
        let s := s.defer s.whenB 0x0704 p
        okay s.timSettle ((s.timAt n).statusWord :: extWords b)
      else
        let s := s.timStart n s.now
        okay s.timSettle ((s.timAt n).statusWord :: [0, 0, 0])
    else okay s.timSettle ((s.timAt n).statusWord :: [0, 0, 0])

/-- The start of TIMER_SET AT_TICK at its boundary. -/
def applyTimerStart (s : State) (p : List W32) : State :=
  ((s.timSettleBy s.now).timStart (bits (pw p 1) 4 0) s.now).timSettle

end Sys2Proof.Machine
end

