-- ==== Sys2Proof/Machine/MicroCore.lean ====
section
/-! DEFINITION. The microengine's frame: microword fields, dispatch, charging, faults, conditions, next address (R241 to R252, R265 to R268). -/
namespace Sys2Proof.Machine

/-! The microword (R244). -/

/-- Field [hi:lo] of a microword. -/
def mw (w : BitVec 128) (hi lo : Nat) : Nat := w.toNat / 2 ^ lo % 2 ^ (hi + 1 - lo)

def mwClass (w : BitVec 128) : Nat := mw w 127 124
def mwOp (w : BitVec 128) : Nat := mw w 123 120
def mwDst (w : BitVec 128) : Nat := mw w 119 115
def mwSra (w : BitVec 128) : Nat := mw w 114 110
def mwSrb (w : BitVec 128) : Nat := mw w 109 105
def mwBimm (w : BitVec 128) : Bool := w.toNat.testBit 104
def mwFlg (w : BitVec 128) : Bool := w.toNat.testBit 103
def mwCond (w : BitVec 128) : Nat := mw w 102 98
def mwCinv (w : BitVec 128) : Bool := w.toNat.testBit 97
def mwSeq (w : BitVec 128) : Nat := mw w 96 94
def mwTarget (w : BitVec 128) : Nat := mw w 93 81
def mwSel (w : BitVec 128) : Nat := mw w 80 64
def mwImm (w : BitVec 128) : W64 := BitVec.ofNat 64 w.toNat

/-- CTRL.FAULT with code 0xFF, which fills the control store beyond the image (R271). -/
def faultWord : BitVec 128 := BitVec.ofNat 128 (6 * 2 ^ 120 + 0xFF)

/-- Microword a of the control store. -/
def Microengine.word (m : Microengine) (a : Nat) : BitVec 128 := m.store.getD a faultWord

/-! Registers (R243): G0 reads as 0 and discards writes. -/

def Microengine.gr (m : Microengine) (r : Nat) : W64 := if r = 0 then 0 else vget m.g r
def Microengine.setG (m : Microengine) (r : Nat) (v : W64) : Microengine :=
  if r = 0 then m else { m with g := vset m.g r v }
def Microengine.tr (m : Microengine) (r : Nat) : BitVec 80 := vget m.tm r
def Microengine.setT (m : Microengine) (r : Nat) (v : BitVec 80) : Microengine := { m with tm := vset m.tm r v }

/-- Operand B: IMM or G[SRB]. -/
def Microengine.opB (m : Microengine) (w : BitVec 128) : W64 := if mwBimm w then mwImm w else m.gr (mwSrb w)

/-- The fast bank exchanged with G24 to G31 (R262). -/
def Microengine.swapFast (m : Microengine) : Microengine :=
  (List.range 8).foldl (fun m i =>
    { m with g := vset m.g (24 + i) (vget m.fastBank i), fastBank := vset m.fastBank i (vget m.g (24 + i)) }) m

/-- The microengine runs a handler. -/
def MeState.inHandler (x : MeState) : Bool := x = .normal || x = .fast

/-- The microengine issues microwords. -/
def MeState.running (x : MeState) : Bool := x = .task || x.inHandler

/-! Time within the tick (Table 9-2, R54, R287). -/

/-- Extended time of an instant. -/
def State.extAt (s : State) (p : Nat) : Int := (p : Int) + s.off

/-- TICK_CYCLE at an instant: it holds at P − 1 in a stretched tick. -/
def State.tickCycle (s : State) (p : Nat) : Nat :=
  min (s.tb.tickP - 1) (((s.extAt p - s.tb.tickStart).toNat) / cclk)

/-- Cycle at which the guard band of cluster c begins, for tasks and handlers (R54, R287). -/
def State.guardCycle (s : State) (c : Nat) : Nat := s.tb.tickP - (s.clus c).sch.guard

/-- Instant of the first guard cycle of the present tick. -/
def State.guardAt (s : State) (c : Nat) : Nat :=
  ((s.tb.tickStart : Int) + (s.guardCycle c * cclk : Nat) - s.off).toNat

/-- The extended time at which the guard band proper, the last SCH_GUARD cycles of the tick, begins (R56). -/
def State.guardExt (s : State) (c : Nat) : Nat := s.tb.tickEnd - (s.clus c).sch.guard * cclk

/-! Idle cycles and charging (R242, R281, R283). -/

/-- Idle cycles counted up to an instant (R283). -/
def State.countIdle (s : State) (c upto : Nat) : State :=
  let g := s.guardAt c
  s.modCl c fun k =>
    let u := min upto g
    { k with sch := { k.sch with
        idle := if k.me.state = .idle then k.sch.idle + (u - k.sch.countedTo) / cclk else k.sch.idle
        countedTo := max k.sch.countedTo u } }

/-- Cycles up to an instant charged to the running task: none in a handler. -/
def State.charge (s : State) (c upto : Nat) : State :=
  s.modMe c fun m =>
    let n := (upto - m.nextAt) / cclk
    let m := { m with nextAt := max m.nextAt upto }
    if m.state = .task then { m with budget := m.budget - n, used := m.used + n } else m

/-- Cycles charged to the interrupt reserve (R242, R264), counted by PC20 to PC23. -/
def State.chargeIrq (s : State) (c n : Nat) : State :=
  (s.modMe c fun m => { m with irqNow := m.irqNow + n }).pcAdd (20 + c) n

/-! Dispatch (R279, R280, R243). -/

/-- The task table's entry. -/
def State.taskAt (s : State) (c t : Nat) : Task := vget (s.clus c).sch.tasks t

/-- A task dispatched at its RESUME address. -/
def State.dispatch (s : State) (c t at_ : Nat) : State :=
  let s := s.countIdle c at_
  let k := s.taskAt c t
  let s := s.modTask c t fun k => { k with carry := false }
  s.modMe c fun m =>
    { m with state := .task, task := t, taskValid := true, pc := k.resume, budget := k.budget, used := 0, stack := [],
             wait := none, nextAt := at_,
             flags := { m.flags with z := false, n := false, c := false, v := false, ie := true } }

/-- The next task of the due list, then of the carry list; IDLE when both are done or the cluster is gated. -/
def State.dispatchNext (s : State) (c at_ : Nat) : State :=
  let k := (s.clus c).sch
  if s.pwr.gated.testBit c ∨ ¬ at_ < s.guardAt c then
    s.modMe c fun m => { m with state := .idle, nextAt := max m.nextAt at_ }
  else
    match k.due with
    | t :: l => (s.modSch c fun h => { h with due := l }).dispatch c t at_
    | [] =>
      match k.carry with
      | t :: l => (s.modSch c fun h => { h with carry := l }).dispatch c t at_
      | [] => s.modMe c fun m => { m with state := .idle, nextAt := max m.nextAt at_ }

/-- The running dispatch is over: USED_MAX, DONE, and the idle count starts. -/
def State.taskOver (s : State) (c at_ : Nat) : State :=
  let m := s.me c
  let s := s.modTask c m.task fun k => { k with usedMax := max k.usedMax m.used }
  let s := s.modSch c fun h => { h with doneCnt := h.doneCnt + 1, countedTo := max h.countedTo at_ }
  s.modMe c fun m => { m with stack := [], wait := none }

/-! Faults (R265 to R267). -/

/-- ME_FAULT. -/
def Microengine.faultReg (m : Microengine) : W32 :=
  w32 (put 30 1 (b2n m.fltFast) + put 29 1 (b2n m.fltHandler) + put 21 8 m.fltTask + put 8 13 m.fltAddr + put 0 4 m.fltCause)

/-- The last arrival came in the cycle of an instant: a CCLK cycle at a CIC, an SCLK cycle at the DIC. -/
def Source.arrivesWith (x : Source) (now : Nat) : Bool :=
  match x.arrAt with
  | none => false
  | some a => match x.target with
    | .me _ => a == cycleOf now
    | _ => cdiv a 2 == cdiv (cycleOf now) 2

/-- A source completed at its controller: ACTIVE clears; a later target or vector takes over. An
arrival of that very cycle counts as after the completion, so CNT does not count it (R391, R398). -/
def Source.complete (now : Nat) (x : Source) : Source :=
  let x := { x with active := false, cnt := if x.arrivesWith now then x.cntPrev else x.cnt, pending := if x.edge then x.pending else x.line && x.en }
  match x.later with
  | none => x
  | some l => { x with later := none, target := l.target, fast := l.fast, addr := l.addr, en := l.en,
                       pending := x.pending && l.en }

/-- Cycles of a handler that ends at an instant which handlers nested in it have not been charged for. -/
def MeHandler.span (h : MeHandler) (at_ : Nat) : Nat := (at_ - h.since) / cclk - h.inner

/-- The context a handler interrupted comes back (R262, R263, R267); the micro-stack is that of the entry again,
except at the RETI of a fast handler, which does not use it. The handler's cycles are no slack of an idle tick (R283). -/
def State.leaveHandler (s : State) (c at_ : Nat) (keepStack : Bool) : State :=
  match (s.me c).handlers with
  | [] => s
  | h :: l =>
    let s := (s.modSrc h.src (Source.complete at_)).chargeIrq c (h.span at_)
    let s := if h.fast then { s with ic := { s.ic with fastAct := vset s.ic.fastAct c false } } else s
    let outer := match l with
      | [] => []
      | o :: r => { o with inner := o.inner + (at_ - h.since) / cclk, from_ := at_ } :: r
    let s := s.modSch c fun k => { k with countedTo := max k.countedTo at_ }
    s.modMe c fun m =>
      let m := if h.fast then m.swapFast else m
      { m with handlers := outer, state := h.before, wait := h.wait, pc := h.pc, flags := h.flags,
               lc := if h.fast then h.lc else m.lc,
               stack := if keepStack then m.stack else h.stack, nextAt := at_ }

/-- A fault at a microword that issued at `at_` (R265): recorded, then the task ends or the handler is abandoned. -/
def State.meFault (s : State) (c cause soft at_ : Nat) : State :=
  let m := s.me c
  let s := s.modMe c fun m =>
    { m with fltFast := m.state = .fast, fltHandler := m.state.inHandler, fltTask := m.task, fltAddr := m.pc,
             fltCause := cause, faultCnt := m.faultCnt + 1 }
  let f := (s.me c).faultReg
  let s := (s.report 6 1 c f (w32 (m.task + 256 * soft))).raise (212 + c)
  let s := s.notice 4 [w32 c, f]
  let next := at_ + cclk
  if m.state.inHandler then s.leaveHandler c next false
  else
    let s := s.charge c next
    let s := s.modTask c m.task fun k => { k with faulted := true }
    (s.taskOver c next).dispatchNext c next

/-! Conditions (R247). -/

/-- Event latches as a condition sees them on a cycle: those of the cycle itself not yet (R260). -/
def Microengine.evlSeen (m : Microengine) (cyc : Nat) : BitVec 32 := if m.evlAt = cyc then m.evlPrev else m.evl

/-- (DTC − TM) modulo 2^80, read as signed, is not negative. -/
def dtcGe (dtc : Nat) (t : BitVec 80) : Bool := !(BitVec.ofNat 80 dtc - t).toNat.testBit 79

/-- A brake that guards a channel of the cluster is tripped. -/
def State.brakeCond (s : State) (c : Nat) : Bool :=
  (List.range 8).any fun b =>
    (s.brkAt b).tripped && ((List.range 32).any fun j => (s.chan (32 * c + j)).pr.guard.testBit b)

/-- A normal-class source is pending for the microengine and held by IE = 0. -/
def State.irqHeldCond (s : State) (c : Nat) : Bool :=
  !(s.me c).flags.ie && s.ic.src.toList.any fun x => x.pending && !x.fast && x.target == .me (Fin.ofNat 4 c)

/-- BUDGET_LEFT on an edge: the cycles a waiting task has occupied since it was charged last are gone from it (R242, R281). -/
def Microengine.budgetLeft (m : Microengine) (at_ : Nat) : Nat :=
  if m.state = .task then m.budget - (at_ - m.nextAt) / cclk else 0

/-- The condition of a microword on the edge `at_`, before CINV. -/
def State.cond (s : State) (c : Nat) (w : BitVec 128) (at_ : Nat) : Bool :=
  let m := s.me c
  let f := m.flags
  match mwCond w with
  | 0 => true
  | 1 => f.z
  | 2 => f.n
  | 3 => f.c
  | 4 => f.v
  | 5 => f.n != f.v
  | 6 => f.z || (f.n != f.v)
  | 7 => f.c || f.z
  | 8 => !m.tagq.isEmpty
  | 9 => m.tagOvf && decide (m.ovfAt < at_ / cclk)
  | 10 => decide ((s.chan (32 * c + mwSel w % 32)).out.queue.length < 256)
  | 11 => (m.evlSeen (at_ / cclk)).toNat.testBit (mwSel w % 32)
  | 12 => dtcGe (s.dtcAt at_) (m.tr (mwSra w))
  | 13 => m.bankOut.all fun x => decide (x.1 ≤ at_)
  | 14 => decide (m.lc = 0)
  | 15 => m.stack.isEmpty
  | 16 => decide (16 ≤ m.stack.length)
  | 17 => decide (m.budgetLeft at_ < (mwImm w).toNat / 2 ^ 32 % 65536)
  | 18 => m.state.inHandler
  | 19 => decide (m.state = .fast)
  | 20 => s.irqHeldCond c
  | 21 => s.brakeCond c
  | 22 => decide (s.st.trace = 2)
  | k => if k < 31 then f.uf.toNat.testBit (k - 23) else false

/-- The condition with CINV. -/
def State.holds (s : State) (c : Nat) (w : BitVec 128) (at_ : Nat) : Bool := s.cond c w at_ != mwCinv w

/-! Next address (R248 to R250, R280). -/

/-- The microengine goes on at an address on the next cycle. -/
def State.goTo (s : State) (c a at_ : Nat) : State :=
  (s.charge c (at_ + cclk)).modMe c fun m => { m with pc := a % 8192 }

/-- An END with a true condition: RESUME, STK_LEFT, and the next task (R250, R280). -/
def State.endTask (s : State) (c target at_ : Nat) : State :=
  let m := s.me c
  if m.state.inHandler then s.meFault c 10 0 at_
  else
    let s := if m.stack.isEmpty then s else s.report 6 2 c m.faultReg (w32 m.task)
    let s := s.charge c (at_ + cclk)
    let s := s.modTask c m.task fun k => { k with resume := target, cut := false }
    (s.taskOver c (at_ + cclk)).dispatchNext c (at_ + cclk)

/-- SEQ chooses the next address after the datapath has acted (R245, Table 9-6); `a` is G[SRA] as it stood before. -/
def State.nextAddr (s : State) (c : Nat) (w : BitVec 128) (at_ : Nat) (a : W64) : State :=
  let m := s.me c
  let t := s.holds c w at_
  let nxt := m.pc + 1
  match mwSeq w with
  | 1 => s.goTo c (if t then mwTarget w else nxt) at_
  | 2 =>
    if !t then s.goTo c nxt at_
    else if 16 ≤ m.stack.length then s.meFault c 1 0 at_
    else (s.modMe c fun m => { m with stack := { ret := nxt % 8192, saved := none } :: m.stack }).goTo c (mwTarget w) at_
  | 3 =>
    if !t then s.goTo c nxt at_
    else match m.stack with
      | [] => s.meFault c 2 0 at_
      | { ret := a, saved := none } :: l => (s.modMe c fun m => { m with stack := l }).goTo c a at_
      | _ :: _ => s.meFault c 3 0 at_
  | 4 =>
    if !t then s.goTo c nxt at_
    else
      let lc := if m.lc = 0 then m.lc else m.lc - 1
      (s.modMe c fun m => { m with lc := lc }).goTo c (if lc = 0 then nxt else mwTarget w) at_
  | 5 => s.goTo c (if t then mwTarget w + a.toNat % 16 else nxt) at_
  | 6 => if t then s.endTask c (mwTarget w) at_ else s.goTo c nxt at_
  | _ => s.goTo c nxt at_

/-! Issue (R242, R252). -/

/-- General registers a microword reads (R252: the microengine interlocks on every register). -/
def readsOf (w : BitVec 128) : List Nat :=
  let b := if mwBimm w then [] else [mwSrb w]
  let d := if mwSeq w = 5 then [mwSra w] else []
  d ++ match mwClass w with
    | 0 => if mwOp w = 4 then b else []
    | 1 => mwSra w :: b
    | 2 => if mwOp w = 5 then [mwSrb w, mwDst w] else if mwOp w = 4 ∨ 6 ≤ mwOp w then [mwSra w] else mwSra w :: b
    | 3 => mwSra w :: b
    | 4 => if mwOp w = 2 then b else if mwOp w = 6 then [mwSra w, mwSrb w] else []
    | 5 => if mwOp w = 1 ∨ mwOp w = 3 then [mwSra w] else []
    | 8 => if mwOp w = 1 then [mwSrb w] else []
    | 9 => if mwOp w = 0 then [mwSra w] else [mwSra w, mwSrb w]
    | 10 => if mwOp w = 2 then [mwSrb w] else []
    | _ => []

/-- Stall of a BANK microword: a fifth outstanding access, or a second atomic to one bank within 2 cycles (Table 9-7). -/
def Microengine.bankStall (m : Microengine) (w : BitVec 128) (t : Nat) : Nat :=
  let out := m.bankOut.filter fun x => decide (t < x.1)
  let t := match out with
    | [] => t
    | x :: l => if 4 ≤ out.length then l.foldl (fun a y => min a y.1) x.1 else t
  let b := ((m.gr (mwSra w)).toNat + (mwImm w).toNat) % 2 ^ 23 / 131072
  match m.lastAtomic with
  | some (k, at_) => if 2 ≤ mwOp w ∧ k = b ∧ t < at_ + 2 * cclk then at_ + 2 * cclk else t
  | none => t

/-- Instant at which the microword at PC can issue. -/
def State.issueAt (s : State) (c : Nat) : Nat :=
  let m := s.me c
  let w := m.word m.pc
  let t := max (max s.edge m.nextAt) m.stallTo
  let t := (readsOf w).foldl (fun t r => m.ready.foldl (fun t x => if x.reg = r then max t x.at_ else t) t) t
  if mwClass w = 9 then m.bankStall w t else t

/-- The instant by which the running handler must have ended (R264), or its first own cycle where a nested one outlasts that. -/
def Microengine.handlerLimit (m : Microengine) : Option Nat :=
  match m.handlers with
  | [] => none
  | h :: _ => some (max (h.since + (if h.fast then m.image.fastMax else m.image.normMax) * cclk) h.from_)

/-- A microword can issue at `t`: the microengine runs, is not gated and does not wait, the guard band has not begun (R242), the
budget of an ENFORCE task is not spent (R281), and no handler is over its limit (R264). -/
def State.canIssue (s : State) (c t : Nat) : Bool :=
  let m := s.me c
  m.state.running && m.wait.isNone && !s.pwr.gated.testBit c && decide (t < s.guardAt c)
    && !(m.state = .task && (s.taskAt c m.task).enforce && m.budget ≤ (t - m.nextAt) / cclk)
    && (match m.handlerLimit with | none => true | some l => decide (t < l))

/-- A microword that occupies the microengine up to an instant is not cut short: by the guard band, by the budget of an ENFORCE task
or by the limit of a handler (R264, R268, R281). -/
def State.undisturbed (s : State) (c t to_ : Nat) : Bool :=
  let m := s.me c
  decide (to_ ≤ s.guardAt c) && !(m.state = .task && (s.taskAt c m.task).enforce && decide (m.budget < (to_ - t) / cclk))
    && (match m.handlerLimit with | none => true | some l => decide (to_ ≤ l))

/-- What a datapath operation does: a state, and whether it ended in a fault of a cause and software code, or has already
chosen the next address. -/
inductive Did where
  | ok (s : State)
  | fault (s : State) (cause soft : Nat)
  | handled (s : State)

/-- One microword, where it matches: operands, datapath and flags, condition, next address (R245); CS_ECC first (R265). -/
def State.issue (s : State) (c : Nat) (ue : Bool) (p : BitVec 128 → Bool) (f : State → BitVec 128 → Nat → Did) : State :=
  let m := s.me c
  let w := m.word m.pc
  let t := s.issueAt c
  if !p w ∨ !s.canIssue c t then s
  else
    let s := (s.runTo t).charge c t
    let s := (s.pcAdd (12 + 2 * c) 1).modMe c fun m => { m with shownPc := m.pc }
    let a := (s.me c).gr (mwSra w)
    if ue then s.meFault c 7 0 t
    else
      match f s w t with
      | .ok s => s.nextAddr c w t a
      | .fault s cause soft => s.meFault c cause soft t
      | .handled s => s

/-- Match on class and operation. -/
def isOp (cls op : Nat) (w : BitVec 128) : Bool := mwClass w = cls && mwOp w = op

/-- Match on the next-address form. -/
def isSeq (q : Nat) (w : BitVec 128) : Bool := mwSeq w = q

end Sys2Proof.Machine
end

