-- ==== Sys2Proof/Machine/MicroAlu.lean ====
section
/-! DEFINITION. The datapath classes CTRL, ALU, SHIFT, MUL, TIME and MOVE of a microengine (R246). -/
namespace Sys2Proof.Machine

/-- A result written to G[DST], with flags when FLG is 1 or always. -/
def Microengine.result (m : Microengine) (w : BitVec 128) (r : Alu) (write always : Bool) : Microengine :=
  let m := if write then m.setG (mwDst w) r.val else m
  if always || mwFlg w then { m with flags := m.flags.ofAlu r } else m

/-- A result written to TM[DST]. -/
def Microengine.timeResult (m : Microengine) (w : BitVec 128) (r : BitVec 80) (carry write always : Bool) : Microengine :=
  let m := if write then m.setT (mwDst w) r else m
  if always || mwFlg w then { m with flags := m.flags.ofTime r carry } else m

/-- CTRL (class 0x0): RETI and FAULT choose what comes next themselves. -/
def dpCtrl (c : Nat) (s : State) (w : BitVec 128) (t : Nat) : Did :=
  let m := s.me c
  match mwOp w with
  | 1 =>
    if m.state = .fast then .handled (s.leaveHandler c (t + cclk) true)
    else if m.state = .normal then
      match m.stack with
      | { saved := some _, .. } :: _ => .handled (s.leaveHandler c (t + cclk) false)
      | _ => .fault s 3 0
    else .fault s 3 0
  | 2 => .ok (s.modMe c fun m => { m with flags := { m.flags with ie := true } })
  | 3 => .ok (s.modMe c fun m => { m with flags := { m.flags with ie := false } })
  | 4 => .ok (s.modMe c fun m => { m with lc := BitVec.ofNat 32 (m.opB w).toNat })
  | 5 =>
    let i := (mwImm w).toNat
    .ok (s.modMe c fun m =>
      { m with flags := { m.flags with uf := (m.flags.uf &&& ~~~(BitVec.ofNat 8 (i / 256))) ||| BitVec.ofNat 8 i } })
  | 6 => .fault s 8 ((mwImm w).toNat % 256)
  | _ => .ok s

/-- The ALU operation OP on A and B with the carry flag. -/
def aluOf (op : Nat) (a b : W64) (cf : Bool) : Alu :=
  match op with
  | 0 => aluAdd a b false
  | 1 => aluAdd a b cf
  | 2 => aluSub a b false
  | 3 => aluSub a b cf
  | 4 => aluPlain (a &&& b)
  | 5 => aluPlain (a ||| b)
  | 6 => aluPlain (a ^^^ b)
  | 7 => aluPlain (a &&& ~~~b)
  | 8 => aluPlain (if a.toInt ≤ b.toInt then a else b)
  | 9 => aluPlain (if b.toInt ≤ a.toInt then a else b)
  | 10 => aluPlain (if a.toNat ≤ b.toNat then a else b)
  | 11 => aluPlain (if b.toNat ≤ a.toNat then a else b)
  | 12 => aluSat (a.toInt + b.toInt)
  | 13 => aluSat (a.toInt - b.toInt)
  | 14 => aluSub a b false
  | _ => aluPlain (a &&& b)

/-- ALU (class 0x1): CMP and TST write no register and always set flags. -/
def dpAlu (c : Nat) (s : State) (w : BitVec 128) : Did :=
  .ok (s.modMe c fun m =>
    m.result w (aluOf (mwOp w) (m.gr (mwSra w)) (m.opB w) m.flags.c) (decide (mwOp w < 14)) (decide (14 ≤ mwOp w)))

/-- The SHIFT operation OP; EXT and INS take their field from IMM. -/
def shiftOf (op : Nat) (a b d ins : W64) (imm : Nat) : Alu :=
  let n := b.toNat % 64
  let lo := imm % 64
  let len := imm / 64 % 128
  match op with
  | 0 => aluShl a n
  | 1 => aluShr a n
  | 2 => aluSar a n
  | 3 => aluPlain (a.rotateLeft n)
  | 4 => aluPlain (if 1 ≤ len ∧ len ≤ 64 then extField a lo len else Config.fieldOpen a lo len)
  | 5 => aluPlain (if 1 ≤ len ∧ len ≤ 64 then insField d ins lo len else Config.fieldOpen d lo len)
  | 6 => aluPlain (BitVec.ofNat 64 (clz64 a))
  | _ => aluPlain (BitVec.ofNat 64 (popBits 64 a.toNat))

/-- SHIFT (class 0x2). -/
def dpShift (c : Nat) (s : State) (w : BitVec 128) : Did :=
  .ok (s.modMe c fun m =>
    m.result w (shiftOf (mwOp w) (m.gr (mwSra w)) (m.opB w) (m.gr (mwDst w)) (m.gr (mwSrb w)) (mwImm w).toNat) true false)

/-- The product half OP takes. -/
def mulOf (op : Nat) (a b : W64) : W64 :=
  match op with
  | 0 => a * b
  | 1 => BitVec.ofNat 64 (a.toNat * b.toNat / 2 ^ 64)
  | _ => BitVec.ofInt 64 (a.toInt * b.toInt / 2 ^ 64)

/-- A result that arrives some cycles after the issue (Table 9-7). -/
def Microengine.late (m : Microengine) (r t n : Nat) (mul : Bool) : Microengine :=
  { m with ready := { reg := r, at_ := t + n * cclk, mul := mul } :: m.ready.filter fun x => decide (t < x.at_ ∧ x.reg ≠ r) }

/-- MUL (class 0x3): available 4 cycles after issue. -/
def dpMul (c : Nat) (s : State) (w : BitVec 128) (t : Nat) : Did :=
  .ok (s.modMe c fun m =>
    (m.result w (aluPlain (mulOf (mwOp w) (m.gr (mwSra w)) (m.opB w))) true false).late (mwDst w) t 4 true)

/-- TIME (class 0x4): Table 9-4 gives C for TADD, TADDI and TSUB only, so TCMP clears it. -/
def dpTime (c : Nat) (s : State) (w : BitVec 128) (t : Nat) : Did :=
  let m := s.me c
  let a := m.tr (mwSra w)
  let b := m.tr (mwSrb w)
  let g (r : W64) (v : Bool) : Did := .ok (s.modMe c fun m => m.result w { val := r, c := false, v := v } true false)
  let tm (r : BitVec 80) (carry write always : Bool) : Did := .ok (s.modMe c fun m => m.timeResult w r carry write always)
  match mwOp w with
  | 0 => tm (timeAdd a b).1 (timeAdd a b).2 true false
  | 1 => tm (timeSub a b).1 (timeSub a b).2 true false
  | 2 => let i := (m.opB w).signExtend 80
         tm (timeAdd a i).1 (timeAdd a i).2 true false
  | 3 => let d := (a - b).toInt
         g (BitVec.ofInt 64 (clampInt minS64 maxS64 d)) (overflows d)
  | 4 => tm (timeSub a b).1 false false true
  | 5 => tm (BitVec.ofNat 80 (s.dtcAt t)) false true false
  | 6 => tm (BitVec.ofNat 80 ((m.gr (mwSrb w)).toNat % 65536 * 2 ^ 64 + (m.gr (mwSra w)).toNat)) false true false
  | 7 => g (BitVec.ofNat 64 a.toNat) false
  | 8 => g (BitVec.ofNat 64 (a.toNat / 2 ^ 64)) false
  | _ => tm a false true false

/-- A special register as RDSPEC reads it (Table 9-2). -/
def State.special (s : State) (c k t : Nat) : Nat :=
  let m := s.me c
  match k with
  | 0 => m.pc
  | 1 => s.tickCycle t
  | 2 => m.budgetLeft t
  | 3 => m.task + 256 * b2n m.state.inHandler
  | 4 => s.tb.tickIdx % 2 ^ 64
  | 5 => m.lc.toNat
  | 6 => m.flags.word
  | 7 => m.stack.length
  | 8 => match m.handlers with
    | [] => 0xFFFFFFFF
    | h :: _ => h.src
  | 9 => c
  | 10 => m.image.reserve - m.irqNow - m.handlers.foldl (fun a h => a + h.span t) 0
  | _ => 0

/-- MOVE (class 0x5): WRSPEC writes LC and FLAGS only. -/
def dpMove (c : Nat) (s : State) (w : BitVec 128) (t : Nat) : Did :=
  let m := s.me c
  match mwOp w with
  | 0 => .ok (s.modMe c fun m => m.result w (aluPlain (mwImm w)) true false)
  | 1 => .ok (s.modMe c fun m => m.result w (aluPlain (m.gr (mwSra w))) true false)
  | 2 => .ok (s.modMe c fun m => m.result w (aluPlain (BitVec.ofNat 64 (s.special c (mwSel w % 16) t))) true false)
  | _ =>
    let v := m.gr (mwSra w)
    .ok (s.modMe c fun m =>
      let m := if mwFlg w then { m with flags := m.flags.ofAlu (aluPlain v) } else m
      if mwSel w % 16 = 5 then { m with lc := BitVec.ofNat 32 v.toNat }
      else if mwSel w % 16 = 6 then { m with flags := m.flags.ofWord v.toNat }
      else m)

end Sys2Proof.Machine
end

