-- ==== Sys2Proof/Machine/Sched.lean ====
section
/-! DEFINITION. Cadence scheduler: lists, guard band, cuts, the schedulability rule and its commands; interrupt entry and waiting of a microengine (R251, R261 to R264, R277 to R290). -/
namespace Sys2Proof.Machine

/-! The schedulability rule (R284, R286). -/

/-- Hyperperiod of a task table (R277). -/
def hyper (l : List Task) : Nat := l.foldl (fun h t => if t.en then max h (2 ^ t.pexp) else h) 1

/-- A task's share of the load of tick index k (R284). -/
def Task.share (t : Task) (k : Nat) : Nat := if t.en ∧ k % 2 ^ t.pexp = t.phase then t.budget else 0

/-- Planned load of tick index k (R284). -/
def planned (l : List Task) (reserve k : Nat) : Nat := l.foldl (fun a t => a + t.share k) reserve

/-- Planned load of tick index k with prepared entries besides (R381): where one is to replace an entry, the larger of the two counts. -/
def plannedWith (l : List Task) (more : List (Nat × Task)) (reserve k : Nat) : Nat :=
  more.foldl (fun a x => a + (x.2.share k - (l.getD x.1 Task.empty).share k)) (planned l reserve k)

/-- The peak of the planned load over n ticks. -/
def peak (l : List Task) (reserve n : Nat) : Nat := (List.range n).foldl (fun m k => max m (planned l reserve k)) 0

/-- The peak over n ticks with prepared entries besides. -/
def peakWith (l : List Task) (more : List (Nat × Task)) (reserve n : Nat) : Nat :=
  (List.range n).foldl (fun m k => max m (plannedWith l more reserve k)) 0

/-- The lowest tick index at which the peak falls. -/
def peakAt (l : List Task) (reserve n : Nat) : Nat :=
  ((List.range n).find? fun k => planned l reserve k = peak l reserve n).getD 0

/-- The PHASE that AUTO_PHASE chooses for task `t` in slot `i`, with prepared entries besides (R286, R381). -/
def autoPhase (l : List Task) (more : List (Nat × Task)) (reserve i : Nat) (t : Task) : Nat :=
  let h := max (max (hyper l) (hyper (more.map Prod.snd))) (2 ^ t.pexp)
  let val (p : Nat) := peakWith (l.set i { t with phase := p }) more reserve h
  ((List.range (2 ^ t.pexp)).foldl (fun (b : Nat × Nat) p => if val p < b.1 then (val p, p) else b) (val 0, 0)).2

/-! Due and carry lists (R278, R279). -/

/-- Task numbers ordered by descending PRIO, then ascending number. -/
def insertTask (l : List Task) (t : Nat) : List Nat → List Nat
  | [] => [t]
  | u :: r =>
    if (l.getD u Task.empty).prio < (l.getD t Task.empty).prio then t :: u :: r else u :: insertTask l t r

/-- The tasks that satisfy a condition, in dispatch order. -/
def orderTasks (l : List Task) (p : Task → Bool) : List Nat :=
  ((List.range l.length).filter fun t => p (l.getD t Task.empty)).foldl (fun a t => insertTask l t a) []

/-- A task is due in tick k (R278). -/
def Task.due (t : Task) (k : Nat) : Bool := t.en && !t.faulted && k % 2 ^ t.pexp = t.phase

/-- The lists of a tick index built from the table as it stands. -/
def Sched.build (h : Sched) (k : Nat) : Sched :=
  let l := h.tasks.toList
  { h with dueNext := orderTasks l (Task.due · k), carryNext := orderTasks l fun t => t.carry && t.en && !t.due k }

/-- The slice of a cluster at a boundary: the new lists, the reserve and the counts of the tick, and the first dispatch (R279). -/
def State.schTick (s : State) (c at_ : Nat) (rebuild : Bool) : State :=
  let s := s.modCl c fun k =>
    let h := if rebuild ∨ k.sch.guardTick.isNone then k.sch.build s.tb.tickIdx else k.sch
    { k with
      sch := { h with due := h.dueNext, carry := h.carryNext, dueNext := [], carryNext := [], dueCnt := h.dueNext.length,
                      doneCnt := 0, idle := 0, countedTo := at_ }
      me := { k.me with irqLast := k.me.irqNow, irqNow := 0 } }
  if s.pwr.gated.testBit c ∨ (s.me c).state ≠ .idle then s else s.dispatchNext c at_

/-! The guard band (R54, R268, R282, R283). -/

/-- A task still running in the first guard cycle: cut off, counted and carried. -/
def State.overrun (s : State) (c at_ : Nat) : State :=
  let s := s.charge c at_
  let t := (s.me c).task
  let s := s.modTask c t fun k =>
    { k with ovrCnt := satInc 63 k.ovrCnt, carry := true, usedMax := max k.usedMax (s.me c).used }
  let s := s.modSch c fun h => { h with ovr := h.ovr + 1 }
  let s := s.report 7 1 (c + 256 * t) (w32 s.tb.tickIdx) (w32 (s.tb.tickIdx / 2 ^ 32))
  s.modMe c fun m => { m with state := .idle, stack := [], wait := none, nextAt := max m.nextAt at_ }

/-- Tasks not dispatched by the first guard cycle: counted, and a due one carried. -/
def State.skipTasks (s : State) (c : Nat) : State :=
  let h := (s.clus c).sch
  let s := s.modSch c fun k =>
    { k with skip := k.skip + w32 (h.due.length + h.carry.length), due := [], carry := [] }
  s.each h.due fun s t => s.modTask c t fun k => { k with carry := true }

/-- A task whose budget is spent is cut: counted, marked, and the next one dispatched in that cycle (R281). -/
def State.cutTask (s : State) (c t : Nat) : State :=
  let s := s.charge c t
  let s := s.modSch c fun h => { h with cut := h.cut + 1 }
  let s := s.modTask c (s.me c).task fun k => { k with cut := true }
  (s.taskOver c t).dispatchNext c t

/-- The running task ends in the first guard cycle: a cut where an ENFORCE budget has just run out, else an overrun (R281, R282). -/
def State.guardEnds (s : State) (c g : Nat) : State :=
  let m := s.me c
  if m.state ≠ .task then s
  else if (s.taskAt c m.task).enforce ∧ m.nextAt + m.budget * cclk ≤ g then s.cutTask c g
  else s.overrun c g

/-- The guard band of the present tick begins in cluster c; once in a tick. -/
def execGuardBand (c : Fin 4) (s : State) : Host.Outcome State Fault Refusal :=
  let h := (s.clus c).sch
  if h.guardTick = some s.tb.tickIdx then .next s
  else
    let g := s.guardAt c
    let s := (s.runTo g).countIdle c g
    let s := s.modSch c fun k =>
      { k with slackLast := k.idle, slackMin := min k.slackMin k.idle, guardTick := some s.tb.tickIdx }
    let s := s.guardEnds c g
    let s := if s.pwr.gated.testBit c then s else s.skipTasks c
    .next (s.modSch c fun k => k.build (s.tb.tickIdx + 1))

/-- An ENFORCE task whose count has reached 0 is cut, and the next task dispatched in that cycle (R281). -/
def execBudgetCut (c : Fin 4) (s : State) : Host.Outcome State Fault Refusal :=
  let m := s.me c
  let t := m.nextAt + m.budget * cclk
  let waits : Bool := match m.wait with
    | none => decide (t ≤ s.issueAt c)
    | some w => match w.limit with | none => true | some l => decide (t ≤ l)
  if m.state = .task ∧ (s.taskAt c m.task).enforce ∧ waits ∧ t ≤ s.guardAt c then
    .next ((s.runTo t).cutTask c t)
  else .next s

/-! Waiting (R251). -/

/-- WAIT (class 0xB). -/
def dpWait (c : Nat) (s : State) (w : BitVec 128) (t : Nat) : Did :=
  if s.holds c w t then .ok s
  else
    let n := (mwImm w).toNat % 2 ^ 32
    .handled ((s.charge c (t + cclk)).modMe c fun m =>
      { m with wait := some { since := t, limit := if n = 0 then none else some (t + n * cclk) } })

/-- First edge from k on which a condition that time alone makes true, DTC_GE or BUDGET_LOW, holds; k for the others. -/
def State.condEdge (s : State) (c : Nat) (w : BitVec 128) (k : Nat) : Nat :=
  let m := s.me c
  if mwCinv w ∨ s.cond c w k then k
  else if mwCond w = 12 then k + cdiv (unsigned 80 ((m.tr (mwSra w)).toNat - (s.dtcAt k : Int))) cclk * cclk
  else if mwCond w = 17 ∧ m.state = .task then k + (m.budgetLeft k + 1 - (mwImm w).toNat / 2 ^ 32 % 65536) * cclk
  else k

/-- The waiting microword's condition holds on an edge before its timeout: the next microword follows. -/
def execWaitConditionMet (c : Fin 4) (s : State) : Host.Outcome State Fault Refusal :=
  let m := s.me c
  match m.wait with
  | none => .next s
  | some w =>
    let k := s.condEdge c (m.word m.pc) (max s.edge m.nextAt)
    let late : Bool := match w.limit with | none => false | some l => decide (l < k)
    let u := s.runTo k
    if late ∨ ¬ k < s.guardAt c ∨ !u.holds c (m.word m.pc) k then .next s
    else .next ((u.modMe c fun m => { m with wait := none }).goTo c (m.pc + 1) k)

/-- The timeout of a WAIT expires: the condition wins on the same edge, otherwise TARGET follows. -/
def execWaitTimeout (c : Fin 4) (s : State) : Host.Outcome State Fault Refusal :=
  let m := s.me c
  match m.wait with
  | some { limit := some l, .. } =>
    let k := max l (max s.edge m.nextAt)
    if ¬ k < s.guardAt c then .next s
    else
      let s := s.runTo k
      let w := m.word m.pc
      let a := if s.holds c w k then m.pc + 1 else mwTarget w
      .next ((s.modMe c fun m => { m with wait := none }).goTo c a k)
  | _ => .next s

/-! Interrupt entry (R261 to R263, R397). -/

/-- The source the CIC chooses in a class: the lowest number pending for the microengine. -/
def State.cicChoice (s : State) (c : Fin 4) (fast : Bool) : Option Nat :=
  if s.ic.dis.testBit (2 + c.val) then none
  else (List.range 256).find? fun k =>
    let x := s.srcAt k
    x.pending && !x.active && x.fast == fast && x.target == .me c

/-- Cycles left in the interrupt reserve at an instant. -/
def State.irqLeft (s : State) (c t : Nat) : Nat := s.special c 10 t

/-- A register interlock on a MUL result holds the microword at PC. -/
def State.mulStall (s : State) (c t : Nat) : Bool :=
  let m := s.me c
  m.state.running && m.wait.isNone && (readsOf (m.word m.pc)).any fun r =>
    m.ready.any fun x => x.reg == r && x.mul && decide (t < x.at_)

/-- The conditions of R261 at a decision cycle. -/
def State.mayEnter (s : State) (c : Nat) (fast : Bool) (d : Nat) : Bool :=
  let m := s.me c
  let lim := if fast then m.image.fastMax else m.image.normMax
  (m.state = .idle || m.state = .task || m.state = .normal)
    && (fast || (m.flags.ie && m.stack.length < 16))
    && 1 ≤ s.tickCycle d && s.tickCycle d + lim < s.guardCycle c
    && lim ≤ s.irqLeft c d && !s.mulStall c d && m.stallTo ≤ d

/-- The cycle of decision: the first one that is not occupied yet, or the present one of a stalled IO.RD (R261). -/
def State.decisionAt (s : State) (c : Nat) : Nat :=
  let m := s.me c
  if s.edge < m.stallTo then s.edge else max s.edge m.nextAt

/-- A pending source considered in a decision cycle: entered, or held (R261). -/
def State.irqDecide (s : State) (c : Fin 4) (fast : Bool) : State :=
  let m := s.me c
  match s.cicChoice c fast with
  | none => s
  | some k =>
    if m.state = .halted ∨ m.state = .loading ∨ s.pwr.gated.testBit c then s
    else
      let d := s.decisionAt c
      let s := s.runTo d
      if !s.mayEnter c fast d then s.modMe c fun m => { m with irqHeld := m.irqHeld + 1 }
      else
        let x := s.srcAt k
        let s := (s.countIdle c d).charge c d
        let s := s.modSrc k fun x => { x with pending := false, active := true }
        let s := s.pcAdd (40 + c) 1
        let s := { s with ic :=
          if fast then { s.ic with fastSrc := vset s.ic.fastSrc c k, fastAct := vset s.ic.fastAct c true }
          else { s.ic with lastN := vset s.ic.lastN c k } }
        s.modMe c fun m =>
          let h : MeHandler := { src := k, fast := fast, since := d, before := m.state, stack := m.stack,
                                 wait := m.wait, pc := m.pc, flags := m.flags, lc := m.lc, inner := 0, from_ := d }
          let m := { m with handlers := h :: m.handlers, wait := none, pc := x.addr }
          if fast then { m.swapFast with state := .fast, nextAt := d + 2 * cclk }
          else
            { m with state := .normal, nextAt := d + 3 * cclk, flags := { m.flags with ie := false },
                     stack := { ret := h.pc, saved := some h.flags } :: m.stack }

/-- FAST_ENTRY. -/
def execFastEntry (c : Fin 4) (s : State) : Host.Outcome State Fault Refusal := .next (s.irqDecide c true)

/-- NORMAL_ENTRY: a fast source is chosen before a normal one (R397). -/
def execNormalEntry (c : Fin 4) (s : State) : Host.Outcome State Fault Refusal :=
  if (s.cicChoice c true).isSome ∧ s.mayEnter c true (s.decisionAt c) then .next s
  else .next (s.irqDecide c false)

/-- A handler still running at its limit: HANDLER_LONG (R264). -/
def execHandlerLong (c : Fin 4) (s : State) : Host.Outcome State Fault Refusal :=
  let m := s.me c
  match m.handlerLimit with
  | none => .next s
  | some l =>
    let late : Bool := match m.wait with
      | none => decide (l ≤ s.issueAt c)
      | some w => match w.limit with | none => true | some x => decide (l ≤ x)
    if late then .next ((s.runTo l).meFault c 9 0 l) else .next s

/-! Commands (R290). -/

/-- Tick period and guard that hold at boundary B. -/
def State.tickPAt (s : State) (b : Nat) : Nat :=
  match s.tb.tickPend with
  | none => s.tb.tickP
  | some p => if (if s.pps.mode = 0 then s.tb.tickEnd else secondFrom s.tb.tickEnd) ≤ b then p else s.tb.tickP

/-- The entry TASK_SET w1 to w4 describe. -/
def taskOf (p : List W32) : Task :=
  { Task.empty with
    en := bit (pw p 1) 16, enforce := bit (pw p 1) 17, auto := bit (pw p 1) 18, pexp := bits (pw p 1) 28 24
    entry := bits (pw p 2) 12 0, prio := bits (pw p 2) 23 16, phase := bits (pw p 3) 15 0
    resume := bits (pw p 2) 12 0, budget := bits (pw p 4) 22 0 }

/-- TASK_SET at its boundary: the entry replaced whole. -/
def applyTaskSet (s : State) (p : List W32) : State :=
  s.modTask (bits (pw p 1) 1 0) (bits (pw p 1) 15 8) fun _ => taskOf p

/-- TASK_REMOVE at its boundary. -/
def applyTaskRemove (s : State) (p : List W32) : State :=
  s.each (rangeIdx (bits (pw p 1) 15 8) (bits (pw p 1) 23 16)) fun s t =>
    s.modTask (bits (pw p 1) 1 0) t fun _ => Task.empty

/-- A prepared member as it counts in R284: TASK_SET with its task enabled (R381). -/
def asEnabled (op : Nat) (p : List W32) : List W32 := if op = 0x0701 then (pw p 1 ||| 0x10000#32) :: p.tail else p

/-- A deferred action takes effect at boundary b or before. -/
def State.dueBy (s : State) (b : Nat) (d : Deferred) : Bool :=
  match d.at_ with
  | .phys p => decide (s.extAt p ≤ (b : Int))
  | .dtc x => decide (x ≤ b)

/-- The state with the task tables that will hold at boundary b: the actions due by then have taken effect (R290). -/
def State.tasksBy (s : State) (b : Nat) : State :=
  s.deferred.foldl (fun u d =>
    if !s.dueBy b d then u
    else if d.op = 0x0701 then applyTaskSet u d.words
    else if d.op = 0x0702 then applyTaskRemove u d.words
    else u) s

/-- Entries of a cluster that are accepted for a later boundary than b, or prepared in an open group: each with its slot (R381). -/
def State.tasksLater (s : State) (c b : Nat) : List (Nat × Task) :=
  let l := (s.deferred.filter fun d => !s.dueBy b d).map fun d =>
    (d.op, match d.at_ with | .dtc _ => asEnabled d.op d.words | .phys _ => d.words)
  let g := (s.grp.toList.filter fun g => g.state = .opened).flatMap fun g => g.members.map fun m => (m.op, asEnabled m.op m.words)
  ((l ++ g).filter fun a => a.1 = 0x0701 && bits (pw a.2 1) 1 0 = c).map fun a => (bits (pw a.2 1) 15 8, taskOf a.2)

/-- The table of a cluster as a list. -/
def State.table (s : State) (c : Nat) : List Task := (s.clus c).sch.tasks.toList

/-- Peak of a cluster's planned load (SCH_PEAK). -/
def State.peakOf (s : State) (c : Nat) : Nat :=
  let l := s.table c
  peak l (s.me c).image.reserve (hyper l)

/-- Peak of a cluster's planned load with entries besides (R284, R381). -/
def State.peakMore (s : State) (c : Nat) (more : List (Nat × Task)) : Nat :=
  let l := s.table c
  peakWith l more (s.me c).image.reserve (max (hyper l) (hyper (more.map Prod.snd)))

/-- The peak of the present table with all that is accepted or prepared. -/
def State.peakFull (s : State) (c : Nat) : Nat := s.peakMore c (s.tasksLater c 0)

/-- The guard that holds at boundary b: a planned one, clamped to P/8, unless its raise is held back at the boundary it comes to
(R138, R290). -/
def State.guardBy (s : State) (c b : Nat) : Nat :=
  let g := (s.clus c).sch.guard
  match (s.clus c).planned with
  | none => g
  | some (x, _, _) =>
    let p := s.tickPAt b
    let x := min x (min s.tb.tickP p / 8)
    if g < x ∧ p - x < s.peakFull c then g else x

/-- The capacity of a cluster at boundary b. -/
def State.capBy (s : State) (c b : Nat) : Nat := s.tickPAt b - s.guardBy c b

/-- Refusals of the task fields (Table 10-2). -/
def taskRange (t : Task) (p : List W32) (cap nwords : Nat) : Bool :=
  16 < t.pexp || (!t.auto && 2 ^ t.pexp ≤ t.phase) || t.budget = 0 || cap < t.budget || nwords ≤ t.entry
    || reserved (pw p 1) 0x1F07FF03 || reserved (pw p 2) 0x00FF1FFF || reserved (pw p 3) 0xFFFF || reserved (pw p 4) 0x7FFFFF

/-- TASK_SET with the PHASE that AUTO_PHASE chooses in w3, from the table of state `u`. -/
def taskSetWords (u : State) (more : List (Nat × Task)) (p : List W32) : List W32 :=
  let c := bits (pw p 1) 1 0
  let t := taskOf p
  if t.auto then
    let φ := autoPhase (u.table c) more (u.me c).image.reserve (bits (pw p 1) 15 8) t
    [pw p 1, pw p 2, w32 φ, pw p 4]
  else p

/-- A change of task t of cluster c is pending. -/
def State.taskBusy (s : State) (c a b : Nat) : Bool :=
  s.deferred.any fun d =>
    (d.op = 0x0701 && bits (pw d.words 1) 1 0 = c && a ≤ bits (pw d.words 1) 15 8 && bits (pw d.words 1) 15 8 ≤ b) ||
    (d.op = 0x0702 && bits (pw d.words 1) 1 0 = c && a ≤ bits (pw d.words 1) 23 16 && bits (pw d.words 1) 15 8 ≤ b)

/-- TASK_SET as it will stand at its boundary: the state with the tables of that boundary, what is to come besides, and the words with
the PHASE in use. -/
def State.taskPlan (s : State) (p : List W32) : State × List (Nat × Task) × List W32 :=
  let b := s.boundaryB
  let u := s.tasksBy b
  let more := s.tasksLater (bits (pw p 1) 1 0) b
  (u, more, taskSetWords u more p)

/-- TASK_SET's refusals. -/
def taskSetCheck (s : State) (p : List W32) : Nat :=
  let c := bits (pw p 1) 1 0
  let i := bits (pw p 1) 15 8
  let m := s.me c
  let cap := s.capBy c s.boundaryB
  let a := s.taskPlan p
  firstCode [
    (taskRange (taskOf p) p cap m.image.nwords, rcRange),
    (m.state = .halted || m.state = .loading, rcState),
    (s.taskBusy c i i, rcBusy),
    (cap < (applyTaskSet a.1 a.2.2).peakMore c a.2.1, rcResource)]

/-- TASK_SET. -/
def cmdTaskSet (s : State) (p : List W32) : Res :=
  let c := bits (pw p 1) 1 0
  let k := taskSetCheck s p
  if k ≠ 0 then fail s k
  else
    let a := s.taskPlan p
    let b := s.boundaryB
    okay (s.defer s.whenB 0x0701 a.2.2) ([pw a.2.2 3, w32 ((applyTaskSet a.1 a.2.2).peakOf c), w32 (s.capBy c b)] ++ extWords b)

/-- TASK_REMOVE's refusals. -/
def taskRemoveCheck (s : State) (p : List W32) : Nat :=
  let a := bits (pw p 1) 15 8
  let b := bits (pw p 1) 23 16
  firstCode [(b < a || reserved (pw p 1) 0xFFFF03, rcRange), (s.taskBusy (bits (pw p 1) 1 0) a b, rcBusy)]

/-- TASK_REMOVE. -/
def cmdTaskRemove (s : State) (p : List W32) : Res :=
  let c := bits (pw p 1) 1 0
  let k := taskRemoveCheck s p
  if k ≠ 0 then fail s k
  else okay (s.defer s.whenB 0x0702 p) (w32 ((applyTaskRemove (s.tasksBy s.boundaryB) p).peakOf c) :: extWords s.boundaryB)

/-- A tick period in the range of R52; under discipline it divides 625,000,000 (R53). -/
def State.periodOk (s : State) (p : Nat) : Bool :=
  640 ≤ p && p ≤ 6250000 && (s.pps.mode = 0 || 625000000 % p = 0)

/-- SCHED_CHECK: the rule applied to assumed values; nothing changes (R290). -/
def cmdSchedCheck (s : State) (p : List W32) : Res :=
  let w := pw p 1
  let c := bits w 1 0
  let per := if bit w 8 then (pw p 2).toNat else s.tb.tickP
  let g := if bit w 9 then (pw p 3).toNat else (s.clus c).sch.guard
  let cap := per - g
  let add := bit w 10
  let q := p.drop 3
  let r := (s.me c).image.reserve
  let l := s.table c
  let i := bits (pw q 1) 15 8
  let t := taskOf q
  let φ := if add then autoPhase l [] r i t else 0
  let l := if add then l.set i { t with phase := if t.auto then φ else t.phase } else l
  let h := hyper l
  let pk := peak l r h
  if reserved w 0x703 || !s.periodOk per || g < 64 || 1024 < g || per / 8 < g
      || (add && taskRange t q cap (s.me c).image.nwords) then fail s rcRange
  else okay s [w32 (b2n (decide (pk ≤ cap))), w32 pk, w32 cap, w32 (peakAt l r h), w32 φ, w32 h]

end Sys2Proof.Machine
end

