-- ==== Sys2Proof/Machine/Calib.lean ====
section
/-! DEFINITION. Freewheel calibration, starvation, offset measurements, cycles, the ageing model and the margins (chapter 4). -/
namespace Sys2Proof.Machine

/-! The bin-table update (R118 to R121). Widths and sums are in 2⁻²⁰ tq, where R118's arithmetic is exact. -/

def sumNat (l : List Nat) : Nat := l.foldl (· + ·) 0

/-- Width of a code. -/
def hitsWidth (h : Hits) (k : Nat) : Nat :=
  1600 * (h.late.getD k 0 + h.early.getD k 0) + 800 * h.nom.getD k 0

/-- Lead and tail. -/
def hitsLead (h : Hits) : Nat := 1600 * sumNat h.late
def hitsTail (h : Hits) : Nat := 1600 * sumNat h.early

/-- The entries from a position on, rounded to 1/256 tq with a tie upward. -/
def hitsEntriesFrom (h : Hits) (lead : Nat) : List Nat → Nat → List Int
  | [], _ => []
  | k :: l, pos =>
    let w := hitsWidth h k
    (((184 * 2 ^ 20 + pos + w / 2 : Nat) - (lead : Int) + 2048) / 4096) :: hitsEntriesFrom h lead l (pos + w)

/-- e[k] of R118. -/
def hitsEntries (h : Hits) : List Int := hitsEntriesFrom h (hitsLead h) (List.range 160) 0

/-- The codes that received a hit. -/
def hitsHitCodes (h : Hits) : List Nat :=
  (List.range 160).filter fun k => decide (h.late.getD k 0 + h.early.getD k 0 + h.nom.getD k 0 ≠ 0)

/-- Of the first hits of an update, those under NOM, EARLY and LATE: the order NOM, NOM, EARLY, LATE repeats (R117). -/
def modeHits (n : Nat) : Nat × Nat × Nat := (n / 4 * 2 + min 2 (n % 4), n / 4 + n % 4 / 3, n / 4)

/-- Counts per code, added. -/
def addCounts (a b : List Nat) : List Nat := (List.range 160).map fun k => a.getD k 0 + b.getD k 0
def addHits (a b : Hits) : Hits :=
  { nom := addCounts a.nom b.nom, early := addCounts a.early b.early, late := addCounts a.late b.late, all := a.all + b.all }

/-- Hits can follow those already counted: the update has room for them, no mode has more in line than it has in all, and no
code lies beyond the line. -/
def hitsLegal (old h : Hits) : Bool :=
  let a := modeHits old.all
  let b := modeHits (old.all + h.all)
  old.all + h.all ≤ 2 ^ 20 && a.1 + sumNat h.nom ≤ b.1 && a.2.1 + sumNat h.early ≤ b.2.1 && a.2.2 + sumNat h.late ≤ b.2.2
    && h.nom.length ≤ 160 && h.early.length ≤ 160 && h.late.length ≤ 160

/-- No zero width between the lowest and the highest code that received a hit. -/
def hitsNoMissing (h : Hits) : Bool :=
  match hitsHitCodes h, (hitsHitCodes h).getLast? with
  | a :: _, some b => (rangeIdx a b).all fun k => decide (hitsWidth h k ≠ 0)
  | _, _ => true

/-- The jump test against the active table. -/
def jumpOk (active new : List Int) : Bool :=
  (List.range 160).all fun k =>
    let a := active.getD k 0
    let b := new.getD k 0
    let inside (x : Int) : Bool := decide (184 * 256 ≤ x ∧ x < 584 * 256)
    !(inside a && inside b) || near a b 4096

/-- Table 4-2. -/
def hitsPasses (h : Hits) (overlap : Nat) (first : Bool) (active : List Int) : Bool :=
  sumNat h.nom = 2 ^ 19 && hitsNoMissing h && ((List.range 160).all fun k => decide (hitsWidth h k ≤ 16 * 2 ^ 20))
    && overlap * 2 ^ 20 ≤ hitsLead h && overlap * 2 ^ 20 ≤ hitsTail h
    && 600 * 2 ^ 20 ≤ hitsLead h + 400 * 2 ^ 20 + hitsTail h && hitsLead h + 400 * 2 ^ 20 + hitsTail h ≤ 1000 * 2 ^ 20
    && (first || jumpOk active (hitsEntries h))

/-- A lead or tail in whole tq, to the nearest. -/
def wholeTq (x : Nat) : Nat := (x + 2 ^ 19) / 2 ^ 20

/-- CAL_INT (Table 4-6). -/
def Interp.calInt (x : Interp) : W32 :=
  w32 (put 31 1 (b2n x.rangeHit) + put 30 1 (b2n x.rejected) + put 29 1 (b2n x.starved) + put 28 1 (b2n x.activeBank)
    + put 20 8 x.updCnt + put 10 10 x.tail + put 0 10 x.lead)

/-- A channel fails with a cause of Table 4-3 (R132). -/
def State.failCal (s : State) (n cause : Nat) : State :=
  s.modCal n fun k => { k with failed := true, failCause := cause, cleared := false, runOk := false, cleared0 := false, cleared1 := false }

/-- FE temperature that serves a channel's cluster (R303). -/
def State.feTemp (s : State) (n : Nat) : Int := vget s.env.feLast (n / 32)

/-- An accepted table is in use (R121): the flags that an accepted update clears, and the failure it may lift (R132). -/
def ChCal.swap (k : ChCal) (i1 : Bool) (t : NewTable) (now : Nat) (temp : Int) : ChCal :=
  let x := k.interp i1
  let k := k.setInterp i1
    { x with table := t.entries, lead := t.lead, tail := t.tail, next := none, hits := noHits, updCnt := (x.updCnt + 1) % 256,
             activeBank := !x.activeBank, accepted := x.accepted + 1, starved := false, rangeHit := false,
             rangeStale := false, since := now, tempAt := temp }
  let k := { k with overdue := k.overdue && (k.interp (!i1)).starved, stealNext1 := false,
                    cleared0 := k.cleared0 || (k.cleared && !i1), cleared1 := k.cleared1 || (k.cleared && i1) }
  if k.failed ∧ k.cleared ∧ k.cleared0 ∧ k.cleared1 then { k with failed := false, failCause := 0, cleared := false } else k

/-- TABLE_SWAP: on an edge at which no code of that interpolator awaits correction. -/
def execTableSwap (n : Fin 128) (i1 : Bool) (s : State) : Host.Outcome State Fault Refusal :=
  match ((s.chan n).cal.interp i1).next with
  | none => .next s
  | some t =>
    if (s.chan n).inp.convs.any fun l => l.interp1 == i1 then .next s
    else
      let s := s.runTo s.edge
      .next (s.modCal n fun k => k.swap i1 t s.now (s.feTemp n)).settle

/-! Starvation (R123, R124). -/

/-- tq of a millisecond and of an hour. -/
def msTq : Nat := 8000000000
def hourTq : Nat := 3600 * secondTq

/-- CAL_STARVED: CAL_STARVE has passed since the last accepted update. -/
def execCalStarved (n : Fin 128) (i1 : Bool) (s : State) : Host.Outcome State Fault Refusal :=
  let x := (s.chan n).cal.interp i1
  if x.starved ∨ s.pwr.gated.testBit (n / 32) ∨ x.table = [] then .next s
  else
    let s := s.runTo (x.since + (s.clus (n / 32)).starveMs * msTq)
    .next (s.modInt n i1 fun x => { x with starved := true }).settle

/-- The instant from which the longest starvation of a channel counts. -/
def ChCal.starvedFrom (k : ChCal) : Option Nat :=
  match [k.int0, k.int1].filter fun x => x.starved with
  | [] => none
  | x :: r => some (r.foldl (fun a y => min a y.since) x.since)

/-- starved_time > 2 × CAL_STARVE, at an instant (R131). -/
def ChCal.isOverdue (k : ChCal) (starveMs now : Nat) : Bool :=
  match k.starvedFrom with | none => false | some t => decide (t + 2 * starveMs * msTq < now)

/-- STEAL_OVERDUE: a channel still starved after twice CAL_STARVE. -/
def execStealOverdue (n : Fin 128) (s : State) : Host.Outcome State Fault Refusal :=
  match (s.chan n).cal.starvedFrom with
  | none => .next s
  | some t =>
    let s := s.runTo (t + 2 * (s.clus (n / 32)).starveMs * msTq + 1)
    .next (s.modCal n fun k => { k with overdue := true }).settle

/-- The interpolator a stolen tick withholds, if channel n steals the tick of an index. -/
def State.steals (s : State) (n idx : Nat) : Option Bool :=
  let k := (s.chan n).cal
  if (s.clus (n / 32)).monitor ∨ s.pwr.gated.testBit (n / 32) ∨ idx % 64 ≠ n % 64 then none
  else if k.int0.starved ∧ k.int1.starved then some k.stealNext1
  else if k.int0.starved then some false
  else if k.int1.starved then some true
  else none

/-- The steals of the tick that begins at a boundary (R124), with their CAL_STEAL records. -/
def State.stealTick (s : State) (sort : Int) (dtc : Nat) : State :=
  s.each (List.range 128) fun s n =>
    match s.steals n s.tb.tickIdx with
    | none =>
      if (s.chan n).cal.stealActive then
        (s.modCal n fun k => { k with stealActive := false }).modIn n fun x => { x with withheld := none }
      else s
    | some i =>
      let both : Bool := (s.chan n).cal.int0.starved && (s.chan n).cal.int1.starved
      let s := s.modCal n fun k =>
        { k with stealActive := true, steals := k.steals + 1, stealNext1 := both && !i }
      let s := s.modIn n fun x => { x with withheld := some i }
      s.emit (n / 32) sort dtc (.calSteal n (b2n i) (s.chan n).cal.steals.toNat)

/-! Offset measurements and cycles (R127 to R130). -/

/-- A CAL_RUN is in progress in a cluster. -/
def State.calRunBusy (s : State) (c : Nat) : Bool :=
  (List.range 32).any fun j =>
    let k := (s.chan (32 * c + j)).cal
    let run (m : Option CalMeas) : Bool := match m with | some m => m.run | none => false
    run k.meas || run k.measOut

/-- A TDR run is in progress in a cluster. -/
def State.tdrBusy (s : State) (c : Nat) : Bool := (vget s.env.tdr c).isSome

/-- Every configured input and output has an accepted measurement since the cycle started. -/
def State.cycleCovered (s : State) : Bool :=
  (List.range 128).all fun n =>
    let c := s.chan n
    (!c.inp.configured || c.cal.inCycle) && (!c.out.configured || c.cal.outCycle)

/-- Every configured input and output has an accepted measurement since the previous completed cycle (R146). -/
def State.runCovered (s : State) : Bool :=
  (List.range 128).all fun n =>
    let c := s.chan n
    (!c.inp.configured || c.cal.inRun) && (!c.out.configured || c.cal.outRun)

/-- The last 64 entries of a list that grows at its end (R135). -/
def last64 {α : Type} (l : List α) : List α := l.drop (l.length - 64)

/-- The accepted terms of a channel as the history records them. -/
def ChCal.recIn (k : ChCal) : Option TermRec :=
  k.inAt.map fun t => { term := k.inTerm, d1 := k.d1, at_ := t, temp := k.inTempAt, hours := k.inHours }
def ChCal.recOut (k : ChCal) : Option TermRec :=
  k.outAt.map fun t => { term := k.outTerm, d1 := 0, at_ := t, temp := k.outTempAt, hours := k.outHours }

/-- A completed cycle enters the history of a channel, and the next one begins (R135). -/
def ChCal.cycleEnds (k : ChCal) (cycle deg : Nat) : ChCal :=
  let int (x : Interp) : Interp := { x with ltHist := last64 (x.ltHist ++ [(x.lead, x.tail)]) }
  { k with int0 := int k.int0, int1 := int k.int1
           hist := last64 (k.hist ++ [{ cycle := cycle, deg := deg, inT := k.recIn, outT := k.recOut }])
           inCycle := false, outCycle := false, inRun := false, outRun := false }

/-- A cycle is counted complete: the present one (R130), or by a CAL_RUN that has now ended (R146). -/
def State.completeCycle (s : State) (ended : Bool) : State :=
  if (s.st.cycleOn && s.cycleCovered) || (ended && s.runCovered) then
    let s := { s with st := { s.st with cycles := satInc 255 s.st.cycles, cycleOn := false, planDue := true } }
    s.each (List.range 128) fun s n => s.modCal n fun k => k.cycleEnds s.st.cycles (s.clus (n / 32)).degPpm
  else s

/-- The input measurement of a channel can start now: disabled, not under TDR, its cluster not gated. -/
def State.canMeasure (s : State) (n : Nat) : Bool :=
  !(s.chan n).inp.en && !s.pwr.gated.testBit (n / 32) && (s.chan n).cal.meas.isNone &&
    match vget s.env.tdr (n / 32) with | some r => r.cur ≠ n | none => true

/-- An input measurement of the present cycle starts. -/
def State.startMeasure (s : State) (n : Nat) (run : Bool) : State :=
  s.modCal n fun k => { k with meas := some { run := run, since := s.now } }

/-- CAL_CYCLE_START: the planned interval has passed (R130). -/
def execCalCycleStart (s : State) : Host.Outcome State Fault Refusal :=
  if s.pwr.startup ≠ .ready then .next s
  else
    let s := s.runTo (s.st.cycleAt + s.st.intervalH * hourTq)
    let s := { s with st := { s.st with cycleAt := s.now, cycleOn := true } }
    let s := s.each (List.range 128) fun s n =>
      let s := s.modCal n fun k => { k with inCycle := false, outCycle := false }
      if s.canMeasure n then s.startMeasure n false else s.modCal n fun k => { k with deferred := true }
    .next (s.completeCycle false)

/-- A deferred measurement may start: at the boundary that disables the input, or, of an input that was already disabled
when the cycle started and could not be measured then, as soon as it can be. -/
def State.deferredNow (s : State) (n : Nat) : Bool :=
  (s.chan n).cal.deferred && s.canMeasure n &&
    match (s.chan n).inp.enTo with
    | none => true
    | some b => b = (s.now : Int) || decide (b < (s.st.cycleAt : Int))

/-- DEFERRED_CAL_MEASURE: a deferred channel is measured. -/
def execDeferredCalMeasure (n : Fin 128) (s : State) : Host.Outcome State Fault Refusal :=
  if s.deferredNow n then .next (s.startMeasure n false) else .next s

/-- tq of an input measurement: 16,384 edges 1 µs apart. -/
def measureTq : Nat := 16384 * 8000000

/-- What a measurement of an offset found: the term and the tandem offset in 1/16 tq, and the projected value of the term. -/
structure CalResult where
  term : Int
  tandem : Int
  projected : Int
deriving DecidableEq, Repr

/-- The sum of the first, third, … spacings of a sequence. -/
def spacings : List Int → Int
  | a :: b :: l => b - a + spacings l
  | _ => 0

/-- Sum of integers. -/
def sumInt (l : List Int) : Int := l.foldl (· + ·) 0

/-- Mean in 1/16 tq, to the nearest. -/
def mean16 (l : List Int) : Int := divNearest (16 * sumInt l) l.length

/-- D1 in 1/16 tq (R127): half the difference between the mean spacing from an interpolator-0 edge to the next interpolator-1
edge and the mean spacing back. The launches are evenly spaced, so that their own spacing cancels. -/
def tandem16 (l : List Int) : Int :=
  let a := l.length / 2
  let b := (l.length - 1) / 2
  divNearest (8 * (spacings l * (b : Int) - spacings l.tail * (a : Int))) (a * b)

/-- The fit of a channel's accepted terms against its cluster's δ (R136). -/
def ChCal.points (k : ChCal) (out : Bool) : List (Int × Nat) :=
  k.hist.filterMap fun r => (if out then r.outT else r.inT).map fun t => (t.term, r.deg)

/-- The injector term that the ageing model projects: s0 + b·δ; the present term while the model is not run (R127, R141). -/
def State.projectedIn (s : State) (n : Nat) : Int :=
  let k := (s.chan n).cal
  let l := k.points false
  if s.st.baseline ∨ l = [] then k.inTerm
  else (Config.termFit l).1 + divNearest ((Config.termFit l).2 * (s.clus (n / 32)).degPpm * 16) 125000

/-- What the tags of an input measurement show: tag time − launch time of each edge in tq, with neither lin nor D taken off. -/
def State.inResult (s : State) (n : Nat) (tags : List Int) : CalResult :=
  { term := mean16 tags - Config.branch n, tandem := tandem16 tags, projected := s.projectedIn n }

/-- The internal output term that the tags of an output measurement show (R128): less the internal input path. -/
def State.outResult (s : State) (n : Nat) (tags : List Int) : Int := mean16 tags - (s.chan n).cal.inTerm

/-- A measurement rejected (R127, R128, R132). -/
def ChCal.reject (k : ChCal) (cause : Nat) : ChCal :=
  { k with failed := true, failCause := cause, cleared := false, runOk := false, cleared0 := false, cleared1 := false }

/-- A measurement accepted: the last one of a CAL_RUN that has rejected none has cleared the channel (R132). -/
def ChCal.accept (k : ChCal) (m : CalMeas) : ChCal :=
  { k with cleared := k.cleared || (k.failed && m.run && k.runOk && k.meas.isNone && k.measOut.isNone) }

/-- An input measurement accepted or failed (R127). -/
def ChCal.inputDone (k : ChCal) (m : CalMeas) (r : CalResult) (now hours : Nat) (temp : Int) : ChCal :=
  let k := { k with meas := none, deferred := false }
  let jump := !near r.term r.projected 128
  if jump || !near r.tandem 0 640 then k.reject (if jump then 2 else 3)
  else
    { k with inTerm := r.term, d1 := r.tandem, inAt := some now, inHours := hours, inOld := false, inCycle := true, inRun := true,
             inTempAt := temp, inTemp := 0, inTempNext := none : ChCal }.accept m

/-- An output measurement accepted or failed (R128): against the previous value. -/
def ChCal.outputDone (k : ChCal) (m : CalMeas) (term : Int) (now hours : Nat) (temp : Int) : ChCal :=
  let k := { k with measOut := none }
  if !near term k.outTerm 256 then k.reject 2
  else
    { k with outTerm := term, outAt := some now, outHours := hours, outOld := false, outCycle := true, outRun := true,
             outTempAt := temp, outTemp := 0, outTempNext := none : ChCal }.accept m

/-- What a measurement that ends on channel n completes (R130, R146). -/
def State.measureEnds (s : State) (n : Nat) (run : Bool) : State := s.completeCycle (run && !s.calRunBusy (n / 32))

/-- CAL_MEASURE_DONE. -/
def execCalMeasureDone (n : Fin 128) (out : Bool) (tags : List Int) (s : State) : Host.Outcome State Fault Refusal :=
  if out then
    match (s.chan n).cal.measOut with
    | none => .next s
    | some m =>
      if tags.length ≠ 4096 then .next s
      else
        let t := s.outResult n tags
        .next ((s.modCal n fun k => k.outputDone m t s.now s.st.opHours (s.feTemp n)).measureEnds n m.run).settle
  else
    match (s.chan n).cal.meas with
    | none => .next s
    | some m =>
      if tags.length ≠ 16384 then .next s
      else
        let s := s.runTo (m.since + measureTq)
        let r := s.inResult n tags
        .next ((s.modCal n fun k => k.inputDone m r s.now s.st.opHours (s.feTemp n)).measureEnds n m.run).settle

/-- TEMP_TERM_UPDATE: new temperature terms for the next boundary (R129); a cluster whose sensor is INVALID keeps its
terms (R314). -/
def execTempTermUpdate (s : State) : Host.Outcome State Fault Refusal :=
  .next (s.each (List.range 128) fun s n =>
    if (vget s.env.mon (48 + n / 32)).invalid then s
    else
      let t := s.feTemp n
      s.modCal n fun k =>
        { k with inTempNext := some (k.inFsK * (t - k.inTempAt)), outTempNext := some (k.outFsK * (t - k.outTempAt)) })

/-- At a boundary the new temperature terms are in use. -/
def State.tempTick (s : State) : State :=
  s.each (List.range 128) fun s n =>
    let k := (s.chan n).cal
    if k.inTempNext.isNone ∧ k.outTempNext.isNone then s
    else s.modCal n fun k =>
      { k with inTemp := k.inTempNext.getD k.inTemp, outTemp := k.outTempNext.getD k.outTemp, inTempNext := none,
               outTempNext := none }

/-- IN_AGE_PASSED: an accepted measurement is older than the planned interval (R131). -/
def execInAgePassed (n : Fin 128) (out : Bool) (s : State) : Host.Outcome State Fault Refusal :=
  let k := (s.chan n).cal
  match if out then k.outAt else k.inAt with
  | none => .next s
  | some t =>
    let s := s.runTo (t + s.st.intervalH * hourTq + 1)
    .next (s.modCal n fun k => if out then { k with outOld := true } else { k with inOld := true }).settle

/-! Ageing and margins (R134 to R141). -/

/-- δ in ppm from the two counts and the factory ratio, clamped at 0 (R134). -/
def degradation (fs fu fs0 fu0 : Nat) : Nat :=
  if fs * fu0 < fu * fs0 then (fu * fs0 - fs * fu0) * 1000000 / (fu * fs0) else 0

/-- Operating time in RUN counted up to now (R135). -/
def State.accrue (s : State) : State :=
  let t := if s.pwr.state = .run then s.st.opTq + (s.now - s.st.opFrom) else s.st.opTq
  { s with st := { s.st with opTq := t, opFrom := s.now } }

/-- δ in 0.001 ppm that the fit gives for a cluster at an operating hour. -/
def State.degOf (s : State) (c h : Nat) : Nat := Config.degFit (s.clus c).degHist h

/-- |b| × Δδ + u in 10⁻⁶ fs, for a change of δ in 0.001 ppm. -/
def skewOf (l : List (Int × Nat)) (d : Nat) : Nat := (Config.termFit l).2.natAbs * d + Config.termUnc l d * 1000000

/-- The terms of a channel that are fitted: of a configured input, of a configured output. -/
def Channel.fitted (c : Channel) : List Bool := (if c.inp.configured then [false] else []) ++ (if c.out.configured then [true] else [])

/-- The largest skew change over an interval from now stays within 0.15 ps (R136). -/
def State.fitsInterval (s : State) (i : Nat) : Bool :=
  (List.range 128).all fun n =>
    let c := s.chan n
    let t := s.st.opHours
    c.fitted.all fun o => decide (skewOf (c.cal.points o) (s.degOf (n / 32) (t + i) - s.degOf (n / 32) t) ≤ 150000000)

/-- The smallest non-zero CAP_H (R136). -/
def State.capH (s : State) : Option Nat :=
  ([0, 1, 2, 3].filterMap fun c => let h := (s.clus c).capH; if h = 0 then none else some h).foldl
    (fun a h => some (match a with | none => h | some b => min b h)) none

/-- The planned interval: the largest whole hour that fits within the cap, 1 where none does (R136). -/
def State.planInterval (s : State) : Nat :=
  let cap := match s.capH with | none => 2160 | some h => min 2160 h
  (((List.range cap).map (· + 1)).reverse.find? s.fitsInterval).getD 1

/-- P in 10⁻⁶ fs of one term, and its b (R137): from the last accepted measurement to the later of now and the next cycle. -/
def State.projTerm (s : State) (n : Nat) (o : Bool) : Nat × Int :=
  let k := (s.chan n).cal
  let l := k.points o
  let last := if o then k.outHours else k.inHours
  let next := s.st.opHours + (s.st.cycleAt + s.st.intervalH * hourTq - s.now) / hourTq
  (skewOf l (s.degOf (n / 32) next - s.degOf (n / 32) last), (Config.termFit l).2)

/-- The larger of the projections of a channel governs. -/
def State.projOf (s : State) (n : Nat) : Nat × Int :=
  ((s.chan n).fitted.map (s.projTerm n)).foldl (fun a b => if a.1 < b.1 then b else a) (0, 0)

/-- Projections computed, and SERVICE_DUE (R137, R141). -/
def State.setProj (s : State) : State :=
  let l := (List.range 128).filter fun n => !(s.chan n).fitted.isEmpty
  let due := l.any fun n => decide (300000000 < (s.projOf n).1)
  let s := s.each l fun t n => t.modCal n fun k => { k with b := (s.projOf n).2, proj := ((s.projOf n).1 + 500000) / 1000000 }
  { s with st := { s.st with serviceDue := due } }

/-- AGEING_MEASURE: an hour on, the rings of every cluster are counted; outside the first-use period the projections are
computed (R134, R135, R137, R141). -/
def execAgeingMeasure (rings : List (W32 × W32)) (s : State) : Host.Outcome State Fault Refusal :=
  if s.pwr.startup ≠ .ready then .next s
  else
    let s := (s.runTo (s.st.ageAt + hourTq)).accrue
    let s := { s with st := { s.st with ageAt := s.now, opHours := min (2 ^ 24 - 1) (s.st.opTq / hourTq) } }
    let s := s.each (List.range 4) fun s c =>
      match rings[c]? with
      | none => s
      | some (a, b) =>
        if s.pwr.gated.testBit c then s
        else
          let r := Config.ringRatio c
          let d := min (2 ^ 20 - 1) (degradation a.toNat b.toNat r.1 r.2)
          s.modCl c fun k => { k with ringS := a, ringU := b, degPpm := d, degHist := k.degHist ++ [(s.st.opHours, d)] }
    .next (if s.st.baseline then s else s.setProj)

/-- Ages seen against the interval in force. -/
def ChCal.reAge (k : ChCal) (now interval : Nat) : ChCal :=
  let old (t : Option Nat) : Bool := match t with | some t => decide (t + interval * hourTq < now) | none => false
  { k with inOld := k.inOld && old k.inAt, outOld := k.outOld && old k.outAt }

/-- The margins for δ within the bounds of Table 4-4: guard, output guard, overlap. -/
def marginsOf (deg p : Nat) : Nat × Nat × Nat :=
  let k := deg / 5000
  (min (64 + 16 * k) (min 1024 (p / 8)), min 3200 (800 + 160 * k), min 96 (48 + 8 * k))

/-- The largest δ of the clusters. -/
def State.degMax (s : State) : Nat := [0, 1, 2, 3].foldl (fun a c => max a (s.clus c).degPpm) 0

/-- The shorter of the tick period in force and the one that waits: the guard stays within an eighth of either (R54). -/
def State.guardP (s : State) : Nat := match s.tb.tickPend with | none => s.tb.tickP | some p => min p s.tb.tickP

/-- A re-plan (R136 to R138). -/
def State.replan (s : State) : State :=
  let s := { s with st := { s.st with intervalH := s.planInterval, planAt := s.now, planDue := false } }
  let s := s.setProj
  let s := s.each (List.range 128) fun s n => s.modCal n fun k => k.reAge s.now s.st.intervalH
  s.each (List.range 4) fun s c => s.modCl c fun k => { k with planned := some (marginsOf s.degMax s.guardP) }

/-- REPLAN, outside the first-use period: at once after a completed cycle, else 24 h after the last one. -/
def execReplan (s : State) : Host.Outcome State Fault Refusal :=
  if s.st.baseline then .next s
  else .next ((if s.st.planDue then s else s.runTo (s.st.planAt + 24 * hourTq)).replan).settle

/-- BASELINE_CLEAR (R141): firmware finds the counts, and BASELINE ends at the boundary that comes. -/
def execBaselineClear (s : State) : Host.Outcome State Fault Refusal :=
  if s.st.baseline ∧ 8 ≤ s.st.cycles ∧ 24 ≤ s.st.opHours then .next { s with st := { s.st with baseEnd := true } } else .next s

/-- At its boundary BASELINE ends, with the first re-plan. -/
def State.baseTick (s : State) : State :=
  if s.st.baseEnd then { s with st := { s.st with baseline := false, baseEnd := false } }.replan else s

/-! Terms (R131, R132, R139). -/

/-- The terms of a channel: from the history where it holds an accepted measurement, from OTP where not (R131, R139);
the failed flag comes back with its cause (R132). -/
def loadTerms (n : Nat) (steals : W32) (kept : Option ChCal) : ChCal :=
  match Config.otpTerms n with
  | (inT, outT, d1, inP, outP, inF, outF) =>
    let t := Config.otpTemp n
    let k := { ChCal.reset with steals := steals, inTerm := inT, outTerm := outT, d1 := d1, inPkg := inP, outPkg := outP, inFsK := inF,
                                outFsK := outF, inTempAt := t, outTempAt := t }
    match kept with
    | none => k
    | some h =>
      let k := { k with failed := h.failed, failCause := h.failCause, b := h.b, proj := h.proj, inAt := h.inAt, outAt := h.outAt,
                        inHours := h.inHours, outHours := h.outHours, hist := h.hist, int0 := { k.int0 with ltHist := h.int0.ltHist },
                        int1 := { k.int1 with ltHist := h.int1.ltHist },
                        inOld := h.inOld, outOld := h.outOld, inCycle := h.inCycle, outCycle := h.outCycle,
                        inRun := h.inRun, outRun := h.outRun }
      let k := if h.inAt.isSome then { k with inTerm := h.inTerm, d1 := h.d1, inTempAt := h.inTempAt } else k
      if h.outAt.isSome then { k with outTerm := h.outTerm, outTempAt := h.outTempAt } else k

/-- A channel's records after a cut of its history at a completed cycle: its terms are those of the last record, or OTP's
(R131, R135). -/
def ChCal.cutTo (k : ChCal) (n cycle : Nat) : ChCal :=
  let l := k.hist.filter fun r => decide (r.cycle ≤ cycle)
  let o := loadTerms n 0 none
  let k := { k with hist := l }
  let k := match l.getLast?.bind (·.inT) with
    | some r => { k with inTerm := r.term, d1 := r.d1, inAt := some r.at_, inHours := r.hours, inTempAt := r.temp }
    | none => { k with inTerm := o.inTerm, d1 := o.d1, inAt := none, inHours := 0, inTempAt := o.inTempAt }
  match l.getLast?.bind (·.outT) with
  | some r => { k with outTerm := r.term, outAt := some r.at_, outHours := r.hours, outTempAt := r.temp }
  | none => { k with outTerm := o.outTerm, outAt := none, outHours := 0, outTempAt := o.outTempAt }

/-- A history record fails authentication at start-up (R135): the history ends before it, and the failure is reported. -/
def State.cutHistory (s : State) (h : HistCut) : State :=
  let c := min h.cycles s.st.cycles
  let t := min h.hours s.st.opHours
  let s := { s with st := { s.st with cycles := c, opHours := t, opTq := t * hourTq } }
  let s := s.each (List.range 128) fun s n => s.modCal n fun k => k.cutTo n c
  let s := s.each [0, 1, 2, 3] fun s j => s.modCl j fun k => { k with degHist := k.degHist.filter fun x => decide (x.1 ≤ t) }
  s.report 4 2 0 0 h.record

/-! Start-up calibration (R139, R140, R142). -/

/-- An interpolator has ended its start-up calibration: three updates with an accepted table, or six. -/
def Interp.started (x : Interp) : Bool := (3 ≤ x.completed && x.accepted ≠ 0) || 6 ≤ x.completed

/-- The provisional table of an interpolator, from the OTP lead and tail in 1/256 tq (R140). -/
def provisional (l t : Nat) : List Int :=
  (List.range 160).map fun k =>
    47104 + ((2 * (2 * k + 1) * (l + 102400 + t) + 320) / 640 : Nat) - (l : Int)

/-- An interpolator counts as not updated since start; it uses its provisional table (R140, R142). -/
def Interp.begin_ (x : Interp) (n : Nat) (i1 : Bool) (now : Nat) (temp : Int) : Interp :=
  let lt := Config.leadTail n i1
  { x with table := provisional lt.1 lt.2, lead := (lt.1 + 128) / 256, tail := (lt.2 + 128) / 256, next := none,
           rangeHit := false, rangeStale := false, rejected := false, rejRun := 0, starved := false, accepted := 0, completed := 0,
           hits := noHits, last := [], since := now, tempAt := temp }

/-- Both interpolators of a channel begin. -/
def State.beginInts (s : State) (n : Nat) : State :=
  let t := s.feTemp n
  s.modCal n fun k => { k with int0 := k.int0.begin_ n false s.now t, int1 := k.int1.begin_ n true s.now t, overdue := false, stealNext1 := false }

/-- Step 4 of start-up begins: the terms and a provisional table for every channel, and hits from then on. -/
def State.beginCal (s : State) : State :=
  let s := s.each (List.range 128) fun s n =>
    (s.modCh n fun c => { c with cal := loadTerms n c.cal.steals c.kept, kept := none }).beginInts n
  { s with st := { s.st with calFrom := some s.now } }

/-- Every interpolator has ended its start-up calibration. -/
def State.calDone (s : State) : Bool :=
  (List.range 128).all fun n => (s.chan n).cal.int0.started && (s.chan n).cal.int1.started

/-- The update of an interpolator is complete: its table is accepted and waits for its swap, or it is rejected. The third
since start must pass the jump test against the second too; six without an accepted table fail the channel (R120, R140). -/
def State.updateEnds (s : State) (n : Nat) (i1 : Bool) (h : Hits) : State :=
  let x := (s.chan n).cal.interp i1
  let active := match x.next with | some t => t.entries | none => x.table
  let s := s.raise 242
  if hitsPasses h (s.clus (n / 32)).overlap (x.completed = 0) active && (x.completed ≠ 2 || jumpOk x.last (hitsEntries h)) then
    let s := s.modInt n i1 fun x =>
      { x with next := some { entries := hitsEntries h, lead := wholeTq (hitsLead h), tail := wholeTq (hitsTail h) },
               rejected := false, rejRun := 0, completed := x.completed + 1, last := hitsEntries h }
    s.pcAdd 55 1
  else
    let s := s.modInt n i1 fun x =>
      { x with rejected := true, rejRun := satInc 2 x.rejRun, completed := x.completed + 1, last := hitsEntries h, hits := noHits }
    let y := (s.chan n).cal.interp i1
    let s := (s.pcAdd 56 1).report 4 1 n y.calInt 0
    (if y.rejRun = 2 ∨ (y.completed = 6 ∧ y.accepted = 0 ∧ y.next = none) then s.failCal n 1 else s).settle

/-- BIN_TABLE_UPDATE: an interpolator completes hits; they are counted, and with 2²⁰ of them the update is complete. The first
row of start-up begins step 4. -/
def execBinTableUpdate (n : Fin 128) (i1 : Bool) (hits : Hits) (s : State) : Host.Outcome State Fault Refusal :=
  let s := if s.pwr.startup = .running ∧ s.st.calFrom = none then s.beginCal else s
  let x := (s.chan n).cal.interp i1
  if x.table = [] ∨ s.pwr.gated.testBit (n / 32) ∨ !(hitsLegal x.hits hits) then .next s
  else
    let h := addHits x.hits hits
    let s := s.modInt n i1 fun x => { x with hits := h }
    .next (if h.all = 2 ^ 20 ∧ x.hits.all < 2 ^ 20 then s.updateEnds n i1 h else s)

/-- Margins planned for a cluster take effect at a boundary; a raise of the guard that the task table does not bear is
held back (R138). -/
def State.applyPlan (s : State) (c : Nat) : State :=
  match (s.clus c).planned with
  | none => s
  | some (g, m, o) =>
    let s := s.modCl c fun k => { k with minpwGuard := m, overlap := o }
    let g := min g (s.guardP / 8)
    if (s.clus c).sch.guard < g ∧ s.tb.tickP - g < s.peakFull c then
      if (s.clus c).planHeld then s
      else (s.modCl c fun k => { k with planHeld := true }).report 4 3 c 0 0
    else s.modCl c fun k => { k with planHeld := false, planned := none, sch := { k.sch with guard := g } }

/-! Commands (R146). -/

/-- CAL_CFG. -/
def calCfg (starveMs : Nat) (monitor : Bool) : W32 := w32 (put 8 20 starveMs + b2n monitor)

/-- CAL_CSTAT of a cluster. -/
def State.calCstat (s : State) (c : Nat) : W32 :=
  let l := (List.range 32).map fun j => (s.chan (32 * c + j)).cal
  let n := l.foldl (fun a k => a + b2n k.int0.starved + b2n k.int1.starved) 0
  w32 (put 8 8 n + put 2 1 (b2n (l.any fun k => k.deferred)) + put 1 1 (b2n (s.clus c).planHeld) + b2n (s.calRunBusy c))

/-- CAL_RUN's refusals. -/
def calRunCheck (s : State) (p : List W32) : Nat :=
  let w := pw p 1
  let c := rangeFirst p / 32
  firstCode [
    (badRange p || (!bit w 16 && !bit w 17) || reserved w 0x37F7F, rcRange),
    ((bit w 16 && (rangeChans p).any fun n => (s.chan n).inp.en)
      || (bit w 17 && (rangeChans p).any fun n => (s.chan n).out.en || !(s.chan n).out.configured), rcState),
    (s.calRunBusy c || s.tdrBusy c, rcBusy)]

/-- CAL_RUN: it completes when the run has started. -/
def cmdCalRun (s : State) (p : List W32) : Res :=
  let w := pw p 1
  let k := calRunCheck s p
  if k ≠ 0 then fail s k
  else
    let s := s.each (rangeChans p) fun s n =>
      let s := s.modCal n fun k => { k with runOk := true }
      let s := if bit w 16 then s.startMeasure n true else s
      if bit w 17 then s.modCal n fun k => { k with measOut := some { run := true, since := s.now } } else s
    okay s [s.calCstat (rangeFirst p / 32)]

/-- CAL_CONF of a channel. -/
def State.calConf (s : State) (n : Nat) : W32 := w32 (put 8 1 (b2n (s.chan n).cal.outAt.isSome) + (s.confOf n).2)

/-- An age in hours, saturating; 0xFFFF where there is none. -/
def State.ageH (s : State) (t : Option Nat) : Nat :=
  match t with | none => 0xFFFF | some t => min 0xFFFF ((s.now - t) / hourTq)

/-- CAL_AGE, CAL_PROJ, CAL_PLAN, CAL_HIST. -/
def State.calAge (s : State) (n : Nat) : W32 :=
  w32 (put 16 16 (s.ageH (s.chan n).cal.outAt) + s.ageH (s.chan n).cal.inAt)
def ChCal.projWord (k : ChCal) : W32 := w32 (put 16 16 (unsigned 16 k.b) + put 0 16 (min 65535 k.proj))
/-- Before READY the history's figures are not yet in the registers (R438). -/
def State.shown (s : State) (v reset : Nat) : Nat := if s.pwr.startup = .ready then v else reset
def State.calPlan (s : State) (c : Nat) : W32 := w32 (put 16 12 (s.clus c).capH + put 0 12 (s.shown s.st.intervalH 3))
def State.calHist (s : State) : W32 := w32 (put 8 24 (s.shown s.st.opHours 0) + put 0 8 (s.shown s.st.cycles 0))

/-- The drift a reply to CAL_STATUS reports (R125). -/
def State.driftOf (s : State) (n : Nat) : Int :=
  let k := (s.chan n).cal
  if !(s.clus (n / 32)).monitor then 0
  else if k.int0.starved then divNearest (Config.lineCoef n false * (s.feTemp n - k.int0.tempAt)) 16
  else if k.int1.starved then divNearest (Config.lineCoef n true * (s.feTemp n - k.int1.tempAt)) 16
  else 0

/-- CAL_STATUS. -/
def cmdCalStatus (s : State) (p : List W32) : Res :=
  let n := bits (pw p 1) 6 0
  if reserved (pw p 1) 0x7F then fail s rcRange
  else
    let k := (s.chan n).cal
    okay s [(s.chan n).status, s.calConf n, k.int0.calInt, k.int1.calInt, s.calAge n, k.projWord, s.calPlan (n / 32),
      s.calHist, w32 (unsigned 32 (s.driftOf n))]

/-- The lowest cluster of a mask. -/
def lowestOf (mask : Nat) : Nat := ((List.range 4).find? fun c => mask.testBit c).getD 0

/-- CAL_POLICY takes effect. -/
def applyCalPolicy (s : State) (p : List W32) : State :=
  (s.each (maskIdx 4 (bits (pw p 1) 3 0)) fun s c =>
    let s := s.modCl c fun k => { k with monitor := bit (pw p 1) 8, starveMs := (pw p 2).toNat, capH := (pw p 3).toNat }
    s.each (rangeIdx (32 * c) (32 * c + 31)) fun s n => s.modCal n fun k => { k with overdue := k.isOverdue (pw p 2).toNat s.now }).settle

/-- CAL_POLICY: effective at the next boundary (R126). -/
def cmdCalPolicy (s : State) (p : List W32) : Res :=
  let t := (pw p 2).toNat
  if bits (pw p 1) 3 0 = 0 || t < 1000 || 600000 < t || 2160 < (pw p 3).toNat || reserved (pw p 1) 0x10F then fail s rcRange
  else okay (s.defer (.phys s.now) 0x0802 p) [calCfg t (bit (pw p 1) 8)]

end Sys2Proof.Machine
end

