-- ==== Sys2Proof/Machine/Mbox.lean ====
section
/-! DEFINITION. Mailboxes and queue pairs as their registers work: data, GO, CANCEL, timeout, DONE, the two queues (R369 to R375, R383). -/
namespace Sys2Proof.Machine

/-- MB_STAT.STATE. -/
def MbState.code : MbState → Nat
  | .idle => 0
  | .posted => 1
  | .taken => 2
  | .done => 3

/-- The host may write the data words and the timeout. -/
def MbState.open_ (x : MbState) : Bool := x = .idle || x = .done

/-- MB_ACK (Table 14-6). -/
def Mailbox.ack (m : Mailbox) : W32 :=
  w32 (put 31 1 (b2n m.ackDone) + put 30 1 (b2n m.ackTaken) + put 29 1 (b2n m.ackTimeout) + put 28 1 (b2n m.ackRestarted)
    + put 16 8 m.ackCode + put 8 8 m.ackRlen + put 0 8 m.ackSeq)

/-- MB_STAT. -/
def Mailbox.stat (m : Mailbox) : W32 :=
  w32 (put 7 1 (b2n m.applied) + put 6 1 (b2n m.wrRej) + put 5 1 (b2n m.goRej) + put 4 1 (b2n m.cancelLate) + m.state.code)

/-- The header word and its fields (R369). -/
def Mailbox.header (m : Mailbox) : W32 := vget m.data 0
def Mailbox.opcode (m : Mailbox) : Nat := bits m.header 31 16
def Mailbox.len (m : Mailbox) : Nat := bits m.header 15 8
def Mailbox.seq (m : Mailbox) : Nat := bits m.header 7 0

/-- Payload words w1 to wLEN; the others read as 0 (R376). -/
def Mailbox.payload (m : Mailbox) : List W32 := (m.data.toList.drop 1).take m.len

/-- MB6 and MB7 are the secure mailboxes. -/
def secureMb (m : Nat) : Bool := 6 ≤ m

/-! The host's side (R370 to R374). -/

/-- A discarded write recorded (R370). -/
def State.mbReject (s : State) (m : Nat) : State := s.report 2 1 m (s.mbAt m).header 0

/-- A host write of a data word. -/
def State.mbWrite (s : State) (m k : Nat) (v : W32) : State :=
  if (s.mbAt m).state.open_ then s.modMb m fun x => { x with data := vset x.data k v }
  else (s.modMb m fun x => { x with wrRej := true }).mbReject m

/-- A host write of MB_TMO; a time outside 1 to 10,000 ms is discarded as well. -/
def State.mbTimeoutWrite (s : State) (m : Nat) (v : W32) : State :=
  let t := bits v 13 0
  if (s.mbAt m).state.open_ ∧ 1 ≤ t ∧ t ≤ 10000 then s.modMb m fun x => { x with tmoMs := t }
  else (s.modMb m fun x => { x with wrRej := true }).mbReject m

/-- A GO that is discarded. -/
def State.goReject (s : State) (m : Nat) : State := (s.modMb m fun x => { x with goRej := true }).mbReject m

/-- GO: the message is posted and its timeout period starts (R371, step 2). -/
def State.mbGo (s : State) (m : Nat) : State :=
  if (s.mbAt m).state.open_ then
    let s := s.modMb m fun x =>
      { x with state := .posted, ackDone := false, ackTaken := false, ackTimeout := false, ackRestarted := false,
               ackCode := 0, ackRlen := 0, ackSeq := x.seq, goOrder := s.goNext, tmoAt := some (s.now + x.tmoMs * msTq),
               applied := false, wait := .none }
    ({ s with goNext := s.goNext + 1 }.wakeBy 0).lines
  else s.goReject m

/-- A command is complete: reply words, then MB_ACK (R371, steps 4 and 5); PC46 counts it. -/
def State.mbDone (s : State) (m code : Nat) (reply : List W32) : State :=
  let s := s.modMb m fun x =>
    { x with data := Vector.ofFn fun i : Fin 16 => if i.val = 0 then vget x.data 0 else reply.getD (i.val - 1) (vget x.data i.val)
             state := .done, ackDone := true, ackTaken := true, ackCode := code, ackRlen := reply.length, tmoAt := none, wait := .none }
  (s.pcAdd 46 1).lines

/-- A posted message ends without being taken: CANCEL or a host reset. -/
def State.mbUntaken (s : State) (m code : Nat) : State :=
  (s.modMb m fun x =>
    { x with state := .done, ackDone := true, ackTaken := false, ackRestarted := false, ackCode := code, ackRlen := 0, tmoAt := none }).lines

/-- CANCEL (R374). -/
def State.mbCancel (s : State) (m : Nat) : State :=
  match (s.mbAt m).state with
  | .posted => s.mbUntaken m rcAborted
  | .taken => (s.modMb m fun x => { x with cancelLate := true }).report 2 4 m (s.mbAt m).header 0
  | _ => s

/-- A host write of MB_CTRL: GO and CANCEL together are discarded whole (R370). -/
def State.mbCtrl (s : State) (m : Nat) (v : W32) : State :=
  if bit v 0 ∧ bit v 1 then s.goReject m
  else if bit v 0 then s.mbGo m
  else if bit v 1 then s.mbCancel m
  else s

/-- Device firmware takes the message (R371, step 3). -/
def State.mbTake (s : State) (m : Nat) : State :=
  (s.modMb m fun x => { x with state := .taken, ackTaken := true, takenAt := s.now }).lines

/-- MB_DATA_WRITE. -/
def execMbDataWrite (mb : Fin 8) (k : Fin 16) (v : W32) (s : State) : Host.Outcome State Fault Refusal :=
  .next (s.mbWrite mb k v)

/-- CANCEL. -/
def execCancel (mb : Fin 8) (s : State) : Host.Outcome State Fault Refusal := .next (s.mbCancel mb)

/-- MAILBOX_TIMEOUT: the period ends before DONE (R373). -/
def execMailboxTimeout (mb : Fin 8) (s : State) : Host.Outcome State Fault Refusal :=
  match (s.mbAt mb).tmoAt with
  | none => .next s
  | some t => .next ((s.runTo t).modMb mb fun x => { x with ackTimeout := true, tmoAt := none })

/-! Queue pairs (R383). -/

/-- A word pushed by the host; QP3 carries frames to the secure module, with the same counts. -/
def State.h2dPush (s : State) (q : Nat) (v : W32) : State :=
  let x := s.qpAt q
  if x.h2dEn ∧ x.h2d.length < 4096 then
    (s.modQp q fun x => { x with h2d := x.h2d ++ [v], h2dWr := x.h2dWr + 1 }).lines
  else s.modQp q fun x => { x with h2dDrop := x.h2dDrop + 1 }

/-- Unread reply frames after one word has been read. -/
def framesRead : List (Nat × Nat) → List (Nat × Nat)
  | (m, n + 2) :: l => (m, n + 1) :: l
  | _ :: l => l
  | [] => []

/-- A word read by the host: the oldest one; 0 from an empty queue. A LOST notice follows as soon as there is room. -/
def State.d2hRead (s : State) (q : Nat) : State × W32 :=
  match (s.qpAt q).d2h with
  | [] => (s, 0)
  | w :: l =>
    (s.modQp q fun x =>
      ({ x with d2h := l, d2hRd := x.d2hRd + 1, d2hFrames := framesRead x.d2hFrames } : QueuePair).putLost, w)

/-- QP_H2D_PUSH. -/
def execQpH2dPush (q : Fin 4) (v : W32) (s : State) : Host.Outcome State Fault Refusal := .next (s.h2dPush q v)

/-- A 32-bit read delivered to the host. -/
def State.readReturns (s : State) (v : W32) : State :=
  { s with lastRead := { bytes := natBytes 4 v.toNat, poisoned := false } }

/-- QP_D2H_READ. -/
def execQpD2hRead (q : Fin 4) (s : State) : Host.Outcome State Fault Refusal :=
  let r := s.d2hRead q
  .next (r.1.readReturns r.2)

/-- QP_CFG. -/
def QueuePair.cfg (q : QueuePair) : W32 := w32 (put 8 5 q.noteMask + put 1 1 (b2n q.d2hEn) + b2n q.h2dEn)

/-- QP_CFG written; NOTE_MASK is reserved on QP3. -/
def QueuePair.setCfg (q : QueuePair) (n : Nat) (v : W32) : QueuePair :=
  { q with noteMask := if n = 3 then 0 else bits v 12 8, d2hEn := bit v 1, h2dEn := bit v 0 }.putLost

/-- GRP states as MB_GRP shows them. -/
def GrpState.code : GrpState → Nat
  | .free => 0
  | .opened => 1
  | .failed => 2
  | .committed => 3

/-- MB_GRP. -/
def Group.word (g : Group) : W32 :=
  if g.state = .free then 0
  else w32 (put 20 4 (g.prepares - 1) + put 16 4 g.failed + put 12 4 g.clusters + put 8 2 g.state.code + put 0 8 g.num)

end Sys2Proof.Machine
end

