-- ==== Sys2Proof/Machine/Banks.lean ====
section
/-! DEFINITION. Memory banks: the host window, hand-over, clearing, scrubs, BANK_ASSIGN and the BK registers (chapter 12). -/
namespace Sys2Proof.Machine

/-- Bytes of a bank, of the whole window, and words of a bank. -/
def bankBytes : Nat := 1048576
def windowBytes : Nat := 64 * bankBytes
def bankWords : Nat := 131072

/-- What the check bits of a word say, from the pairs a row carries. -/
def eccAt (e : List (Nat × Ecc)) (w : Nat) : Ecc :=
  match e.find? fun p => p.1 = w with
  | some p => p.2
  | none => .ok

/-- Bank words that bytes [addr, addr + len) touch. -/
def wordsOf (addr len : Nat) : List Nat := if len = 0 then [] else rangeIdx (addr / 8) ((addr + len - 1) / 8)

/-- Words read one after the other by an identity; false when one of them is uncorrectable. -/
def State.readWords (s : State) (req : Nat) (e : List (Nat × Ecc)) (l : List Nat) : State × Bool :=
  l.foldl (fun a w => let r := a.1.readWord w req (eccAt e w); (r.1, a.2 && r.2.isSome)) (s, true)

/-- A host read of bytes of one bank that HOST owns (R329, R334). -/
def State.hostRead (s : State) (addr len : Nat) (e : List (Nat × Ecc)) : State × Cpl :=
  let r := s.readWords 1 e (wordsOf addr len)
  if r.2 then (r.1, { bytes := Mem.readList s.mem addr len, poisoned := false })
  else (r.1, { bytes := List.replicate len 0xFF, poisoned := true })

/-- The bytes of word w after a write of `data` at `addr`. -/
def mergeBytes (m : List Host.Cell) (addr : Nat) (data : List Byte) (w : Nat) : List Byte :=
  (List.range 8).map fun i =>
    let a := 8 * w + i
    if addr ≤ a ∧ a < addr + data.length then data.getD (a - addr) 0 else Mem.read m a

/-- A host write reaches one word: whole, or a read-modify-write that a bad word discards (R329). -/
def State.hostWriteWord (s : State) (addr : Nat) (data : List Byte) (e : List (Nat × Ecc)) (w : Nat) : State :=
  let v : W64 := BitVec.ofNat 64 (bytesNat (mergeBytes s.mem addr data w))
  if addr ≤ 8 * w ∧ 8 * w + 8 ≤ addr + data.length then s.writeWord w v
  else
    let r := s.readWord w 1 (eccAt e w)
    if r.2.isSome then r.1.writeWord w v else r.1

/-- A host write of bytes of one bank that HOST owns. -/
def State.hostWrite (s : State) (addr : Nat) (data : List Byte) (e : List (Nat × Ecc)) : State :=
  (wordsOf addr data.length).foldl (fun s w => s.hostWriteWord addr data e w) s

/-- A bank holds accesses of its owner: a drain or a clear is in progress, or the banks do not answer (R326, R338, R335). -/
def State.holdsAccess (s : State) (b : Nat) : Bool :=
  (s.bankAt b).handover || (s.bankAt b).clearAt.isSome || s.pwr.state = .retain || decide (s.now < s.pwr.banksAt)

/-- One access of the host served. -/
def State.hostServe (s : State) (a : HeldAccess) : State × Cpl :=
  match a.data with
  | some l => (s.hostWrite a.addr l a.ecc, { bytes := [], poisoned := false })
  | none => s.hostRead a.addr a.len a.ecc

/-- Completions of the parts of one request put together. -/
def Cpl.join (a b : Cpl) : Cpl := { bytes := a.bytes ++ b.bytes, poisoned := a.poisoned || b.poisoned }

/-- An access of the host to one bank: refused, held or served; the completion of a held read comes later. -/
def State.hostAccess (s : State) (a : HeldAccess) : State × Cpl :=
  let b := a.addr / bankBytes
  if (s.bankAt b).owner ≠ 1 then
    (s.deny b 1 (a.addr / 8 % bankWords) a.data.isSome,
      { bytes := if a.data.isSome then [] else List.replicate a.len 0, poisoned := false })
  else if s.holdsAccess b then
    (s.modBank b fun k => { k with held := k.held ++ [a] }, { bytes := [], poisoned := false })
  else s.hostServe a

/-- The parts of a request, one for each bank it touches: none for a request of no bytes. -/
def hostParts (addr len : Nat) (data : Option (List Byte)) (e : List (Nat × Ecc)) : List HeldAccess :=
  if len = 0 then []
  else (rangeIdx (addr / bankBytes) ((addr + len - 1) / bankBytes)).map fun b =>
    let lo := max addr (b * bankBytes)
    let hi := min (addr + len) ((b + 1) * bankBytes)
    { addr := lo, data := data.map fun l => (l.drop (lo - addr)).take (hi - lo), len := hi - lo, ecc := e }

/-- HOST_BANK_ACCESS: one request to BAR2, of any size and alignment (R334). -/
def execHostBankAccess (addr len : Nat) (data : Option (List Byte)) (e : List (Nat × Ecc)) (s : State) :
    Host.Outcome State Fault Refusal :=
  let len := match data with | some l => l.length | none => len
  if windowBytes < addr + len then .fault .noSuchAddress
  else
    let s := s.runTo s.pwr.banksAt
    let r := (hostParts addr len data e).foldl (fun a p => let q := a.1.hostAccess p; (q.1, a.2.join q.2))
      (s, { bytes := [], poisoned := false })
    .next { r.1 with lastRead := if data.isSome then s.lastRead else if r.2.poisoned then
      { bytes := List.replicate len 0xFF, poisoned := true } else r.2 }

/-! Hand-over and clearing (R325, R326, R338). -/

/-- The accesses a bank has held, served in arrival order. -/
def State.serveHeld (s : State) (b : Nat) : State :=
  if s.holdsAccess b then s
  else
    let l := (s.bankAt b).held
    let s := s.modBank b fun k => { k with held := [] }
    l.foldl (fun s a =>
      let r := s.hostServe a
      if a.data.isSome then r.1 else { r.1 with lastRead := r.2 }) s

/-- BANK_ASSIGN messages whose banks are all handed over and cleared complete. -/
def State.bankWaits (s : State) : State :=
  s.each (List.range 8) fun s m =>
    match (s.mbAt m).wait with
    | .banks l reply =>
      if l.any fun b => (s.bankAt b).handover || (s.bankAt b).clearAt.isSome then s else s.mbDone m rcOk reply
    | _ => s

/-- Instant at which the old accesses to a bank have drained, for a hand-over on an edge E. -/
def State.drainEnd (s : State) (b e : Nat) : Nat :=
  let o := (s.bankAt b).owner
  let last := if 8 ≤ o ∧ o < 12 then (s.me (o - 8)).bankOut.foldl (fun a x => if x.2 = b then max a x.1 else a) 0 else 0
  min (e + 16 * cclk) (max (e + cclk) last)

/-- BK_OWN written on an edge: a code that is the owner's already starts no drain. -/
def State.giveBank (s : State) (b owner : Nat) : State :=
  if (s.bankAt b).owner = owner then s
  else
    let d := s.drainEnd b s.now
    s.modBank b fun k => { k with owner := owner, handover := true, drainAt := d }

/-- A bank is cleared: from the edge of execution on, every access that is served finds it zero. -/
def State.clearBank (s : State) (b : Nat) : State :=
  (s.zeroBank b).modBank b fun k =>
    { k with clearAt := some ((if k.handover then k.drainAt else s.now) + bankWords * cclk) }

/-- HANDOVER_DRAIN_END. -/
def State.drained (s : State) (b : Nat) : State :=
  if (s.bankAt b).handover then
    (((s.runTo (s.bankAt b).drainAt).modBank b fun k => { k with handover := false }).serveHeld b).bankWaits
  else s

def execHandoverDrainEnd (b : Fin 64) (s : State) : Host.Outcome State Fault Refusal := .next (s.drained b)

/-- BANK_CLEAR_DONE. -/
def execBankClearDone (b : Fin 64) (s : State) : Host.Outcome State Fault Refusal :=
  match (s.bankAt b).clearAt with
  | none => .next s
  | some t => .next (((((s.drained b).runTo t).modBank b fun k => { k with clearAt := none }).serveHeld b).bankWaits)

/-! Scrubs (R330, R335). -/

/-- CCLK cycles in which the patrol scrub reads one word of a bank. -/
def patrolTq : Nat := 256 * cclk

/-- PATROL_SCRUB: the next word of a bank is read, and rewritten if it holds a single-bit error; one word in each
period of 256 CCLK cycles. -/
def execPatrolScrub (b : Fin 64) (e : Ecc) (s : State) : Host.Outcome State Fault Refusal :=
  let k := s.bankAt b
  if !k.patrol ∨ s.pwr.state = .retain then .next s
  else
    let u := (s.runTo k.patrolFrom).runTo (s.runTo k.patrolFrom).edge
    let r := u.readWord (b * bankWords + k.patrolAt) 15 e
    .next (r.1.modBank b fun k =>
      { k with patrolAt := (k.patrolAt + 1) % bankWords, patrolFrom := (u.now / patrolTq + 1) * patrolTq })

/-- A word put into an ascending list without repeats. -/
def insertWord (x : Nat) : List Nat → List Nat
  | [] => [x]
  | y :: l => if x < y then x :: y :: l else if x = y then y :: l else y :: insertWord x l

/-- The words of bank b whose check bits are wrong, in ascending order: those known to hold an uncorrectable error, and
those a scrub names by their number in the bank. -/
def State.wrongWords (s : State) (b : Nat) (e : List (Nat × Ecc)) : List Nat :=
  (s.ue.filter (fun w => decide (w / bankWords = b)) ++ e.map fun p => b * bankWords + p.1 % bankWords).foldl
    (fun l w => insertWord w l) []

/-- WAKE_SCRUB_DONE: every word of the bank has been read, in ascending order, at least one cycle for each; the row
names the words whose check bits the scrub found wrong. -/
def execWakeScrubDone (b : Fin 64) (e : List (Nat × Ecc)) (s : State) : Host.Outcome State Fault Refusal :=
  if (s.bankAt b).scrub then
    let u := s.runTo (s.pwr.banksAt + bankWords * cclk)
    let u := u.each (u.wrongWords b e) fun u w => (u.readWord w 15 (eccAt e (w % bankWords))).1
    .next (u.modBank b fun k => { k with scrub := false })
  else .next s

/-! Registers (R337, Table 12-5). -/

def Bank.cfgWord (k : Bank) : W32 := w32 (put 1 1 (b2n k.patrol) + b2n k.addMode)

def Bank.statusWord (k : Bank) : W32 :=
  w32 (put 6 1 (b2n k.useHist) + put 5 1 (b2n k.useRing) + put 4 1 (b2n k.lost) + put 3 1 (b2n k.denySeen)
    + put 2 1 (b2n k.ueSeen) + put 1 1 (b2n k.scrub) + b2n k.handover)

def Bank.errWord_ (k : Bank) : W32 := w32 (put 31 1 (b2n k.errValid) + put 20 4 k.errReq + put 0 17 k.errWord)

def Bank.denyWord_ (k : Bank) : W32 :=
  w32 (put 31 1 (b2n k.denyValid) + put 24 1 (b2n k.denyWrite) + put 20 4 k.denyReq + put 0 17 k.denyWord)

/-- Bit j of word h: bank 32h + j satisfies a condition. -/
def State.bankMap (s : State) (h : Nat) (p : Bank → Bool) : W32 :=
  w32 (idxMask ((List.range 32).filter fun j => p (s.bankAt (32 * h + j))))

/-- BK_HOSTMAP0 and BK_HOSTMAP1. -/
def State.hostMap (s : State) (h : Nat) : W32 := s.bankMap h fun k => k.owner = 1

/-! BANK_ASSIGN (Table 12-6). -/

def assignBanks (p : List W32) : List Nat := rangeIdx (bits (pw p 1) 5 0) (bits (pw p 1) 13 8)
def assignOwner (p : List W32) : Nat := bits (pw p 1) 19 16

/-- A reserved owner code (Table 12-1). -/
def badOwner (o : Nat) : Bool := o = 3 || 12 ≤ o

def bankAssignCheck (s : State) (p : List W32) : Nat :=
  firstCode [
    (bits (pw p 1) 13 8 < bits (pw p 1) 5 0 || badOwner (assignOwner p) || reserved (pw p 1) 0x070F3F3F, rcRange),
    ((assignBanks p).any fun b => (s.bankAt b).useRing || (s.bankAt b).useHist, rcState)]

/-- BANK_ASSIGN: on the CCLK edge of execution; it waits for the drains and the clears. -/
def cmdBankAssign (s : State) (p : List W32) : Res :=
  let c := bankAssignCheck s p
  let w := pw p 1
  if c ≠ 0 then fail s c
  else
    let s := s.runTo s.edge
    let s := s.each (assignBanks p) fun s b =>
      let s := s.giveBank b (assignOwner p)
      let s := if bit w 24 then s.modBank b fun k => { k with addMode := bit w 25 } else s
      if bit w 26 then s.clearBank b else s
    let reply := [s.hostMap 0, s.hostMap 1] ++ dtcWords (s.dtcAt s.now)
    if (assignBanks p).any fun b => (s.bankAt b).handover || (s.bankAt b).clearAt.isSome then .wait s (.banks (assignBanks p) reply)
    else okay s reply

end Sys2Proof.Machine
end

