-- ==== Sys2Proof/Machine/Tdr.lean ====
section
/-! DEFINITION. Time-domain reflectometry: the run through the named channels, outcomes and results (R305 to R310). -/
namespace Sys2Proof.Machine

/-- Outcomes of Table 11-2. -/
def tdrNone : Nat := 0
def tdrOk : Nat := 1
def tdrNoReflect : Nat := 2
def tdrTooShort : Nat := 3
def tdrLevelFail : Nat := 4
def tdrUnstable : Nat := 5
def tdrAborted : Nat := 6
def tdrBraked : Nat := 7
def tdrUnlocked : Nat := 8

def State.modCable (s : State) (n : Nat) (f : Cable → Cable) : State := s.modCh n fun c => { c with cable := f c.cable }

def State.setTdr (s : State) (c : Nat) (r : Option TdrRun) : State := { s with env := { s.env with tdr := vset s.env.tdr c r } }

/-- The next channels of a run, in ascending order: one that a brake holds or that has been enabled is passed over with its
outcome; after the last the run ends. -/
def State.tdrFrom (s : State) (c : Nat) (r : TdrRun) : List Nat → State
  | [] => s.setTdr c none
  | n :: l =>
    let ch := s.chan n
    if ch.pr.held then (s.modCable n fun x => { x with outcome := tdrBraked }).tdrFrom c r l
    else if ch.enabled then (s.modCable n fun x => { x with outcome := tdrAborted }).tdrFrom c r l
    else { s with env := { s.env with cur := n } }.setTdr c (some { r with cur := n, unlocked := !s.refLock, since := s.now })

/-- The channels of a run after the present one. -/
def TdrRun.rest (r : TdrRun) : List Nat := (List.range (r.last + 1)).filter fun n => decide (r.cur < n)

/-- The measurement of channel n, if it is in progress, ends with an outcome and no result. -/
def State.tdrStop (s : State) (n outcome : Nat) : State :=
  match vget s.env.tdr (n / 32) with
  | some r => if r.cur = n then (s.modCable n fun x => { x with outcome := outcome }).tdrFrom (n / 32) r r.rest else s
  | none => s

/-- A channel under measurement: its TDR switch is thrown (R305). -/
def State.underTdr (s : State) (n : Nat) : Bool :=
  match vget s.env.tdr (n / 32) with
  | some r => r.cur = n
  | none => false

/-- The 50 Ω termination of an input is connected: its own setting, but for the time of a TDR measurement (R305). -/
def State.terminated (s : State) (n : Nat) : Bool := (s.chan n).inp.term && !s.underTdr n

/-- One step of a measurement: 2 µs high, 2 µs low (R306). -/
def tdrStepTq : Nat := 32000000

/-- Length of a measurement: 8,704 steps, 16 for each of the 16 trial codes of two searches and two passes of 4,096. -/
def tdrTq : Nat := 278528000000

/-- The last step of a measurement has passed. -/
def State.tdrEnds (s : State) (r : TdrRun) : State := s.runTo (tdrTq + r.since)

/-- The level that the steps of a measurement give the pin now. -/
def State.tdrHigh (s : State) (n : Nat) : Bool :=
  match vget s.env.tdr (n / 32) with
  | some r => r.cur = n && decide ((s.now - r.since) % tdrStepTq < tdrStepTq / 2 ∧ s.now < r.since + tdrTq)
  | none => false

/-- A level code of channel n as a voltage times 4,096, in µV, from the last reading of its bank's VIO (R305). -/
def State.level4096 (s : State) (n code : Nat) : Int := (code : Int) * (vget s.env.mon (8 + n / 8)).value * 1000

/-- S of channel n times 4,096, in µV. -/
def State.swing4096 (s : State) (n : Nat) : Int := s.level4096 n (s.chan n).out.voh - s.level4096 n (s.chan n).out.vol

/-- The code that successive approximation finds: a trial bit stays where the majority of its 16 steps cross (R306). -/
def searchCode (l : List Nat) : Nat := l.foldl (fun c n => 2 * c + b2n (decide (8 < n))) 0

/-- A threshold code as a voltage times 4,096, in µV: −1.5 V and 5.5 V over 65,536 codes. -/
def thr4096 (code : Nat) : Int := (code : Int) * 343750 - 6144000000

/-- The threshold code nearest to half of a voltage times 4,096 (given doubled), a tie upward. -/
def thrCode (v2x4096 : Int) : Nat := (divNearest (v2x4096 + 2 * 6144000000) 687500).toNat

/-- What the steps of a measurement give (R306): V1 and V2 against VOL times 4,096 in µV, the round trip in 1/16 tq, a spread of pass B
above 64 tq RMS (R308), and the threshold codes of the passes. -/
structure TdrMeans where
  v1 : Int
  v2 : Int
  rt : Int
  wide : Bool
  codeA : Nat
  codeB : Nat
deriving DecidableEq, Repr

/-- The levels from the searches, and RT = b − a from the means of the passes. -/
def tdrMeans (r : TdrResult) (vol4096 : Int) : TdrMeans :=
  let v1 := thr4096 (searchCode r.seen1) - vol4096
  let v2 := thr4096 (searchCode r.seen2) - vol4096
  let sum (l : List Int) : Int := l.foldl (· + ·) 0
  let n : Int := r.tagsB.length
  { v1 := v1, v2 := v2, rt := divNearest (sum r.tagsB - sum r.tagsA) 256
    wide := decide (4096 * n * n < n * sum (r.tagsB.map fun x => x * x) - sum r.tagsB * sum r.tagsB)
    codeA := thrCode (2 * vol4096 + v1), codeB := thrCode (2 * vol4096 + v1 + v2) }

/-- What a finished measurement says (R307, R308). -/
structure TdrFound where
  outcome : Nat
  /-- round trip in 1/16 tq -/
  rt : Int
  gamma : Int
  cls : Nat
  z0 : Int
  zl : Int
  u : Nat
  codeA : Nat
  codeB : Nat
deriving DecidableEq, Repr

/-- Load class of Table 11-1 from V1 and V2. -/
def loadClass (v1 v2 : Int) : Nat :=
  let d := v2 - v1
  if 8 * v1 ≤ 10 * d then 0 else if 10 * d ≤ -(8 * v1) then 1 else if 20 * d.natAbs ≤ v1 then 2 else 3

/-- A 16-bit field that stops at its largest value. -/
def sat16 (z : Int) : Int := clampInt 0 0xFFFF z

/-- Outcome and figures from the levels, means and spread, the swing times 4,096 and the lock. -/
def tdrFigures (r : TdrMeans) (s4096 : Int) (unlocked : Bool) : TdrFound :=
  let v := r.v1
  let rt := r.rt
  let d := r.v2 - r.v1
  let cls := loadClass r.v1 r.v2
  let z (num den : Int) : Int := if den ≤ 0 then 0xFFFF else sat16 (divNearest num den.toNat)
  let z0 := z (500 * v) (s4096 - v)
  let zl := if cls = 0 then 0xFFFF else if cls = 1 then 0 else if cls = 2 then z0
    else z (500 * v * r.v2) ((s4096 - v) * (2 * v - r.v2))
  let outcome :=
    if 10 * v < 3 * s4096 ∨ 7 * s4096 < 10 * v ∨ r.v1 ≤ 0 then tdrLevelFail
    else if 5 * d.natAbs < r.v1 then tdrNoReflect
    else if r.wide ∨ 1600000 * 16 < rt then tdrUnstable
    else if rt < 6400 * 16 then tdrTooShort
    else if unlocked then tdrUnlocked
    else tdrOk
  let base := if cls = 3 then 16 else 8
  let more := if unlocked then cdiv (rt.toNat * 2) (16 * 100000) else 0
  { outcome := outcome, rt := rt, gamma := if r.v1 ≤ 0 then 0 else divNearest (d * 16384) r.v1.toNat, cls := cls, z0 := z0, zl := zl,
    u := satAdd 255 base more, codeA := r.codeA, codeB := r.codeB }

/-- The registers of a channel after its measurement: the figures that its outcome gives, others as they were. -/
def Cable.found (x : Cable) (f : TdrFound) : Cable :=
  let x := { x with outcome := f.outcome, codeA := f.codeA, codeB := f.codeB }
  if f.outcome = tdrLevelFail ∨ f.outcome = tdrUnstable then x
  else
    let x := { x with gamma := clampInt (-32768) 32767 f.gamma, cls := f.cls, z0 := f.z0.toNat, zl := f.zl.toNat }
    if f.outcome = tdrOk ∨ f.outcome = tdrUnlocked then { x with rt := f.rt.toNat, u := f.u } else x

/-- The last outcome gives a usable one-way result (R308). -/
def Cable.usable (x : Cable) : Bool := x.outcome = tdrOk || x.outcome = tdrUnlocked

/-- The one-way result in whole tq, a tie upward (R306). -/
def Cable.oneWay (x : Cable) : Nat := (x.rt + 16) / 32

end Sys2Proof.Machine
end

