-- ==== Sys2Proof/Machine/Output.lean ====
section
/-! DEFINITION. The output half of a channel: edge queue, edge sequencer, pairs, launches and events (chapters 6 and 7). -/
namespace Sys2Proof.Machine

/-- tq before T at which an edge enters (R173), and at which it is computed. -/
def entryTq : Nat := 1600000
def computeTq : Nat := 1433600

/-- The instant of the first CCLK edge at or after an extended time. -/
def State.cclkAtExt (s : State) (x : Int) : Nat := cycleOf (x - s.off).toNat * cclk

/-- A tq value rounded up to the next multiple of 2 (R174). -/
def evenUp (x : Int) : Int := (x + 1) / 2 * 2

/-! Pairs (R202, R203). -/

/-- The even channel of a channel's pair. -/
def pairOf (n : Nat) : Nat := n / 2 * 2

/-- The channel is an output of a COMPLEMENTARY pair. -/
def State.paired (s : State) (n : Nat) : Bool := (s.chan (pairOf n)).pr.complementary

/-- The level of an output of a pair that is on or off (R203). -/
def State.pairLevel (s : State) (n : Nat) (on : Bool) : Bool :=
  let p := (s.chan (pairOf n)).pr
  on != (if n % 2 = 0 then p.polA else p.polB)

/-- The dead time in tq of an output of a pair (R204). -/
def State.deadTime (s : State) (n : Nat) : Nat :=
  let p := (s.chan (pairOf n)).pr
  2 * (if n % 2 = 0 then p.dtA else p.dtB)

/-- The level a pattern unit gives (R185), or the state of X in a pair (R203). -/
def State.unitLevel (s : State) (n : Nat) (asserted : Bool) : Bool :=
  if s.paired n then asserted else asserted != (s.chan n).pu.pol

/-- The level that the channel's source presents (R193). -/
def State.srcLevel (s : State) (n : Nat) : Bool :=
  let c := s.chan n
  if c.out.srcPu then s.unitLevel n c.pu.asserted else c.out.qLevel.getD c.out.initLevel

/-! The edge sequencer (R174 to R178). -/

/-- Coefficient of R178 in use for a channel: OTP holds it, from 0 to 80 tq. -/
def compression (n : Nat) : Nat := Config.compress n % 81

/-- The time of the last kept edge, and whether it has been launched. -/
def ChOut.lastKept (o : ChOut) : Option (Int × Bool) :=
  match o.computed.getLast? with
  | some e => some (e.t, false)
  | none => o.lastT.map fun t => (t, true)

/-- The width correction of a trailing edge (R178), a multiple of 2 tq. -/
def widthShift (n guard : Nat) (w : Int) : Int :=
  if 3200 ≤ w ∧ w < 3200 + (guard : Int) then
    let a := (compression n : Int) * (3200 + guard - w)
    (a + guard) / (2 * guard) * 2
  else 0

/-- An edge kept and computed: its launch, and the fine-delay unit that did not take the previous one. -/
def State.place (s : State) (n : Nat) (t : Int) (level : Bool) : State :=
  let o := (s.chan n).out
  let c := match o.lastKept with
    | some (p, _) => widthShift n (s.clus (n / 32)).minpwGuard (t - p)
    | none => 0
  let e : OutEdge := { t := t, level := level, launch := evenUp (t - s.lout n) + c, unit1 := !o.lastUnit1 }
  s.modOut n fun o => { o with computed := o.computed ++ [e], tracked := level, lastUnit1 := e.unit1 }

/-- A short pulse is counted (R177). -/
def State.shortPulse (s : State) (n : Nat) : State := s.modOut n fun o => { o with shortCnt := o.shortCnt + 1 }

/-- The last kept edge, not launched, is dropped with the edge that follows it. An edge of the queue that has named S names it
no more (R214). -/
def State.dropLast (s : State) (n : Nat) (p : Int) (level : Bool) : State :=
  let s := s.modOut n fun o => { o with computed := o.computed.dropLast, tracked := level }
  if (s.chan n).out.srcPu ∨ s.paired n then s
  else s.modPr n fun c => if c.resumePend ∧ c.resumeAt = some p then { c with resumeAt := none } else c

/-- An edge that follows the last kept edge at `p` too soon: both dropped, or moved under STRETCH (R177). -/
def State.shortEdge (s : State) (n : Nat) (p : Int) (launched stretch : Bool) (level : Bool) : State :=
  let s := s.shortPulse n
  if launched ∨ stretch then s.place n (p + 3200) level else s.dropLast n p level

/-- An edge of a channel that works alone reaches the sequencer. -/
def State.seqEdge (s : State) (n : Nat) (t : Int) (level : Bool) : State :=
  let o := (s.chan n).out
  if o.tracked = level then s
  else
    match o.lastKept with
    | some (p, launched) => if t < p + 3200 then s.shortEdge n p launched o.shortPol level else s.place n t level
    | none => s.place n t level

/-- An event put among those of a channel, in time order. -/
def insertEvent (t : Int) (e : OutEvent) : List (Int × OutEvent) → List (Int × OutEvent)
  | [] => [(t, e)]
  | x :: l => if t < x.1 then (t, e) :: x :: l else x :: insertEvent t e l

def State.addEvent (s : State) (n : Nat) (t : Int) (e : OutEvent) : State :=
  s.modOut n fun o => { o with events := insertEvent t e o.events }

/-! The pair logic (R204, R205, R214). -/

/-- Output o of a pair turns on at a time. -/
def State.pairOn (s : State) (o : Nat) (t : Int) : State :=
  (s.place o t (s.pairLevel o true)).modOut o fun x => { x with onReq := none, pairOn := true }

/-- Output p of a pair, which is on, turns off at a time. A late edge alone ends a pulse whose turn-on is already computed so
soon: it is short, or swallowed (R205). -/
def State.pairOff (s : State) (p : Nat) (t : Int) : State :=
  let x := (s.chan p).out
  let s := s.modOut p fun x => { x with pairOn := false }
  match x.lastKept with
  | some (a, launched) =>
    if !launched ∧ t ≤ a then (s.dropLast p a (s.pairLevel p false)).modOut p fun x => { x with swallow := x.swallow + 1 }
    else if t < a + 3200 then
      let s := s.shortEdge p a launched x.onPol (s.pairLevel p false)
      if launched ∨ x.onPol then s.modOut p fun x => { x with lastOff := some (a + 3200) } else s
    else (s.place p t (s.pairLevel p false)).modOut p fun x => { x with lastOff := some t }
  | none => (s.place p t (s.pairLevel p false)).modOut p fun x => { x with lastOff := some t }

/-- X leaves the state in which output p is due on: its pulse is kept, short or swallowed. -/
def State.pairEnd (s : State) (p : Nat) (x : Int) : State :=
  match (s.chan p).out.onReq with
  | none => if (s.chan p).out.pairOn then s.pairOff p x else s
  | some a =>
    let s := s.modOut p fun o => { o with onReq := none }
    if x ≤ a then s.modOut p fun o => { o with swallow := o.swallow + 1 }
    else if x < a + 3200 then
      let s := s.shortPulse p
      if (s.chan p).out.onPol then
        ((s.place p a (s.pairLevel p true)).place p (a + 3200) (s.pairLevel p false)).modOut p fun o =>
          { o with lastOff := some (a + 3200) }
      else s
    else ((s.pairOn p a).pairOff p x)

/-- An edge of X at a time, in pair a, a + 1: the output that leaves its state, then the one that enters it; `e`: the dead time
and SHORTPOL that the edge met on its entry. -/
def State.xEdge (s : State) (a : Nat) (x : Int) (on : Bool) (e : Option (Nat × Bool)) : State :=
  if (s.chan a).pr.xOn = on then s
  else
    let o := if on then a else a + 1
    let p := if on then a + 1 else a
    let s := (s.modPr a fun r => { r with xOn := on }).pairEnd p x
    let off := match (s.chan p).out.lastOff with | some t => max x t | none => x
    let m := e.getD (s.deadTime o, (s.chan o).out.shortPol)
    s.modOut o fun u => { u with onReq := some (off + (m.1 : Int)), onPol := m.2 }

/-- At S both outputs of a held pair are off, and the one that is due on turns on after its dead time (R214). -/
def State.pairResume (s : State) (a : Nat) (t : Int) : State :=
  let s := s.modPr a fun r => { r with forced := true }
  let o := if (s.chan a).pr.xOn then a else a + 1
  let s := if (s.chan o).out.pairOn then s.pairOff o t else s
  s.modOut o fun u => { u with onReq := some (t + s.deadTime o), onPol := u.shortPol }

/-! The next edge of a channel's source. -/

/-- The pending CH_SET_OUTPUT that changes the source of a channel: the extended time of its boundary, and its words. -/
def State.srcChange (s : State) (n : Nat) : Option (Nat × List W32) :=
  (s.deferred.find? fun d =>
    d.op == 0x0301 && decide (rangeFirst d.words ≤ n ∧ n ≤ rangeLast d.words) &&
      bit (pw d.words 2) 0 != (s.chan n).out.srcPu).map fun d =>
    (match d.at_ with
      | .phys p => s.boundaryFrom (p + s.off).toNat
      | .dtc x => s.boundaryFrom x, d.words)

/-- Extended time of that boundary. -/
def State.srcChangeAt (s : State) (n : Nat) : Option Nat := (s.srcChange n).map Prod.fst

/-- The level that the source to come presents (R193). -/
def State.levelAfter (s : State) (n : Nat) (p : List W32) : Bool :=
  if bit (pw p 2) 0 then s.unitLevel n (s.chan n).pu.asserted else (s.chan n).out.qLevel.getD (bit (pw p 2) 3)

/-- What reaches the sequencer next: an edge of the pattern unit, the head of the queue, or the edge of a source change. -/
inductive NextEdge where
  | unit (e : Entry)
  | queue (d : Desc)
  | change (b : Nat) (level : Bool)

/-- The next edge of a channel that its source gives, of the source selected when it is due (R22, R182). -/
def State.sourceEdge (s : State) (n : Nat) : Option NextEdge :=
  let o := (s.chan n).out
  let q := if o.srcPu then none else o.queue.head?
  let q := match q, s.srcChangeAt n with
    | some d, some b => if d.t < b ∨ d.late ∨ d.disorder then some d else none
    | q, _ => q
  match o.entered.head?, q with
  | some e, some d => if d.late ∨ d.disorder ∨ ¬ e.t ≤ d.t then some (.queue d) else some (.unit e)
  | some e, none => some (.unit e)
  | none, some d => some (.queue d)
  | none, none => none

/-- The next edge of a channel: when its source gives none before the boundary of a source change, the edge at that boundary. -/
def State.nextEdge (s : State) (n : Nat) : Option NextEdge :=
  match s.sourceEdge n with
  | some e => some e
  | none =>
    let c := s.chan n
    if c.out.chgDone ∨ (c.out.srcPu ∧ c.pu.run) then none
    else (s.srcChange n).map fun b => .change b.1 (s.levelAfter n b.2)

/-- The time of an edge that waits for its compute point; none for a descriptor that is taken at once. -/
def NextEdge.time : NextEdge → Option Int
  | .unit e => some e.t
  | .queue d => if d.late ∨ d.disorder then none else some d.t
  | .change b _ => some b

/-- An edge is taken from its source. -/
def State.takeEdge (s : State) (n : Nat) : NextEdge → State
  | .unit _ => s.modOut n fun o => { o with entered := o.entered.tail }
  | .queue _ => s.modOut n fun o => { o with queue := o.queue.tail }
  | .change _ _ => s.modOut n fun o => { o with chgDone := true }

/-- The place of a LATE_ASAP edge: the first TCLK edge at least 409,600 tq from now, and its time (R181). -/
def State.asapTime (s : State) (n : Nat) : Int := (cdiv (s.ext + 409600) 3200 * 3200 : Nat) + s.lout n

/-- The first edge late enough after an accepted clear names S for a channel fed by the queue (R214). -/
def State.queueResume (s : State) (n : Nat) (t : Int) : State :=
  let go (s : State) (m : Nat) : State :=
    let p := (s.chan m).pr
    if p.resumePend ∧ p.resumeAt.isNone ∧ p.clearAt + entryTq ≤ t then s.modPr m fun p => { p with resumeAt := some t } else s
  if s.paired n then go (go s (pairOf n)) (pairOf n + 1) else go s n

/-- The channel kept an edge at a time. -/
def State.keptAt (s : State) (n : Nat) (t : Int) : Bool :=
  match (s.chan n).out.computed.getLast? with
  | some e => decide (t ≤ e.t)
  | none => false

/-- An edge at a time goes through the channel's sequencer, or its pair's logic. A kept edge of the queue may name S: in a
channel that works alone with the time it is kept at (R214). -/
def State.runEdge (s : State) (n : Nat) (t : Int) (level : Bool) (e : Option (Nat × Bool)) (queue : Bool) : State :=
  if s.paired n then
    let new := (s.chan n).pr.xOn != level
    let s := s.xEdge n t level e
    if queue ∧ new then s.queueResume n t else s
  else
    let new := (s.chan n).out.tracked != level
    let s := s.seqEdge n t level
    if queue ∧ new ∧ s.keptAt n t then
      s.queueResume n (match (s.chan n).out.computed.getLast? with | some k => k.t | none => t)
    else s

/-- The level that the queue presents, after an edge of it at a time that found another level (R193): a kept edge's, or, when it
was dropped with the edge before it, that of the kept edge before them, where there is one. -/
def ChOut.queueLevel (o : ChOut) (kept level : Bool) : ChOut :=
  if kept then { o with qKept := o.qKept + 1, qLevel := some level }
  else { o with qKept := o.qKept - 1, qLevel := if o.qKept ≤ 1 then none else some level }

/-- A taken descriptor: discarded out of order, placed as soon as possible, or at its time (R180, R181). -/
def State.runDesc (s : State) (n : Nat) (d : Desc) : State :=
  if d.disorder then s.modOut n fun o => { o with orderCnt := o.orderCnt + 1 }
  else
    let t : Int := if d.late then s.asapTime n else (d.t : Int)
    let s := if d.event then s.addEvent n t .queue else s
    let new := (if s.paired n then (s.chan n).pr.xOn else (s.chan n).out.tracked) != d.level
    let s := s.runEdge n t d.level (some (d.dt, d.sp)) true
    if new then s.modOut n fun o => o.queueLevel (s.paired n || s.keptAt n t) d.level else s

/-- A taken edge is processed. -/
def State.runNext (s : State) (n : Nat) : NextEdge → State
  | .unit e => s.runEdge n e.t e.level (some (e.dt, e.sp)) false
  | .queue d => s.runDesc n d
  | .change b v => s.runEdge n b v none false

/-- The sequencer of a channel that works alone. -/
def State.computeAlone (s : State) (n : Nat) : State :=
  match s.nextEdge n with
  | none => s
  | some e =>
    let s := match e.time with
      | none => s.runTo s.edge
      | some t => s.runTo (s.cclkAtExt (t - computeTq))
    (s.takeEdge n e).runNext n e

/-- Time runs to the compute point of an edge. -/
def State.toCompute (s : State) (t : Int) : State := s.runTo (s.cclkAtExt (t - computeTq))

/-- What a pair does next apart from a resumption: a turn-on that no X edge can shorten, or an X edge. -/
def State.pairTurn (s : State) (a : Nat) (x : Option NextEdge) (on : Option (Nat × Int)) : State :=
  match x with
  | none => match on with
    | some (o, t) => (s.toCompute t).pairOn o t
    | none => s
  | some e =>
    match e.time, on with
    | none, _ => ((s.runTo s.edge).takeEdge a e).runNext a e
    | some u, some (o, t) =>
      if t + 3200 ≤ u then (s.toCompute t).pairOn o t
      else ((s.toCompute (if t < u then t else u)).takeEdge a e).runNext a e
    | some u, none => ((s.toCompute u).takeEdge a e).runNext a e

/-- A time lies before another, where there is another. -/
def beforeOpt (t : Int) : Option Int → Bool
  | none => true
  | some u => decide (t < u)

/-- What a pair does next: the resumption of a held pair comes in its turn. -/
def State.computePair (s : State) (a : Nat) : State :=
  let x := s.nextEdge a
  let on := ([a, a + 1].filterMap fun o => (s.chan o).out.onReq.map fun t => (o, t)).head?
  let pr := (s.chan a).pr
  let atOnce : Bool := match x with | some e => e.time.isNone | none => false
  match if pr.forced || atOnce then none else pr.resumeAt with
  | some r =>
    if beforeOpt r (x.bind NextEdge.time) && beforeOpt (r - 3200) (on.map Prod.snd) then (s.toCompute r).pairResume a r
    else s.pairTurn a x on
  | none => s.pairTurn a x on

/-- EDGE_COMPUTE: the next edge of a channel, or of its pair, is computed on the CCLK edge of R173. -/
def execEdgeCompute (n : Fin 128) (s : State) : Host.Outcome State Fault Refusal :=
  .next (if s.paired n then s.computePair (pairOf n) else s.computeAlone n)

/-- EDGE_LAUNCH: the oldest computed edge is released. -/
def execEdgeLaunch (n : Fin 128) (s : State) : Host.Outcome State Fault Refusal :=
  match (s.chan n).out.computed with
  | [] => .next s
  | e :: r =>
    let s := s.runTo (e.launch - s.off).toNat
    let s := s.modOut n fun o => { o with computed := r, lastT := some e.t, driven := e.level, edgeCnt := o.edgeCnt + 1 }
    .next (s.pcAdd (32 + n / 32) 1)

/-- Code of an output event in Table 9-8. -/
def OutEvent.code : OutEvent → Nat
  | .zero => 0
  | .period => 1
  | .compare => 2
  | .queue => 3

/-- OUTPUT_EVENT: the next event of a channel is raised on the first CCLK edge at or after its time. -/
def execOutputEvent (n : Fin 128) (s : State) : Host.Outcome State Fault Refusal :=
  match (s.chan n).out.events with
  | [] => .next s
  | (t, e) :: r =>
    let s := s.runTo (s.cclkAtExt t)
    let s := s.modOut n fun o => { o with events := r }
    .next ((s.raise n).event (n / 32) 1 (n % 32 * 4 + e.code))

/-! The edge queue (R179 to R183). -/

/-- What a push finds. -/
inductive Push where
  | accepted | full | refused
deriving DecidableEq, Repr

/-- A descriptor is pushed into a channel's queue. -/
def State.eqPush (s : State) (n : Nat) (w0 w1 w2 w3 : W32) : State × Push :=
  let o := (s.chan n).out
  if reserved w2 0x7F00FFFF ∨ reserved w3 3 then ((s.runTo s.edge).report 2 3 n w2 0, .refused)
  else if 256 ≤ o.queue.length then (s.modOut n fun o => { o with fullCnt := o.fullCnt + 1 }, .full)
  else
    let t := dtcOf w0 w1 w2 + s.tb.wraps * dtcMod
    let late : Bool := decide (t < s.ext + entryTq)
    let s := if late then s.modOut n fun o => { o with lateCnt := o.lateCnt + 1, lateSeen := true } else s
    if late ∧ !o.lateAsap then (s, .accepted)
    else
      let d : Desc := { t := t, level := bit w3 0, event := bit w3 1, late := late,
                        disorder := match o.lastPush with | some p => decide (t ≤ p) | none => false
                        dt := s.deadTime (pairOf n + b2n (!bit w3 0)), sp := (s.chan (pairOf n + b2n (!bit w3 0))).out.shortPol }
      (s.modOut n fun o => { o with queue := o.queue ++ [d], lastPush := some t, hwm := max o.hwm (o.queue.length + 1) }, .accepted)

/-- The edge on which a firmware write of a channel register or a firmware push acts: after a microengine's write of the present edge,
which may not come before it, the next one (R258). -/
def State.fwEdge (s : State) (n : Nat) : State :=
  if (s.me (n / 32)).wrAt = some s.edge then s.runTo (s.edge + cclk) else s

/-- CH_EQ_PUSH: the four push registers written, PUSH3 last. -/
def execChEqPush (n : Fin 128) (w0 w1 w2 w3 : W32) (s : State) : Host.Outcome State Fault Refusal :=
  let s := (s.fwEdge n).modOut n fun o => { o with push0 := w0, push1 := w1, push2 := w2 }
  .next (s.eqPush n w0 w1 w2 w3).1

/-- QP_DESCRIPTOR_FORWARD: device firmware tries to push the oldest descriptor of a pair; a full queue counts the refusal, and
the descriptor stays to be tried again (R180, R183). -/
def execQpDescriptorForward (q : Fin 4) (s : State) : Host.Outcome State Fault Refusal :=
  match (s.qpAt q).h2d with
  | w0 :: w1 :: w2 :: w3 :: _ =>
    let n := bits w2 30 24
    let o := (s.chan n).out
    let bound : Bool := o.qpBind && o.qp == q.val
    if q.val = 3 ∨ !s.pwr.mcUp then .next s
    else if bound ∧ ((s.fwEdge n).eqPush n w0 w1 w2 w3).2 = .full then .next ((s.fwEdge n).eqPush n w0 w1 w2 w3).1
    else
      let s := (if bound then s.fwEdge n else s).modQp q fun k => { k with h2d := k.h2d.drop 4, h2dCons := k.h2dCons + 4 }
      .next (if bound then (s.eqPush n w0 w1 w2 w3).1 else s.report 2 2 q w2 0).lines
  | _ => .next s

/-! CH_SET_OUTPUT, CH_ENABLE and CH_DISABLE (R195 to R198). -/

/-- Refusals of CH_SET_OUTPUT. -/
def setOutputCheck (s : State) (p : List W32) : Nat :=
  firstCode [
    (badRange p || bits (pw p 3) 27 16 ≤ bits (pw p 3) 11 0 || bits (pw p 2) 6 5 = 3 || reserved (pw p 1) 0x7F7F
      || reserved (pw p 2) 0x7F || reserved (pw p 3) 0x0FFF0FFF, rcRange),
    (s.rangeBusy [0x0301] p, rcBusy)]

/-- Held descriptors are judged again when the queue becomes the source at the present instant (R182). -/
def ChOut.reselect (o : ChOut) (ext : Nat) : ChOut :=
  let late (d : Desc) : Bool := !d.late && decide (d.t < ext + entryTq)
  let k := (o.queue.filter late).length
  let q := if o.lateAsap then o.queue.map fun d => { d with late := d.late || late d } else o.queue.filter fun d => !late d
  { o with queue := q, lateCnt := o.lateCnt + w32 k, lateSeen := o.lateSeen || decide (k ≠ 0) }

/-- The pattern unit stops at an instant (R188). -/
def PatUnit.halt (u : PatUnit) : PatUnit :=
  { u with run := false, done := true, pulsing := false, started := false, stopReq := false, asserted := false, old := none,
           mode := if u.stopReq then 0 else u.mode, cmdPend := false, written := PuWritten.none }

/-- An event of period `idx`, if enabled and due under the prescaler (R194). -/
def State.puEvent (s : State) (n : Nat) (t : Int) (e : OutEvent) (idx : Nat) : State :=
  let x := (s.chan n).pu
  if x.even_.testBit e.code ∧ idx % (x.evps + 1) = 0 then s.addEvent n t e else s

/-- The index of the period in progress at an extended time, of a unit whose generation point is further on. -/
def PatUnit.periodAt (u : PatUnit) (t : Int) : Nat := u.pidx - cdiv (u.s - t).toNat (max 1 (u.perN * 2 ^ (u.pre + 1)))

/-- Edges of a channel that works alone from now on, and events of its unit, come no more: a computed edge that has not been
reached is dropped, and the output shows the level before it. -/
def ChOut.cutAt (o : ChOut) (x : Int) : ChOut :=
  let l := o.computed.filter fun e => decide (e.t < x)
  { o with computed := l, events := o.events.filter fun e => decide (e.1 ≤ x) || e.2 == .queue
           tracked := if l.length = o.computed.length then o.tracked else match l.getLast? with | some e => e.level | none => o.driven }

/-- The unit stops at the present instant, when its source is deselected at once (R188); its last period ends there (R194). -/
def State.unitCut (s : State) (n : Nat) : State :=
  let u := (s.chan n).pu
  let s := if s.paired n then s else s.modOut n fun o => o.cutAt s.ext
  let s := s.modPu n PatUnit.halt
  if u.started ∧ u.t0 ≤ s.ext then s.puEvent n s.ext .period (u.periodAt s.ext) else s

/-- The level the source presents reaches the output of a channel: by an edge at the present instant, or as its idle level. -/
def State.presentLevel (s : State) (n : Nat) (edge : Bool) : State :=
  let v := s.srcLevel n
  if s.paired n then
    if n % 2 = 0 then s.xEdge n s.ext v none else s
  else if edge then s.seqEdge n s.ext v
  else s.modOut n fun o => { o with tracked := v, driven := v }

/-- CH_SET_OUTPUT reaches a channel. -/
def State.setOutput (s : State) (n : Nat) (p : List W32) : State :=
  let o := (s.chan n).out
  let pu := bit (pw p 2) 0
  let change : Bool := pu != o.srcPu
  let s := s.modOut n fun o =>
    { o with configured := true, srcPu := pu, lateAsap := bit (pw p 2) 1, shortPol := bit (pw p 2) 2, initLevel := bit (pw p 2) 3,
             qpBind := bit (pw p 2) 4, qp := bits (pw p 2) 6 5, voh := bits (pw p 3) 27 16, vol := bits (pw p 3) 11 0 }
  if change then
    let s := if pu then s else
      let s := if (s.chan n).pu.run then s.unitCut n else s
      s.modOut n fun o => { o.reselect s.ext with entered := [] }
    if o.chgDone then s.modOut n fun o => { o with chgDone := false } else s.presentLevel n true
  else if !pu ∧ o.qLevel.isNone then s.presentLevel n (o.en && o.initLevel != bit (pw p 2) 3)
  else s

/-- CH_SET_OUTPUT takes effect. -/
def applySetOutput (s : State) (p : List W32) : State := (s.each (rangeChans p) fun s n => s.setOutput n p).settle

/-- CH_SET_OUTPUT: at once when every named output is disabled, otherwise at boundary B. -/
def cmdChSetOutput (s : State) (p : List W32) : Res :=
  let c := setOutputCheck s p
  if c ≠ 0 then fail s c
  else if (rangeChans p).any fun n => (s.chan n).out.en then
    let b := s.boundaryB
    okay (s.defer s.whenB 0x0301 p) ((s.chan (rangeFirst p)).status :: extWords b)
  else
    let s := applySetOutput s p
    okay s [(s.chan (rangeFirst p)).status, 0, 0, 0]

/-- Refusals of CH_ENABLE and CH_DISABLE. -/
def enableCheck (s : State) (on : Bool) (p : List W32) : Nat :=
  let w := pw p 1
  firstCode [
    (badRange p || !(bit w 16 || bit w 17) || reserved w 0x37F7F, rcRange),
    (on && (rangeChans p).any fun n =>
      let c := s.chan n
      (bit w 16 && !c.inp.configured) || (bit w 17 && !c.out.configured), rcState),
    (s.rangeBusy [0x0302, 0x0303] p, rcBusy)]

/-- CH_ENABLE takes effect at its boundary (R107, R196), which settles what follows from it there. -/
def applyEnable (s : State) (p : List W32) : State :=
  s.each (rangeChans p) fun s n =>
    let s := if bit (pw p 1) 16 then s.enableInput n else s
    let s := s.tdrStop n tdrAborted
    if bit (pw p 1) 17 then s.modOut n fun o => { o with en := true } else s

/-- CH_DISABLE takes effect at its boundary. -/
def applyDisable (s : State) (p : List W32) : State :=
  s.each (rangeChans p) fun s n =>
    let s := if bit (pw p 1) 16 then s.disableInput n else s
    if bit (pw p 1) 17 then s.modOut n fun o => { o with en := false } else s

/-- CH_ENABLE. -/
def cmdChEnable (s : State) (p : List W32) : Res :=
  let c := enableCheck s true p
  if c ≠ 0 then fail s c else okay (s.defer s.whenB 0x0302 p) (extWords s.boundaryB)

/-- CH_DISABLE. -/
def cmdChDisable (s : State) (p : List W32) : Res :=
  let c := enableCheck s false p
  if c ≠ 0 then fail s c else okay (s.defer s.whenB 0x0303 p) (extWords s.boundaryB)

/-- CH_OUT_CFG. -/
def ChOut.cfgWord (o : ChOut) : W32 :=
  w32 (put 8 1 (b2n o.configured) + put 5 2 o.qp + put 4 1 (b2n o.qpBind) + put 3 1 (b2n o.initLevel) + put 2 1 (b2n o.shortPol)
    + put 1 1 (b2n o.lateAsap) + b2n o.srcPu)

/-- CH_EQ_STATUS. -/
def ChOut.eqStatus (o : ChOut) : W32 :=
  w32 (put 30 1 (b2n (256 ≤ o.queue.length)) + put 29 1 (b2n o.lateSeen) + put 28 1 (b2n o.tracked) + put 16 9 o.hwm
    + o.queue.length)

end Sys2Proof.Machine
end

