-- ==== Sys2Proof/Machine/Slots.lean ====
section
/-! DEFINITION. Measurement slots: pairing, accumulators, gates, publication, histograms and their commands (chapter 5). -/
namespace Sys2Proof.Machine

/-! Accumulator sets and the gate an item belongs to (R152, R153). -/

/-- The signed difference of two DTC values. -/
def dtcDiff (a b : Nat) : Int := signed 80 (unsigned 80 ((a : Int) - b))

/-- An item at a sort time belongs to a set: before its last boundary. -/
def Acc.holds (a : Acc) (sort : Int) : Bool := match a.stopAt with | none => true | some e => decide (sort < e)

/-- The set of the gate that contains a sort time changed: a closing one, else the accumulating one. -/
def modGateIn (sort : Int) (f : Acc → Acc) : List Acc → Option (List Acc)
  | [] => none
  | a :: l => if a.holds sort then some (f a :: l) else (modGateIn sort f l).map (a :: ·)

def Slot.modGate (k : Slot) (sort : Int) (f : Acc → Acc) : Slot :=
  match modGateIn sort f k.closing with
  | some l => { k with closing := l }
  | none => { k with acc := k.acc.map f }

/-- That set itself. -/
def Slot.gate (k : Slot) (sort : Int) : Option Acc :=
  match k.closing.find? fun a => a.holds sort with
  | some a => some a
  | none => k.acc

/-- The gate that is accumulating: while STOPPING, the last gate (R153). -/
def Slot.modLive (k : Slot) (f : Acc → Acc) : Slot :=
  match k.acc with
  | some a => { k with acc := some (f a) }
  | none =>
    match k.closing.getLast? with
    | some a => { k with closing := k.closing.dropLast ++ [f a] }
    | none => k

/-- Saturating 32-bit additions of LOST, SKIP and QCNT. -/
def Acc.addSkip (a : Acc) : Acc := { a with skip := satInc (2 ^ 32 - 1) a.skip }
def Acc.addLost (a : Acc) (n : Nat) : Acc := { a with lost := satAdd (2 ^ 32 - 1) a.lost n, loss := true }
def Acc.addQ (a : Acc) (q : Bool) : Acc := if q then { a with q := true, qcnt := satInc (2 ^ 32 - 1) a.qcnt } else a

/-! Histograms (R165 to R167). -/

/-- An increment queued, merged into the newest entry, or dropped; true when it was dropped. -/
def queueBin (q : List (Nat × Nat)) (bin : Nat) : List (Nat × Nat) × Bool :=
  match q.getLast? with
  | some (b, n) =>
    if b = bin ∧ n < 65535 then (q.dropLast ++ [(b, n + 1)], false)
    else if q.length < 16 then (q ++ [(bin, 1)], false) else (q, true)
  | none => ([(bin, 1)], false)

/-- A sample of a gate falls in its bin, under or over the range (R168: up to the end of the last gate). -/
def Slot.bin (k : Slot) (sort x : Int) : Slot :=
  match k.hist, k.gate sort with
  | none, _ | _, none => k
  | some h, some _ =>
    let i := (x - h.origin) / (h.width : Int)
    if i < 0 then { k with under := k.under + 1 }
    else if (h.nbins : Int) ≤ i then { k with above := k.above + 1 }
    else
      let r := queueBin k.histq i.toNat
      if r.2 then { k with drop := satInc (2 ^ 32 - 1) k.drop }.modGate sort fun a => { a with hdrop := true }
      else { k with histq := r.1 }

/-! Items (R149 to R151, R158 to R160). -/

/-- A sample x completed by a tag at a sort time. -/
def Slot.sample (k : Slot) (sort x : Int) (q limited : Bool) : Slot :=
  if limited ∧ k.ivlMax ≠ 0 ∧ (k.ivlMax * cclk : Nat) < x then
    k.modGate sort fun a => { a.addSkip with timeout := true }
  else if x < -(2 ^ 63) ∨ 2 ^ 63 ≤ x then k.modGate sort fun a => { a.addSkip with range := true }
  else
    (k.modGate sort fun a =>
      { a.addQ q with
        cnt := a.cnt + 1
        sum := a.sum + x
        ssq := a.ssq + (x * x).toNat
        min := some (match a.min with | none => x | some m => if x < m then x else m)
        max := some (match a.max with | none => x | some m => if m < x then x else m) }).bin sort x

/-- A counted tag of TOTALIZE. -/
def Slot.total (k : Slot) (sort : Int) (t : Mark) : Slot :=
  k.modGate sort fun a =>
    { a.addQ t.q with cnt := a.cnt + 1, min := some (a.min.getD t.time), max := some (t.time : Int) }

/-- A matching tag of FREQ_OMEGA. -/
def Slot.omega (k : Slot) (sort : Int) (t : Mark) : Slot :=
  k.modGate sort fun a =>
    if a.ended then a
    else
      let t0 := a.min.getD t.time
      let u := dtcDiff t.time t0.toNat
      { a.addQ t.q with cnt := a.cnt + 1, sum := a.sum + u, ssq := a.ssq + a.cnt * u.toNat, min := some t0, max := some (t.time : Int) }

/-- A matching tag of FREQ_RECIP: the reference of its gate, a period, a bridged gap, or an ambiguous one. -/
def Slot.recip (k : Slot) (sort : Int) (t : Mark) : Slot :=
  match k.gate sort with
  | none => k
  | some a =>
    if a.ended then k
    else
      match k.ref, k.last with
      | some _, some u =>
        let first (b : Acc) : Acc := if b.min.isNone then { b.addQ u.q with min := some (u.time : Int) } else b
        let dt := (dtcDiff t.time u.time).toNat
        let n := if k.gap then (2 * dt + k.p) / (2 * k.p) else 1
        if k.gap ∧ (k.p = 0 ∨ n < 1 ∨ (k.p : Int) < 4 * ((dt : Int) - n * k.p) ∨ (k.p : Int) < 4 * ((n * k.p : Nat) - (dt : Int))) then
          { k with ref := none, last := none, gap := false }.modGate sort fun b => { first b with gapAmbig := true, ended := true }
        else
          { k with last := some t, p := if k.gap then k.p else dt, gap := false }.modGate sort fun b =>
            { (first b).addQ t.q with cnt := b.cnt + n, max := some (t.time : Int) }
      | _, _ =>
        { k with ref := some t, last := some t, gap := false }.modGate sort fun b =>
          { b.addQ t.q with min := some (t.time : Int) }

/-- A tag matches a selector. -/
def edgeMatch (sel : Nat) (rising : Bool) : Bool := sel = 2 || (sel = 0) == rising

/-- The slot's channel B is used. -/
def Slot.usesB (k : Slot) : Bool := k.type = 1 || k.type = 5

/-- A matching tag as the stop or event, then as the start or reference (R150). -/
def Slot.pair (k : Slot) (sort : Int) (t : Mark) (asA asB : Bool) : Slot :=
  let k :=
    if !asB then k
    else match k.mark with
      | some m =>
        let k := k.sample sort (dtcDiff t.time m.time) (t.q || m.q) true
        if k.type = 1 then { k with mark := none } else k
      | none => if k.type = 5 then k.modGate sort Acc.addSkip else k
  if !asA then k
  else if k.type = 1 ∧ ¬ k.startLatest ∧ k.mark.isSome then k
  else { k with mark := some t }

/-- A tag of the slot's channels, in time. -/
def Slot.tag (k : Slot) (ch : Nat) (sort : Int) (t : Mark) (rising both : Bool) : Slot :=
  let a := decide (ch = k.chA) && (k.type = 6 || edgeMatch k.edgeA rising)
  let b := k.usesB && decide (ch = k.chB) && edgeMatch k.edgeB rising
  match k.type with
  | 1 => k.pair sort t a b
  | 2 =>
    if !a then k
    else
      let k := match k.last with
        | some u => k.sample sort (dtcDiff t.time u.time) (t.q || u.q) false
        | none => k
      { k with last := some t }
  | 3 => if a then k.recip sort t else k
  | 4 => if a then k.omega sort t else k
  | 5 => k.pair sort t a b
  | 6 =>
    if !a ∨ !both then k
    else if rising != k.widthNeg then { k with mark := some t }
    else match k.mark with
      | some m => { k with mark := none }.sample sort (dtcDiff t.time m.time) (t.q || m.q) false
      | none => k
  | 7 => if a then k.total sort t else k
  | _ => k

/-- What a loss on a channel does to the pairing of the gate at a sort time (R158 to R160, R163). -/
def Slot.gapOn (k : Slot) (ch : Nat) (f : (Acc → Acc) → Slot → Slot) : Slot :=
  match k.type with
  | 1 => if k.mark.isSome then { f Acc.addSkip k with mark := none } else k
  | 2 => { k with last := none }
  | 3 => { k with gap := true }
  | 4 => f (fun a => { a with ended := true, loss := true }) k
  | 5 => if ch = k.chA then { k with mark := none } else k
  | 6 => if k.mark.isSome then { f Acc.addSkip k with mark := none } else k
  | _ => k

/-- A word is late for the slot: LATE_MERGE, or before a boundary already published (R153). -/
def Slot.isLate (k : Slot) (w : PWord) : Bool :=
  (w.late && w.word.isTag) || match k.pubTo with | some p => decide (w.sort < p) | none => false

/-- A word lies before the slot's first gate. -/
def Slot.early (k : Slot) (sort : Int) : Bool :=
  k.pubTo.isNone && match k.closing.head?, k.acc with
    | some a, _ => decide (sort < a.startAt)
    | none, some a => decide (sort < a.startAt)
    | none, none => true

/-- The slot processes a tag of this channel and edge (R149). -/
def Slot.wants (k : Slot) (ch : Nat) (rising : Bool) : Bool :=
  (decide (ch = k.chA) && (k.type = 6 || edgeMatch k.edgeA rising)) || (k.usesB && decide (ch = k.chB) && edgeMatch k.edgeB rising)

/-- A released word updates a slot (R148, R153, R163). -/
def Slot.word (k : Slot) (w : PWord) (both : Bool) : Slot :=
  if k.state ≠ .running ∧ k.state ≠ .stopping then k
  else
    match w.word with
    | .tag ch time rising q =>
      if !k.wants ch rising then k
      else if k.isLate w then
        (k.modLive fun a => { a.addSkip with lateIgn := true, loss := true }).gapOn ch fun f k => k.modLive f
      else if k.early w.sort then k
      else k.tag ch w.sort { phys := w.sort, time := time, q := q } rising both
    | .loss ch _ n =>
      if ch ≠ k.chA ∧ ¬ (k.usesB ∧ ch = k.chB) then k
      else if k.isLate w then (k.modLive (Acc.addLost · n)).gapOn ch fun f k => k.modLive f
      else if k.early w.sort then k
      else (k.modGate w.sort (Acc.addLost · n)).gapOn ch fun f k => k.modGate w.sort f
    | _ => k

/-- SLOT_UPDATE: a word released by a cluster's merge reaches its 128 slots. -/
def State.slotsWord (s : State) (c : Nat) (w : PWord) : State :=
  match w.word.channel with
  | none => s
  | some n =>
    let both : Bool := (s.chan n).inp.edge = 2
    s.each (List.range 128) fun s i => s.modSlot (128 * c + i) fun k => k.word w both

/-! Gates at a boundary (R152 to R155). -/

/-- The slot is armed in the sense of R50. -/
def Slot.armed (k : Slot) : Bool := k.state = .armed || k.state = .running || k.state = .stopping

/-- Banks that hold bins of an armed slot show USE_HIST (R327). -/
def State.refreshUse (s : State) : State :=
  s.each (List.range 64) fun s b =>
    let u := s.slot.toList.any fun k => k.armed && match k.hist with | some h => h.bank = b | none => false
    if (s.bankAt b).useHist = u then s else s.modBank b fun k => { k with useHist := u }

/-- A slot whose last gate is published and whose queue is empty is STOPPED (Table 5-2). -/
def Slot.finish (k : Slot) : Slot :=
  if k.state = .stopping ∧ k.closing.isEmpty ∧ k.histq.isEmpty then { k with state := .stopped } else k

/-- The present gate ends at a boundary: DTC before the step, instant, stepped and truncated. -/
def Slot.close (k : Slot) (dtc : Nat) (at_ : Int) (stepped truncated : Bool) : Slot :=
  match k.acc with
  | none => k
  | some a =>
    let a := { a with stop := dtc, stopAt := some at_, stepped := stepped, truncated := a.truncated || truncated }
    { k with acc := none, closing := k.closing ++ [a] }

/-- A new gate starts at a boundary. -/
def Slot.open_ (k : Slot) (dtc : Nat) (at_ : Int) : Slot :=
  { k with acc := some (Acc.new dtc at_), left := k.g, gates := k.gates + 1 }

/-- A tick boundary passes for a slot: `pre` and `post` are its DTC before and after a step, `x` its extended time; `moved`:
the phase shifter moved TCLK in the tick that ends (R154). -/
def Slot.tick (k : Slot) (pre post x : Nat) (at_ : Int) (stepped moved : Bool) : Slot :=
  let k : Slot := { k with acc := k.acc.map fun a => { a with slew := a.slew || moved } }
  match k.state with
  | .armed => if k.b0 ≤ x then { k with state := .running }.open_ post at_ else k
  | .running =>
    let left := k.left - 1
    let nowStop : Bool := match k.stopAt with | some (true, t) => decide (t ≤ at_) | _ => false
    let endStop : Bool := match k.stopAt with | some (_, t) => decide (t ≤ at_) | none => false
    if left = 0 ∨ stepped ∨ nowStop then
      let k := k.close pre at_ stepped (nowStop && left ≠ 0)
      if endStop ∨ (k.ngate ≠ 0 ∧ k.ngate ≤ k.gates) then { k with state := .stopping } else k.open_ post at_
    else { k with left := left }
  | _ => k

/-- A slot of a cluster that enters gating (R154): no pairing state survives. -/
def Slot.gateOff (k : Slot) (dtc : Nat) (at_ : Int) : Slot :=
  let k := { k with mark := none, last := none, ref := none, gap := false, p := 0 }
  match k.state with
  | .armed => { k with state := .stopped }
  | .running => { k.close dtc at_ false true with state := .stopping }
  | _ => k

/-- Slots of every cluster at a boundary. -/
def State.slotTick (s : State) (pre post x : Nat) (at_ : Int) (stepped moved : Bool) : State :=
  { s with slot := s.slot.map fun k => k.tick pre post x at_ stepped moved }

/-! Publication (R153, R164, R169). -/

/-- The lowest traceability state since an instant. -/
def State.minTrace (s : State) (since : Int) : Nat :=
  s.st.traceLog.foldl (fun (a : Nat × Nat) e =>
    if (e.1 : Int) ≤ since then (e.2, e.2) else (min a.1 e.2, e.2)) (0, 0) |>.1

/-- The lowest rank of confidence of a channel since an instant. -/
def State.minConfOf (s : State) (n : Nat) (since : Int) : Nat :=
  s.st.confLog.foldl (fun (a : Nat) e =>
    if e.2.1 ≠ n then a else if (e.1 : Int) ≤ since then e.2.2 else min a e.2.2) 2

/-- CONF code of a rank. -/
def confCode (rank : Nat) : Nat := match rank with | 0 => 3 | 1 => 2 | 2 => 0 | _ => 1

/-- The lowest confidence since an instant of the channels of a slot, as a rank. -/
def State.slotConf (s : State) (k : Slot) (since : Int) : Nat :=
  let a := s.minConfOf k.chA since
  if k.usesB then min a (s.minConfOf k.chB since) else a

/-- n 32-bit words of a number, least significant first. -/
def numWords (n v : Nat) : List W32 := (List.range n).map fun i => w32 (v / 2 ^ (32 * i))

/-- VALID (R159, R160, R169). -/
def Acc.valid (a : Acc) (type : Nat) : Bool :=
  match type with
  | 3 => decide (1 ≤ a.cnt) && !a.gapAmbig
  | 4 => decide (2 ≤ a.cnt) && !a.ended
  | 7 => true
  | _ => decide (1 ≤ a.cnt)

/-- FLAGS. -/
def Acc.flags (a : Acc) (type trace conf : Nat) : W32 :=
  w32 (b2n (a.valid type) + put 1 1 (b2n a.q) + put 2 1 (b2n a.loss) + put 3 1 (b2n a.gapAmbig) + put 4 1 (b2n a.lateIgn)
    + put 5 1 (b2n a.truncated) + put 6 1 (b2n a.stepped) + put 7 1 (b2n a.slew) + put 8 1 (b2n a.hdrop)
    + put 9 1 (b2n a.range) + put 10 1 (b2n a.timeout) + put 12 2 trace + put 14 2 conf)

/-- The result block (Table 5-5) of slot S. -/
def Slot.block (k : Slot) (n : Nat) (a : Acc) (seq : W32) (trace conf : Nat) : List W32 :=
  [w32 (put 28 4 k.type + put 26 2 (n / 128) + put 19 7 (n % 128)), seq, a.flags k.type trace conf]
    ++ dtcWords a.start ++ dtcWords a.stop ++ numWords 2 a.cnt ++ numWords 4 (unsigned 128 a.sum) ++ numWords 6 a.ssq
    ++ dtcWords (unsigned 80 (a.min.getD 0)) ++ dtcWords (unsigned 80 (a.max.getD 0))
    ++ [w32 a.lost, w32 a.skip, w32 a.qcnt]

/-- The largest MINPW among the channels a cluster's merge carries. -/
def State.maxMinpw (s : State) (c : Nat) : Nat :=
  (List.range 128).foldl (fun a n =>
    if n / 32 = c ∨ (s.clus c).imports.testBit n then max a (s.chan n).inp.minpw else a) 0

/-- Instant of the guard band proper of the present tick. -/
def State.guardInstant (s : State) (c : Nat) : Nat := ((s.guardExt c : Int) - s.off).toNat

/-- MS_PUBLISH: the oldest closing set of a slot is published in its guard band. -/
def execMsPublish (n : Fin 512) (s : State) : Host.Outcome State Fault Refusal :=
  let c := n.val / 128
  let k := s.slotAt n
  match k.closing with
  | [] => .next s
  | a :: l =>
    let ready : Int := a.stopAt.getD 0 + 1164800 + (s.maxMinpw c : Nat)
    let g := s.guardInstant c
    if (g : Int) < ready ∨ (k.state = .stopping ∧ l.isEmpty ∧ !k.histq.isEmpty) then .next s
    else
      let s := s.runTo g
      let seq := k.seq + 1
      let words := k.block n a seq (s.minTrace a.startAt) (confCode (s.slotConf k a.startAt))
      let s := s.modSlot n fun k =>
        ({ k with closing := l, seq := seq, res := words, seqEnd := seq, resFrom := a.startAt, published := true,
                  pubTo := a.stopAt, gatesDone := satInc (2 ^ 24 - 1) k.gatesDone } : Slot).finish
      .next ((s.event c 3 (n % 128)).refreshUse)

/-- HIST_ADD: the oldest queued increment is issued to its bank as one atomic add (R167). -/
def execHistAdd (n : Fin 512) (e : Ecc) (s : State) : Host.Outcome State Fault Refusal :=
  let k := s.slotAt n
  let c := n.val / 128
  match k.histq, k.hist with
  | (b, v) :: q, some h =>
    let w := h.bank * 131072 + h.offset + b
    let s := (s.runTo s.edge).pcAdd (36 + c) 1
    let s := s.modSlot n fun k => { k with histq := q }
    let r := s.readWord w (4 + c) e
    let s := match r.2 with
      | some v0 => r.1.writeWord w (addWord (s.bankAt h.bank).addMode v0 (BitVec.ofNat 64 v))
      | none => r.1.modSlot n fun k =>
          { k with drop := satAdd (2 ^ 32 - 1) k.drop v }.modLive fun a => { a with hdrop := true }
    .next (s.modSlot n Slot.finish).refreshUse
  | _, _ => .next s

/-! Registers and commands (R171, R172). -/

/-- STATE code. -/
def SlotState.code : SlotState → Nat
  | .idle => 0
  | .defined => 1
  | .armed => 2
  | .running => 3
  | .stopping => 4
  | .stopped => 5

/-- MS_STATE. -/
def Slot.stateWord (k : Slot) : W32 := w32 (put 8 24 k.gatesDone + put 3 1 (b2n k.hist.isSome) + k.state.code)

/-- A type that takes samples, and so can have a histogram. -/
def sampleType (t : Nat) : Bool := t = 1 || t = 2 || t = 5 || t = 6

/-- Channels outside its cluster that a slot names. -/
def Slot.foreign (k : Slot) (c : Nat) : List Nat :=
  if k.state = .idle then []
  else (k.chA :: (if k.usesB then [k.chB] else [])).filter fun n => decide (n / 32 ≠ c)

/-- Imports of a cluster for its slots and its microengine (R147, R253). -/
def State.importMask (s : State) (c : Nat) : Nat :=
  let slots := ((List.range 128).flatMap fun i => (s.slotAt (128 * c + i)).foreign c)
  let me := (maskIdx 128 (s.me c).image.tagsel).filter fun n => decide (n / 32 ≠ c)
  idxMask (slots ++ me)

/-- Bits set among the 128 of a mask. -/
def count128 (m : Nat) : Nat := (maskIdx 128 m).length

/-- Channels outside cluster c that its local CAPTURE streams subscribe to: those of every open stream, or of the started ones. -/
def State.importStreams (s : State) (c : Nat) (started : Bool) : Nat :=
  let m := s.dma.toList.foldl (fun a d =>
    if d.kind = 0 ∧ d.cluster = c ∧ d.state ≠ .idle ∧ ¬ d.remote ∧ (started → d.startAt.isSome) then a ||| d.mask else a) 0
  idxMask ((maskIdx 128 m).filter fun n => decide (n / 32 ≠ c))

/-- The imports that count against the limit of 32 (R147, R253, R350). -/
def State.importWant (s : State) (c : Nat) : Nat := s.importMask c ||| s.importStreams c false

/-- CL_IMPORT at a tick boundary: subscriptions begin and end there (R481). -/
def State.importTick (s : State) (c : Nat) : State :=
  let m := s.importMask c ||| s.importStreams c true
  s.modCl c fun k => { k with imports := m }

/-- The slot that MEAS_DEFINE describes. -/
def Slot.define (k : Slot) (p : List W32) : Slot :=
  let w := pw p 1
  let t := bits w 19 16
  { k with
    type := t, edgeA := bits w 21 20, edgeB := bits w 23 22, startLatest := bit w 24, widthNeg := bit w 25
    chA := bits (pw p 2) 6 0, chB := bits (pw p 2) 14 8, g := (pw p 3).toNat, ngate := (pw p 4).toNat, ivlMax := (pw p 5).toNat
    state := if t = 0 then .idle else .defined
    hist := if sampleType t then k.hist else none
    mark := none, last := none, ref := none, gap := false, p := 0 }

/-- MEAS_DEFINE's refusals. -/
def measDefineCheck (s : State) (p : List W32) : Nat :=
  let w := pw p 1
  let n := bits w 8 0
  let t := bits w 19 16
  let either := t = 2 ∨ t = 3 ∨ t = 4
  let u := s.modSlot n fun k => k.define p
  firstCode [
    (7 < t || bits w 21 20 = 3 || bits w 23 22 = 3 || (decide either && bits w 21 20 = 2) || (pw p 3).toNat = 0
      || 1048576 < (pw p 3).toNat || reserved w 0x03FF01FF || reserved (pw p 2) 0x7F7F, rcRange),
    ((s.slotAt n).armed, rcState),
    (32 < count128 (u.importWant (n / 128)), rcResource)]

/-- MEAS_DEFINE. -/
def cmdMeasDefine (s : State) (p : List W32) : Res :=
  let n := bits (pw p 1) 8 0
  let c := measDefineCheck s p
  if c ≠ 0 then fail s c
  else
    let s := s.modSlot n fun k => k.define p
    okay s [(s.slotAt n).stateWord]

/-- FIRST and LAST of a slot range. -/
def slotFirst (p : List W32) : Nat := bits (pw p 1) 8 0
def slotLast (p : List W32) : Nat := bits (pw p 1) 24 16
def slotRange (p : List W32) : List Nat := rangeIdx (slotFirst p) (slotLast p)
def badSlots (p : List W32) : Bool := slotLast p < slotFirst p || slotFirst p / 128 ≠ slotLast p / 128

/-- An extended time is a tick boundary at least 1 µs ahead. -/
def State.futureBoundary (s : State) (x : Nat) : Bool := s.ext + leadTq ≤ x && s.boundaryFrom x = x

/-- The bank of a slot's histogram is not owned by the pipeline of its cluster (R168). -/
def State.histLost (s : State) (n : Nat) : Bool :=
  match (s.slotAt n).hist with
  | some h => (s.bankAt h.bank).owner ≠ 4 + n / 128
  | none => false

/-- MEAS_ARM's refusals; `x` is B0. -/
def measArmCheck (s : State) (p : List W32) (x : Nat) : Nat :=
  firstCode [
    (badSlots p || reserved (pw p 1) 0x81FF01FF || (bit (pw p 1) 31 && (dtcReserved (pw p 4) || !s.futureBoundary x)), rcRange),
    ((slotRange p).any fun n => (s.slotAt n).state ≠ .defined && (s.slotAt n).state ≠ .stopped, rcState),
    (s.tb.step.isSome || s.tb.slew.isSome, rcBusy),
    ((slotRange p).any fun n => s.histLost n, rcResource)]

/-- A slot armed for a boundary (R155). -/
def Slot.arm (k : Slot) (b0 : Nat) : Slot :=
  { k with state := .armed, gatesDone := 0, seq := 0, under := 0, above := 0, drop := 0, published := false, b0 := b0,
           acc := none, closing := [], left := 0, gates := 0, stopAt := none, mark := none, last := none, gap := false,
           p := 0, ref := none, pubTo := none }

/-- MEAS_ARM takes effect for a boundary. -/
def armSlots (s : State) (p : List W32) (b0 : Nat) : State :=
  (s.each (slotRange p) fun s n => s.modSlot n fun k => k.arm b0).refreshUse

/-- MEAS_ARM. -/
def cmdMeasArm (s : State) (p : List W32) : Res :=
  let x := if bit (pw p 1) 31 then s.extOf (pw p 2) (pw p 3) (pw p 4) else s.boundaryB
  let c := measArmCheck s p x
  if c ≠ 0 then fail s c else okay (armSlots s p x) (extWords x)

/-- The n-th boundary from now (n ≥ 1), as extended time. -/
def State.nthBoundary (s : State) (n : Nat) : Nat :=
  match s.tb.tickPend with
  | none => s.tb.tickEnd + (n - 1) * s.tickTq
  | some p =>
    let c := if s.pps.mode = 0 then s.tb.tickEnd else secondFrom s.tb.tickEnd
    let m := cdiv (c - s.tb.tickEnd) s.tickTq
    if n - 1 ≤ m then s.tb.tickEnd + (n - 1) * s.tickTq else c + (n - 1 - m) * (p * cclk)

/-- Boundary at which the last gate of a running slot ends, for a stop asked for from an extended time: a present gate that is
the last of NGATE and ends before then ends the slot. -/
def State.stopBoundary (s : State) (k : Slot) (from_ : Nat) (now_ : Bool) : Nat :=
  let e := s.nthBoundary k.left
  if e < from_ ∧ k.ngate ≠ 0 ∧ k.ngate ≤ k.gates then e
  else if now_ then s.boundaryFrom from_
  else if e < from_ then s.nthBoundary (k.left + k.g)
  else e

/-- MEAS_STOP takes effect for an instant. -/
def stopSlots (s : State) (p : List W32) (at_ : Int) : State :=
  (s.each (slotRange p) fun s n =>
    s.modSlot n fun k =>
      match k.state with
      | .armed => { k with state := .stopped }
      | .running => { k with stopAt := some (bit (pw p 1) 31, at_) }
      | _ => k).refreshUse

/-- MEAS_STOP: the reply names the latest boundary at which a named running slot's last gate ends; 0 where none runs. -/
def cmdMeasStop (s : State) (p : List W32) : Res :=
  if badSlots p || reserved (pw p 1) 0x81FF01FF then fail s rcRange
  else
    let t := s.ext + leadTq
    let ends := (slotRange p).filterMap fun n =>
      let k := s.slotAt n
      if k.state = .running then some (s.stopBoundary k t (bit (pw p 1) 31)) else none
    okay (stopSlots s p ((s.now + leadTq : Nat) : Int)) (extWords (ends.foldl max 0))

/-- A number from words of a block. -/
def blockNat (l : List W32) (i n : Nat) : Nat :=
  (List.range n).foldl (fun a j => a + (l.getD (i + j) 0).toNat * 2 ^ (32 * j)) 0

/-- The whole square root of a number below 2^(2k). -/
def isqrt : Nat → Nat → Nat → Nat
  | 0, _, r => r
  | k + 1, v, r => isqrt k v (if (r + 2 ^ k) * (r + 2 ^ k) ≤ v then r + 2 ^ k else r)

/-- A quotient rounded to the nearest integer, a tie upward. -/
def roundDiv (a : Int) (b : Nat) : Int := (2 * a + b) / (2 * b : Nat)

/-- VALUE of MEAS_READ in 2⁻⁶⁴ tq: the mean, or τ; none where its formula has no items. -/
def blockValue (l : List W32) (type : Nat) : Option Int :=
  let cnt := blockNat l 9 2
  let sum := signed 128 (blockNat l 11 4)
  match type with
  | 7 => some 0
  | 3 => if cnt = 0 then none else some (roundDiv (dtcDiff (blockNat l 24 3) (blockNat l 21 3) * 2 ^ 64) cnt)
  | 4 =>
    if cnt < 2 then none
    else some (roundDiv (((12 * blockNat l 15 6 : Nat) - 6 * (cnt - 1 : Nat) * sum) * 2 ^ 64) (cnt * (cnt * cnt - 1)))
  | _ => if cnt = 0 then none else some (roundDiv (sum * 2 ^ 64) cnt)

/-- SPREAD of MEAS_READ in 2⁻³² tq, saturating (R157). -/
def blockSpread (l : List W32) (type : Nat) : Nat :=
  let cnt := blockNat l 9 2
  let sum := signed 128 (blockNat l 11 4)
  if !sampleType type ∨ cnt < 2 then 0
  else
    let num := ((cnt * blockNat l 15 6 : Nat) - sum * sum).toNat
    min (2 ^ 64 - 1) ((1 + isqrt 128 (4 * num * 2 ^ 64 / (cnt * (cnt - 1))) 0) / 2)

/-- MEAS_READ: the last published result. -/
def cmdMeasRead (s : State) (p : List W32) : Res :=
  let n := bits (pw p 1) 8 0
  let k := s.slotAt n
  let c := firstCode [(reserved (pw p 1) 0x1FF, rcRange), (!k.published, rcNotReady), (k.state = .idle, rcState)]
  if c ≠ 0 then fail s c
  else
    let l := k.res
    let type := bits (l.getD 0 0) 31 28
    let v := (blockValue l type).getD (Config.measOpen s.freeCnt)
    okay s.useFree ([l.getD 1 0, l.getD 2 0, l.getD 9 0, l.getD 10 0] ++ numWords 4 (unsigned 128 v)
      ++ numWords 2 (blockSpread l type) ++ [l.getD 27 0, l.getD 28 0, l.getD 29 0])

/-- The region of a histogram: first word address and length. -/
def Hist.region (h : Hist) : Nat × Nat := (h.bank * 131072 + h.offset, h.nbins)

/-- Two regions of words share a word. -/
def overlap (a b : Nat × Nat) : Bool := decide (a.1 < b.1 + b.2 ∧ b.1 < a.1 + a.2)

/-- The regions of an open stream's ring, one in each of its banks (R349). -/
def Dma.rings (d : Dma) : List (Nat × Nat) :=
  if d.kind = 0 ∧ d.state ≠ .idle then (rangeIdx d.bank (d.bank + d.nbM1)).map fun b => (b * 131072 + d.off, d.len) else []

/-- A region shares a word with a histogram of another slot or with a ring. -/
def State.regionTaken (s : State) (n : Nat) (r : Nat × Nat) : Bool :=
  ((List.range 512).any fun i => i ≠ n && match (s.slotAt i).hist with | some h => overlap r h.region | none => false) ||
  s.dma.toList.any fun d => d.rings.any fun q => overlap r q

/-- The histogram HIST_DEFINE describes. -/
def histOf (p : List W32) : Hist :=
  { bank := bits (pw p 2) 5 0, offset := (pw p 3).toNat, nbins := (pw p 4).toNat, width := (pw p 5).toNat,
    origin := signed 64 ((pw p 6).toNat + (pw p 7).toNat * 2 ^ 32) }

/-- HIST_DEFINE's refusals. -/
def histDefineCheck (s : State) (p : List W32) : Nat :=
  let n := bits (pw p 1) 8 0
  let k := s.slotAt n
  let h := histOf p
  let on := bit (pw p 1) 16
  let clear := bit (pw p 1) 17
  let owner (b : Nat) : Bool := (s.bankAt b).owner = 4 + n / 128
  firstCode [
    (reserved (pw p 1) 0x301FF || !sampleType k.type || (on && (reserved (pw p 2) 0x3F || h.nbins = 0 || 131072 < h.nbins
      || h.width = 0 || 2 ^ 24 < h.width || 131072 < h.offset + h.nbins)), rcRange),
    (k.state ≠ .defined && k.state ≠ .stopped, rcState),
    ((on && (!owner h.bank || s.regionTaken n h.region))
      || (!on && clear && match k.hist with | some g => !owner g.bank | none => false), rcResource)]

/-- A region of words zeroed with valid check bits. -/
def State.zeroRegion (s : State) (r : Nat × Nat) : State :=
  { s with mem := Mem.clear s.mem (8 * r.1) (8 * (r.1 + r.2))
           ue := s.ue.filter fun w => decide (¬ (r.1 ≤ w ∧ w < r.1 + r.2)) }

/-- HIST_DEFINE. -/
def cmdHistDefine (s : State) (p : List W32) : Res :=
  let n := bits (pw p 1) 8 0
  let c := histDefineCheck s p
  if c ≠ 0 then fail s c
  else
    let new := if bit (pw p 1) 16 then some (histOf p) else none
    let target := match new with | some h => some h | none => (s.slotAt n).hist
    let s := if bit (pw p 1) 17 then match target with | some h => s.zeroRegion h.region | none => s else s
    let s := s.modSlot n fun k => { k with hist := new }
    okay s [(s.slotAt n).stateWord]

end Sys2Proof.Machine
end

