-- ==== Sys2Proof/Machine/Pattern.lean ====
section
/-! DEFINITION. Pattern units: periods, hand-over, immediate writes and SYN_PATTERN (R184 to R194, R198). -/
namespace Sys2Proof.Machine

/-- The reserved compare codes (R186). -/
def duty0 : Nat := 0xFFFFFFFF
def duty100 : Nat := 0xFFFFFFFE

/-- tq of a count (R184). -/
def PatUnit.u (x : PatUnit) : Nat := 2 ^ (x.pre + 1)

/-- PER and CMP fit each other in a mode (R186). -/
def pairOk (mode per cmp : Nat) : Bool := if duty100 ≤ cmp then mode = 3 else cmp < per

/-- A period is long enough for a running unit (R184). -/
def perOk (pre per : Nat) : Bool := 6400 ≤ per * 2 ^ (pre + 1)

/-- Some shadow has been written since the last hand-over. -/
def PuWritten.any (w : PuWritten) : Bool := w.per || w.cmp || w.npulse || w.bper || w.nburst

/-- The active values with every written shadow moved in. -/
def PatUnit.merged (x : PatUnit) : PuVals :=
  let w := x.written
  let a := x.act
  let h := x.shadow
  { per := if w.per then h.per else a.per, cmp := if w.cmp then h.cmp else a.cmp,
    npulse := if w.npulse then h.npulse else a.npulse, bper := if w.bper then h.bper else a.bper,
    nburst := if w.nburst then h.nburst else a.nburst }

/-- The values for a period that starts at a time: those of before a TICK hand-over until B + 1,600,000 tq (Table 6-3). -/
def PatUnit.valsAt (x : PatUnit) (t : Int) : PuVals :=
  match x.old with
  | some (v, b) => if t < b + entryTq then v else x.act
  | none => x.act

/-- Start of the next period that the generation point has not reached. -/
def PatUnit.nextStart (x : PatUnit) : Int := if x.started then x.s + (x.perN * x.u : Nat) else (x.t0 : Int)

/-! Hand-over (R189, R192, R193). -/

/-- A refused check at a hand-over or a clearing of LOCK. -/
def State.handoverRej (s : State) (n : Nat) : State :=
  (s.modPu n fun x => { x with hoRej := true }).report 5 2 n (w32 (s.chan n).pu.merged.cmp) 0

/-- The merged values pass the check of R192. -/
def PatUnit.mergedOk (x : PatUnit) : Bool := pairOk x.mode x.merged.per x.merged.cmp && (!x.run || perOk x.pre x.merged.per)

/-- The hand-over of a cycle. -/
def State.handover (s : State) (n cyc : Nat) : State :=
  let x := (s.chan n).pu
  let s := s.modPu n fun x => { x with hoCycle := some cyc }
  if x.lock ∨ !x.written.any then s
  else if !x.mergedOk then s.handoverRej n
  else
    s.modPu n fun x =>
      { x with act := x.merged, written := PuWritten.none, shadowLate := false, cmdPend := false,
               old := if x.upd = 2 then some (x.valsAt (s.ext + entryTq), s.tb.tickEnd) else none }

/-- The CCLK cycle of the next hand-over of a running unit. -/
def State.handoverCycle (s : State) (n : Nat) : Option Nat :=
  let x := (s.chan n).pu
  if !x.run then none
  else if x.upd = 1 then some ((x.nextStart - entryTq - s.off).toNat / cclk)
  else if x.upd = 2 then some (s.guardInstant (n / 32) / cclk)
  else none

/-- A hand-over whose cycle has begun by now is made first: its snapshot is that of the start of the cycle. -/
def State.snapShadows (s : State) (n : Nat) : State :=
  match s.handoverCycle n with
  | some cyc => if cyc ≤ s.now / cclk ∧ (s.chan n).pu.hoCycle ≠ some cyc then s.handover n cyc else s
  | none => s

/-- PU_HANDOVER: the hand-over cycle begins. -/
def execPuHandover (n : Fin 128) (s : State) : Host.Outcome State Fault Refusal :=
  match s.handoverCycle n with
  | some cyc =>
    if (s.chan n).pu.hoCycle = some cyc then .next s else .next ((s.runTo (cyc * cclk)).handover n cyc)
  | none => .next s

/-- A shadow write or a clearing of LOCK made now misses the snapshot of this cycle (R193). -/
def State.noteLate (s : State) (n : Nat) : State :=
  let x := (s.chan n).pu
  if x.run ∧ !x.lock ∧ x.hoCycle = some (s.now / cclk) then
    (s.modPu n fun x => { x with shadowLate := true, shlate := x.shlate + 1 }).pcAdd 58 1
  else s

/-- A value stored in a shadow. -/
def PatUnit.store (x : PatUnit) (r : PuReg) (v : Nat) : PatUnit :=
  match r with
  | .per => { x with shadow := { x.shadow with per := v }, written := { x.written with per := true } }
  | .cmp => { x with shadow := { x.shadow with cmp := v }, written := { x.written with cmp := true } }
  | .npulse => { x with shadow := { x.shadow with npulse := v }, written := { x.written with npulse := true } }
  | .bper => { x with shadow := { x.shadow with bper := v }, written := { x.written with bper := true } }
  | .nburst => { x with shadow := { x.shadow with nburst := v }, written := { x.written with nburst := true } }

/-! Immediate writes (R190, R191). -/

/-- The present count at the generation point. -/
def PatUnit.count (x : PatUnit) (ext : Nat) : Nat := ((((ext : Int) + entryTq) - x.s) / (x.u : Int)).toNat

/-- A compare value written at count c (Table 6-4). -/
def PatUnit.immCmp (x : PatUnit) (c v : Nat) : PatUnit :=
  let x := { x with act := { x.act with cmp := v } }
  if !x.started then x
  else if v = duty0 then
    if x.asserted then { x with cmpN := c + 1, matched := false, quiet := true } else { x with matched := true }
  else if v = duty100 then { x with matched := true }
  else if c + 1 ≤ v then { x with cmpN := v, matched := false, quiet := false }
  else { x with matched := true }

/-- A period written at count c (R191). -/
def PatUnit.immPer (x : PatUnit) (c v : Nat) : PatUnit :=
  let x := { x with act := { x.act with per := v } }
  if !x.started then x else { x with perN := if c < v then v else c + 1 }

/-- A value written in IMMEDIATE mode. -/
def PatUnit.imm (x : PatUnit) (ext : Nat) (r : PuReg) (v : Nat) : PatUnit :=
  match r with
  | .per => x.immPer (x.count ext) v
  | .cmp => x.immCmp (x.count ext) v
  | .npulse => { x with act := { x.act with npulse := v } }
  | .bper => { x with act := { x.act with bper := v } }
  | .nburst => { x with act := { x.act with nburst := v } }

/-- A direct write is refused (R186, R191): at once against the active values, in a shadow only for a code that no PER admits. -/
def PatUnit.refuses (x : PatUnit) (atOnce : Bool) (r : PuReg) (v : Nat) : Bool :=
  match r with
  | .cmp => if atOnce then !pairOk x.mode x.act.per v else decide (duty100 ≤ v ∧ x.mode ≠ 3)
  | .per => atOnce && (!(decide (duty100 ≤ x.act.cmp) || decide (x.act.cmp < v)) || (x.run && !perOk x.pre v))
  | _ => false

/-- A direct write of a pattern-unit register: active or shadow address, as UPD and LOCK decide (R189, R192). -/
def State.puWrite (s : State) (n : Nat) (r : PuReg) (v : W32) : State :=
  let s := s.snapShadows n
  let x := (s.chan n).pu
  let atOnce : Bool := x.upd = 0 && !x.lock
  if x.refuses atOnce r v.toNat then (s.modPu n fun x => { x with wrRej := true }).report 5 1 n v 0
  else if atOnce then s.modPu n fun x => { x.imm s.ext r v.toNat with shadow := (x.store r v.toNat).shadow }
  else (s.modPu n fun x => x.store r v.toNat).noteLate n

/-- PU_CMP_WRITE. -/
def execPuCmpWrite (n : Fin 128) (v : W32) (s : State) : Host.Outcome State Fault Refusal := .next ((s.fwEdge n).puWrite n .cmp v)

/-- PU_PER_WRITE. -/
def execPuPerWrite (n : Fin 128) (v : W32) (s : State) : Host.Outcome State Fault Refusal := .next ((s.fwEdge n).puWrite n .per v)

/-- PU_SHADOW_WRITE. -/
def execPuShadowWrite (n : Fin 128) (r : PuReg) (v : W32) (s : State) : Host.Outcome State Fault Refusal :=
  .next ((s.fwEdge n).puWrite n r v)

/-- LOCK cleared (R192): in IMMEDIATE mode the written shadows act at this cycle's present count, PER before CMP. -/
def State.lockClear (s : State) (n : Nat) : State :=
  let s := s.snapShadows n
  let x := (s.chan n).pu
  let s := s.modPu n fun x => { x with lock := false }
  if !x.lock ∨ !x.written.any then s
  else if x.upd = 0 then
    if !x.mergedOk then s.handoverRej n
    else
      s.modPu n fun x =>
        let w := x.written
        let h := x.shadow
        let c := x.count s.ext
        let x := if w.per then x.immPer c h.per else x
        let x := if w.cmp then x.immCmp c h.cmp else x
        { x with act := x.merged, written := PuWritten.none, shadowLate := false, cmdPend := false }
  else s.noteLate n

/-- PU_LOCK_CLEAR. -/
def execPuLockClear (n : Fin 128) (s : State) : Host.Outcome State Fault Refusal := .next ((s.fwEdge n).lockClear n)

/-- A write of CH_PU_CTRL: LOCK and UPD are its writable fields. -/
def State.puCtrl (s : State) (n : Nat) (w : W32) : State :=
  let s := s.snapShadows n
  let s := if bits w 4 3 = 3 then s else s.modPu n fun x => { x with upd := bits w 4 3 }
  if bit w 5 then s.modPu n fun x => { x with lock := true } else s.lockClear n

/-! Generation (R184 to R188). -/

/-- The unit asserts or deasserts at a time: an edge enters the sequencer, if the state changes (R187). -/
def State.puEdge (s : State) (n : Nat) (t : Int) (on : Bool) : State :=
  if (s.chan n).pu.asserted = on then s
  else
    let e : Entry := { t := t, level := s.unitLevel n on, dt := s.deadTime (pairOf n + b2n (!on))
                       sp := (s.chan (pairOf n + b2n (!on))).out.shortPol }
    (s.modPu n fun x => { x with asserted := on }).modOut n fun o => { o with entered := o.entered ++ [e] }

/-- A period start late enough after an accepted clear names S for a channel, or a pair, fed by the unit (R214). -/
def State.puResume (s : State) (n : Nat) (t : Int) : State :=
  let go (s : State) (m : Nat) : State :=
    let p := (s.chan m).pr
    if p.resumePend ∧ p.resumeAt.isNone ∧ p.clearAt + entryTq ≤ t then s.modPr m fun p => { p with resumeAt := some t } else s
  if s.paired n then go (go s (pairOf n)) (pairOf n + 1) else go s n

/-- Period `idx` starts at a time, at a place in its group. -/
def State.puBegin (s : State) (n : Nat) (t : Int) (idx pos grp : Nat) : State :=
  let v := (s.chan n).pu.valsAt t
  let x := (s.chan n).pu
  let pulse : Bool := x.mode ≠ 2 || decide (pos < v.npulse)
  let s := s.modPu n fun x =>
    { x with started := true, s := t, perN := v.per, cmpN := v.cmp, pidx := idx % 2 ^ 64, grpPos := pos, grpNo := grp,
             pulsing := x.mode = 2 && pulse, matched := decide (duty100 ≤ v.cmp), quiet := false }
  let s := s.puEdge n t (if v.cmp = duty0 then false else pulse)
  (s.puEvent n t .zero idx).puResume n t

/-- The unit stops at a time: the output goes to the deasserted level (R188). -/
def State.puStop (s : State) (n : Nat) (t : Int) : State :=
  (s.puEdge n t false).modPu n PatUnit.halt

/-- The last period of the unit ends at a time, under the values that apply to a period that starts there. -/
def PatUnit.lastPeriod (x : PatUnit) (t : Int) : Bool :=
  let v := x.valsAt t
  x.stopReq || (x.mode = 2 && v.nburst ≠ 0 && decide (v.bper ≤ x.grpPos + 1) && decide (v.nburst ≤ x.grpNo + 1))

/-- A period ends at a time: the next one starts, or the unit stops. -/
def State.puEnd (s : State) (n : Nat) (t : Int) : State :=
  let x := (s.chan n).pu
  let s :=
    if x.lastPeriod t then s.puStop n t
    else
      let above : Bool := decide ((x.valsAt t).bper ≤ x.grpPos + 1)
      s.puBegin n t (x.pidx + 1) (if above then 0 else x.grpPos + 1) (if above then x.grpNo + 1 else x.grpNo)
  s.puEvent n t .period x.pidx

/-- The compare of the period matches (R185). -/
def State.puMatch (s : State) (n : Nat) (t : Int) : State :=
  let x := (s.chan n).pu
  let s := (s.modPu n fun x => { x with matched := true }).puEdge n t false
  if x.quiet then s else s.puEvent n t .compare x.pidx

/-- Time at which the generation point meets the unit next, and whether that is a compare. -/
def PatUnit.next (x : PatUnit) : Int × Bool :=
  if x.started ∧ !x.matched ∧ x.cmpN < x.perN then (x.s + (x.cmpN * x.u : Nat), true) else (x.nextStart, false)

/-- PU_GENERATE: the generation point reaches the unit's next start, compare or end, or the boundary of a deselection. -/
def execPuGenerate (n : Fin 128) (s : State) : Host.Outcome State Fault Refusal :=
  let x := (s.chan n).pu
  if !x.run ∨ (s.paired n ∧ n.val % 2 = 1) then .next s
  else
    let a := x.next
    let cut := match s.srcChangeAt n with | some b => decide ((b : Int) ≤ a.1) | none => false
    let t : Int := if cut then ((s.srcChangeAt n).getD 0 : Nat) else a.1
    let s := s.runTo (t - entryTq - s.off).toNat
    if cut then
      let s := s.puStop n t
      .next (if x.started then s.puEvent n t .period x.pidx else s)
    else if a.2 then .next (s.puMatch n t)
    else
      let s := s.snapShadows n
      .next (if x.started then s.puEnd n t else s.puBegin n t 0 0 0)

/-! Registers. -/

/-- CH_PU_CTRL. -/
def PatUnit.ctrlWord (x : PatUnit) : W32 :=
  w32 (put 16 8 x.evps + put 12 3 x.even_ + put 8 4 x.pre + put 6 1 (b2n x.pol) + put 5 1 (b2n x.lock) + put 3 2 x.upd + x.mode)

/-- CH_PU_STATUS. -/
def PatUnit.statusWord (x : PatUnit) : W32 :=
  w32 (put 5 1 (b2n x.written.any) + put 4 1 (b2n x.wrRej) + put 3 1 (b2n x.hoRej) + put 2 1 (b2n x.done)
    + put 1 1 (b2n x.pulsing) + b2n x.run)

/-! SYN_PATTERN. -/

/-- The values of SYN_PATTERN's payload. -/
def patVals (p : List W32) : PuVals :=
  { per := (pw p 3).toNat, cmp := (pw p 4).toNat, npulse := (pw p 5).toNat, bper := (pw p 6).toNat, nburst := (pw p 7).toNat }

/-- T0 of the payload: none for the first boundary. -/
def State.patT0 (s : State) (p : List W32) : Option Nat :=
  if pw p 8 = 0 ∧ pw p 9 = 0 ∧ pw p 10 = 0 then none else some (s.extOf (pw p 8) (pw p 9) (pw p 10))

/-- A start's values are out of range. -/
def patRange (mode pre : Nat) (v : PuVals) : Bool :=
  !pairOk mode v.per v.cmp || !perOk pre v.per || (mode = 2 && (v.npulse = 0 || v.bper < v.npulse))

/-- Refusals of SYN_PATTERN. -/
def patternCheck (s : State) (p : List W32) : Nat :=
  let mode := bits (pw p 2) 2 0
  let shadow := bit (pw p 1) 31
  let v := patVals p
  let l := rangeChans p
  let any (f : Nat → Channel → Bool) : Bool := l.any fun n => f n (s.chan n)
  let start : Bool := !shadow && mode ≠ 0
  firstCode [
    (badRange p || reserved (pw p 1) 0x80007F7F || reserved (pw p 2) 0x00FF7F5F || dtcReserved (pw p 10) || 3 < mode
      || bits (pw p 2) 4 3 = 3 || (start && patRange mode (bits (pw p 2) 11 8) v)
      || (shadow && any fun _ c => patRange c.pu.mode c.pu.pre v)
      || (start && match s.patT0 p with | some t => t < s.ext + leadTq | none => false), rcRange),
    (any fun n c => !c.out.configured || !c.out.srcPu || (start && (c.pu.run || (s.paired n && n % 2 = 1))) || (shadow && !c.pu.run),
      rcState),
    (any fun _ c => c.pu.stopReq || c.pu.cmdPend, rcBusy)]

/-- A unit started by SYN_PATTERN. -/
def PatUnit.startWith (x : PatUnit) (p : List W32) (t0 : Nat) : PatUnit :=
  let w := pw p 2
  let v := patVals p
  { x with
    mode := bits w 2 0, upd := bits w 4 3, pol := bit w 6, pre := bits w 11 8, even_ := bits w 14 12, evps := bits w 23 16
    act := v, shadow := v, written := PuWritten.none, cmdPend := false, run := true, done := false, t0 := t0, pidx := 0
    started := false, asserted := false, matched := true, quiet := false, grpPos := 0, grpNo := 0, stopReq := false
    pulsing := false, hoCycle := none, old := none }

/-- SYN_PATTERN starts, stops or shadows one unit; a start has its T0. -/
def State.patternOn (s : State) (n : Nat) (p : List W32) (t0 : Nat) : State :=
  let x := (s.chan n).pu
  let v := patVals p
  if bit (pw p 1) 31 then
    let s := (s.snapShadows n).modPu n fun x =>
      let x := ((((x.store .per v.per).store .cmp v.cmp).store .npulse v.npulse).store .bper v.bper).store .nburst v.nburst
      { x with lock := true, cmdPend := true }
    if x.lock then s else s.lockClear n
  else if bits (pw p 2) 2 0 = 0 then
    if !x.run then s
    else if x.started then s.modPu n fun x => { x with stopReq := true }
    else (s.modPu n fun x => { x with stopReq := true }).puStop n s.ext
  else (s.modPu n fun x => x.startWith p t0).presentLevel n (s.chan n).out.en

/-- SYN_PATTERN takes effect. -/
def applyPattern (s : State) (p : List W32) (t0 : Nat) : State :=
  (s.each (rangeChans p) fun s n => s.patternOn n p t0).settle

/-- The period start from which shadows written now apply. -/
def State.shadowFrom (s : State) (n : Nat) : Nat :=
  let x := (s.chan n).pu
  let d := max 1 (x.perN * x.u)
  let later (from_ lim : Int) (step : Nat) : Int := if lim ≤ from_ then from_ else from_ + (cdiv (lim - from_).toNat step * step : Nat)
  if x.upd = 1 then
    (later x.nextStart ((((s.now / cclk + 1) * cclk : Nat) : Int) + s.off + entryTq) (max 1 (x.act.per * x.u))).toNat
  else if x.upd = 2 then
    let b := if s.now / cclk < s.guardInstant (n / 32) / cclk then s.tb.tickEnd else s.boundaryFrom (s.tb.tickEnd + 1)
    (later x.nextStart ((b : Int) + entryTq) d).toNat
  else 0

/-- SYN_PATTERN. -/
def cmdSynPattern (s : State) (p : List W32) : Res :=
  let c := patternCheck s p
  let n := rangeFirst p
  if c ≠ 0 then fail s c
  else
    let t0 := (s.patT0 p).getD s.boundaryB
    let reply := if bit (pw p 1) 31 then s.shadowFrom n else if bits (pw p 2) 2 0 = 0 then 0 else t0
    let s := applyPattern s p t0
    okay s ((s.chan n).pu.statusWord :: extWords reply)

end Sys2Proof.Machine
end

