-- ==== Sys2Proof/Machine/Brake.lean ====
section
/-! DEFINITION. Brake inputs, holds and resumption, and the pair and brake commands (R208 to R218). -/
namespace Sys2Proof.Machine

/-! Brake inputs (R209 to R211). -/

/-- tq of a TCLK period. -/
def tclk : Nat := 3200

/-- The first TCLK sample at or after an instant. -/
def sampleFrom (p : Nat) : Nat := cdiv p tclk * tclk

/-- Raw active at the last sample (R209). -/
def Brake.raw (b : Brake) : Bool := b.seen != b.activeLow

/-- The level at the ball is sampled: a run of samples ends, and, if it was raw active and shorter than DEB, it was a glitch
(R210); the quiet time counts from the first raw inactive sample. -/
def Brake.sample (b : Brake) : Brake :=
  if b.seen = b.ball then b
  else
    let k := { b with seen := b.ball, rawAt := b.ballAt }
    if !b.raw then { k with quietOk := false }
    else
      let short : Bool := !b.active && decide ((b.ballAt - b.rawAt) / tclk < b.deb)
      { k with quietFrom := b.ballAt, glitchCnt := if short then satInc 65535 b.glitchCnt else b.glitchCnt }

/-- The input as the samples up to an instant have it. -/
def Brake.upTo (b : Brake) (now : Nat) : Brake := if b.ballAt ≤ now then b.sample else b

/-- The instant of the sample that completes DEB samples of the present raw level. -/
def Brake.debAt (b : Brake) : Nat := b.rawAt + (b.deb - 1) * tclk

/-- tq of the quiet time. -/
def Brake.quietTq (b : Brake) : Nat := b.quietUs * 8000000

/-- Guard mask of a channel; a pair has the union of both (R211). -/
def State.guardOf (s : State) (n : Nat) : Nat :=
  let g := (s.chan n).pr.guard
  if s.paired n then g ||| (s.chan (n + 1 - 2 * (n % 2))).pr.guard else g

/-- The tripped brakes as a mask. -/
def State.trippedMask (s : State) : Nat := idxMask ((List.range 8).filter fun b => (s.brkAt b).tripped)

/-- HOLD_BY of a channel. -/
def State.holdBy (s : State) (n : Nat) : Nat := s.guardOf n &&& s.trippedMask

/-- A channel is held, by a trip that guards it (R212, R213, R215). -/
def State.hold (s : State) (n : Nat) : State :=
  (s.modPr n fun p =>
    { p with holds := if p.held && !p.resumePend then p.holds else p.holds + 1
             held := true, resumePend := false, resumeAt := none, forced := false }).tdrStop n tdrBraked

/-- Brake b trips at the present instant. -/
def State.trip (s : State) (b : Nat) : State :=
  let s := s.modBrk b fun k => { k with active := true, tripped := true, tripCnt := satInc 65535 k.tripCnt }
  let s := s.each ((List.range 128).filter fun n => (s.guardOf n).testBit b) State.hold
  let t := s.dtcAt s.now
  let s := s.report 5 3 b 0 (w32 t)
  (((s.raise (224 + b)).event 4 6 b).notice 5 (w32 (2 ^ b) :: dtcWords t)).pcAdd 59 1

/-- A trip or a debounced release whose sample has passed is made first. -/
def State.debounce (s : State) (b : Nat) : State :=
  let k := s.brkAt b
  if !k.en ∨ k.raw = k.active ∨ s.now ≤ k.debAt then s
  else if k.raw then s.trip b
  else s.modBrk b fun k => { k with active := false }

/-- A brake ball changes level: a level that no sample has seen leaves no trace. -/
def State.brakeChange (s : State) (b : Nat) : State :=
  let s := s.modBrk b fun k => if k.ballAt < s.now then k.sample else k
  (s.debounce b).modBrk b fun k => { k with ball := !k.ball, ballAt := sampleFrom s.now }

/-- BRAKE_INPUT_CHANGE: after dt. -/
def execBrakeInputChange (b : Fin 8) (dt : Nat) (s : State) : Host.Outcome State Fault Refusal :=
  .next ((s.advance dt).brakeChange b)

/-- BRAKE_TRIP: the input has been raw active at DEB consecutive samples. -/
def execBrakeTrip (b : Fin 8) (s : State) : Host.Outcome State Fault Refusal :=
  let k := (s.brkAt b).sample
  if !k.en ∨ !k.raw ∨ k.active ∨ s.pwr.startup = .held then .next s
  else .next (((s.runTo k.debAt).modBrk b Brake.sample).trip b)

/-- DEBOUNCED_INACTIVE. -/
def execDebouncedInactive (b : Fin 8) (s : State) : Host.Outcome State Fault Refusal :=
  let k := (s.brkAt b).sample
  if k.raw ∨ !k.active then .next s else .next ((s.runTo k.debAt).modBrk b fun k => { k.sample with active := false })

/-- QUIET_TIME_MET. -/
def execQuietTimeMet (b : Fin 8) (s : State) : Host.Outcome State Fault Refusal :=
  let k := (s.brkAt b).sample
  if !k.en ∨ k.raw ∨ k.quietOk then .next s
  else .next ((s.runTo (k.quietFrom + k.quietTq)).modBrk b fun k => { k.sample with quietOk := true })

/-- BRAKE_RESUME: S has come for a held channel (R214). -/
def execBrakeResume (n : Fin 128) (s : State) : Host.Outcome State Fault Refusal :=
  let p := (s.chan n).pr
  match p.resumeAt with
  | none => .next s
  | some t =>
    if !p.resumePend then .next s
    else
      let s := s.runTo (t - s.off).toNat
      .next (s.modPr n fun p => { p with held := false, resumePend := false, resumeAt := none, forced := false })

/-- SYS_BRK_STATUS. -/
def State.brkStatus (s : State) : W32 :=
  let m (f : Brake → Bool) : Nat := idxMask ((List.range 8).filter fun b => f ((s.brkAt b).upTo s.now))
  w32 (put 24 8 (m fun k => k.en && k.quietOk) + put 16 8 (m fun k => k.en && k.tripped) + put 8 8 (m fun k => k.en && k.active)
    + m Brake.raw)

/-- CH_BRK_STATUS. -/
def State.chBrkStatus (s : State) (n : Nat) : W32 :=
  let p := (s.chan n).pr
  w32 (put 8 8 (s.holdBy n) + put 1 1 (b2n p.resumePend) + b2n p.held)

/-! SYN_BRAKE_CFG (Table 7-5). -/

/-- The settings of w2 and w3 are those of the brake already. -/
def Brake.same (b : Brake) (p : List W32) : Bool :=
  b.deb = bits (pw p 2) 11 0 && b.activeLow == bit (pw p 2) 12 && b.en == bit (pw p 2) 13 && b.quietUs = (pw p 3).toNat

/-- FIRST and LAST of SYN_BRAKE_CFG stand in w4. -/
def guardRange (p : List W32) : List W32 := p.drop 3

/-- Refusals of SYN_BRAKE_CFG. -/
def brakeCfgCheck (s : State) (p : List W32) : Nat :=
  let w := pw p 1
  let inp := bit w 8
  let grd := bit w 9
  let g := guardRange p
  let deb := bits (pw p 2) 11 0
  let quiet := (pw p 3).toNat
  let keep := bits (pw p 5) 7 0
  firstCode [
    (!(inp || grd) || reserved w 0x3FF || reserved (pw p 2) 0x3FFF || reserved (pw p 4) 0x7F7F || reserved (pw p 5) 0xFF
      || (inp && (deb < 5 || 2500 < deb || quiet = 0 || 10000000 < quiet)) || (grd && badRange g), rcRange),
    ((inp && (maskIdx 8 (bits w 7 0)).any fun b => (s.brkAt b).tripped && !(s.brkAt b).same p)
      || (grd && (rangeChans g).any fun n =>
          (s.chan n).pr.held && decide ((s.chan n).pr.guard &&& s.trippedMask &&& (255 - keep) ≠ 0)), rcState),
    (grd && s.deferred.any fun d => d.op == 0x0502 && rangesMeet (guardRange d.words) g, rcBusy)]

/-- Input settings of a brake: a change restarts the debouncer (R210). -/
def Brake.setInput (b : Brake) (p : List W32) (now : Nat) : Brake :=
  let b := b.upTo now
  let restart : Bool := b.deb ≠ bits (pw p 2) 11 0 || b.activeLow != bit (pw p 2) 12 || b.en != bit (pw p 2) 13
  let flip : Bool := b.activeLow != bit (pw p 2) 12
  let b := { b with deb := bits (pw p 2) 11 0, activeLow := bit (pw p 2) 12, en := bit (pw p 2) 13, quietUs := (pw p 3).toNat }
  let b := if restart then { b with active := false, rawAt := sampleFrom now } else b
  let b := if flip then { b with quietFrom := sampleFrom now } else b
  { b with quietOk := !b.raw && decide (b.quietFrom + b.quietTq ≤ now) }

/-- A channel that a tripped brake guards is held: one that was not, and one that waited for S (R215). -/
def State.holdAgain (s : State) (n : Nat) : State :=
  if s.holdBy n ≠ 0 ∧ (!(s.chan n).pr.held ∨ (s.chan n).pr.resumePend) then s.hold n else s

/-- The masks of SYN_BRAKE_CFG apply at their boundary; a tripped brake that is added holds the channel (R215). -/
def applyBrakeGuard (s : State) (p : List W32) : State :=
  let s := s.each (rangeChans (guardRange p)) fun s n => s.modPr n fun c => { c with guard := bits (pw p 5) 7 0 }
  s.each (List.range 128) State.holdAgain

/-- SYN_BRAKE_CFG: inputs on the CCLK edge on which it executes, masks at boundary B. -/
def cmdSynBrakeCfg (s : State) (p : List W32) : Res :=
  let c := brakeCfgCheck s p
  if c ≠ 0 then fail s c
  else
    let s := s.runTo s.edge
    let s := if bit (pw p 1) 8 then
        s.each (maskIdx 8 (bits (pw p 1) 7 0)) fun s b =>
          if (s.brkAt b).same p then s else s.modBrk b (Brake.setInput · p s.now)
      else s
    if bit (pw p 1) 9 then
      let b := s.boundaryB
      okay (s.defer s.whenB 0x0502 p) (s.brkStatus :: extWords b)
    else okay s [s.brkStatus, 0, 0, 0]

/-! SYN_BRAKE_CLEAR (R214). -/

/-- The input counts as debounced active on an edge, a trip on it included. -/
def Brake.activeAt (b : Brake) (now : Nat) : Bool := b.active || (b.en && b.raw && decide (b.debAt ≤ now))

/-- The quiet time has not been met. -/
def Brake.notQuiet (b : Brake) (now : Nat) : Bool := b.raw || decide (now < b.quietFrom + b.quietTq)

/-- SYN_BRAKE_CLEAR: every named brake is cleared, or none. -/
def cmdSynBrakeClear (s : State) (p : List W32) : Res :=
  let named := bits (pw p 1) 7 0
  if named = 0 || reserved (pw p 1) 0xFF then fail s rcRange
  else
    let s' := s.runTo s.edge
    let l := (maskIdx 8 named).filter fun b => (s'.brkAt b).tripped
    let k (b : Nat) : Brake := (s'.brkAt b).upTo s'.now
    let act := l.filter fun b => (k b).activeAt s'.now
    let loud := l.filter fun b => !(k b).activeAt s'.now && (k b).notQuiet s'.now
    let t := dtcWords (s'.dtcAt s'.now)
    if act ≠ [] ∨ loud ≠ [] then .done s' rcState (w32 (put 8 8 (idxMask act) + put 16 8 (idxMask loud)) :: t)
    else
      let s' := s'.each l fun s b => s.modBrk b fun k => { k with tripped := false }
      let s' := s'.each (List.range 128) fun s n =>
        if (s.chan n).pr.held ∧ s.holdBy n = 0 ∧ !(s.chan n).pr.resumePend then
          s.modPr n fun c => { c with resumePend := true, clearAt := s.ext, resumeAt := none, forced := false }
        else s
      okay s' (w32 (idxMask l) :: t)

/-! SYN_PAIR (R208). -/

/-- The even channels of the pairs named. -/
def pairsNamed (p : List W32) : List Nat := (rangeChans p).filter fun n => decide (n % 2 = 0)

/-- An output of the pair is enabled. -/
def State.pairEnabled (s : State) (a : Nat) : Bool := (s.chan a).out.en || (s.chan (a + 1)).out.en

/-- The pair's mode or polarities differ from those of the payload. -/
def ChPair.differs (c : ChPair) (p : List W32) : Bool :=
  c.complementary != bit (pw p 2) 0 || c.polA != bit (pw p 2) 1 || c.polB != bit (pw p 2) 2

/-- Refusals of SYN_PAIR. -/
def pairCheck (s : State) (p : List W32) : Nat :=
  firstCode [
    (rangeFirst p % 2 = 1 || rangeLast p % 2 = 0 || badRange p || reserved (pw p 1) 0x7F7F || reserved (pw p 2) 0xF
      || reserved (pw p 3) 0xFFFFFF || reserved (pw p 4) 0xFFFFFF, rcRange),
    ((pairsNamed p).any fun a =>
      (s.pairEnabled a && (s.chan a).pr.differs p)
        || (bit (pw p 2) 0 && !(s.chan a).pr.complementary && !((s.chan a).out.configured && (s.chan (a + 1)).out.configured)), rcState),
    (s.rangeBusy [0x0501] p, rcBusy)]

/-- CH_PR_CFG. -/
def ChPair.cfgWord (c : ChPair) : W32 := w32 (put 2 1 (b2n c.polB) + put 1 1 (b2n c.polA) + b2n c.complementary)

/-- The outputs of a pair take the levels of X's present state, or of their own sources, after a change of mode or polarity.
X is in the state that the edges which have entered and are not computed will leave. -/
def State.pairLevels (s : State) (a : Nat) : State :=
  if s.paired a then
    let c := s.chan a
    let x := if c.out.srcPu then (match c.out.entered.head? with | some e => !e.level | none => c.pu.asserted)
      else c.out.qLevel.getD c.out.initLevel
    let s := s.modPr a fun r => { r with xOn := x }
    s.each [a, a + 1] fun s o =>
      let on : Bool := (o == a) == x
      let v := s.pairLevel o on
      s.modOut o fun u => { u with onReq := none, lastOff := none, pairOn := on, tracked := v, driven := v, computed := [] }
  else
    s.each [a, a + 1] fun s o =>
      let v := match (s.chan o).out.entered.head? with | some e => !e.level | none => s.srcLevel o
      s.modOut o fun u => { u with onReq := none, lastOff := none, pairOn := false, tracked := v, driven := v, computed := [] }

/-- Edges of a channel that has entered or left a pair: an edge of X is on or off, one of a channel alone has a level. -/
def State.convertEdges (s : State) (n : Nat) : State :=
  let pol := (s.chan n).pu.pol
  s.modOut n fun o => { o with entered := o.entered.map fun e => { e with level := e.level != pol } }

/-- Dead times and SHORTPOL of a disabled pair reach its edges at once (R208). -/
def State.retime (s : State) (a : Nat) : State :=
  let dt (l : Bool) : Nat := s.deadTime (a + b2n (!l))
  let sp (l : Bool) : Bool := (s.chan (a + b2n (!l))).out.shortPol
  s.modOut a fun o =>
    { o with entered := o.entered.map fun e => { e with dt := dt e.level, sp := sp e.level }
             queue := o.queue.map fun d => { d with dt := dt d.level, sp := sp d.level } }

/-- SYN_PAIR reaches one pair. -/
def State.setPair (s : State) (a : Nat) (p : List W32) : State :=
  let old := (s.chan a).pr
  let s := s.modPr a fun c =>
    { c with complementary := bit (pw p 2) 0, polA := bit (pw p 2) 1, polB := bit (pw p 2) 2, dtA := bits (pw p 3) 23 0,
             dtB := bits (pw p 4) 23 0 }
  let s := s.each [a, a + 1] fun s n => s.modOut n fun o => { o with shortPol := bit (pw p 2) 3 }
  let s := if s.pairEnabled a then s else s.retime a
  if !old.differs p then s
  else
    let s := if old.complementary = bit (pw p 2) 0 then s else s.convertEdges a
    let s := if !old.complementary ∧ bit (pw p 2) 0 then
        (s.modPu (a + 1) fun x => if x.run then x.halt else x).modOut (a + 1) fun o => { o with entered := [] }
      else if old.complementary ∧ !bit (pw p 2) 0 then s.modOut (a + 1) (ChOut.reselect · s.ext)
      else s
    (s.pairLevels a).each [a, a + 1] State.holdAgain

/-- SYN_PAIR takes effect. -/
def applySynPair (s : State) (p : List W32) : State := s.each (pairsNamed p) fun s a => s.setPair a p

/-- SYN_PAIR: at once for the named pairs that are disabled, at boundary B for the others (R208). -/
def cmdSynPair (s : State) (p : List W32) : Res :=
  let c := pairCheck s p
  let a := rangeFirst p
  if c ≠ 0 then fail s c
  else
    let t := s.each ((pairsNamed p).filter fun a => !s.pairEnabled a) fun s a => s.setPair a p
    if (pairsNamed p).any s.pairEnabled then okay (t.defer s.whenB 0x0501 p) ((t.chan a).pr.cfgWord :: extWords s.boundaryB)
    else okay t [(t.chan a).pr.cfgWord, 0, 0, 0]

end Sys2Proof.Machine
end

