-- ==== Sys2Proof/Machine/Ring.lean ====
section
/-! DEFINITION. Capture rings: what a stream writes, drops, marks and resumes (R347 to R356). -/
namespace Sys2Proof.Machine

/-! The ring (R349). -/

/-- Ring size in words, and the fill F. -/
def Dma.rs (d : Dma) : Nat := (d.nbM1 + 1) * d.len
def Dma.fill (d : Dma) : Nat := (d.w - d.r).toNat

/-- Word address of stream word i. -/
def Dma.place (d : Dma) (i : W64) : Nat :=
  let p := i.toNat % d.rs
  (d.bank + p % (d.nbM1 + 1)) * bankWords + d.off + p / (d.nbM1 + 1)

/-- The count of one channel in a list of counts in ascending channel order. -/
def addCount (ch n : Nat) : List (Nat × Nat) → List (Nat × Nat)
  | [] => [(ch, n)]
  | (c, m) :: l => if ch < c then (ch, n) :: (c, m) :: l else if ch = c then (c, m + n) :: l else (c, m) :: addCount ch n l

/-- The latest value of one channel in such a list. -/
def setCount (ch n : Nat) : List (Nat × Nat) → List (Nat × Nat)
  | [] => [(ch, n)]
  | (c, m) :: l => if ch < c then (ch, n) :: (c, m) :: l else if ch = c then (ch, n) :: l else (c, m) :: setCount ch n l

/-- Channel and number of tags that a word stands for (R353), from its 64 bits. -/
def lostOf (v : W64) : Option (Nat × Nat) :=
  if !bit64 v 63 then some (bits64 v 62 56, 1)
  else if bits64 v 62 60 = 1 then some (bits64 v 59 53, bits64 v 31 0)
  else none

/-- A word dropped: the stream's counts (R353). -/
def Dma.dropWord (d : Dma) (v : W64) : Dma :=
  let d := { d with drop := d.drop + 1 }
  match lostOf v with
  | some (c, n) => { d with drops := addCount c n d.drops }
  | none => d

/-- A word written to the ring, or dropped where the ring is full; a word that leaves F at HWM or above arms the gate
(R352). -/
def State.ringPut (s : State) (k : Nat) (v : W64) : State :=
  let d := s.dmaAt k
  if d.rs ≤ d.fill then
    s.modDma k fun d => { d.dropWord v with stopLoss := d.stopLoss || d.stopPolicy, dropping := d.dropping || !d.stopPolicy }
  else
    ((s.writeWord (d.place d.w) v).pcAdd (36 + d.cluster) 1).modDma k fun d =>
      { d with w := d.w + 1, heldFrom := if d.w = d.begunTo then s.now else d.heldFrom,
               stopArmed := d.stopArmed || (d.stopPolicy && d.gateAt.isNone && decide (d.hwm ≤ d.fill + 1)) }

/-- Words written in order. -/
def State.ringPutAll (s : State) (k : Nat) (l : List W64) : State := l.foldl (fun s v => s.ringPut k v) s

/-! Words of a local stream. -/

/-- The stream carries a word of its cluster's merge: a record that concerns no channel, or one of a subscribed channel. -/
def Dma.carries (d : Dma) (w : Word) : Bool :=
  match w.channel with
  | none => true
  | some n => d.mask.testBit n

/-- A boundary's own records: TRACE, EPOCH, TICK and CAL_STEAL. -/
def Word.ofBoundary : Word → Bool
  | .trace .. => true
  | .epoch .. => true
  | .tick .. => true
  | .calSteal .. => true
  | _ => false

/-- A word that carries time bits [79:54] put into the ring: they count as carried once it is written (R44). -/
def State.ringPutHi (s : State) (k : Nat) (v : W64) (hi : Nat) : State :=
  let room : Bool := (s.dmaAt k).fill < (s.dmaAt k).rs
  (s.ringPut k v).modDma k fun d => if room then { d with hi := hi } else d

/-- A word put into the ring, after an EPOCH CHANGE record where its sort time carries new bits. The bits that a step changes
are carried by the EPOCH STEP record behind its TRACE record (R96). -/
def State.streamPut (s : State) (k : Nat) (w : PWord) : State :=
  let hi := w.dtc / 2 ^ 54 % 2 ^ 26
  match w.word with
  | .epoch _ e => s.ringPutHi k w.word.encode e
  | .trace 1 _ _ => s.ringPutHi k w.word.encode hi
  | _ => (if w.late ∨ hi = (s.dmaAt k).hi then s else s.ringPutHi k (Word.epoch 1 hi).encode hi).ringPut k w.word.encode

/-- LOSS records of the drop counts, in ascending channel order; the counts return to 0 (R354). -/
def State.putDrops (s : State) (k : Nat) (sort : Int) (dtc : Nat) : State :=
  let l := (s.dmaAt k).drops
  let s := s.modDma k fun d => { d with drops := [] }
  l.foldl (fun s c =>
    s.streamPut k { sort := sort, dtc := dtc, word := .loss c.1 2 (min (2 ^ 32 - 1) c.2), late := false }) s

/-- The TRACE records of a resumption that stand before its EPOCH record (R354). -/
def State.putRelease (s : State) (k : Nat) (w : PWord) : State :=
  let d := s.dmaAt k
  let rec_ (x : Word) : PWord := { w with word := x }
  let l := (if d.gateAt.isSome then [.trace 4 0 0] else []) ++ [.trace 5 0 d.relTrace] ++ d.confs.map fun c => .trace 6 c.1 c.2
  let s := l.foldl (fun s x => s.streamPut k (rec_ x)) s
  s.modDma k fun d => { d with confs := [], gateAt := none, relAt := none, gateMarked := false }

/-- A CONF record that is not written is remembered. -/
def Dma.noteConf (d : Dma) : Word → Dma
  | .trace 6 ch arg => { d with confs := setCount ch arg d.confs }
  | _ => d

/-- Words whose sort time lies in the interval that the stream does not record. -/
def Dma.gatedAt (d : Dma) (sort : Int) : Bool :=
  match d.gateAt, d.relAt with
  | some g, some r => decide (g ≤ sort ∧ sort < r)
  | some g, none => decide (g ≤ sort)
  | none, _ => false

/-- Words that the stream drops: it is dropping, or its resumption still lies ahead of them (R353, R354). -/
def Dma.dropsAt (d : Dma) (sort : Int) : Bool :=
  d.gateAt.isNone && (d.dropping || match d.relAt with | some r => decide (sort < r) | none => false)

/-- A word written or dropped as the stream stands. -/
def State.streamWord (s : State) (k : Nat) (w : PWord) : State :=
  if (s.dmaAt k).dropsAt w.sort then s.modDma k fun d => (d.dropWord w.word.encode).noteConf w.word
  else s.streamPut k w

/-- A word of a boundary at which the stream gates: STOP_GATE goes before its records (R352). -/
def State.gateWord (s : State) (k : Nat) (w : PWord) (g : Int) : State :=
  if w.sort = g ∧ w.word.ofBoundary then
    let s := if (s.dmaAt k).gateMarked then s
      else (s.modDma k fun d => { d with gateMarked := true }).streamPut k { w with word := .trace 3 0 0 }
    s.streamPut k w
  else s.modDma k fun d => d.noteConf w.word

/-- A word at or after the boundary of a resumption: the drop counts first, then the records in order. -/
def State.resumeWord (s : State) (k : Nat) (w : PWord) (r : Int) (rDtc : Nat) : State :=
  let s := s.putDrops k (r - 1) rDtc
  match w.word with
  | .epoch .. => (s.putRelease k w).streamPut k w
  | .trace 5 _ _ => s
  | .trace 6 _ _ => s.modDma k fun d => d.noteConf w.word
  | .trace .. => s.streamPut k w
  | _ => (s.putRelease k w).streamPut k w

/-- No record of the closing boundary is still on its way. -/
def State.closeDone (s : State) (k : Nat) (e : Int) : Bool :=
  let d := s.dmaAt k
  !(s.clus d.cluster).pool.any fun w => w.sort == e && w.word.ofBoundary && d.carries w.word

/-- A word at or after the closing boundary: the pending drop counts, then the records of that boundary, then no more
(R356). -/
def State.closeWord (s : State) (k : Nat) (w : PWord) (e : Int) (eDtc : Nat) : State :=
  let s := s.modDma k fun d => { d with gateAt := none, relAt := none, dropping := false }
  let s := s.putDrops k (e - 1) eDtc
  let own : Bool := w.sort == e && w.word.ofBoundary
  let s := if own then s.streamPut k w else s
  if own ∧ !s.closeDone k e then s else s.modDma k fun d => { d with writing := false }

/-- RING_WRITE: a released word of the home cluster reaches a local stream. -/
def State.ringWord (s : State) (k : Nat) (w : PWord) : State :=
  let d := s.dmaAt k
  match d.startAt with
  | none => s
  | some b =>
    if !d.writing ∨ !d.carries w.word ∨ w.sort < b then s
    else
      let before (e : Int) : Nat := unsigned 80 ((w.dtc : Int) - (w.sort - (e - 1)))
      let closing : Bool := match d.closeAt with | some e => decide (e ≤ w.sort) | none => false
      if w.late ∧ w.word.isTag then
        if closing ∨ d.gatedAt w.sort then s
        else if d.dropsAt w.sort then s.modDma k fun d => d.dropWord w.word.encode
        else
          let n := (s.dmaAt k).w
          let s := s.streamPut k w
          if (s.dmaAt k).w = n then s else s.modDma k fun d => { d with late := d.late + 1 }
      else
        match d.closeAt with
        | some e => if e ≤ w.sort then s.closeWord k w e (before e) else
          if d.gatedAt w.sort then s.gateWord k w (d.gateAt.getD 0) else s.streamWord k w
        | none =>
          match d.relAt with
          | some r =>
            if r ≤ w.sort then s.resumeWord k w r (before r)
            else if d.gatedAt w.sort then s.gateWord k w (d.gateAt.getD 0) else s.streamWord k w
          | none =>
            if d.gatedAt w.sort then s.gateWord k w (d.gateAt.getD 0)
            else match w.word with
              | .epoch _ hi => if w.sort = b then s.streamWord k { w with word := .epoch 0 hi } else s.streamWord k w
              | _ => s.streamWord k w

/-- A released word reaches every local stream of its cluster, in the order of their numbers. -/
def State.ringsWord (s : State) (c : Nat) (w : PWord) : State :=
  s.each ((List.range 16).filter fun k =>
    let d := s.dmaAt k
    d.kind = 0 && d.state ≠ .idle && d.cluster = c && !d.remote) fun s k => s.ringWord k w

/-! Remote streams (R347): words as received, in the order of arrival. -/

/-- The stream that is open for a source device. -/
def State.remoteOf (s : State) (dev : Nat) : Option Nat :=
  (List.range 16).find? fun k =>
    let d := s.dmaAt k
    d.kind = 0 && d.state ≠ .idle && d.remote && d.rdev = dev && d.startAt.isSome && d.writing

/-- A forwarded word delivered. -/
def State.remoteWord (s : State) (dev : Nat) (v : W64) : State :=
  match s.remoteOf dev with
  | none => { s with noStream := s.noStream + 1 }
  | some k =>
    let d := s.dmaAt k
    let s := s.takeLane d.cluster
    if d.gateAt.isSome then s
    else if d.dropping then s.modDma k fun d => d.dropWord v
    else s.ringPut k v

/-! A stream at a tick boundary (R352 to R354). -/

/-- LOSS records of a remote stream's drop counts. -/
def State.remoteDrops (s : State) (k : Nat) : State :=
  let l := (s.dmaAt k).drops
  (s.modDma k fun d => { d with drops := [] }).ringPutAll k (l.map fun c => (Word.loss c.1 2 (min (2 ^ 32 - 1) c.2)).encode)

/-- The gate of a stream comes into force. -/
def State.gateStream (s : State) (k : Nat) (at_ : Int) : State :=
  let s := s.modDma k fun d => { d with gated := true, gates := d.gates + 1, gateAt := some at_, gateMarked := false }
  if (s.dmaAt k).remote then
    let s := s.modDma k fun d => { d with gateAt := none }
    (s.ringPut k (Word.trace 3 0 0).encode).modDma k fun d => { d with gateAt := some at_ }
  else s

/-- A gated or dropping stream resumes. -/
def State.releaseStream (s : State) (k : Nat) (at_ : Int) : State :=
  let gate : Bool := (s.dmaAt k).gateAt.isSome
  let s := s.modDma k fun d =>
    { d with gated := false, stopArmed := false, dropping := false, relAt := some at_, relTrace := s.st.trace }
  if (s.dmaAt k).remote then
    let s := s.modDma k fun d => { d with gateAt := none, relAt := none }
    let l := (if gate then [Word.trace 4 0 0] else []) ++ [Word.trace 5 0 s.st.trace]
    (s.remoteDrops k).ringPutAll k (l.map Word.encode)
  else s

/-- The boundary as each stream sees it: release at or below LWM, or the gate that the ring has armed. -/
def State.streamTick (s : State) (at_ : Int) : State :=
  s.each (List.range 16) fun s k =>
    let d := s.dmaAt k
    if d.kind ≠ 0 ∨ d.state = .idle ∨ !d.writing then s
    else if d.gated ∨ d.dropping then
      if d.fill ≤ d.lwm then s.releaseStream k at_ else s
    else if d.stopArmed then s.gateStream k at_
    else s

end Sys2Proof.Machine
end

