-- ==== Sys2Proof/Machine/Dma.lean ====
section
/-! DEFINITION. DMA channels: descriptors, transfers, direct copies, flush, and STREAM_OPEN and STREAM_CLOSE (R351, R356 to R363, R368). -/
namespace Sys2Proof.Machine

/-! Registers and descriptor fields. -/

/-- DMA_STATUS.STATE. -/
def DmaState.code : DmaState → Nat
  | .idle => 0
  | .wait => 1
  | .run => 2
  | .halted => 3
  | .closing => 4

/-- DMA_STATUS (Table 13-10). -/
def Dma.statusWord (d : Dma) : W32 :=
  w32 (put 16 16 d.head + put 12 4 d.cause + put 11 1 (b2n d.badSeen) + put 10 1 (b2n d.stopLoss) + put 9 1 (b2n d.dropping)
    + put 8 1 (b2n d.gated) + put 7 1 (b2n d.stopArmed) + d.state.code)

/-- DMA_CFG. -/
def Dma.cfgWord (d : Dma) : W32 :=
  w32 (put 16 8 d.flushT + put 12 4 d.rdev + put 11 1 (b2n d.remote) + put 10 1 (b2n d.stopPolicy) + put 8 2 d.cluster + put 0 2 d.kind)

/-- Entries of the descriptor ring (R357). -/
def Dma.ringLen (d : Dma) : Nat := 2 ^ d.sizeL

/-- No descriptor is outstanding. -/
def Dma.noDesc (d : Dma) : Bool := d.head % d.ringLen = d.tail % d.ringLen

/-- Host address of the descriptor at HEAD. -/
def Dma.descAddr (d : Dma) : Nat := d.baseHi.toNat * 2 ^ 32 + d.baseLo * 32 + 32 * (d.head % d.ringLen)

def DmaDesc.word (x : DmaDesc) (i : Nat) : W32 := vget x.words i
def DmaDesc.dirIn (x : DmaDesc) : Bool := bit (x.word 0) 30
def DmaDesc.more (x : DmaDesc) : Bool := bit (x.word 0) 29
def DmaDesc.bankAddr (x : DmaDesc) : Nat := bits (x.word 0) 22 0
def DmaDesc.len0 (x : DmaDesc) : Nat := bits (x.word 4) 23 0
def DmaDesc.len1 (x : DmaDesc) : Nat := bits (x.word 7) 23 0
def DmaDesc.total (x : DmaDesc) : Nat := x.len0 + x.len1
def DmaDesc.addr0 (x : DmaDesc) : Nat := (x.word 2).toNat + (x.word 3).toNat * 2 ^ 32
def DmaDesc.addr1 (x : DmaDesc) : Nat := (x.word 5).toNat + (x.word 6).toNat * 2 ^ 32

/-- Host address that the next byte goes to, and bytes left in its buffer. -/
def DmaDesc.here (x : DmaDesc) : Nat × Nat :=
  if x.moved < x.len0 then (x.addr0 + x.moved, x.len0 - x.moved) else (x.addr1 + (x.moved - x.len0), x.total - x.moved)

/-- The words that one request of at most n words may carry: within a buffer and a 4 KiB block of host memory. -/
def DmaDesc.room (x : DmaDesc) (n : Nat) : Nat :=
  let h := x.here
  min n (min (h.2 / 8) ((4096 - h.1 % 4096) / 8))

/-- Format errors of Table 13-6. -/
def DmaDesc.badFormat (x : DmaDesc) (kind : Nat) : Bool :=
  bits (x.word 0) 28 23 ≠ 0 || bits (x.word 4) 31 24 ≠ 0 || bits (x.word 7) 31 24 ≠ 0 || x.len0 = 0 || x.len0 % 8 ≠ 0
    || x.len1 % 8 ≠ 0 || x.addr0 % 8 ≠ 0 || x.addr1 % 8 ≠ 0 || (kind = 0 && (x.dirIn || x.more || x.bankAddr ≠ 0))

/-! States of a channel. -/

/-- WAIT or RUN as HEAD and TAIL stand; a channel that closes stays CLOSING. -/
def Dma.settle (d : Dma) : Dma :=
  if d.state = .closing ∨ d.state = .idle ∨ d.state = .halted then d
  else { d with state := if d.desc.isNone ∧ d.noDesc ∧ d.kind ≠ 2 then .wait else .run }

/-- Banks that hold part of an open ring show USE_RING (R327). -/
def State.refreshRings (s : State) : State :=
  s.each (List.range 64) fun s b =>
    let u := s.dma.toList.any fun d => d.kind = 0 && d.state ≠ .idle && decide (d.bank ≤ b ∧ b ≤ d.bank + d.nbM1)
    if (s.bankAt b).useRing = u then s else s.modBank b fun k => { k with useRing := u }

/-- A channel becomes IDLE. -/
def State.dmaIdle (s : State) (k : Nat) : State :=
  let s := s.modDma k fun d =>
    { d with state := .idle, desc := none, chain := 0, writing := false, startAt := none, gateAt := none, relAt := none,
             closeAt := none, gateMarked := false, drops := [], confs := [], gated := false, dropping := false, stopArmed := false }
  s.refreshRings

/-- A channel halts with a cause (R362). -/
def State.dmaHalt (s : State) (k cause : Nat) : State :=
  let s := s.modDma k fun d => { d with state := .halted, cause := cause }
  (s.report 9 1 k (s.dmaAt k).statusWord 0).raise 238

/-- The end of a close is reached: IDLE, with source 238 (R356, R368). -/
def State.closeCheck (s : State) (k : Nat) : State :=
  let d := s.dmaAt k
  if d.state ≠ .closing then s
  else
    let above : Bool := match d.kind with
      | 0 => !d.writing && d.w == d.r && (match d.desc with | some x => decide (x.moved = 0) | none => true)
      | 1 => d.desc.isNone
      | _ => decide (d.cnt = 0)
    if above then (s.dmaIdle k).raise 238 else s

/-- A descriptor completes: STATUS, then OWN = 0, then HEAD (R359, R360). -/
def State.dmaComplete (s : State) (k result cause : Nat) : State :=
  let d := s.dmaAt k
  match d.desc with
  | none => s
  | some x =>
    if !s.pcie.bme then s.dmaHalt k 4
    else
      let s := s.post (d.descAddr + 4) [w32 (put 29 3 result + put 26 3 cause + put 0 26 x.moved)]
      let s := (s.post d.descAddr [w32 (x.word 0).toNat &&& 0x7FFFFFFF]).pcAdd 51 1
      let s := s.modDma k fun d =>
        ({ d with head := (d.head + 1) % d.ringLen, desc := none, chain := if x.more then d.chain + 1 else 0,
                  badSeen := d.badSeen || result = 3, bad := if result = 3 then d.bad + 1 else d.bad } : Dma).settle
      let s := if result = 3 then s.raise 238 else s
      s.closeCheck k

/-- The current descriptor completes when its buffers are full, or PARTIAL where a flush or a drain has reached its end. -/
def State.dmaFinish (s : State) (k : Nat) : State :=
  let d := s.dmaAt k
  match d.desc with
  | none => s.closeCheck k
  | some x =>
    if x.moved = x.total then s.dmaComplete k 1 0
    else if d.kind = 0 ∧ 0 < x.moved ∧ (x.flushTo = some d.r ∨ (d.state = .closing ∧ !d.writing ∧ d.w = d.r)) then
      s.dmaComplete k 2 0
    else s.closeCheck k

/-! Fetch (R360, R361, R362). -/

/-- DMA_DESCRIPTOR_FETCH. -/
def execDmaDescriptorFetch (k : Fin 16) (f : Fetch) (s : State) : Host.Outcome State Fault Refusal :=
  let d := s.dmaAt k
  let live : Bool := d.state = .wait || d.state = .run || (d.state = .closing && d.kind = 0)
  if !live ∨ 2 ≤ d.kind ∨ d.desc.isSome ∨ d.noDesc then .next s
  else if !s.pcie.bme then .next (s.dmaHalt k 4)
  else
    let s := s.pcAdd 50 1
    match f with
    | .err => .next (s.dmaHalt k 1)
    | .ok l =>
      let x : DmaDesc := { words := Vector.ofFn fun i : Fin 8 => l.getD i.val 0, moved := 0, age := none, flushTo := none }
      if !bit (x.word 0) 31 then .next (s.dmaHalt k 2)
      else if d.kind = 1 ∧ d.hopmax ≤ d.chain then .next (s.dmaHalt k 3)
      else
        let s := s.modDma k fun d => ({ d with desc := some x } : Dma).settle
        if x.badFormat d.kind then .next (s.dmaComplete k 3 6) else .next s

/-! Transfers. -/

/-- The moved bytes and the first word's place in time of the current descriptor. -/
def DmaDesc.add (x : DmaDesc) (bytes : Nat) : DmaDesc :=
  { x with moved := x.moved + bytes, age := if bytes = 0 then x.age else some (x.age.getD 0) }

/-- 32-bit words of 64-bit words, low half first. -/
def halves (l : List W64) : List W32 := l.flatMap fun v => [w32 v.toNat, w32 (v.toNat / 2 ^ 32)]

/-- CCLK cycles that the oldest held word waits before fewer than 32 words are moved (R351). -/
def moveWaitTq : Nat := 256 * cclk

/-- A move under way goes on; a new one begins, and takes the words held then, at 32 words or once the oldest has waited
(R351). -/
def State.beginMove (s : State) (k : Nat) : State :=
  let d := s.dmaAt k
  if d.begunTo ≠ d.r ∨ d.fill = 0 then s
  else (if 32 ≤ d.fill then s else s.runTo (d.heldFrom + moveWaitTq)).modDma k fun d => { d with begunTo := d.w }

/-- Ring words moved to host memory (R351). -/
def State.moveRing (s : State) (k n : Nat) (e : List (Nat × Ecc)) (x : DmaDesc) : State :=
  let s := if x.room (min n 32) = 0 then s else s.beginMove k
  let d := s.dmaAt k
  let held := (d.begunTo - d.r).toNat
  let left := match x.flushTo with | some t => min held (t - d.r).toNat | none => held
  let m := min (x.room (min n 32)) left
  if m = 0 then s
  else if !s.pcie.bme then s.dmaHalt k 4
  else
    let addrs := (List.range m).map fun i => d.place (d.r + BitVec.ofNat 64 i)
    let r := s.readWords (4 + d.cluster) e addrs
    let s := r.1.modDma k fun d => { d with r := d.r + BitVec.ofNat 64 m }
    if r.2 then
      let s := ((s.post x.here.1 (halves (addrs.map (Mem.word s.mem)))).pcAdd 8 m).modDma k fun d =>
        { d with desc := some (x.add (8 * m)) }
      s.dmaFinish k
    else (s.modDma k fun d => { d with drop := d.drop + w32 m }).dmaComplete k 3 5

/-- Bank word addresses of the next m words of a BLOCK descriptor, under the wrap of R321. -/
def DmaDesc.bankWords (x : DmaDesc) (m : Nat) : List Nat := (List.range m).map fun i => (x.bankAddr + x.moved / 8 + i) % 2 ^ 23

/-- Bank words moved to host memory: one request (BLOCK, DIR 0). -/
def State.moveOut (s : State) (k n : Nat) (e : List (Nat × Ecc)) (x : DmaDesc) : State :=
  let l := x.bankWords (x.room (min n 32))
  if l.isEmpty then s
  else if !s.pcie.bme then s.dmaHalt k 4
  else
    match l.find? fun w => (s.bankAt (w / bankWords)).owner ≠ 2 with
    | some w => (s.deny (w / bankWords) 2 (w % bankWords) false).dmaComplete k 3 4
    | none =>
      let r := s.readWords 2 e l
      if r.2 then
        let s := (r.1.post x.here.1 (halves (l.map (Mem.word s.mem)))).modDma k fun d => { d with desc := some (x.add (8 * l.length)) }
        s.dmaFinish k
      else r.1.dmaComplete k 3 5

/-- Words written to banks in order, up to a refused one; true when none was. -/
def State.putWords (s : State) (k : Nat) : List (Nat × W64) → State × Bool
  | [] => (s, true)
  | (w, v) :: l =>
    if (s.bankAt (w / bankWords)).owner ≠ 2 then (s.deny (w / bankWords) 2 (w % bankWords) true, false)
    else
      let s := (s.writeWord w v).modDma k fun d => { d with desc := d.desc.map fun x => x.add 8 }
      s.putWords k l

/-- Host words moved to banks: one read request of at most 512 B (BLOCK, DIR 1). -/
def State.moveIn (s : State) (k n : Nat) (h : HostRd) (x : DmaDesc) : State :=
  let m := x.room (min n 64)
  if m = 0 then s
  else if !s.pcie.bme then s.dmaHalt k 4
  else
    let s := s.pcAdd 50 1
    match h with
    | .err c => s.dmaComplete k 3 (if c.val = 0 then 1 else c.val)
    | .data l =>
      let r := s.putWords k ((x.bankWords m).zip l)
      if r.2 then r.1.dmaFinish k else r.1.dmaComplete k 3 4

/-- A bank that the next words of a BLOCK descriptor touch still holds accesses back. -/
def State.blockHeld (s : State) (x : DmaDesc) (n : Nat) : Bool :=
  (x.bankWords (x.room n)).any fun w => s.holdsAccess (w / bankWords)

/-- DMA_MOVE: one request of up to n words. -/
def execDmaMove (k : Fin 16) (n : Nat) (e : List (Nat × Ecc)) (h : HostRd) (s : State) : Host.Outcome State Fault Refusal :=
  let d := s.dmaAt k
  match d.desc with
  | none => .next s
  | some x =>
    if d.state ≠ .run ∧ d.state ≠ .closing then .next s
    else if d.kind = 0 then .next (s.moveRing k n e x)
    else if s.blockHeld x (min n 64) then .next s
    else if x.dirIn then .next (s.moveIn k n h x)
    else .next (s.moveOut k n e x)

/-- DMA_STR_CMD.FLUSH (R351): a descriptor that holds no word, and finds none in the ring, is not completed. -/
def State.dmaFlush (s : State) (k : Nat) : State :=
  let d := s.dmaAt k
  match d.desc with
  | none => s
  | some x =>
    if d.kind ≠ 0 ∨ d.state = .halted ∨ (x.moved = 0 ∧ d.fill = 0) then s
    else (s.modDma k fun d => { d with desc := some { x with flushTo := some d.w } }).dmaFinish k

/-- FLUSH. -/
def execFlush (k : Fin 16) (s : State) : Host.Outcome State Fault Refusal := .next ((s.runTo s.edge).dmaFlush k)

/-- FLUSH_TIMEOUT: FLUSH_T boundaries since the first word. -/
def execFlushTimeout (k : Fin 16) (s : State) : Host.Outcome State Fault Refusal :=
  let d := s.dmaAt k
  match d.desc with
  | some { age := some a, .. } =>
    if d.kind = 0 ∧ (d.state = .run ∨ d.state = .closing) ∧ 0 < d.flushT ∧ d.flushT ≤ a then .next (s.dmaComplete k 2 0) else .next s
  | _ => .next s

/-- A boundary passes for the descriptors that hold words. -/
def State.dmaAge (s : State) : State :=
  { s with dma := s.dma.map fun d => { d with desc := d.desc.map fun x => { x with age := x.age.map (· + 1) } } }

/-- COPY_STEP: one word of a direct copy (R363). -/
def execCopyStep (k : Fin 16) (e : Ecc) (s : State) : Host.Outcome State Fault Refusal :=
  let d := s.dmaAt k
  let sb := d.src / bankWords
  let db := d.dst / bankWords
  if d.kind ≠ 2 ∨ (d.state ≠ .run ∧ d.state ≠ .closing) ∨ d.cnt = 0 then .next s
  else if (s.bankAt sb).owner ≠ 2 then .next ((s.deny sb 2 (d.src % bankWords) false).dmaHalt k 1)
  else if s.holdsAccess sb ∨ s.holdsAccess db then .next s
  else if (s.bankAt db).owner ≠ 2 then .next ((s.deny db 2 (d.dst % bankWords) true).dmaHalt k 1)
  else
    let r := (s.runTo s.edge).readWord d.src 2 e
    match r.2 with
    | none => .next (r.1.dmaHalt k 1)
    | some v =>
      let s := (r.1.writeWord d.dst v).modDma k fun d =>
        { d with src := (d.src + 1) % 2 ^ 23, dst := (d.dst + 1) % 2 ^ 23, cnt := d.cnt - 1 }
      if d.cnt ≠ 1 then .next s
      else if d.state = .closing then .next (s.closeCheck k)
      else .next (s.dmaIdle k)

/-! Ring registers (R357, R362). -/

/-- BAR0 offset of a register of a channel. -/
def dmaOffset (k r : Nat) : Nat := 0x60000 + 0x100 * k + r

/-- An opening (0x0900) or a close (0x0901) of the channel waits for its boundary. -/
def State.dmaBusyWith (s : State) (k op : Nat) : Bool :=
  s.deferred.any fun d => d.op = op && (pw d.words 1).toNat % 16 = k

/-- A write to a ring register at a time at which the host may not write it. -/
def State.ringRegReject (s : State) (k r : Nat) (v : W32) : State := s.report 1 3 (dmaOffset k r) v 0

/-- TAIL, at any time. -/
def State.tailWrite (s : State) (k : Nat) (v : W32) : State :=
  s.modDma k fun d => ({ d with tail := bits v 15 0 } : Dma).settle

/-- HEAD: it resumes a halted channel (R362). -/
def State.headWrite (s : State) (k : Nat) (v : W32) : State :=
  if (s.dmaAt k).state ≠ .halted then s.ringRegReject k 0x18 v
  else
    let closing := (s.dmaAt k).closeAt.isSome || s.dmaBusyWith k 0x0901
    let s := s.modDma k fun d =>
      ({ d with head := bits v 15 0, cause := 0, desc := none, chain := 0,
                state := if closing then .closing else .run } : Dma).settle
    s.closeCheck k

/-- DMA_RING_TAIL_WRITE. -/
def execDmaRingTailWrite (k : Fin 16) (v : W32) (s : State) : Host.Outcome State Fault Refusal := .next (s.tailWrite k v)

/-- DMA_RING_HEAD_WRITE. -/
def execDmaRingHeadWrite (k : Fin 16) (v : W32) (s : State) : Host.Outcome State Fault Refusal := .next (s.headWrite k v)

/-- BASE and SIZE, while the channel is IDLE. -/
def State.ringRegWrite (s : State) (k r : Nat) (v : W32) : State :=
  if (s.dmaAt k).state ≠ .idle then s.ringRegReject k r v
  else s.modDma k fun d =>
    match r with
    | 0x08 => { d with baseLo := bits v 31 5 }
    | 0x0C => { d with baseHi := v }
    | _ => { d with sizeL := bits v 4 0 }

/-- A host reset: every CAPTURE and BLOCK channel is IDLE at once, its ring registers reset (R364). -/
def State.dmaHostReset (s : State) : State :=
  let copies := (List.range 16).filter fun k => decide ((s.dmaAt k).kind = 2 ∧ (s.dmaAt k).state ≠ .idle)
  let s := s.each (List.range 16) fun s k => if copies.contains k then s else s.dmaIdle k
  let s := { s with deferred := s.deferred.filter fun d => d.op ≠ 0x0900 ∧ d.op ≠ 0x0901 }
  s.each (List.range 16) fun s k => s.modDma k fun d =>
    if copies.contains k then d else { d with baseLo := 0, baseHi := 0, sizeL := 0, tail := 0, head := 0 }

/-! STREAM_OPEN (Table 13-11). -/

def openCh (p : List W32) : Nat := bits (pw p 1) 3 0
def openKind (p : List W32) : Nat := bits (pw p 1) 5 4
def openCluster (p : List W32) : Nat := bits (pw p 1) 9 8
def openRemote (p : List W32) : Bool := bit (pw p 1) 11
def openBank (p : List W32) : Nat := bits (pw p 2) 5 0
def openNbM1 (p : List W32) : Nat := bits (pw p 2) 9 6
def openOff (p : List W32) : Nat := bits (pw p 2) 26 10
def openMask (p : List W32) : Nat :=
  (pw p 6).toNat + (pw p 7).toNat * 2 ^ 32 + (pw p 8).toNat * 2 ^ 64 + (pw p 9).toNat * 2 ^ 96

/-- RANGE of a CAPTURE stream. -/
def captureRange (p : List W32) : Bool :=
  let len := (pw p 3).toNat
  let rs := (openNbM1 p + 1) * len
  let hwm := (pw p 4).toNat
  let lwm := (pw p 5).toNat
  reserved (pw p 2) 0x07FFFFFF || reserved (pw p 3) 0x3FFFF || reserved (pw p 4) 0x3FFFFF || reserved (pw p 5) 0x3FFFFF
    || 63 < openBank p + openNbM1 p || len % 32 ≠ 0 || 131072 < openOff p + len || rs < 1024 || rs - 256 < lwm
    || (bit (pw p 1) 10 && (hwm ≤ lwm || rs - 256 < hwm)) || (openMask p = 0) != openRemote p

/-- A change of the channel waits for its boundary. -/
def State.dmaBusy (s : State) (k : Nat) : Bool := s.dmaBusyWith k 0x0900 || s.dmaBusyWith k 0x0901

/-- A region of words, under the wrap of R321, lies in banks that DMA owns. -/
def State.dmaOwns (s : State) (from_ cnt : Nat) : Bool :=
  (List.range 64).all fun b => (s.bankAt b).owner = 2 ||
    !((overlap (b * bankWords, bankWords) (from_, cnt)) || (overlap (b * bankWords + 2 ^ 23, bankWords) (from_, cnt)))

/-- RESOURCE of a CAPTURE stream. -/
def captureResource (s : State) (p : List W32) : Bool :=
  let c := openCluster p
  let regions := (rangeIdx (openBank p) (openBank p + openNbM1 p)).map fun b => (b * bankWords + openOff p, (pw p 3).toNat)
  let away := idxMask ((maskIdx 128 (openMask p)).filter fun n => decide (n / 32 ≠ c))
  (rangeIdx (openBank p) (openBank p + openNbM1 p)).any (fun b => (s.bankAt b).owner ≠ 4 + c)
    || regions.any (fun r => s.regionTaken 512 r) || decide (32 < count128 (s.importWant c ||| away))
    || (openRemote p && s.dma.toList.any fun d => d.kind = 0 && d.state ≠ .idle && d.remote && d.rdev = bits (pw p 1) 15 12)

/-- STREAM_OPEN's refusals. -/
def streamOpenCheck (s : State) (p : List W32) : Nat :=
  let d := s.dmaAt (openCh p)
  let kind := openKind p
  firstCode [
    (kind = 3 || reserved (pw p 1) 0x00FFFF3F || (kind ≠ 2 && (d.sizeL = 0 || 16 < d.sizeL)) || (kind = 0 && captureRange p)
      || (kind = 1 && ((pw p 4).toNat = 0 || 65536 < (pw p 4).toNat))
      || (kind = 2 && ((pw p 4).toNat = 0 || reserved (pw p 2) 0x7FFFFF || reserved (pw p 3) 0x7FFFFF || reserved (pw p 4) 0x7FFFFF)),
      rcRange),
    (d.state ≠ .idle, rcState),
    (s.dmaBusy (openCh p), rcBusy),
    ((kind = 0 && captureResource s p)
      || (kind = 2 && !(s.dmaOwns (pw p 2).toNat (pw p 4).toNat && s.dmaOwns (pw p 3).toNat (pw p 4).toNat)), rcResource)]

/-- A channel opened: the counters of the stream are cleared, HEAD is 0 and TAIL stays (R357, R367). -/
def Dma.open_ (d : Dma) (p : List W32) : Dma :=
  let capture : Bool := openKind p = 0
  let d := { d with
    kind := openKind p, cluster := openCluster p, stopPolicy := bit (pw p 1) 10, remote := openRemote p, rdev := bits (pw p 1) 15 12
    flushT := bits (pw p 1) 23 16, head := 0, cause := 0, stopLoss := false, dropping := false, gated := false, stopArmed := false
    w := 0, r := 0, begunTo := 0, drop := 0, late := 0, gates := 0, bad := 0, state := .run, desc := none, chain := 0, drops := [], confs := []
    writing := capture, startAt := none, gateAt := none, relAt := none, closeAt := none, gateMarked := false }
  match d.kind with
  | 0 => { d with bank := openBank p, nbM1 := openNbM1 p, off := openOff p, len := (pw p 3).toNat, hwm := (pw p 4).toNat,
                  lwm := (pw p 5).toNat, mask := openMask p }
  | 1 => { d with hopmax := (pw p 4).toNat }
  | _ => { d with src := (pw p 2).toNat, dst := (pw p 3).toNat, cnt := (pw p 4).toNat }

/-- STREAM_OPEN. -/
def cmdStreamOpen (s : State) (p : List W32) : Res :=
  let c := streamOpenCheck s p
  let k := openCh p
  if c ≠ 0 then fail s c
  else
    let s := s.modDma k fun d => (d.open_ p).settle
    if openKind p = 0 then
      let s := s.refreshRings
      let b := s.boundaryB
      okay (s.defer s.whenB 0x0900 [w32 k]) ((s.dmaAt k).statusWord :: extWords b)
    else okay s [(s.dmaAt k).statusWord, 0, 0, 0]

/-- A stream starts at its boundary. -/
def applyStreamStart (s : State) (p : List W32) : State :=
  s.modDma (bits (pw p 1) 3 0) fun d =>
    if d.state = .idle then d else { d with startAt := some s.now, hi := s.tb.dtc / 2 ^ 54 % 2 ^ 26 }

/-! STREAM_CLOSE. -/

/-- STREAM_CLOSE's refusals; a second close without DISCARD finds the first one still pending. -/
def streamCloseCheck (s : State) (p : List W32) : Nat :=
  let k := bits (pw p 1) 3 0
  let discard := bit (pw p 1) 8
  let d := s.dmaAt k
  firstCode [
    (reserved (pw p 1) 0x10F, rcRange),
    (d.state = .idle || (d.state = .halted && !discard), rcState),
    (s.dmaBusy k || (d.state = .closing && !discard), rcBusy)]

/-- STREAM_CLOSE. -/
def cmdStreamClose (s : State) (p : List W32) : Res :=
  let c := streamCloseCheck s p
  let k := bits (pw p 1) 3 0
  if c ≠ 0 then fail s c
  else if bit (pw p 1) 8 then
    let s := s.dmaIdle k
    okay s [(s.dmaAt k).statusWord, 0, 0, 0]
  else
    let s := s.modDma k fun d => { d with state := .closing }
    if (s.dmaAt k).kind = 0 then
      let b := s.boundaryB
      okay (s.defer s.whenB 0x0901 [w32 k]) ((s.dmaAt k).statusWord :: extWords b)
    else
      let s := (s.modDma k fun d => { d with closeAt := some s.now }).closeCheck k
      okay s [(s.dmaAt k).statusWord, 0, 0, 0]

/-- A stream closes at its boundary; a remote one writes its drop counts and no more. -/
def applyStreamClose (s : State) (p : List W32) : State :=
  let k := bits (pw p 1) 3 0
  let d := s.dmaAt k
  if d.state = .idle then s
  else if d.remote then
    ((s.remoteDrops k).modDma k fun d => { d with closeAt := some s.now, writing := false }).dmaFinish k
  else s.modDma k fun d => { d with closeAt := some s.now }

end Sys2Proof.Machine
end

