-- ==== Sys2Proof/Machine/Envir.lean ====
section
/-! DEFINITION. The environment: cable terms, TDR commands, monitors and the thermal trip (chapter 11). -/
namespace Sys2Proof.Machine

/-! Registers (Table 11-6). -/

/-- ENV_TDR_STATUS. -/
def State.tdrStatus (s : State) : W32 :=
  w32 (put 16 16 s.env.runs.toNat + put 8 7 s.env.cur + idxMask ((List.range 4).filter fun c => s.tdrBusy c))

/-- ENV_MON_VAL. -/
def Monitor.valWord (m : Monitor) : W32 :=
  w32 (put 24 8 m.fcnt + put 17 1 (b2n m.invalid) + put 16 1 (b2n m.fault) + unsigned 16 m.value)

/-- ENV_MON_WIN. -/
def Monitor.winWord (m : Monitor) : W32 := w32 (put 16 16 (unsigned 16 m.high) + unsigned 16 m.low)

/-- FAULT of every monitor; bit m for monitor m. -/
def State.monFaults (s : State) : Nat := idxMask ((List.range 52).filter fun m => (vget s.env.mon m).fault)

/-- ENV_THERM. -/
def State.thermWord (s : State) : W32 := w32 (put 1 5 s.env.sensor + b2n s.env.trip)

def CableSrc.code : CableSrc → Nat
  | .none => 0
  | .tdr => 1
  | .manual => 2

/-! Cable terms (R304, R311). -/

def tdrOp (p : List W32) : Nat := bits (pw p 1) 17 16

/-- A term change of channel n awaits its boundary. -/
def State.cablePending (s : State) (n : Nat) : Bool :=
  s.hasDeferred 0x0803 fun p =>
    decide (rangeFirst p ≤ n ∧ n ≤ rangeLast p) && (tdrOp p ≠ 1 || (s.chan n).cable.usable)

/-- ENV_CBL_TERM, ENV_CBL_RT, ENV_CBL_CLASS and ENV_CBL_Z. -/
def State.cableWords (s : State) (n : Nat) : List W32 :=
  let x := (s.chan n).cable
  [w32 (put 31 1 (b2n (s.cablePending n)) + put 28 2 x.src.code + put 0 20 (s.chan n).cal.cable.toNat),
   w32 (put 28 4 x.outcome + put 0 25 x.rt), w32 (put 16 16 (unsigned 16 x.gamma) + put 8 8 x.u + x.cls), w32 (put 16 16 x.zl + put 0 16 x.z0)]

/-- The cable term that an operation gives a named channel, where it gives one, and its source. -/
def State.newTerm (s : State) (p : List W32) (n : Nat) : Option (Nat × CableSrc) :=
  match tdrOp p with
  | 1 => if (s.chan n).cable.usable then some ((s.chan n).cable.oneWay, .tdr) else none
  | 2 => some ((pw p 2).toNat, .manual)
  | 3 => some (0, .none)
  | _ => none

/-- The channel's Lout stays within R175 under a cable term. -/
def State.loutFits (s : State) (n : Nat) (t : Nat) : Bool :=
  let l := ({ (s.chan n).cal with cable := (t : Int) } : ChCal).lout
  decide (0 ≤ l ∧ l ≤ 1000000)

/-- A cable term in use. -/
def State.setTerm (s : State) (n : Nat) (t : Nat) (src : CableSrc) : State :=
  (s.modCal n fun k => { k with cable := (t : Int) }).modCable n fun x => { x with src := src }

/-- APPLY, SET and CLEAR at their boundary; seal_valid is evaluated again. -/
def State.applyTdr (s : State) (p : List W32) : State :=
  (s.each (rangeChans p) fun s n =>
    match s.newTerm p n with
    | some (t, src) => s.setTerm n t src
    | none => s).settle

/-- Refusals of ENV_TDR (Table 11-7). -/
def tdrCheck (s : State) (p : List W32) : Nat :=
  let op := tdrOp p
  let l := rangeChans p
  let c := rangeFirst p / 32
  firstCode [
    (badRange p || reserved (pw p 1) 0x77F7F || (op = 2 && decide (1000000 < (pw p 2).toNat))
      || (op = 0 && l.any fun n => decide (s.swing4096 n < 400000 * 4096))
      || (l.any fun n => match s.newTerm p n with | some (t, _) => !s.loutFits n t | none => false), rcRange),
    (op = 1 && !l.any fun n => (s.chan n).cable.usable, rcNotReady),
    (op = 0 && l.any fun n => !(s.chan n).out.configured || (s.chan n).enabled, rcState),
    (s.tdrBusy c || s.calRunBusy c || l.any fun n => s.cablePending n, rcBusy)]

/-- ENV_TDR. -/
def cmdEnvTdr (s : State) (p : List W32) : Res :=
  let k := tdrCheck s p
  if k ≠ 0 then fail s k
  else if tdrOp p = 0 then
    let first := rangeFirst p
    let s := s.tdrFrom (first / 32) { cur := first, last := rangeLast p, auto := bit (pw p 1) 18, unlocked := false, since := s.now } (rangeChans p)
    okay s [s.tdrStatus, 0, 0, 0, 0]
  else
    let mask := idxMask ((rangeChans p).filterMap fun n => if (s.newTerm p n).isSome then some (n % 32) else none)
    okay (s.defer s.whenB 0x0803 p) ((s.tdrStatus :: extWords s.boundaryB) ++ [w32 mask])

/-- TDR_CHANNEL_DONE: the measurement in progress on the channel ends with its last step; AUTO_APPLY puts a usable result off to its boundary. -/
def execTdrChannelDone (n : Fin 128) (r : TdrResult) (s : State) : Host.Outcome State Fault Refusal :=
  let c := n.val / 32
  match vget s.env.tdr c with
  | none => .next s
  | some run =>
    if run.cur ≠ n.val then .next s
    else
      let s := s.tdrEnds run
      let f := tdrFigures (tdrMeans r (s.level4096 n (s.chan n).out.vol)) (s.swing4096 n) run.unlocked
      let s := s.modCable n fun x => x.found f
      let s := { s with env := { s.env with runs := s.env.runs + 1 } }
      let x := (s.chan n).cable
      let s := if run.auto ∧ x.usable ∧ s.loutFits n x.oneWay then
          s.defer s.whenB 0x0803 [w32 (put 16 2 1 + put 8 7 n + n)] else s
      .next (s.tdrFrom c run run.rest)

/-! Monitors (R312 to R316). -/

def State.modMon (s : State) (k : Nat) (f : Monitor → Monitor) : State := { s with env := { s.env with mon := vmod s.env.mon k f } }

/-- A reading: the value and the runs of readings outside and inside the window. -/
def Monitor.take (m : Monitor) (v : Int) (invalid : Bool) : Monitor :=
  let m := { m with value := if invalid then m.value else clampInt (-32768) 32767 v, invalid := invalid }
  if invalid ∨ m.value < m.low ∨ m.high < m.value then { m with outRun := satInc 2 m.outRun, inRun := 0 }
  else { m with outRun := 0, inRun := satInc 8 m.inRun }

/-- A monitor's fault or clear: the log, the source and the notice (R314). -/
def State.monNotice (s : State) (k : Nat) (fault : Bool) : State :=
  let m := vget s.env.mon k
  let s := s.report 10 (if fault then 1 else 2) k m.valWord m.winWord
  let s := (s.raise (if k < 40 then 232 else 233)).notice 6 [w32 (put 8 1 (b2n fault) + k), m.valWord]
  if fault then s.wakeBy 7 else s

/-- MONITOR_READING. -/
def execMonitorReading (k : Fin 52) (v : Int) (invalid : Bool) (s : State) : Host.Outcome State Fault Refusal :=
  if s.pwr.startup = .held then .next s
  else
    let s := s.modMon k fun m => m.take v invalid
    let m := vget s.env.mon k.val
    let s := if 48 ≤ k.val ∧ !invalid then { s with env := { s.env with feLast := vset s.env.feLast (k - 48) m.value } } else s
    if !m.fault ∧ m.outRun = 2 then .next ((s.modMon k fun m => { m with fault := true, fcnt := satInc 255 m.fcnt }).monNotice k true)
    else if m.fault ∧ m.inRun = 8 then .next ((s.modMon k fun m => { m with fault := false }).monNotice k false)
    else .next s

/-- THERMAL_TRIP: every driver is high-impedance and every output is marked disabled (R315). -/
def execThermalTrip (k : Fin 12) (s : State) : Host.Outcome State Fault Refusal :=
  if s.pwr.startup = .held ∨ s.env.trip then .next s
  else
    let m := vget s.env.mon (40 + k.val)
    let s := { s with env := { s.env with trip := true, sensor := k.val } }
    let s := s.each (List.range 128) fun s n => s.modOut n fun o => { o with en := false }
    .next ((s.report 10 3 (40 + k) m.valWord m.winWord).wakeBy 7).settle

/-- A pin drives: its output is enabled or it launches the steps of a TDR measurement (R305), no brake holds it, no trip is in force
(R315). -/
def State.drives (s : State) (n : Nat) : Bool := ((s.chan n).out.en || s.underTdr n) && !(s.chan n).pr.held && !s.env.trip

/-- Refusals of ENV_MONITORS. -/
def monitorsCheck (s : State) (p : List W32) : Nat :=
  let w := pw p 1
  let m := bits w 5 0
  let lo := signed 16 (bits (pw p 2) 15 0)
  let hi := signed 16 (bits (pw p 2) 31 16)
  let d := Monitor.defaults m
  firstCode [
    (51 < m || reserved w 0x33F || (bit w 8 && decide (hi ≤ lo ∨ lo < d.1 ∨ d.2 < hi)), rcRange),
    (bit w 9 && (!s.env.trip || (rangeIdx 40 51).any fun k => (vget s.env.mon k).invalid || decide (1600 ≤ (vget s.env.mon k).value)), rcState)]

/-- ENV_MONITORS. -/
def cmdEnvMonitors (s : State) (p : List W32) : Res :=
  let w := pw p 1
  let m := bits w 5 0
  let c := monitorsCheck s p
  if c ≠ 0 then fail s c
  else
    let lo := signed 16 (bits (pw p 2) 15 0)
    let hi := signed 16 (bits (pw p 2) 31 16)
    let s := if bit w 8 then
        let s := s.modMon m fun x => { x with low := lo, high := hi, outRun := 0, inRun := 0 }
        if m = 2 then { s with env := { s.env with vddmRun := (lo, hi) } } else s
      else s
    let s := if bit w 9 then { s with env := { s.env with trip := false } }.lines else s
    let x := vget s.env.mon m
    okay s [x.valWord, x.winWord, w32 s.monFaults, w32 (s.monFaults / 2 ^ 32), s.thermWord]

/-- The VDDM window as the banks enter or leave retention (R316). -/
def State.vddmWindow (s : State) (retained : Bool) : State :=
  let w : Int × Int := if retained then (570, 630) else s.env.vddmRun
  s.modMon 2 fun m => { m with low := w.1, high := w.2, outRun := 0, inRun := 0 }

/-- The register at a BAR0 offset of the ENV block (R319). -/
def State.envReg (s : State) (o : Nat) : Option W32 :=
  if o = 0x28000 then some s.tdrStatus
  else if o = 0x28004 then some (w32 s.monFaults)
  else if o = 0x28008 then some (w32 (s.monFaults / 2 ^ 32))
  else if o = 0x2800C then some s.thermWord
  else if 0x28100 ≤ o ∧ o < 0x282A0 then
    let m := vget s.env.mon ((o - 0x28100) / 8)
    some (if o % 8 = 0 then m.valWord else m.winWord)
  else if 0x28800 ≤ o ∧ o < 0x29000 then (s.cableWords ((o - 0x28800) / 16))[(o % 16) / 4]?
  else none

end Sys2Proof.Machine
end

