-- ==== Sys2Proof/Machine/Irq.lean ====
section
/-! DEFINITION. The die interrupt controller, coalescing, the error-log writer, performance counters, and their registers (chapter 15). -/
namespace Sys2Proof.Machine

/-! Registers (Table 15-7). -/

def IcTarget.code : IcTarget → Nat
  | .mc => 0
  | .sec => 1
  | .me c => 2 + c.val

/-- IC_SRC_CFG, IC_SRC_COAL and IC_SRC_STAT. -/
def Source.cfg (x : Source) : W32 :=
  w32 (put 31 1 (b2n x.en) + put 30 1 (b2n x.edge) + put 29 1 (b2n x.fixed) + put 28 1 (b2n x.fast) + put 25 3 x.target.code
    + put 20 4 x.prio + put 0 13 x.addr)
def Source.coal (x : Source) : W32 := w32 (put 16 16 x.coalTime + put 0 8 x.coalCnt)
def Source.stat (x : Source) : W32 :=
  w32 (put 24 8 x.cnt + put 3 1 (b2n (decide (x.held ≠ 0))) + put 2 1 (b2n x.active) + put 1 1 (b2n x.pending) + b2n x.line)

/-- IC_DIC_MC and IC_DIC_SEC. -/
def dicWord (stack : List (Nat × Nat)) : W32 :=
  match stack with
  | [] => w32 (put 4 1 1)
  | (n, p) :: l => w32 (put 24 8 n + put 16 5 (l.length + 1) + put 0 4 p)

/-- IC_CICc. -/
def State.cicWord (s : State) (c : Fin 4) : W32 :=
  let n := (s.ic.src.toList.filter fun x => x.pending && !x.fast && x.target = .me c).length
  w32 (put 24 8 (vget s.ic.fastSrc c) + put 23 1 (b2n (vget s.ic.fastAct c)) + put 8 8 (min 255 n) + put 0 8 (vget s.ic.lastN c))

/-- IC_SPURIOUS_EOI. -/
def Ic.spurious (x : Ic) : W32 := w32 (put 24 8 x.spurLast + put 16 1 (b2n x.spurSec) + put 0 16 x.spurCnt)

/-- The eight words of an error-log entry (Table 15-4). -/
def LogEntry.words (e : LogEntry) : List W32 :=
  [w32 (put 28 4 e.report.cls + put 24 4 e.report.code + put 0 24 e.report.object), w32 e.seq, e.report.arg0, e.report.arg1]
    ++ dtcWords e.report.time ++ [0]

/-- PC_CFG. -/
def State.pcCfg (s : State) (n : Nat) : W32 :=
  w32 (put 2 1 (b2n (decide (n < 60))) + put 1 1 (b2n (chained n)) + b2n s.perf.en)

/-! The decision unit of a core (R394 to R396). -/

/-- tq of an SCLK cycle. -/
def sclk : Nat := 25600

def Ic.stack (x : Ic) (sec : Bool) : List (Nat × Nat) := if sec then x.stackSec else x.stackMc
def Ic.setStack (x : Ic) (sec : Bool) (l : List (Nat × Nat)) : Ic := if sec then { x with stackSec := l } else { x with stackMc := l }
def Ic.tail (x : Ic) (sec : Bool) : Option Nat := if sec then x.tailSec else x.tailMc
def Ic.setTail (x : Ic) (sec : Bool) (t : Option Nat) : Ic := if sec then { x with tailSec := t } else { x with tailMc := t }

/-- The core's target and its DIS bit. -/
def coreOf (sec : Bool) : IcTarget := if sec then .sec else .mc
def Ic.disabled (x : Ic) (sec : Bool) : Bool := x.dis.testBit (if sec then 1 else 0)

/-- A source pending for the core above its running level. -/
def Ic.candidate (x : Ic) (sec : Bool) (k : Nat) : Bool :=
  let y := vget x.src k
  y.pending && !y.active && y.en && decide (y.target = coreOf sec)
    && match x.stack sec with | [] => true | (_, p) :: _ => decide (p < y.prio)

def Ic.candidates (x : Ic) (sec : Bool) : List Nat := if x.disabled sec then [] else (List.range 256).filter fun k => x.candidate sec k

/-- SCLK cycle on which a source is pending at the DIC. -/
def Source.dicCycle (x : Source) : Nat := cdiv x.pendAt sclk + 1

/-- Of a list of sources, the one of highest PRIO, then of lowest number. -/
def Ic.best (x : Ic) (l : List Nat) : Option Nat :=
  l.foldl (fun a k => match a with
    | none => some k
    | some b => if (vget x.src b).prio < (vget x.src k).prio then some k else some b) none

/-- The selection was made in the cycle of an EOI: a source was pending by then. -/
def Ic.direct (x : Ic) (sec : Bool) (l : List Nat) : Bool :=
  match x.tail sec with
  | some e => l.any fun k => decide ((vget x.src k).dicCycle ≤ e)
  | none => false

/-- SCLK cycle of the next hand-over: two after the decision, which no cycle up to `from_` can make. -/
def Ic.handover (x : Ic) (sec : Bool) (l : List Nat) (from_ : Nat) : Nat :=
  if x.direct sec l then (x.tail sec).getD 0 + 2
  else max (from_ + 1) ((l.foldl (fun a k => let c := (vget x.src k).dicCycle
                                             match a with | none => some c | some b => some (min b c)) none).getD 0) + 2

/-- A source handed to its core: ACTIVE, its PRIO on the stack, the vector of R395. -/
def State.dicDeliver (s : State) (sec : Bool) (k : Nat) (direct : Bool) : State :=
  let x := s.ic
  let v := (if sec then x.vbaseSec else x.vbaseMc) + w32 (8 * k)
  let x := (x.setStack sec ((k, (vget x.src k).prio) :: x.stack sec)).setTail sec none
  let x := if sec then { x with vectorSec := v } else { x with vectorMc := v }
  let s := { s with ic := x }.modSrc k fun y => { y with active := true, pending := false }
  if sec then s else if direct then (s.pcAdd 44 1).pcAdd 45 1 else s.pcAdd 44 1

/-- DIC_DELIVERY: the selection that stands at the hand-over cycle is delivered. Delivery begins on the cycle after DIS is
cleared, at READY (R393). -/
def execDicDelivery (sec : Bool) (s : State) : Host.Outcome State Fault Refusal :=
  let l := s.ic.candidates sec
  if l.isEmpty then .next { s with ic := s.ic.setTail sec none }
  else
    let direct := s.ic.direct sec l
    let t := s.ic.handover sec l (cdiv s.st.readyAt sclk)
    let s := s.runTo (t * sclk)
    let cut := max t (cdiv s.now sclk)
    match s.ic.best (l.filter fun k => decide ((vget s.ic.src k).dicCycle < cut)) with
    | none => .next s
    | some k => .next (s.dicDeliver sec k direct)

/-- IC_EOI: the top of the stack completes; another number is spurious. -/
def execIcEoi (sec : Bool) (n : Fin 256) (s : State) : Host.Outcome State Fault Refusal :=
  match s.ic.stack sec with
  | (k, _) :: l =>
    if k = n.val ∧ (vget s.ic.src k).active then
      let s := { s with ic := s.ic.setStack sec l }.modSrc k (Source.complete s.now)
      .next (if (s.ic.candidates sec).isEmpty then s else { s with ic := s.ic.setTail sec (some (cdiv s.now sclk)) })
    else .next (spurious s)
  | [] => .next (spurious s)
where
  spurious (s : State) : State :=
    { s with ic := { s.ic with spurLast := n.val, spurSec := sec, spurCnt := satInc 65535 s.ic.spurCnt } }

/-- COAL_TIMEOUT: the time bound of held arrivals ends (R392). -/
def execCoalTimeout (k : Fin 256) (s : State) : Host.Outcome State Fault Refusal :=
  let x := s.srcAt k
  if x.held = 0 ∨ x.coalTime = 0 ∨ !x.en then .next s
  else
    let s := s.runTo (x.heldAt + x.coalTime * 16 * cclk)
    .next (s.modSrc k fun x => if x.edge || (x.line && !x.active) then { x with held := 0 }.pend s.now else { x with held := 0 })

/-! The error-log writer (R399, R400). -/

/-- The LOST entry that is due by a cycle is in the FIFO. -/
def State.lostDue (s : State) (cyc : Nat) : State :=
  let e := s.err
  let lc := if e.fifo.isEmpty then max e.freeFrom e.nextTake else e.lostCycle
  if 0 < e.merged ∧ (e.fifo.isEmpty ∨ lc ≤ cyc) then { s with err := e.acceptLost lc (s.dtcAt (lc * cclk)) } else s

/-- SEQ after a number: from 0xFFFF_FFFF to 1. -/
def errSeq (n : Nat) : Nat := if n = 2 ^ 32 - 1 then 1 else n + 1

/-- ERRLOG_WRITE: the writer takes the head of the FIFO and writes it four edges later. -/
def execErrlogWrite (s : State) : Host.Outcome State Fault Refusal :=
  let first := match s.err.fifo with | [] => 0 | r :: _ => max (r.acc + 1) s.err.nextTake
  let s := s.lostDue first
  match s.err.fifo with
  | [] => .next s
  | r :: l =>
    let take := max (r.acc + 1) s.err.nextTake
    let s := s.runTo ((take + 4) * cclk)
    let seq := errSeq s.err.wr
    .next ({ s with err := { s.err with fifo := l, nextTake := take + 4, wr := seq
                                        entries := vset s.err.entries (seq - 1) { report := r, seq := seq } } }.raise 240)

/-! Performance counters (R402, R403). -/

/-- The counters that a read of PC_SNAPn latches. -/
def latchedBy (n : Nat) : List Nat := if chained n then [n, n + 1] else if n ≠ 0 ∧ chained (n - 1) then [] else [n]

/-- A read of PC_SNAPn by the host or by the management core. -/
def State.snapRead (s : State) (n : Nat) (host : Bool) : State × W32 :=
  let p := (latchedBy n).foldl (fun (p : Perf) k =>
    if host then { p with snapHost := vset p.snapHost k (vget p.val k) } else { p with snapMc := vset p.snapMc k (vget p.val k) }) s.perf
  ({ s with perf := p }, vget (if host then p.snapHost else p.snapMc) n)

/-- PC_SNAP_READ. -/
def execPcSnapRead (n : Fin 64) (host : Bool) (s : State) : Host.Outcome State Fault Refusal :=
  let r := s.snapRead n host
  .next (if host then r.1.readReturns r.2 else r.1)

/-- COUNTER_WRAP: an unchained counter at its top counts once more; the upper one of a chain does by the carry of the lower. -/
def execCounterWrap (n : Fin 64) (s : State) : Host.Outcome State Fault Refusal :=
  let top (k : Nat) : Bool := vget s.perf.val k = 0xFFFFFFFF
  if !s.perf.en ∨ chained n ∨ !top n then .next s
  else if n.val ≠ 0 ∧ chained (n - 1) then .next (if top (n - 1) then s.pcAdd (n - 1) 1 else s)
  else .next (s.pcAdd n 1)

/-- The register at a BAR0 offset of the IC, ERR and PC blocks. -/
def State.icReg (s : State) (o : Nat) : Option W32 :=
  let x := s.ic
  if 0x30000 ≤ o ∧ o < 0x30400 then some (s.srcAt ((o - 0x30000) / 4)).cfg
  else if 0x30400 ≤ o ∧ o < 0x30800 then some (s.srcAt ((o - 0x30400) / 4)).coal
  else if 0x30800 ≤ o ∧ o < 0x30C00 then some (s.srcAt ((o - 0x30800) / 4)).stat
  else if 0x30C00 ≤ o ∧ o < 0x30C30 then
    ([w32 x.dis, x.spurious, dicWord x.stackMc, dicWord x.stackSec, 0, 0, x.vbaseMc, x.vbaseSec]
      ++ ([0, 1, 2, 3] : List (Fin 4)).map fun c => s.cicWord c)[(o - 0x30C00) / 4]?
  else if o = 0x31000 then some (w32 s.err.wr)
  else if 0x31010 ≤ o ∧ o < 0x31030 then
    let k := (o - 0x31010) / 4
    some (w32 (put 16 16 (vget s.err.ovf (2 * k + 1)) + put 0 16 (vget s.err.ovf (2 * k))))
  else if 0x32000 ≤ o ∧ o < 0x34000 then (vget s.err.entries ((o - 0x32000) / 32)).words[o % 32 / 4]?
  else if 0x40000 ≤ o ∧ o < 0x40100 then some (vget s.perf.val ((o - 0x40000) / 4))
  else if 0x40100 ≤ o ∧ o < 0x40200 then some (s.pcCfg ((o - 0x40100) / 4))
  else if 0x40200 ≤ o ∧ o < 0x40300 then some (vget s.perf.snapHost ((o - 0x40200) / 4))
  else if o = 0x40300 then some (w32 s.perf.ovf.toNat)
  else if o = 0x40304 then some (w32 (s.perf.ovf.toNat / 2 ^ 32))
  else none

end Sys2Proof.Machine
end

