-- ==== Sys2Proof/Machine/HostIf.lean ====
section
/-! DEFINITION. SYS_STATUS, the PCI Express link and the status mirror (R33, R340 to R346, R366, R368). -/
namespace Sys2Proof.Machine

/-- SYS_STATUS (Table 1-5). -/
def State.sysStatus (s : State) : W32 :=
  w32 (put 9 1 (b2n (decide (s.monFaults ≠ 0))) + put 8 1 (b2n s.st.baseline) + put 7 1 (b2n s.st.serviceDue) + put 3 4 s.condShown
    + put 1 2 s.st.trace + b2n (decide (s.pwr.startup = .ready)))

/-- The level of the READY pin: SYS_STATUS bit 0 (R33). -/
def State.readyPin (s : State) : Bool := bit s.sysStatus 0

/-- SYS_PCIE_STATUS. -/
def Pcie.word (p : Pcie) : W32 :=
  w32 (put 24 8 p.retrain + put 17 1 (b2n p.bme) + put 16 1 (b2n p.dlUp) + put 4 4 p.width + put 0 4 p.speed)

/-! The link (R340). -/

/-- BUS_MASTER_ENABLE. -/
def execBusMasterEnable (en : Bool) (s : State) : Host.Outcome State Fault Refusal :=
  .next { s with pcie := { s.pcie with bme := en } }

/-- PCIE_RETRAIN: width and rate as they are after it. -/
def execPcieRetrain (width speed : Nat) (s : State) : Host.Outcome State Fault Refusal :=
  if !s.pcie.dlUp then .next s
  else
    let s := { s with pcie := { s.pcie with retrain := satInc 255 s.pcie.retrain, width := width % 16, speed := speed % 16 } }
    .next (s.report 11 3 2 s.pcie.word 0)

/-- DATA_LINK_UP: link training completes; it begins 10 ms after power-on reset release (R438). -/
def execDataLinkUp (width speed : Nat) (s : State) : Host.Outcome State Fault Refusal :=
  if s.pcie.dlUp ∨ s.pwr.startup = .held then .next s
  else
    let s := s.runTo (s.pwr.porAt + 10 * msTq)
    .next ({ s with pcie := { s.pcie with dlUp := true, width := width % 16, speed := speed % 16 } }.raise 239)

/-! The mirror (R343 to R345). -/

/-- SYS_MIR_CTRL. -/
def Mirror.ctrl (m : Mirror) : W32 := w32 (put 16 16 m.n + b2n m.en)

/-- Word 25 + 2k: the ring fill of a CAPTURE stream. -/
def Dma.fillWord (d : Dma) : W32 := if d.kind = 0 ∧ d.state ≠ .idle then w32 (min d.fill (2 ^ 32 - 1)) else 0

/-- Words 1 to 62 of the mirror as they stand at the boundary that is now (Table 13-2). -/
def State.mirrorWords (s : State) : List W32 :=
  [s.sysStatus] ++ dtcWords s.tb.dtc ++ [w32 s.monFaults, w32 (put 31 1 (b2n s.env.trip) + put 0 20 (s.monFaults / 2 ^ 32)), s.pcie.word]
    ++ (List.range 8).map (fun m => (s.mbAt m).ack)
    ++ ((List.range 4).map fun q => [(s.qpAt q).h2dCons, (s.qpAt q).d2hProd]).flatten
    ++ ((List.range 16).map fun k => [(s.dmaAt k).statusWord, (s.dmaAt k).fillWord]).flatten
    ++ [w32 s.err.wr, s.brkStatus] ++ List.replicate 5 0

/-- The next sequence number: never 0 (R344). -/
def nextSeq (q : W32) : W32 := if q + 1 = 0 then 1 else q + 1

/-- The three posted writes of a snapshot, or a skip while Bus Master Enable is 0 (R344). -/
def State.mirrorWrite (s : State) : State :=
  match s.mir.snap with
  | none => s
  | some w =>
    let q := nextSeq s.mir.seq
    let a := s.mir.addrLo + s.mir.addrHi.toNat * 2 ^ 32
    let s := { s with mir := { s.mir with seq := q, snap := none } }
    if !s.pcie.bme then { s with mir := { s.mir with skip := s.mir.skip + 1 } }
    else (((s.post a [q]).post (a + 4) w).post (a + 252) [q]).pcAdd 52 1

/-- At a boundary: the snapshot of a mirror boundary, and the BAR4 copy with its own SEQ (R341, R343). A mirror write is
issued within 512 CCLK cycles of its boundary, so the last one has been by now. -/
def State.mirrorTick (s : State) : State :=
  let s := s.mirrorWrite
  let w := s.mirrorWords
  let m := s.mir
  let q := nextSeq m.copySeq
  let m := { m with copySeq := q, copy := [q] ++ w ++ [q] }
  let m := match m.en, m.left with
    | true, some 0 => { m with snap := some w, left := some (m.n - 1) }
    | true, some (k + 1) => { m with left := some k }
    | _, _ => m
  { s with mir := m }

/-- MIRROR_WRITE. -/
def execMirrorWrite (s : State) : Host.Outcome State Fault Refusal := .next s.mirrorWrite

/-- The mirror stops from the next boundary. -/
def State.mirrorStop (s : State) : State :=
  { s with mir := { s.mir with en := false, left := none }, deferred := s.deferred.filter fun d => decide (d.op ≠ 0x0104) }

/-- MIRROR_DISABLE: a host write of 0 to EN. -/
def execMirrorDisable (s : State) : Host.Outcome State Fault Refusal := .next s.mirrorStop

/-- SYS_SET_MIRROR: EN and N at once; the first mirror boundary is the next one 1 µs ahead. -/
def cmdSysSetMirror (s : State) (p : List W32) : Res :=
  let w := pw p 1
  let n := bits w 15 0
  let on := bit w 16
  if reserved w 0x1FFFF || (on && (n = 0 || (s.mir.addrLo = 0 && s.mir.addrHi = 0))) then fail s rcRange
  else
    let s := s.mirrorStop
    let s := { s with mir := { s.mir with n := n, en := on } }
    if on then okay (s.defer s.whenB 0x0104 p) (s.mir.ctrl :: extWords s.boundaryB) else okay s [s.mir.ctrl, 0, 0, 0]

/-- The first mirror boundary. -/
def State.applyMirror (s : State) : State := { s with mir := { s.mir with left := some 0 } }

end Sys2Proof.Machine
end

