-- ==== Sys2Proof/Machine/Refs.lean ====
section
/-! DEFINITION. The reference input and its lock (R34 to R40, R59, R483, R486), reference outputs (R57, R58), TS_SET_REFERENCE. -/
namespace Sys2Proof.Machine

/-! Windows (R34, R486). -/

/-- Nominal frequencies in mHz: code 1 for 5 MHz, 2 for 10 MHz, 3 for 100 MHz. -/
def nominalHz (k : Nat) : Nat := if k = 1 then 5000000000 else if k = 2 then 10000000000 else 100000000000

/-- The nominal frequency within ±200 ppm; 0 for none. -/
def nominalOf (f : Nat) : Nat :=
  let fits (k : Nat) : Bool := decide (f * 5000 ≤ nominalHz k * 5001 ∧ nominalHz k * 4999 ≤ f * 5000)
  if fits 1 then 1 else if fits 2 then 2 else if fits 3 then 3 else 0

/-- The class of a window. -/
inductive WinClass where
  | valid (nom : Nat)
  | freqError
  | levelLow
  | levelHigh
  | incomplete
deriving DecidableEq, Repr

/-- A window classed on its edges, its mean frequency and its level. -/
def classOf (w : RefWin) (missing : Bool) (expect : Nat) : WinClass :=
  let n := nominalOf w.freq
  if !w.complete || missing then .incomplete
  else if n = 0 then .freqError
  else if w.level < -20 then .levelLow
  else if 150 < w.level then .levelHigh
  else if expect ≠ 0 ∧ n ≠ expect then .freqError
  else .valid n

/-- The nominal frequency of a valid window; 0 otherwise. -/
def WinClass.nom : WinClass → Nat
  | .valid n => n
  | _ => 0

/-! Registers. -/

def RefState.code : RefState → Nat
  | .absent => 0
  | .detecting => 1
  | .locking => 2
  | .locked => 3
  | .holdover => 4

/-- The reference logic is detecting, locking or locked. -/
def RefState.busy (x : RefState) : Bool := x = .detecting || x = .locking || x = .locked

/-- TS_REF_STATUS (Table 2-3). -/
def Reference.word (r : Reference) : W32 :=
  let act := if r.state = .locking ∨ r.state = .locked then (if r.source = some .refin then 0 else 1) else 2
  let det := if r.state.busy then r.nominal else if r.lastValid then r.lastNom else 0
  w32 (put 24 8 r.lossCnt + put 12 1 (b2n (decide (r.slew ≠ .none))) + put 9 3 r.state.code + put 8 1 (b2n r.freqErr)
    + put 7 1 (b2n r.levelHigh) + put 6 1 (b2n r.levelLow) + put 4 2 act + put 2 2 r.srcSel + put 0 2 det)

/-- TS_PPS_STATUS (Table 2-5). -/
def Pps.word (p : Pps) : W32 :=
  w32 (put 24 8 p.lossCnt + put 16 8 p.outWin + put 8 8 p.glitch + put 2 2 p.mode + put 0 2 p.state)

/-- A report of class TIME: the two status words. -/
def State.timeReport (s : State) (code : Nat) : State := s.report 3 code 0 s.ref.word s.pps.word

/-! The internal oscillator and the slews of the PLL (R37, R38, R483). -/

/-- What of a slew is still to be removed: at 1 ppm/s from READY on, within 2 ms before. -/
def Osc.left (o : Osc) (now : Nat) : Int :=
  let t := now - o.since
  if o.slow then (if 0 ≤ o.diff then 1 else -1) * ((o.diff.natAbs - t / 8000000000 : Nat) : Int)
  else o.diff * ((16000000000 - t : Nat) : Int) / 16000000000

/-- Instant at which nothing is left. -/
def Osc.ends (o : Osc) : Nat :=
  if o.diff = 0 then o.since else o.since + if o.slow then o.diff.natAbs * 8000000000 else 16000000000

/-- The frequency of TCLK against that of the uncorrected oscillator now. -/
def Reference.freqNow (r : Reference) (now : Nat) : Int := r.osc.held - if r.slew = .none then 0 else r.osc.left now

/-- A slew from the present frequency to another begins. -/
def State.moveOsc (s : State) (target : Int) : Osc :=
  { s.ref.osc with held := target, diff := target - s.ref.freqNow s.now, since := s.now, slow := s.pwr.startup = .ready }

/-- READY is set: a slew in progress goes on at no more than 1 ppm/s. -/
def State.slowSlew (s : State) : State :=
  { s with ref := { s.ref with osc := { s.ref.osc with diff := s.ref.osc.left s.now, since := s.now, slow := true } } }

/-- Offset of a frequency in mHz from a nominal one, in 0.001 ppm. -/
def offsetOf (f nom : Nat) : Int := divNearest (((f : Int) - nominalHz nom) * 1000000000) (nominalHz nom)

/-- Mean of the offsets of the last 100 ms. -/
def Osc.mean (o : Osc) : Int :=
  let l := o.recent.filterMap id
  if l.isEmpty then 0 else divNearest (l.foldl (· + ·) 0) l.length

/-- The offset that the oscillator shows against the source in use. -/
def State.sourceOffset (s : State) (mean : Bool) : Int :=
  if s.ref.source = some .bxUp then Config.bxOffset s.now
  else if mean then s.ref.osc.mean
  else match s.ref.osc.recent.findSome? id with | some z => z | none => 0

/-! Transitions (Table 2-1). -/

/-- A new reference state: source 235, and what follows from ref_lock. -/
def State.refTo (s : State) (x : RefState) (f : Reference → Reference) : State :=
  let changed : Bool := s.ref.state ≠ x
  let s := { s with ref := { f s.ref with state := x } }
  (if changed then s.raise 235 else s).settle

/-- The present source or attempt is given up (R36, R483): LOCKED is lost into HOLDOVER, counted and recorded; an attempt
ends where it began, and the oscillator returns to the frequency it held. In HOLDOVER it is corrected by the offset that it
showed over the last 100 ms (R37). -/
def State.refLose (s : State) : State :=
  let clear (r : Reference) : Reference := { r with source := none, nominal := 0, badRun := 0, validRun := 0, runKey := 0 }
  match s.ref.state with
  | .locked =>
    let z := s.sourceOffset true
    let s := { s with ref := { s.ref with lossCnt := satInc 255 s.ref.lossCnt } }.timeReport 1
    s.refTo .holdover fun r => { clear r with osc := { r.osc with held := z, corr := z } }
  | .locking =>
    let o := s.moveOsc s.ref.osc.corr
    s.refTo (if s.ref.fromHoldover then .holdover else .absent) fun r => { clear r with slew := .returning, osc := o }
  | .detecting => s.refTo (if s.ref.fromHoldover then .holdover else .absent) clear
  | _ => s

/-- BX_UP can serve as a source: the link is UP and the partner reports ref_lock = 1 (R39). -/
def State.bxClock (s : State) : Bool := s.bx.up.link = .up && bit64 s.bx.up.pcap 25

/-- The source and nominal frequency a window counts for: 1 to 3 REFIN, 4 BX_UP, 0 none. -/
def State.winKey (s : State) (nom : Nat) : Nat :=
  match s.ref.srcSel with
  | 0 => if nom ≠ 0 then nom else if s.bxClock then 4 else 0
  | 1 => nom
  | 2 => if s.bxClock then 4 else 0
  | _ => 0

/-- DETECTING is entered after 4 consecutive valid windows, once any return has ended (R483). -/
def State.tryDetect (s : State) : State :=
  let r := s.ref
  if (r.state = .absent ∨ r.state = .holdover) ∧ 4 ≤ r.validRun ∧ r.slew ≠ .returning then
    s.refTo .detecting fun q =>
      { q with fromHoldover := r.state = .holdover, source := some (if r.runKey = 4 then .bxUp else .refin),
               nominal := if r.runKey = 4 then 0 else r.runKey, badRun := 0 }
  else s

/-- The loss test of a window in DETECTING, LOCKING and LOCKED; a source that must give way is lost too (R39). -/
def State.refTest (s : State) (c : WinClass) : State :=
  let r := s.ref
  if !r.state.busy then s
  else match r.source with
    | some .refin =>
      match c with
      | .valid n => if n ≠ r.nominal then s.refLose else { s with ref := { r with badRun := 0 } }
      | _ => if 1 ≤ r.badRun then s.refLose else { s with ref := { r with badRun := r.badRun + 1 } }
    | some .bxUp => if r.srcSel = 0 ∧ c.nom ≠ 0 then s.refLose else s
    | none => s

/-- Two windows count together: of one source, and in ABSENT of one nominal frequency (Table 2-1). -/
def Reference.together (r : Reference) (k : Nat) : Bool :=
  k = r.runKey || (r.state = .holdover && r.runKey ≠ 0 && (k = 4) == (r.runKey = 4))

/-- The window counts towards the 4 consecutive valid ones of ABSENT and HOLDOVER. -/
def State.refCount (s : State) (c : WinClass) : State :=
  let r := s.ref
  if r.state.busy then s
  else
    let k := s.winKey c.nom
    { s with ref := { r with validRun := if k = 0 then 0 else if r.together k then r.validRun + 1 else 1, runKey := k } }

/-- What the window shows of the oscillator: kept for 100 ms, and the frequency of TCLK while it is locked to REFIN. -/
def Reference.seeOffset (r : Reference) (c : WinClass) (f : Nat) : Reference :=
  let z := match c with | .valid n => some (offsetOf f n) | _ => none
  let o := { r.osc with recent := (z :: r.osc.recent).take 100 }
  match z with
  | some v => { r with osc := if r.state = .locked ∧ r.source = some .refin then { o with held := v } else o }
  | none => { r with osc := o }

/-- A window ends: its class, then the state. -/
def State.refWindow (s : State) (w : RefWin) : State :=
  let c := classOf w s.ref.missing s.ref.expect
  let n := nominalOf w.freq
  let s := { s with ref := { s.ref with
    freqErr := decide (c = WinClass.freqError), levelLow := decide (c = WinClass.levelLow), levelHigh := decide (c = WinClass.levelHigh), missing := false
    lastValid := c.nom ≠ 0, lastNom := c.nom
    level := if w.present then unsigned 16 w.level else 0x8000
    freq := if w.present ∧ n ≠ 0 then
        w32 (unsigned 32 (offsetOf w.freq n))
      else s.ref.freq } }
  let s := { s with ref := s.ref.seeOffset c w.freq }
  ((s.refTest c).refCount c).tryDetect

/-- REF_WINDOW. -/
def execRefWindow (w : RefWin) (s : State) : Host.Outcome State Fault Refusal := .next ((s.advance w.dt).refWindow w)

/-- REF_MISSING_PULSE: REFIN is absent within the window; a REFIN in use is lost. -/
def execRefMissingPulse (s : State) : Host.Outcome State Fault Refusal :=
  let s := { s with ref := { s.ref with missing := true, level := 0x8000 } }
  .next (if s.ref.state.busy ∧ s.ref.source = some .refin then s.refLose else s)

/-- REF_PHASE_ERROR. -/
def execRefPhaseError (s : State) : Host.Outcome State Fault Refusal :=
  .next (if s.ref.state = .locked then s.refLose else s)

/-- PLL_ACQUIRE_START: the PLL begins to remove the frequency difference (R38). -/
def execPllAcquireStart (s : State) : Host.Outcome State Fault Refusal :=
  if s.ref.state = .detecting then
    let o := s.moveOsc (s.sourceOffset false)
    .next (s.refTo .locking fun r => { r with slew := .locking, osc := o })
  else .next s

/-- PLL_SLEW_DONE: time goes on until the difference is removed, or the return has ended. -/
def execPllSlewDone (s : State) : Host.Outcome State Fault Refusal :=
  if s.ref.slew = .none then .next s
  else
    let s := s.runTo s.ref.osc.ends
    .next ({ s with ref := { s.ref with slew := .none, lockFrom := s.now, osc := { s.ref.osc with diff := 0 } } }.tryDetect)

/-- REF_LOCKED: the phase error has been small for 1 ms, within 10 ms of the end of the slew. -/
def execRefLocked (s : State) : Host.Outcome State Fault Refusal :=
  if s.ref.state = .locking ∧ s.ref.slew = .none ∧ s.now ≤ s.ref.lockFrom + 10 * msTq then
    .next ((s.runTo (s.ref.lockFrom + msTq)).refTo .locked id)
  else .next s

/-- REF_LOCK_TIMEOUT: 10 ms after the end of the slew. -/
def execRefLockTimeout (s : State) : Host.Outcome State Fault Refusal :=
  if s.ref.state = .locking ∧ s.ref.slew = .none then .next (s.runTo (s.ref.lockFrom + 10 * msTq)).refLose else .next s

/-! TS_SET_REFERENCE (R39). -/

/-- The present source may stay under a selection. -/
def State.keepsSource (s : State) (sel : Nat) : Bool :=
  match s.ref.source with
  | some .refin => sel = 0 || sel = 1
  | some .bxUp => sel = 2 || (sel = 0 && !s.ref.lastValid)
  | none => true

/-- INTERNAL: the state is ABSENT, and the oscillator returns to its uncorrected frequency. -/
def State.refInternal (s : State) : State :=
  let slew : Bool := s.ref.state = .locking || s.ref.state = .locked || s.ref.state = .holdover
    || (s.ref.state = .detecting && s.ref.fromHoldover)
  let s := if s.ref.state = .locked then
      { s with ref := { s.ref with lossCnt := satInc 255 s.ref.lossCnt } }.timeReport 1
    else s
  let o := { s.moveOsc 0 with corr := 0 }
  s.refTo .absent fun r =>
    { r with source := none, nominal := 0, badRun := 0, validRun := 0, runKey := 0, fromHoldover := false,
             slew := if slew then .returning else r.slew, osc := if slew then o else r.osc }

/-- Windows counted for a source or a nominal frequency that is no longer asked for count no more (R39). -/
def Reference.recount (r : Reference) : Reference :=
  let fits : Bool := match r.srcSel with
    | 0 => r.runKey = 4 || r.expect = 0 || r.runKey = r.expect
    | 1 => r.runKey ≠ 4 && (r.expect = 0 || r.runKey = r.expect)
    | 2 => r.runKey = 4
    | _ => false
  if fits then r else { r with validRun := 0, runKey := 0 }

/-- TS_SET_REFERENCE's refusals: fields out of range. -/
def setReferenceRange (p : List W32) : Bool :=
  let ofs := (pw p 2).toInt
  let width := (pw p 3).toNat
  reserved (pw p 1) 0x3333 || bits (pw p 1) 9 8 = 3 || bits (pw p 1) 13 12 = 3 || ofs < -1250000000 || 1250000000 < ofs
    || width = 0 || 500000 < width

/-- TS_SET_REFERENCE. -/
def cmdTsSetReference (s : State) (p : List W32) : Res :=
  if setReferenceRange p then fail s rcRange
  else
    let w := pw p 1
    let sel := bits w 1 0
    let keep := s.keepsSource sel
    let s := { s with ref := { s.ref with
      srcSel := sel, expect := bits w 5 4, refoutMode := bits w 9 8, ppsoutMode := bits w 13 12
      ppsoutOfs := (pw p 2).toInt, ppsoutWidth := (pw p 3).toNat } }
    let s := if sel = 3 then s.refInternal else if keep then s else s.refLose
    let s := { s with ref := s.ref.recount }.settle
    okay s [s.ref.word]

/-! PPSOUT (R58). -/

/-- The second mark of the next pulse. -/
def State.ppsoutNext (s : State) : Nat :=
  let m := secondFrom (((s.ext : Int) - s.ref.ppsoutOfs * 3200).toNat)
  match s.ref.ppsoutMark with
  | some l => if m ≤ l then l + secondTq else m
  | none => m

/-- The level of PPSOUT now. -/
def State.ppsoutPin (s : State) : Bool := decide (s.now < s.ref.ppsoutLow)

/-- The last second mark that a step of the scale from `x` to `y` (extended) jumps over, or the mark of the last pulse where
it still lies behind: no pulse comes for it again (R58). -/
def skipMark (old : Option Nat) (x y : Int) : Option Nat :=
  let m := (y - 1) / (secondTq : Int) * secondTq
  if x < m ∧ m < y then some m.toNat else match old with | some l => if (l : Int) ≤ y then some l else none | none => none

/-- PPSOUT_PULSE: the pin rises at the second mark plus the offset, for its width. -/
def execPpsoutPulse (s : State) : Host.Outcome State Fault Refusal :=
  if !s.outOn s.ref.ppsoutMode then .next s
  else
    let m := s.ppsoutNext
    let s := s.runTo (((m : Int) + s.ref.ppsoutOfs * 3200 - s.off).toNat)
    .next { s with ref := { s.ref with ppsoutMark := some m, ppsoutLow := s.now + s.ref.ppsoutWidth * 8000000 } }

end Sys2Proof.Machine
end

