-- ==== Sys2Proof/Machine/TimeScale.lean ====
section
/-! DEFINITION. Capture and wrap of the DTC, the 1PPS input, arming of steps and tick changes, and their commands (R41 to R56, R60 to R62, R74). -/
namespace Sys2Proof.Machine

/-! A step of the DTC (R50, R67). -/

/-- Every edge queue is empty and no pattern unit runs. -/
def State.stepAllowed (s : State) : Bool := s.ch.toList.all fun c => c.out.queue.isEmpty && !c.pu.run

/-- The step that falls due at boundary x: its size, its residual, and whether TS_SET_TIME asked for it. -/
def State.stepDue (s : State) (x : Nat) : Option (Int × Int × Bool) :=
  match s.tb.step with
  | some (.atTick v) => some ((v : Int) - (x % dtcMod : Nat), 0, true)
  | some (.stamped d r) => some (d, r, true)
  | some (.leader d) => some (d, 0, true)
  | _ => s.bx.stepWait.map fun w => (w.1, w.2, false)

/-- How far the scale moves for a step of d at the DTC value t: the sum is taken modulo 2^80. -/
def stepShift (t : Nat) (d : Int) : Int := ((t : Int) + d) % (dtcMod : Int) - t

/-! Capture, wrap, phase shifter. -/

/-- The DTC as this instant leaves it: a step due at a boundary that is now counts (R43). -/
def State.dtcStepped (s : State) : Nat :=
  match s.stepDue s.tb.tickEnd with
  | some (d, _, _) =>
    if s.ext = s.tb.tickEnd ∧ s.stepAllowed then (((s.tb.dtc : Int) + stepShift s.tb.dtc d) % (dtcMod : Int)).toNat else s.tb.dtc
  | none => s.tb.dtc

/-- TS_CAPTURE: the DTC at the CCLK edge on which the write executes (R43). -/
def State.capture3 (s : State) : State :=
  let s := s.runTo s.edge
  { s with tb := { s.tb with cap := s.dtcStepped } }

/-- TS_CAPTURE. -/
def execTsCapture (s : State) : Host.Outcome State Fault Refusal := .next s.capture3

/-- DTC_WRAP: time goes on to the wrap (R42). -/
def execDtcWrap (s : State) : Host.Outcome State Fault Refusal :=
  .next (if s.pwr.startup = .held then s else s.advance (dtcMod - s.tb.dtc))

/-- Time the phase shifter takes for 1 tq: 100 tq in a millisecond (R51), 2 tq in a second in TRACK (R67). -/
def slewStep : Nat := msTq / 100
def trackStep : Nat := secondTq / 2

/-- What a move has done by an instant, in steps of 1 tq. -/
def PhaseMove.done (m : PhaseMove) (step now : Nat) : Int :=
  (if 0 ≤ m.tq then 1 else -1) * ((min m.tq.natAbs ((now - m.since) / step) : Nat) : Int)

/-- Instant at which a slew ends. -/
def PhaseMove.ends (m : PhaseMove) : Nat := m.since + m.tq.natAbs * slewStep

/-- What moves of the present have done by now. -/
def TimeBase.slewed (t : TimeBase) : Int := match t.slew with | some m => m.done slewStep t.phys | none => 0
def TimeBase.tracked (t : TimeBase) : Int := match t.track with | some m => m.done trackStep t.phys | none => 0

/-- tq by which the phase shifter has moved TCLK, and the DTC with it, against physical time (R51). -/
def State.phaseNow (s : State) : Int := s.tb.phase + s.tb.slewed + s.tb.tracked

/-- The phase shifter starts on a residual; no residual, no slew. -/
def State.startSlew (s : State) (r : Int) : State :=
  { s with tb := { s.tb with
      phase := s.tb.phase + s.tb.slewed
      slew := if r = 0 then none else some { tq := r, since := s.now }
      moved := s.tb.moved || r != 0 } }

/-- A correction of TRACK begins, at most 2 tq for the second to come; 0 ends the present one. -/
def State.startTrack (s : State) (r : Int) : State :=
  let r := clampInt (-2) 2 r
  { s with tb := { s.tb with
      phase := s.tb.phase + s.tb.tracked
      track := if r = 0 then none else some { tq := r, since := s.now }
      moved := s.tb.moved || r != 0 } }

/-- A slew of tq is done. -/
def State.endSlew (s : State) (tq : Int) : State := { s with tb := { s.tb with phase := s.tb.phase + tq, slew := none } }

/-- PHASE_SLEW_DONE: the residual has been removed. -/
def execPhaseSlewDone (s : State) : Host.Outcome State Fault Refusal :=
  match s.tb.slew with
  | none => .next s
  | some m => .next ((s.runTo m.ends).endSlew m.tq)

/-- TS_STATUS (Table 2-4). -/
def State.tsStatus (s : State) : W32 :=
  let t := s.tb
  w32 (put 24 8 t.stretchCnt + put 8 8 (min 255 t.wraps) + put 6 1 (b2n t.slew.isSome) + put 5 1 (b2n t.stepAbandoned)
    + put 4 1 (b2n t.stepDone) + put 3 1 (b2n t.step.isSome) + put 2 1 (b2n t.tickPend.isSome)
    + put 1 1 (b2n (decide (s.pps.mode ≠ 0))) + b2n t.epochWrap)

/-! The 1PPS input (R45 to R48). -/

/-- The second mark nearest to an extended time. -/
def nearestSecond (x : Int) : Int := (2 * x + secondTq) / (2 * (secondTq : Int)) * secondTq

/-- TS_PPS_OFFSET for an offset. -/
def offsetWord (z : Int) : W32 := if -(2 ^ 31) ≤ z ∧ z < 2 ^ 31 then w32 (unsigned 32 z) else Config.ppsOffsetOpen z

/-- A step with its grid part: a multiple of 12,800 tq, a tie upward, and the residual (R49). -/
def stepParts (exact : Int) : Int × Int :=
  let d := (2 * exact + cclk) / (2 * (cclk : Int)) * cclk
  (d, exact - d)

/-- A control frame goes to the followers (R71). -/
def State.ctl (s : State) (f : BxCtl) : State :=
  if s.bx.dn.link = .up then { s with bx := { s.bx with ctlSent := f :: s.bx.ctlSent } } else s

/-- A control frame of the leader. -/
def State.carry (s : State) (f : BxCtl) : State := if s.bx.leader then s.ctl f else s

/-- A step armed for PPS is stamped by a qualified edge with stamp C (extended). -/
def State.stampStep (s : State) (c : Int) : State :=
  match s.tb.step with
  | some (.atPps v) =>
    let d := stepParts (((v + s.tb.wraps * dtcMod : Nat) : Int) - (c - s.pps.comp))
    { s with tb := { s.tb with step := some (.stamped d.1 d.2) } }.carry (.step d.1)
  | _ => s

/-- The loop of STEER (R46): an edge in its window steers the internal oscillator, within ±20 ppm, outside LOCKED. -/
def State.steerBy (s : State) (ofs : Int) : State :=
  if s.pps.mode ≠ 2 ∨ s.ref.state = .locked then s
  else
    let z := Config.steerLoop ofs s.ref.osc.steer s.ref.osc.steerInt
    { s with ref := { s.ref with osc := { s.ref.osc with steer := clampInt (-20000) 20000 z.1, steerInt := z.2 } } }

/-- The edge is qualified (R45). -/
def State.ppsQualified (s : State) (high : Bool) : Bool :=
  high && match s.pps.lastAt with | none => true | some t => decide (t + 7200000000000 ≤ s.now)

/-- The stamp C of an edge now: 8-phase coarse, on the extended scale. -/
def State.ppsStamp (s : State) : Nat := s.ext / 400 * 400

/-- A PPSIN edge now. -/
def State.ppsEdge (s : State) (high : Bool) : State :=
  if !s.ppsQualified high then { s with pps := { s.pps with glitch := satInc 255 s.pps.glitch } }
  else
    let c := s.ppsStamp
    let before := s.pps.state
    let s := { s with pps := { s.pps with cap := c % dtcMod, lastAt := some s.now } }.raise 236
    if s.pps.mode = 0 then s
    else
      let ofs := (c : Int) - s.pps.comp - nearestSecond ((c : Int) - s.pps.comp)
      let inside : Bool := decide (ofs.natAbs ≤ s.pps.window * 8000)
      let s := { s with pps := { s.pps with
        offset := offsetWord ofs, state := if inside then 1 else 2
        outWin := if inside then s.pps.outWin else satInc 255 s.pps.outWin } }
      let s := if s.pps.state = before then s else s.wakeBy 5
      (if inside then s.steerBy ofs else s).stampStep c

/-- PPS_LOSS: 1.1 s without a qualified edge (R48). -/
def execPpsLoss (s : State) : Host.Outcome State Fault Refusal :=
  match s.pps.lastAt with
  | none => .next s
  | some t =>
    if s.pps.mode = 0 ∨ s.pps.state = 0 then .next s
    else
      let s := s.runTo (t + 8800000000000)
      let s := { s with pps := { s.pps with state := 0, lossCnt := satInc 255 s.pps.lossCnt } }
      .next (((s.timeReport 2).raise 236).wakeBy 5)

/-! Commands that a leader carries to its followers (R71). -/

/-- What the followers answer to a command of the leader: a code and the refusal mask. -/
def State.followers (s : State) (env : Env) : Nat × Nat :=
  if !s.bx.leader || s.bx.dn.link ≠ .up then (0, 0)
  else if env.refuse ≠ 0 then (rcGroupFailed, env.refuse.toNat)
  else if env.silent then (rcTimeout, 0)
  else (0, 0)

/-- A follower whose alignment is not OFF. -/
def State.aligned (s : State) : Bool := s.bx.align ≠ .off

/-- A committed group waits for its boundary (R381). -/
def State.committed (s : State) : Bool := s.grp.toList.any fun g => g.state = .committed

/-! TS_SET_TICK. -/

/-- Boundary at which a new period applies (R55). -/
def State.tickAt (s : State) : Nat := if s.pps.mode = 0 then s.tb.tickEnd else secondFrom s.tb.tickEnd

/-- A period that every cluster's guard band allows (R52 to R54). -/
def State.tickOk (s : State) (p : Nat) : Bool :=
  s.periodOk p && [0, 1, 2, 3].all fun c => decide (8 * (s.clus c).sch.guard ≤ p)

/-- Every cluster's task table is schedulable under a period, with what is accepted or prepared (R55, R284, R381). -/
def State.tickFits (s : State) (p : Nat) : Bool :=
  [0, 1, 2, 3].all fun c => decide (s.peakFull c ≤ p - (s.clus c).sch.guard)

/-- TS_SET_TICK. -/
def cmdTsSetTick (s : State) (env : Env) (p : List W32) : Res :=
  let n := (pw p 1).toNat
  let f := s.followers env
  let c := firstCode [
    (!s.tickOk n, rcRange), (s.aligned, rcState), (s.tb.tickPend.isSome || s.committed, rcBusy), (!s.tickFits n, rcResource),
    (f.1 ≠ 0, f.1)]
  if c = rcGroupFailed then .done s c [0, 0, 0, w32 f.2]
  else if c ≠ 0 then fail s c
  else
    let s := { s with tb := { s.tb with tickPend := some n } }.carry (.tick n)
    okay s (extWords s.tickAt)

/-! TS_DISCIPLINE. -/

/-- The anchor moves to the second-mark grid: the last mark at or before the start of the tick in progress, which then
ends at the first boundary at least P cycles after its start (R56). -/
def State.moveAnchor (s : State) : State :=
  if s.tb.anchor % (secondTq : Int) = 0 then s
  else
    let a := s.tb.tickStart / secondTq * secondTq
    { s with tb := { s.tb with anchor := (a : Int), tickEnd := gridFrom a s.tickTq (s.tb.tickStart + s.tickTq) } }

/-- The discipline mode and its values in force. -/
def State.setDiscipline (s : State) (mode window : Nat) (comp : Int) : State :=
  let old := s.pps.mode
  let gone : Bool := mode = 0 && s.pps.state ≠ 0
  let s := { s with pps := { s.pps with mode := mode, window := window, comp := comp, state := if mode = 0 then 0 else s.pps.state } }
  let s := if mode = 2 then s else { s with ref := { s.ref with osc := { s.ref.osc with steer := 0, steerInt := 0 } } }
  let s := if gone then (s.raise 236).wakeBy 5 else s
  (if old = 0 ∧ mode ≠ 0 then s.moveAnchor else s).settle

/-- Values of TS_DISCIPLINE that RANGE refuses (R47, R53, R55). -/
def State.disciplineRange (s : State) (mode win : Nat) : Bool :=
  let bad (n : Nat) : Bool := 625000000 % n ≠ 0
  mode = 3 || win < 10 || 100000 < win
    || (mode ≠ 0 && s.pps.mode = 0 && (bad s.tb.tickP || match s.tb.tickPend with | some n => bad n | none => false))

/-- TS_DISCIPLINE. -/
def cmdTsDiscipline (s : State) (env : Env) (p : List W32) : Res :=
  let mode := bits (pw p 1) 1 0
  let win := (pw p 2).toNat
  let f := s.followers env
  let c := firstCode [
    (reserved (pw p 1) 3 || s.disciplineRange mode win, rcRange),
    (s.aligned, rcState), (f.1 ≠ 0, f.1)]
  if c = rcGroupFailed then .done s c [s.pps.word, w32 f.2]
  else if c ≠ 0 then fail s c
  else
    let s := (s.setDiscipline mode win (pw p 3).toInt).carry (.discipline mode win (pw p 3).toInt)
    okay s [s.pps.word]

/-! TS_SET_TIME (R49, R50). -/

/-- TS_SET_TIME's refusals. -/
def setTimeCheck (s : State) (env : Env) (p : List W32) : Nat :=
  let mode := bits (pw p 1) 1 0
  let x := s.extOf (pw p 2) (pw p 3) (pw p 4)
  firstCode [
    (reserved (pw p 1) 3 || mode = 3 || (mode ≠ 2 && dtcReserved (pw p 4)) || (mode = 0 && x % cclk ≠ 0)
      || (mode = 1 && x % secondTq ≠ 0), rcRange),
    (mode = 1 && s.pps.mode = 0, rcNotReady),
    (s.aligned || s.slot.toList.any Slot.armed, rcState),
    ((mode ≠ 2 && s.tb.step.isSome) || s.committed, rcBusy),
    (decide ((s.followers env).1 ≠ 0), (s.followers env).1)]

/-- TS_SET_TIME: the step is armed, or a pending one withdrawn. -/
def cmdTsSetTime (s : State) (env : Env) (p : List W32) : Res :=
  let c := setTimeCheck s env p
  let v := dtcOf (pw p 2) (pw p 3) (pw p 4)
  if c = rcGroupFailed then .done s c [w32 (s.followers env).2]
  else if c ≠ 0 then fail s c
  else
    match bits (pw p 1) 1 0 with
    | 0 =>
      let s := { s with tb := { s.tb with step := some (.atTick v), stepDone := false, stepAbandoned := false } }
      okay (s.carry (.step ((v : Int) - (s.tb.tickEnd % dtcMod : Nat)))) []
    | 1 => okay { s with tb := { s.tb with step := some (.atPps v), stepDone := false, stepAbandoned := false } } []
    | _ => okay ({ s with tb := { s.tb with step := none } }.carry .cancel) []

end Sys2Proof.Machine
end

