-- ==== Sys2Proof/Machine/Link.lean ====
section
/-! DEFINITION. The Basxus link: ports, capability words, alignment, control and tag frames, BX_LINK and BX_ALIGN (R63 to R73, R317). -/
namespace Sys2Proof.Machine

/-! Registers (Tables 2-7 and 2-8). -/

def LinkState.code : LinkState → Nat
  | .down => 0
  | .training => 1
  | .up => 2
  | .refused => 3

def AlignState.code : AlignState → Nat
  | .off => 0
  | .acquire => 1
  | .track => 2
  | .hold => 3
  | .fault => 4

/-- BX_STATUS. -/
def BxPort.word (x : BxPort) : W32 :=
  w32 (put 24 8 x.errCnt + put 16 1 (b2n x.partner.isSome) + put 12 4 (x.partner.getD 0xF) + put 4 2 x.laneLock + x.link.code)

/-- BX_ALIGN_STATUS. -/
def Basxus.alignWord (x : Basxus) : W32 :=
  w32 (put 13 1 (b2n x.devnum.isSome) + put 12 1 (b2n x.stepWait.isSome) + put 8 4 x.faultCause + put 5 3 x.align.code
    + put 4 1 (b2n x.leader) + put 0 4 (x.devnum.getD 0xF))

/-! Ports. -/

def State.modBx (s : State) (f : Basxus → Basxus) : State := { s with bx := f s.bx }
def State.modPort (s : State) (up : Bool) (f : BxPort → BxPort) : State :=
  s.modBx fun b => if up then { b with up := f b.up } else { b with dn := f b.dn }
def State.port (s : State) (up : Bool) : BxPort := if up then s.bx.up else s.bx.dn

/-- A new link state: source 237. -/
def State.linkTo (s : State) (up : Bool) (x : LinkState) : State :=
  if (s.port up).link = x then s else (s.modPort up fun p => { p with link := x }).raise 237

/-- A new alignment state: source 237; outside TRACK the phase shifter corrects nothing (R67). -/
def State.alignTo (s : State) (x : AlignState) : State :=
  if s.bx.align = x then s
  else
    let s := (s.modBx fun b => { b with align := x, judged := false }).raise 237
    if x = .track then s else s.startTrack 0

/-- FAULT with its cause (R67). -/
def State.alignFault (s : State) (cause : Nat) : State :=
  (s.modBx fun b => { b with faultCause := cause, stepWait := none }).alignTo .fault

/-- The partner's tick period. -/
def BxPort.tickP (p : BxPort) : Nat := bits64 p.pcap 54 32

/-- The device number that the partner of BX_UP gives: its own plus 1, none where it has none; 16 sets the port to REFUSED,
and the device does not align (R63). -/
def State.number (s : State) : State :=
  if s.bx.up.link ≠ .up then s
  else match s.bx.up.partner with
    | none => s.modBx fun b => { b with devnum := none }
    | some 15 => ((s.modBx fun b => { b with devnum := none, stepWait := none }).linkTo true .refused).alignTo .off
    | some k => s.modBx fun b => { b with devnum := some (k + 1) }

/-- The partner's device number, where its word carries an assigned one. -/
def partnerOf (cap : W64) : Option Nat := if bit64 cap 29 then some (bits64 cap 23 20) else none

/-- The alignment of a follower meets a partner with another tick period. -/
def State.tickCheck (s : State) : State :=
  if (s.bx.align = .acquire ∨ s.bx.align = .track) ∧ s.bx.up.link = .up ∧ s.bx.up.tickP ≠ s.tb.tickP then s.alignFault 1 else s

/-- A receiver has seen bad blocks (R64, R73). -/
def State.badBlocks (s : State) (up : Bool) (n : Nat) : State := s.modPort up fun p => { p with errCnt := satAdd 255 p.errCnt n }

/-- The lanes that a port in training has locked (R63). -/
def State.lanesOf (s : State) (up : Bool) (rx : BxRx) : State :=
  (s.badBlocks up rx.bad).modPort up fun p => if p.link = .training then { p with laneLock := rx.lanes.toNat } else p

/-- BX_PORT_UP: a port completes its training: both lanes are locked and deskewed. -/
def execBxPortUp (up : Bool) (bad : Nat) (s : State) : Host.Outcome State Fault Refusal :=
  if !(s.port up).en ∨ (s.port up).link ≠ .training then .next s
  else
    let s := ((s.badBlocks up bad).modPort up fun p => { p with laneLock := 3 }).linkTo up .up
    if !up then .next (s.ctl (.anchor (s.tb.anchor % (dtcMod : Int)).toNat)).settle
    else
      let s := s.modBx fun b => { b with leader := false }
      let s := s.number
      let s := if s.bx.align = .hold ∧ s.bx.up.link = .up then s.alignTo .acquire else s
      .next s.tickCheck.settle

/-- BX_LEADER_TIMEOUT: BX_UP has found no partner within 10 ms. A follower in HOLD waits for its relink. -/
def execBxLeaderTimeout (rx : BxRx) (s : State) : Host.Outcome State Fault Refusal :=
  if !s.bx.up.en ∨ s.bx.up.link ≠ .training then .next s
  else if s.bx.align = .hold then .next (s.lanesOf true rx)
  else
    let s := (s.lanesOf true rx).modBx fun b => { b with leader := true, devnum := some 0, stepWait := none, faultCause := 0 }
    .next (s.alignTo .off).settle

/-- A port is no longer UP: its partner's number is unknown, a reference taken from it is lost, alignment holds (R67, R69). -/
def State.portGone (s : State) (up : Bool) (x : LinkState) : State :=
  let s := (s.modPort up fun p => { p with laneLock := 0, partner := none, pairs := 0, sumTheta := 0, sumRtt := 0 }).linkTo up x
  if !up then s
  else
    let s := if s.ref.source = some .bxUp then s.refLose else s
    if s.bx.align = .acquire ∨ s.bx.align = .track then
      (s.modBx fun b => { b with stepWait := none }).alignTo .hold
    else s

/-- BX_PORT_LOST (R64). -/
def execBxPortLost (up : Bool) (failed : Nat) (s : State) : Host.Outcome State Fault Refusal :=
  let s := s.badBlocks up failed
  if (s.port up).link ≠ .up then .next s
  else
    let c := (s.port up).pcap
    let s := s.report 11 2 (if up then 0 else 1) (w32 c.toNat) (w32 (c.toNat / 2 ^ 32))
    .next (s.portGone up .training)

/-- BX_CAP_RECEIVED: the word is stored and checked (R65, R317); a refused port trains again when the word changes. -/
def execBxCapReceived (up : Bool) (cap : W64) (rx : BxRx) (s : State) : Host.Outcome State Fault Refusal :=
  if !(s.port up).en then .next s
  else
    let s := s.lanesOf up rx
    let changed : Bool := (s.port up).pcap != cap
    let s := s.modPort up fun p => { p with pcap := cap, partner := partnerOf cap }
    if bits64 cap 15 0 ≠ 0x4128 ∨ bits64 cap 63 56 ≠ 1 then
      let s := s.report 11 1 (if up then 0 else 1) (w32 cap.toNat) (w32 (cap.toNat / 2 ^ 32))
      .next (s.portGone up .refused)
    else
      let s := if (s.port up).link = .refused ∧ changed then s.linkTo up .training else s
      if !up then .next s
      else
        let s := s.number
        let s := if s.ref.source = some .bxUp ∧ !s.bxClock then s.refLose else s
        .next s.tickCheck.settle

/-! Time transfer and alignment (R66, R67). -/

/-- BX_TIME_FRAME: a pair is added to the second's average; θ is kept doubled. -/
def execBxTimeFrame (up : Bool) (t : BxTimes) (bad : Nat) (s : State) : Host.Outcome State Fault Refusal :=
  if (s.port up).link ≠ .up then .next (s.badBlocks up bad)
  else
    let asym := if up then s.bx.asym else 0
    .next ((s.badBlocks up bad).modPort up fun p =>
      { p with sumTheta := p.sumTheta + ((t.t2 - t.t1) - (t.t4 - t.t3) - asym), sumRtt := p.sumRtt + (t.t2 - t.t1) + (t.t4 - t.t3),
               pairs := p.pairs + 1 })

/-- What the average θ does in ACQUIRE and TRACK. -/
def State.alignOn (s : State) (θ : Int) : State :=
  if 2 ^ 40 ≤ θ.natAbs then s.alignFault 2
  else if s.bx.align = .track then s.startTrack (-θ)
  else if s.bx.stepWait.isSome ∨ s.tb.slew.isSome then s
  else if θ.natAbs ≤ 8 then s.alignTo .track
  else
    let d := stepParts (-θ)
    if d.1 = 0 then s.startSlew d.2 else s.modBx fun b => { b with stepWait := some d }

/-- BX_OFFSET_UPDATE: the average over one second is written. -/
def execBxOffsetUpdate (up : Bool) (s : State) : Host.Outcome State Fault Refusal :=
  let p := s.port up
  if p.link ≠ .up ∨ p.pairs = 0 then .next s
  else
    let θ := divNearest p.sumTheta (2 * p.pairs)
    let s := s.modPort up fun p =>
      { p with offset := θ, rtt := (divNearest p.sumRtt p.pairs).toNat, sumTheta := 0, sumRtt := 0, pairs := 0 }
    if !up ∨ (s.bx.align ≠ .acquire ∧ s.bx.align ≠ .track) then .next s
    else
      let s := s.tickCheck
      if s.bx.align = .fault then .next s
      else
        let acq : Bool := s.bx.align = .acquire
        .next ((s.alignOn θ).modBx fun b => { b with judged := b.judged || acq })

/-- A frame of the leader that a follower's own conditions refuse (R50, R53 to R55, R71). -/
def State.frameRefused (s : State) : BxCtl → Bool
  | .step _ => s.slot.toList.any Slot.armed || s.tb.step.isSome
  | .tick p => !s.tickOk p || s.tb.tickPend.isSome || !s.tickFits p
  | .discipline m w _ => s.disciplineRange m w
  | .cancel => s.slot.toList.any Slot.armed
  | .anchor _ => s.bx.align ≠ .acquire

/-- A follower takes over what its leader carries (R70, R71). -/
def State.takeControl (s : State) (f : BxCtl) : State :=
  if !s.aligned || s.frameRefused f then s
  else match f with
    | .step d => { s with tb := { s.tb with step := some (.leader d), stepDone := false, stepAbandoned := false } }
    | .tick p => { s with tb := { s.tb with tickPend := some p } }
    | .discipline m w c => s.setDiscipline m w c
    | .cancel => { s with tb := { s.tb with step := none } }
    | .anchor a => s.modBx fun b => { b with anchorPend := some (a : Int) }

/-- A frame that a follower passes on along the chain: commands go to every device, an anchor to the next. -/
def passesOn : BxCtl → Bool
  | .anchor _ => false
  | _ => true

/-- BX_CONTROL_FRAME. -/
def execBxControlFrame (f : BxCtl) (s : State) : Host.Outcome State Fault Refusal :=
  if s.bx.up.link ≠ .up then .next s
  else
    let s := if passesOn f then s.ctl f else s
    .next (s.takeControl f)

/-! Tag frames (R72). -/

/-- Words that a port may send in a microsecond. -/
def fwdLimit : Nat := 200

/-- The words sent in the last microsecond. -/
def BxPort.recent (p : BxPort) (now : Nat) : List BxSent := p.sent.filter fun x => decide (now < x.at_ + 8000000)

/-- A word of a source device sent on a port whatever the limit. -/
def BxPort.send (p : BxPort) (src : Nat) (v : W64) (now : Nat) : BxPort :=
  { p with sent := { src := src, word := v, at_ := now } :: p.recent now }

/-- A record that is never dropped. -/
def State.fwdRecord (s : State) (up : Bool) (src : Nat) (v : W64) : State := s.modPort up fun p => p.send src v s.now

/-- LOSS records of tags that a port has dropped. -/
def BxPort.sendLosses (p : BxPort) (l : List (Nat × Nat × Nat)) (now : Nat) : BxPort :=
  l.foldl (fun p c => p.send c.1 (Word.loss c.2.1 3 c.2.2).encode now) p

/-- The pending losses of a source device go out. -/
def State.fwdLosses (s : State) (up : Bool) (src : Nat) : State :=
  s.modPort up fun p =>
    { p with lossPend := p.lossPend.filter fun c => c.1 ≠ src }.sendLosses (p.lossPend.filter fun c => c.1 = src) s.now

/-- One more tag of a source device and channel dropped. -/
def addLoss (src ch : Nat) : List (Nat × Nat × Nat) → List (Nat × Nat × Nat)
  | [] => [(src, ch, 1)]
  | (d, c, n) :: l => if d = src ∧ c = ch then (d, c, n + 1) :: l else (d, c, n) :: addLoss src ch l

/-- A tag of a channel of a source device: sent within the limit, dropped and counted beyond it; the LOSS record of the channel
goes before the next tag of it that is sent. -/
def State.fwdTag (s : State) (up : Bool) (src ch : Nat) (v : W64) : State :=
  s.modPort up fun p =>
    let l := p.recent s.now
    let mine (c : Nat × Nat × Nat) : Bool := decide (c.1 = src ∧ c.2.1 = ch)
    let loss := p.lossPend.filter mine
    if fwdLimit ≤ l.length + loss.length then
      { p with sent := l, fwdLoss := p.fwdLoss + 1, lossPend := addLoss src ch p.lossPend }
    else
      ({ p with lossPend := p.lossPend.filter fun c => !mine c }.sendLosses loss s.now).send src v s.now

/-- The number under which this device forwards. -/
def State.ownSrc (s : State) : Nat := s.bx.devnum.getD 0xF

/-- A released word of a cluster is forwarded on the ports that ask for it; the records of a boundary go out once, with the
pending LOSS records before them. -/
def State.forward (s : State) (c : Nat) (w : PWord) : State :=
  let first := (List.range 4).find? fun k => !s.pwr.gated.testBit k
  [true, false].foldl (fun s up =>
    let p := s.port up
    if p.link ≠ .up ∨ p.fwd = 0 then s
    else match w.word with
      | .tag ch .. => if ch / 32 = c ∧ p.fwd.testBit ch then s.fwdTag up s.ownSrc ch w.word.encode else s
      | .loss ch _ _ => if ch / 32 = c ∧ p.fwd.testBit ch then s.fwdRecord up s.ownSrc w.word.encode else s
      | .epoch .. => if first = some c then (s.fwdLosses up s.ownSrc).fwdRecord up s.ownSrc w.word.encode else s
      | .tick .. => if first = some c then s.fwdRecord up s.ownSrc w.word.encode else s
      | _ => s) s

/-- A received word of a source device relayed on BX_UP; its pending losses go before its next EPOCH record. -/
def State.relayWord (s : State) (src : Nat) (v : W64) : State :=
  if s.bx.up.link ≠ .up then s
  else if bit64 v 63 then
    (if bits64 v 62 60 = 0 then s.fwdLosses true src else s).fwdRecord true src v
  else s.fwdTag true src (bits64 v 62 56) v

/-- BX_TAG_FRAME: the words go to the stream of their source device, and on where tags of BX_DN are relayed. -/
def execBxTagFrame (up : Bool) (src : Fin 16) (words : List W64) (s : State) : Host.Outcome State Fault Refusal :=
  if (s.port up).link ≠ .up then .next s
  else .next (words.foldl (fun s v =>
    let s := s.remoteWord src v
    if !up ∧ s.bx.relay then s.relayWord src v else s) s)

/-! Commands. -/

/-- A mask of 128 channels from four words. -/
def mask128 (p : List W32) (k : Nat) : Nat :=
  (pw p k).toNat + (pw p (k + 1)).toNat * 2 ^ 32 + (pw p (k + 2)).toNat * 2 ^ 64 + (pw p (k + 3)).toNat * 2 ^ 96

/-- A port enabled or disabled by BX_LINK. -/
def State.enablePort (s : State) (up on : Bool) (fwd : Nat) : State :=
  let s := s.modPort up fun p => { p with en := on, fwd := fwd }
  if !on then if (s.port up).link = .down then s else s.portGone up .down
  else if (s.port up).link = .down ∨ (s.port up).link = .refused then s.linkTo up .training
  else s

/-- BX_LINK. -/
def cmdBxLink (s : State) (p : List W32) : Res :=
  let w := pw p 1
  if reserved w 7 then fail s rcRange
  else
    let s := (s.enablePort true (bit w 0) (mask128 p 2)).enablePort false (bit w 1) (mask128 p 6)
    let s := (s.modBx fun b => { b with relay := bit w 2 }).settle
    okay s [s.bx.up.word, s.bx.dn.word]

/-- BX_ALIGN: a device whose BX_UP is REFUSED does not align (R63). -/
def cmdBxAlign (s : State) (p : List W32) : Res :=
  let on := bit (pw p 1) 0
  let asym := (pw p 2).toInt
  let c := firstCode [(reserved (pw p 1) 1 || asym < -8000 || 8000 < asym, rcRange), (on && s.bx.leader, rcState)]
  if c ≠ 0 then fail s c
  else
    let s := s.modBx fun b => { b with asym := asym, faultCause := 0, stepWait := none, anchorPend := none, judged := false }
    let s := if !on ∨ s.bx.up.link = .refused then s.alignTo .off else (s.alignTo .acquire).tickCheck
    okay s [s.bx.alignWord]

end Sys2Proof.Machine
end

