-- ==== Sys2Proof/Machine/Merge.lean ====
section
/-! DEFINITION. The time-order merge of a cluster, the tag exchange, and the distribution of released words (R19 to R21, R253, R254, R485). -/
namespace Sys2Proof.Machine

/-- The merge horizon (R19). -/
def horizon : Nat := 2048000

/-- The merge of cluster c carries channel n: local or imported. -/
def State.merges (s : State) (c n : Nat) : Bool := n / 32 = c || (s.clus c).imports.testBit n

/-- The channels a merge carries. -/
def State.mergeChans (s : State) (c : Nat) : List Nat := (List.range 128).filter fun n => s.merges c n

/-- The largest lin of those channels. -/
def State.linMax (s : State) (c : Nat) : Int := (s.mergeChans c).foldl (fun a n => max a (s.lin n)) 0

/-- Instant from which no transition still to come can yield a word that sorts before x. -/
def State.boundPast (s : State) (c : Nat) (x : Int) : Nat := (x + s.linMax c + 585).toNat

/-- A qualifier hold with a bound before x (R485). -/
def State.heldBelow (s : State) (n : Nat) (x : Int) : Bool :=
  match (s.chan n).inp.hold with
  | some h => decide (h.tag.phys < x)
  | none => false

/-- A qualifier hold of channel n that keeps a word back: the held edge goes before it (R95, R485). -/
def State.heldBefore (s : State) (n : Nat) (w : PWord) : Bool :=
  match (s.chan n).inp.hold with
  | some h => ((FifoItem.tag h.tag).word n).before w
  | none => false

/-- Cluster e imports a channel of cluster d. -/
def State.importsFrom (s : State) (e d : Nat) : Bool := (rangeIdx (32 * d) (32 * d + 31)).any fun n => (s.clus e).imports.testBit n

/-- The clusters whose released bound cluster c waits for: itself, and those its bounds come from (R21). -/
def State.feeders (s : State) (c : Nat) : List Nat :=
  let grow (l : List Nat) : List Nat := [0, 1, 2, 3].filter fun d => l.any fun e => e = d || s.importsFrom e d
  grow (grow (grow [c]))

/-- The channels whose qualifier holds keep the merge of cluster c waiting (R21, R485). -/
def State.holders (s : State) (c : Nat) : List Nat :=
  let l := s.feeders c
  (List.range 128).filter fun n => l.any fun d => s.merges d n

/-- Time is left to wait for word v, which goes before w: up to the horizon, counted from the end of the hold that v may have
been kept in (R19, R485). -/
def State.waitsFor (s : State) (w v : PWord) (heldTo : Int) : Bool :=
  v.before w && decide ((s.now : Int) < max w.sort heldTo + horizon)

/-- A word of channel n that would go before w has not reached its lane's output: a code awaited, or an entry of the FIFO. -/
def State.behind (s : State) (n : Nat) (w : PWord) : Bool :=
  (decide ((s.now : Int) < w.sort + horizon) && (s.chan n).inp.convs.any fun l => decide (s.latchBound n l ≤ w.sort)) ||
    (s.chan n).inp.fifo.any fun x => s.waitsFor w (x.word n) (s.chan n).inp.heldTo

/-- Instant at which the last hold ended that kept the merge of cluster c waiting. -/
def State.heldUntil (s : State) (c : Nat) : Int := (s.holders c).foldl (fun a n => max a (s.chan n).inp.heldTo) 0

/-- A word of an imported channel that would go before w has not reached cluster c. -/
def State.importBehind (s : State) (c n : Nat) (w : PWord) : Bool :=
  let d := n / 32
  decide (d ≠ c) && (((s.clus d).pool.any fun v => v.word.channel == some n && s.waitsFor w v (s.heldUntil d)) ||
    (s.clus d).exchange.any fun e => e.1 == c && e.2.word.channel == some n && s.waitsFor w e.2 (s.heldUntil d))

/-- The word the merge would release next: late ones on arrival, else the first in stream order. -/
def Cluster.nextWord (k : Cluster) : Option PWord :=
  match k.pool.find? fun w => w.late with
  | some w => some w
  | none => firstWord k.pool

/-- The merge must wait: for a hold without limit, for a lane up to the horizon. -/
def State.mergeWaits (s : State) (c : Nat) (w : PWord) : Bool :=
  !w.late && ((s.holders c).any (fun n => s.heldBefore n w) || (s.mergeChans c).any fun n => s.behind n w || s.importBehind c n w)

/-! Consumers (R20). -/

/-- A released word reaches the microengine's tag input queue, or is dropped there (R253, R254). -/
def Microengine.tagIn (m : Microengine) (w : PWord) (cyc : Nat) : Microengine :=
  let wanted : Bool := match w.word with
    | .tag ch .. => m.image.tagsel.testBit ch
    | .loss ch .. => m.image.tagsel.testBit ch
    | _ => false
  if !wanted then m
  else if m.tagq.length < 64 then { m with tagq := m.tagq ++ [w] }
  else { m with tagOvf := true, ovfAt := if m.tagOvf then m.ovfAt else cyc, tagLoss := m.tagLoss + 1 }

/-- A released word reaches its decoder: a late tag counts as a loss (R236); the TICK record of a boundary stands for it. -/
def State.decoderWord (s : State) (c : Nat) (w : PWord) : State :=
  let put (d : Nat) (i : QdItem) : State := s.modDec d fun q => if q.en then { q with held := q.held ++ [i] } else q
  match w.word with
  | .tag ch t r q =>
    if ch / 32 ≠ c then s
    else if w.late then put (ch / 4) (.loss (ch % 4) 1 w.sort t q) else put (ch / 4) (.tag (ch % 4) w.sort t r q)
  | .loss ch _ n => if ch / 32 ≠ c then s else put (ch / 4) (.loss (ch % 4) n w.sort w.dtc false)
  | .tick .. =>
    s.each (List.range 8) fun s i =>
      s.modDec (8 * c + i) fun q => if q.en then { q with held := q.held ++ [.boundary w.sort w.dtc] } else q
  | _ => s

/-- A released word goes to the exchange for every cluster that imports its channel. -/
def State.export_ (s : State) (c : Nat) (w : PWord) : State :=
  match w.word.channel with
  | none => s
  | some n =>
    if n / 32 ≠ c then s
    else s.each ([0, 1, 2, 3].filter fun d => d ≠ c && (s.clus d).imports.testBit n && !s.pwr.gated.testBit d) fun s d =>
      s.modCl c fun k => { k with exchange := k.exchange ++ [(d, w)] }

/-- Streams that close move on once their last word has been written. -/
def State.closers (s : State) (c : Nat) : State :=
  s.each ((List.range 16).filter fun k => (s.dmaAt k).kind = 0 && (s.dmaAt k).cluster = c && (s.dmaAt k).state = .closing) State.dmaFinish

/-- Counters of the merge (Table 15-6). -/
def State.mergeCounts (s : State) (c : Nat) (w : PWord) : State :=
  let s := s.pcAdd (2 * c) 1
  let s := match w.word with | .loss _ _ n => s.pcAdd (24 + c) n | _ => s
  if w.late ∧ w.word.isTag then s.pcAdd (28 + c) 1 else s

/-- A released word reaches every consumer that subscribes to it. -/
def State.distribute (s : State) (c : Nat) (w : PWord) : State :=
  let s := (s.slotsWord c w).decoderWord c w
  let s := s.modMe c fun m => m.tagIn w (cycleOf s.now)
  (((s.ringsWord c w).closers c).export_ c w).forward c w

/-- MERGE_RELEASE. -/
def execMergeRelease (c : Fin 4) (s : State) : Host.Outcome State Fault Refusal :=
  match (s.clus c).nextWord with
  | none => .next s
  | some w =>
    if s.mergeWaits c w then .next s
    else
      let s := if w.late then s else s.runTo (s.boundPast c w.sort)
      let s := s.modCl c fun k =>
        { k with pool := k.pool.erase w
                 releasedTo := if w.late then k.releasedTo else some (match k.releasedTo with | some r => max r w.sort | none => w.sort) }
      let w := if w.late then { w with word := w.word.withQ } else w
      .next ((s.mergeCounts c w).distribute c w)

/-! The exchange (R21). -/

/-- The word a cluster takes next from the exchange, and the cluster that offers it. -/
def State.offered (s : State) (c : Nat) : Option (Nat × PWord) :=
  let l := [0, 1, 2, 3].filterMap fun d =>
    ((s.clus d).exchange.find? fun e => e.1 = c).map fun e => (d, e.2)
  l.foldl (fun a x => match a with
    | none => some x
    | some y => if x.2.sort < y.2.sort then some x else some y) none

/-- TAG_IMPORT: a word takes a cycle of one of the four lanes of the importing cluster, and enters its merge; a late one stays
late. -/
def execTagImport (c : Fin 4) (s : State) : Host.Outcome State Fault Refusal :=
  match s.offered c with
  | none => .next s
  | some (d, w) =>
    let s := s.modCl d fun k => { k with exchange := k.exchange.erase (c.val, w) }
    if s.pwr.gated.testBit c then .next s
    else
      .next ((s.takeLane c).modCl c fun k => k.enter w)

/-- A word of channel n that sorts before x has not reached the merge of cluster c. -/
def State.owes (s : State) (c n : Nat) (x : Int) : Bool :=
  let d := n / 32
  s.heldBelow n x || (s.chan n).inp.convs.any (fun l => decide (s.latchBound n l < x))
    || (s.chan n).inp.fifo.any (fun i => decide ((i.word n).sort < x))
    || (decide (d ≠ c) && ((s.clus d).pool.any (fun w => w.word.channel == some n && decide (w.sort < x))
      || (s.clus d).exchange.any fun e => e.1 == c && e.2.word.channel == some n && decide (e.2.sort < x)))

/-- Every word of the merged stream of a decoder's cluster that sorts before x has been released (R220). -/
def State.releasedBelow (s : State) (d : Nat) (x : Int) : Bool :=
  let c := d / 8
  !((s.clus c).pool.any fun w => decide (w.sort < x)) && !((s.mergeChans c).any fun n => s.owes c n x)

end Sys2Proof.Machine
end

