-- ==== Sys2Proof/Machine/Quad.lean ====
section
/-! DEFINITION. Quadrature decoders: glitches, coincidences, counting, index, strobe, snapshots, log and commands (chapter 8). -/
namespace Sys2Proof.Machine

/-! Registers (Table 8-5). -/

def QdState.code : QdState → Nat
  | .off => 0
  | .acquire => 1
  | .run => 2

/-- QD_CFG. -/
def Decoder.cfg (q : Decoder) : W32 :=
  w32 (put 8 1 (b2n q.sense) + put 7 1 (b2n q.stbEdge) + put 6 1 (b2n q.stbEn) + put 5 1 (b2n q.homeArm) + put 4 1 (b2n q.idxEdge)
    + put 3 1 (b2n q.idxEn) + put 1 2 q.indexPol + b2n q.en)

/-- QD_STATUS. -/
def Decoder.status (q : Decoder) (pending : Bool) : W32 :=
  w32 (put 10 1 (b2n pending) + put 9 1 (b2n q.snapQ) + put 8 1 (b2n q.stall) + put 7 1 (b2n q.spdValid) + put 6 1 (b2n q.unsync)
    + put 4 1 (b2n q.dirRev) + put 3 1 (b2n q.lvlB) + put 2 1 (b2n q.lvlA) + q.state.code)

/-- Eight words of a log entry (Table 8-4). -/
def QdEntry.words (e : QdEntry) : List W32 :=
  [w32 (put 28 4 e.kind + put 27 1 (b2n e.q) + put 26 1 (b2n e.dirRev) + put 16 2 e.role + put 0 16 e.frac), w32 e.seq, w32 e.pos, e.rev,
    e.arg, w32 e.time, w32 (e.time / 2 ^ 32), w32 (put 16 16 (unsigned 16 e.delta) + put 0 16 (e.time / 2 ^ 64))]

/-- A QD_DEFINE of decoder d awaits its boundary. -/
def State.qdPending (s : State) (d : Nat) : Bool := s.hasDeferred 0x0600 fun p => bits (pw p 1) 4 0 = d

/-- The register at an offset of a decoder's block. -/
def State.qdReg (s : State) (d o : Nat) : Option W32 :=
  let q := s.decAt d
  if 0x200 ≤ o ∧ o < 0x400 then some ((vget q.log ((o - 0x200) / 32)).words.getD (o % 32 / 4) 0)
  else
    let span := numWordsOf q.span
    let l : List W32 := [q.cfg, w32 q.cprM1, w32 q.indexPos, w32 q.qwin, w32 q.glt, q.status (s.qdPending d), w32 q.pos, q.rev]
      ++ dtcWords q.tlast ++ span ++ [q.qerr, q.mismatch, q.idxCnt, q.idxDiff] ++ dtcWords q.idxT
      ++ [q.glitch, q.loss, w32 q.logWr]
    if o < 0x5C then l[o / 4]?
    else if 0x60 ≤ o ∧ o < 0x80 then
      ([q.snapSeq, w32 q.snap.pos, q.snap.rev, w32 q.snap.frac] ++ dtcWords q.snap.time ++ [q.snapSeq])[(o - 0x60) / 4]?
    else none
where
  numWordsOf (n : Nat) : List W32 := [w32 n, w32 (n / 2 ^ 32)]

/-! The delayed view (R220). -/

def QdItem.at_ : QdItem → Int
  | .tag _ p .. => p
  | .loss _ _ p .. => p
  | .boundary p _ => p

def QdItem.role : QdItem → Nat
  | .tag r .. => r
  | .loss r .. => r
  | .boundary .. => 4

/-- H. -/
def Decoder.hold (q : Decoder) : Nat := max q.qwin q.glt

/-- The tag that makes a glitch with item i, among the items behind it (R221). -/
def glitchMate (glt : Nat) (i : QdItem) (l : List QdItem) : Option QdItem :=
  match i, l.find? fun x => x.role = i.role with
  | .tag r p _ up _, some (.tag r' p' t' up' q') =>
    if r < 2 ∧ up ≠ up' ∧ p' - p < (glt : Int) then some (.tag r' p' t' up' q') else none
  | _, _ => none

/-- The tag of a role that makes an illegal transition with a tag at p: the first within QWIN that is no part of a glitch (R222). -/
def windowMate (glt qwin role : Nat) (p : Int) : Option QdItem → List QdItem → Option QdItem
  | _, [] => none
  | skip, i :: l =>
    if skip = some i then windowMate glt qwin role p none l
    else match i with
      | .tag r p' .. =>
        if r = role ∧ p' - p < (qwin : Int) then
          match glitchMate glt i l with
          | some m => windowMate glt qwin role p (some m) l
          | none => some i
        else windowMate glt qwin role p skip l
      | _ => windowMate glt qwin role p skip l

/-! Counting (R223 to R231). -/

/-- CPR. -/
def Decoder.cpr (q : Decoder) : Nat := q.cprM1 + 1

/-- An event of decoder d (R237, Table 9-8): 0 QERR, 1 INDEX, 2 MISMATCH, 3 STROBE, 4 LOSS, 5 WRAP. -/
def State.qdEvent (s : State) (d code : Nat) : State := (s.raise (128 + d)).event (d / 8) 2 (8 * (d % 8) + code)

/-- The WRAP event of a change of REV. -/
def State.qdWrap (s : State) (d : Nat) (before : W32) : State := if (s.decAt d).rev = before then s else s.qdEvent d 5

/-- The interpolated fraction at an instant, and STALL (R231). -/
def Decoder.fracAt (q : Decoder) (p : Int) : Nat × Bool :=
  match q.counts with
  | [] => (0, false)
  | k :: _ =>
    if !q.spdValid ∨ q.span = 0 then (0, false)
    else
      let f := ((2 * ((p - k.phys) * 262144) + (q.span : Int)) / (2 * (q.span : Int))).toNat
      if 65535 < f then (65535, true) else (f, false)

/-- Q of the tags of counts k and k − 4 (R234). -/
def Decoder.countsQ (q : Decoder) : Bool := (q.counts.head?.elim false QdCount.q) || (q.counts[4]?.elim false QdCount.q)

/-- A log entry written (R235). -/
def Decoder.put (q : Decoder) (e : QdEntry) : Decoder :=
  let seq := (q.logWr + 1) % 2 ^ 32
  { q with logWr := seq, log := vset q.log (seq + 15) { e with seq := seq } }

/-- An entry of the present position and direction. -/
def Decoder.entry (q : Decoder) (kind time : Nat) (fl : Bool) : QdEntry :=
  { QdEntry.empty with kind := kind, q := fl, dirRev := q.dirRev, pos := q.pos, rev := q.rev, time := time }

/-- The speed is no longer known (R230). -/
def Decoder.breakSpeed (q : Decoder) : Decoder := { q with spdValid := false, clean := 0 }

/-- A DTC step at an instant (R230, R237). -/
def Decoder.stepped (q : Decoder) (now : Int) : Decoder := { q.breakSpeed with stepAt := now }

/-- N set: POS and REV from a multi-turn count (R224, R229). -/
def Decoder.setN (q : Decoder) (n : Int) : Decoder :=
  { q with pos := (n % (q.cpr : Int)).toNat, rev := BitVec.ofInt 32 (n / (q.cpr : Int)) }

/-- The position moved by one count (R224). -/
def Decoder.step (q : Decoder) (fwd : Bool) : Decoder :=
  if fwd then if q.pos = q.cprM1 then { q with pos := 0, rev := q.rev + 1 } else { q with pos := (q.pos + 1) % 2 ^ 32 }
  else if q.pos = 0 then { q with pos := q.cprM1, rev := q.rev - 1 } else { q with pos := q.pos - 1 }

/-- DIR with its hysteresis (R225). -/
def Decoder.direct (q : Decoder) (fwd : Bool) : Decoder :=
  if fwd = !q.dirRev then { q with against := false }
  else if q.against then { q with dirRev := !fwd, against := false }
  else { q with against := true }

/-- A count (R223, R230). -/
def Decoder.count (q : Decoder) (p : Int) (time : Nat) (fwd fl : Bool) : Decoder :=
  let q := (q.step fwd).direct fwd
  let l := ({ phys := p, time := time, fwd := fwd, q := fl } : QdCount) :: q.counts.take 4
  let clean := if p < q.stepAt then 0 else satInc 5 q.clean
  let span := match l[4]? with | some k => (p - k.phys).toNat | none => q.span
  { q with counts := l, clean := clean, tlast := time, span := span % 2 ^ 64
           spdValid := clean = 5 && l.length = 5 && (l.take 4).all fun k => k.fwd == fwd }

/-- The stored level of A (role 0) or of B; both known makes RUN (Table 8-2). -/
def Decoder.setLevel (q : Decoder) (role : Nat) (v : Bool) : Decoder :=
  let q := if role = 0 then { q with lvlA := v, knowA := true } else { q with lvlB := v, knowB := true }
  if q.state = .acquire ∧ q.knowA ∧ q.knowB then { q with state := .run } else q

/-- An A or B tag that is no part of a glitch or an illegal transition (R223, R236). -/
def Decoder.transition (q : Decoder) (role : Nat) (p : Int) (time : Nat) (up fl : Bool) : Decoder :=
  let known := q.knowA && q.knowB
  let old := if role = 0 then q.lvlA else q.lvlB
  let other := if role = 0 then q.lvlB else q.lvlA
  let fwd := (if role = 0 then up != other else up == other) != q.sense
  let q := { q with qSince := q.qSince || fl }
  let counts := q.state = .run ∧ known ∧ old ≠ up
  let q := q.setLevel role up
  if counts then q.count p time fwd fl else q

/-- An illegal transition of an A tag and a B tag (R222). -/
def Decoder.illegal (q : Decoder) (ta tb : Nat) (ua ub fl : Bool) : Decoder :=
  let q := ((q.setLevel 0 ua).setLevel 1 ub).breakSpeed
  let q := { q with qerr := q.qerr + 1, qSince := q.qSince || fl }
  q.put { q.entry 0 ta fl with delta := (tb : Int) - (ta : Int) }

/-! Index and strobe (R228, R229, R233). -/

/-- d of R229. -/
def Decoder.indexDiff (q : Decoder) : Int :=
  let h : Int := (q.cpr / 2 : Nat)
  ((q.pos : Int) - (q.indexPos : Int) + h) % (q.cpr : Int) - h

/-- The time and the count of an index edge. -/
def Decoder.indexSeen (q : Decoder) (time : Nat) : Decoder := { q with idxT := time, idxCnt := q.idxCnt + 1 }

/-- A selected index edge. -/
def State.qdIndex (s : State) (d time : Nat) (fl : Bool) : State :=
  let q := s.decAt d
  let fl := fl || q.countsQ
  if q.state = .acquire then s.modDec d fun q => (q.indexSeen time).put (q.entry 1 time fl)
  else if q.homeArm then
    (s.modDec d fun q => { q.put (q.entry 4 time fl) with pos := q.indexPos, rev := 0, unsync := false, homeArm := false }).qdWrap d q.rev
  else
    let x := q.indexDiff
    let s := (s.modDec d fun q => q.indexSeen time).qdEvent d 1
    if x = 0 then s.modDec d fun q => { q.put (q.entry 1 time fl) with unsync := q.unsync && q.indexPol ≠ 1 }
    else
      let s := s.modDec d fun q =>
        let q := { q with mismatch := q.mismatch + 1 }
        let q := q.put { q.entry 5 time fl with arg := BitVec.ofInt 32 x }
        let q := if q.indexPol = 2 then q else { q with idxDiff := BitVec.ofInt 32 x }
        if q.indexPol = 1 then { q.setN (q.rev.toInt * (q.cpr : Int) + (q.pos : Int) - x) with unsync := false } else q
      (s.qdEvent d 2).qdWrap d q.rev

/-- A selected strobe edge. -/
def State.qdStrobe (s : State) (d : Nat) (p : Int) (time : Nat) (fl : Bool) : State :=
  (s.modDec d fun q => q.put { q.entry 2 time (fl || q.countsQ) with frac := (q.fracAt p).1 }).qdEvent d 3

/-! Losses and snapshots (R232, R236). -/

/-- A loss on a role in use; Q is that of the late tag it stands for (R234, R236). -/
def State.qdLoss (s : State) (d role n time : Nat) (fl : Bool) : State :=
  let q := s.decAt d
  if (role = 2 ∧ !q.idxEn) ∨ (role = 3 ∧ !q.stbEn) then s
  else
    let s := s.modDec d fun q =>
      let q := { q with loss := q.loss + w32 n }
      let q := q.put { q.entry 3 time fl with role := role, arg := w32 n }
      if 2 ≤ role then q
      else
        let q := { q.breakSpeed with unsync := true }
        if role = 0 then { q with knowA := false } else { q with knowB := false }
    s.qdEvent d 4

/-- A snapshot taken (R232, R234). -/
def Decoder.take (q : Decoder) (p : Int) (time : Nat) : Decoder :=
  let f := q.fracAt p
  { q with snaps := q.snaps ++ [{ pos := q.pos, rev := q.rev, frac := f.1, stall := f.2, q := q.countsQ || q.qSince, time := time, phys := p }]
           qSince := false }

/-! The rows. -/

/-- The tag pair of an illegal transition, A first whichever came first. -/
def State.qdIllegal (s : State) (d : Nat) (a b : QdItem) : State :=
  match a, b with
  | .tag r _ t u f, .tag _ _ t' u' f' =>
    let s := s.modDec d fun q => if r = 0 then q.illegal t t' u u' (f || f') else q.illegal t' t u' u (f || f')
    s.qdEvent d 0
  | _, _ => s

/-- A tag that is no part of a glitch or of an illegal transition. -/
def State.qdTag (s : State) (d role : Nat) (p : Int) (time : Nat) (up fl : Bool) : State :=
  let q := s.decAt d
  if role < 2 then (s.modDec d fun q => q.transition role p time up fl).qdWrap d q.rev
  else if role = 2 then if q.idxEn ∧ up = !q.idxEdge then s.qdIndex d time fl else s
  else if q.stbEn ∧ up = !q.stbEdge then s.qdStrobe d p time fl else s

/-- The head of the delayed view handled, with the tags that its glitch or its illegal transition takes with it. -/
def State.qdHandle (s : State) (d : Nat) (i : QdItem) (l : List QdItem) : State :=
  let q := s.decAt d
  let s := s.modDec d fun q => { q with held := l }
  if q.state = .off ∨ i.at_ < q.since then s
  else match i with
    | .loss r n _ t fl => s.qdLoss d r n t fl
    | .boundary p t => s.modDec d fun q => q.take p t
    | .tag r p t up fl =>
      match glitchMate q.glt i l with
      | some m => s.modDec d fun q => { q with held := l.erase m, glitch := q.glitch + 1 }
      | none =>
        match if r < 2 then windowMate q.glt q.qwin (1 - r) p none l else none with
        | some m => (s.modDec d fun q => { q with held := l.erase m }).qdIllegal d i m
        | none => s.qdTag d r p t up fl

/-- Time up to which every word must have been released before the head is handled (R220). -/
def Decoder.settledAt (q : Decoder) (i : QdItem) (l : List QdItem) : Int :=
  let x := i.at_ + (q.hold : Nat)
  if i.role < 2 then
    match windowMate q.glt q.qwin (1 - i.role) i.at_ none l with
    | some m => max x (m.at_ + (q.glt : Nat))
    | none => x
  else x

/-- QD_TAG_HANDLE: the decoder handles the head of its delayed view. -/
def execQdTagHandle (d : Fin 32) (s : State) : Host.Outcome State Fault Refusal :=
  let q := s.decAt d
  match q.held with
  | [] => .next s
  | i :: l =>
    let x := q.settledAt i l
    if s.releasedBelow d x then .next ((s.runTo (s.boundPast (d / 8) x)).qdHandle d i l) else .next s

/-- QD_SNAPSHOT_PUBLISH: the oldest snapshot is published in its guard band (R232). -/
def execQdSnapshotPublish (d : Fin 32) (s : State) : Host.Outcome State Fault Refusal :=
  let q := s.decAt d
  match q.snaps with
  | [] => .next s
  | x :: l =>
    let g := s.guardInstant (d / 8)
    if (g : Int) < x.phys + 1164800 + (q.hold : Nat) + (s.maxMinpw (d / 8) : Nat) then .next s
    else .next ((s.runTo g).modDec d fun q =>
      { q with snaps := l, snap := x, snapSeq := q.snapSeq + 1, snapQ := x.q, stall := x.stall, snapNew := true })

/-! Commands (R240). -/

/-- An input delivers the edges of a code: 0 rising, 1 falling, 2 both. -/
def ChIn.delivers (x : ChIn) (edge : Nat) : Bool := x.configured && (x.edge = 2 || x.edge = edge)

/-- QD_DEFINE's channels can serve their roles. -/
def State.qdChannels (s : State) (d : Nat) (w : W32) : Bool :=
  let x (r : Nat) := (s.chan (4 * d + r)).inp
  (x 0).delivers 2 && (x 1).delivers 2 && (!bit w 11 || (x 2).delivers (b2n (bit w 12))) && (!bit w 14 || (x 3).delivers (b2n (bit w 15)))

/-- QD_DEFINE: accepted, it waits for its boundary. -/
def cmdQdDefine (s : State) (p : List W32) : Res :=
  let w := pw p 1
  let d := bits w 4 0
  let q := s.decAt d
  let c := firstCode
    [(reserved w 0x3FF1F || reserved (pw p 4) 0x7FFF || reserved (pw p 5) 0xFFFFF || bits w 10 9 = 3
        || decide ((pw p 2).toNat < (pw p 3).toNat) || decide ((pw p 2).toNat < (pw p 6).toNat), rcRange),
     (!s.qdChannels d w || (q.state ≠ .off && !bit w 16 && q.cprM1 ≠ (pw p 2).toNat), rcState),
     (s.qdPending d, rcBusy)]
  if c ≠ 0 then fail s c
  else
    let s := s.defer s.whenB 0x0600 p
    okay s ((s.decAt d).status true :: extWords s.boundaryB)

/-- A decoder enters ACQUIRE. -/
def Decoder.acquire (q : Decoder) (now : Int) : Decoder :=
  { q with state := .acquire, unsync := true, knowA := false, knowB := false, dirRev := false, against := false, counts := [], clean := 0,
           spdValid := false, qSince := false, held := [], since := now }

/-- A decoder goes to OFF: what its delayed view still holds is not handled; snapshots taken are still published (R226, R232). -/
def Decoder.stop (q : Decoder) : Decoder := { q.breakSpeed with state := .off, held := [] }

/-- QD_DEFINE at its boundary. -/
def State.applyQd (s : State) (p : List W32) : State :=
  let w := pw p 1
  let d := bits w 4 0
  let gated := s.pwr.gated.testBit (d / 8)
  let before := (s.decAt d).rev
  let s := s.modDec d fun q =>
    let off := q.state = .off
    let q := { q with sense := bit w 17, stbEdge := bit w 15, stbEn := bit w 14, homeArm := bit w 13, idxEdge := bit w 12, idxEn := bit w 11,
                      indexPol := bits w 10 9, en := bit w 8, cprM1 := (pw p 2).toNat, indexPos := (pw p 3).toNat,
                      qwin := bits (pw p 4) 14 0, glt := bits (pw p 5) 19 0 }
    let q := if !q.en then q.stop
      else if off then { (if gated then q else q.acquire s.now) with snapNew := false }
      else q
    if bit w 16 then { q with pos := (pw p 6).toNat, rev := pw p 7, unsync := false } else q
  s.qdWrap d before

/-- QD_READ. -/
def cmdQdRead (s : State) (p : List W32) : Res :=
  let d := bits (pw p 1) 4 0
  let q := s.decAt d
  let c := firstCode [(reserved (pw p 1) 0x1F, rcRange), (!q.snapNew, rcNotReady)]
  if c ≠ 0 then fail s c
  else
    okay s ([q.snapSeq, q.status (s.qdPending d), w32 q.snap.pos, q.snap.rev, w32 q.snap.frac, w32 q.span, w32 (q.span / 2 ^ 32)]
      ++ dtcWords q.snap.time ++ [q.qerr, q.mismatch, q.idxDiff, w32 q.logWr])

end Sys2Proof.Machine
end

