-- ==== Sys2Proof/Machine/Rtc.lean ====
section
/-! DEFINITION. The calendar clock and its commands, and the PPSIN edge that can anchor it (R447 to R453). -/
namespace Sys2Proof.Machine

/-! Readings (R449, R450). -/

/-- Counts per second, and counts after which RTC_SEC wraps. -/
def rtcHz : Nat := 32768
def rtcMod : Nat := 2 ^ 47

/-- XCLK counts with the trim: one dropped or inserted every ⌊2^20 / |n|⌋. -/
def trimmed (trim : BitVec 8) (k : Nat) : Nat :=
  let n := trim.toInt
  if n = 0 ∨ n = -128 then k else if 0 < n then k - k / (2 ^ 20 / n.natAbs) else k + k / (2 ^ 20 / n.natAbs)

/-- The count of a FREE clock at an instant. -/
def Rtc.freeAtCount (r : Rtc) (now : Nat) : Nat :=
  if r.dead then 0
  else if r.xtalRuns then (r.freeCount + trimmed r.trim (Config.xclk now - Config.xclk r.freeAt)) % rtcMod
  else r.freeCount

/-- Seconds and subsecond now. -/
def State.rtcNow (s : State) : Nat × Nat :=
  match s.rtc.slaved with
  | some (sec, d) =>
    let x := (s.ext : Int) - d
    ((((sec : Int) + x / (secondTq : Int)) % 2 ^ 32).toNat, (x % (secondTq : Int) * 32768 / (secondTq : Int)).toNat)
  | none =>
    let k := s.rtc.freeAtCount s.now
    (k / rtcHz, k % rtcHz)

def State.modRtc (s : State) (f : Rtc → Rtc) : State := { s with rtc := f s.rtc }

/-- The reading becomes the count of a FREE clock. -/
def State.rtcFree (s : State) : State :=
  let t := s.rtcNow
  s.modRtc fun r => { r with slaved := none, freeCount := t.1 * rtcHz + t.2, freeAt := s.now }

/-- RTC_STATUS. -/
def Rtc.status (r : Rtc) : W32 :=
  w32 (put 6 1 (b2n r.bkpLost) + put 5 1 (b2n r.onVbat) + put 4 1 (b2n r.xtalFail) + put 3 1 (b2n r.trimValid)
    + put 2 1 (b2n r.armed.isSome) + put 1 1 (b2n r.slaved.isSome) + b2n r.set)

/-- RTC_OFS_NEXT. -/
def Rtc.ofsNextWord (r : Rtc) : W32 := w32 (put 31 1 (b2n r.ofsPend) + r.ofsNext.toNat)

/-- The register at a BAR0 offset of the RTC. -/
def State.rtcReg (s : State) (o : Nat) : Option W32 :=
  let r := s.rtc
  let t := s.rtcNow
  if 0x10400 ≤ o ∧ o < 0x1042C then
    ([w32 t.1, w32 t.2, r.secLat, w32 r.offset.toNat, r.ofsNextWord, r.ofsAt, r.status, w32 r.trim.toNat] ++ dtcWords r.anchor)[(o - 0x10400) / 4]?
  else none

/-- A read of RTC_SUB latches the seconds (R451). -/
def State.rtcLatch (s : State) : State × Nat :=
  let t := s.rtcNow
  (s.modRtc fun r => { r with secLat := w32 t.1 }, t.2)

/-- RTC_SUB_READ. -/
def execRtcSubRead (s : State) : Host.Outcome State Fault Refusal :=
  let r := s.rtcLatch
  .next (r.1.readReturns (w32 r.2))

/-! Settings (R453). -/

/-- What each setting mode does: SET, BKP_LOST, XTAL_FAIL where XCLK runs, the offset it carries. -/
def State.rtcWasSet (s : State) (ofs : Option (BitVec 16)) : State :=
  s.modRtc fun r =>
    let back := r.xtalRuns || Config.xclkRuns s.now
    { r with set := true, bkpLost := false, xtalFail := r.xtalFail && !back, xtalRuns := back, offset := ofs.getD r.offset, armed := none }

/-- The clock set and SLAVED at a second mark. -/
def State.rtcSlave (s : State) (sec : Nat) (mark : Int) (ofs : Option (BitVec 16)) : State :=
  (s.modRtc fun r =>
    { r with slaved := some (sec, mark), anchor := unsigned 80 mark, slavedAt := s.now }).rtcWasSet ofs

/-- An armed setting applies at a mark. -/
def State.rtcApply (s : State) (a : RtcArmed) (mark : Int) : State :=
  s.rtcSlave a.sec mark (if a.setOffset then some a.offset else none)

/-- SECOND_MARK: the next second mark, or the one that an armed setting waits for. -/
def execSecondMark (s : State) : Host.Outcome State Fault Refusal :=
  if s.pwr.startup = .held then .next s
  else
    let at_ (x : Nat) : State := s.runTo ((x : Int) - s.off).toNat
    match s.rtc.armed with
    | some ⟨.mark x, sec, so, ofs⟩ =>
      let m := if s.ext ≤ x then x else s.ext / secondTq * secondTq
      .next ((at_ m).rtcApply ⟨.mark x, sec, so, ofs⟩ m)
    | _ => .next (at_ (secondFrom (s.ext + 1)))

/-- A qualified edge in the window anchors an armed AT_PPS at its second mark. -/
def State.rtcPps (s : State) (c : Nat) : State :=
  match s.rtc.armed with
  | some ⟨.pps, sec, so, ofs⟩ =>
    if s.pps.mode ≠ 0 ∧ s.pps.state = 1 then s.rtcApply ⟨.pps, sec, so, ofs⟩ (nearestSecond ((c : Int) - s.pps.comp)) else s
  | _ => s

/-- PPS_EDGE: after dt; `high` says that the level stayed for 20 ns (R45). -/
def execPpsEdge (dt : Nat) (high : Bool) (s : State) : Host.Outcome State Fault Refusal :=
  if s.pwr.startup = .held then .next s
  else
    let s := s.advance dt
    let q := s.ppsQualified high
    let c := s.ppsStamp
    let s := s.ppsEdge high
    .next (if q then s.rtcPps c else s)

/-- A DTC step moves the anchor (R449). -/
def Rtc.stepBy (r : Rtc) (d : Int) : Rtc :=
  match r.slaved with
  | some (sec, a) => { r with slaved := some (sec, a + d), anchor := unsigned 80 (a + d) }
  | none => r

/-! Events of the backup domain. -/

/-- RTC_OFFSET_APPLY: the pending offset is in force from the second in RTC_OFS_AT; a SLAVED clock says when that starts. -/
def execRtcOffsetApply (s : State) : Host.Outcome State Fault Refusal :=
  if !s.rtc.ofsPend then .next s
  else
    let s := match s.rtc.slaved with
      | some (sec, d) => s.runTo (d + ((s.rtc.ofsAt.toNat : Int) - (sec : Int)) % 2 ^ 32 * (secondTq : Int) - s.off).toNat
      | none => s
    .next (s.modRtc fun r => { r with offset := r.ofsNext, ofsPend := false })

/-- RTC_TRIM_MEASURE: after 1,000 s slaved, firmware writes the nearest trim (R450). -/
def execRtcTrimMeasure (trim : Int) (s : State) : Host.Outcome State Fault Refusal :=
  if s.rtc.slaved.isNone ∨ !s.pwr.mcUp then .next s
  else
    let s := s.runTo (s.rtc.slavedAt + 1000 * secondTq)
    .next (s.modRtc fun r => { r with trim := BitVec.ofInt 8 (clampInt (-127) 127 trim), trimValid := true })

/-- XTAL_FAIL: no XCLK edge for 1 ms while main power is present; a FREE clock stops (R450). -/
def execXtalFail (s : State) : Host.Outcome State Fault Refusal :=
  if s.rtc.dead ∨ s.rtc.vbatNow ∨ !s.rtc.xtalRuns then .next s
  else
    let s := if s.rtc.slaved.isNone then s.rtcFree else s
    .next (s.modRtc fun r => { r with xtalFail := true, xtalRuns := false })

/-- BACKUP_SWITCH (R447). -/
def execBackupSwitch (vbat : Bool) (s : State) : Host.Outcome State Fault Refusal :=
  .next (s.modRtc fun r => { r with vbatNow := vbat, onVbat := r.onVbat || vbat })

/-! Commands. -/

/-- Refusals of TS_RTC_SET. -/
def rtcSetCheck (s : State) (p : List W32) : Nat :=
  let mode := bits (pw p 1) 1 0
  firstCode [
    (reserved (pw p 1) 0xFFFF0013 || reserved (pw p 3) 0x7FFF || (mode ≠ 0 && pw p 3 ≠ 0)
      || (mode = 3 && pw p 2 ≠ 0 && decide ((pw p 2).toNat ≤ s.rtcNow.1)), rcRange),
    ((mode = 1 || mode = 2) && s.pwr.startup ≠ .ready, rcNotReady),
    (mode = 2 && s.pps.mode = 0, rcState),
    (s.rtc.armed.isSome, rcBusy)]

/-- TS_RTC_SET. -/
def cmdTsRtcSet (s : State) (p : List W32) : Res :=
  let w := pw p 1
  let mode := bits w 1 0
  let k := rtcSetCheck s p
  if k ≠ 0 then fail s k
  else
    let ofs : BitVec 16 := BitVec.ofNat 16 (bits w 31 16)
    let sec := (pw p 2).toNat
    let arm (x : RtcWait) : State := s.modRtc fun r => { r with armed := some ⟨x, sec, bit w 4, ofs⟩ }
    match mode with
    | 0 =>
      let s := s.modRtc fun r => { r with slaved := none, freeCount := sec * rtcHz + (pw p 3).toNat, freeAt := s.now }
      let s := s.rtcWasSet (if bit w 4 then some ofs else none)
      okay s [s.rtc.status, 0, 0, 0]
    | 1 =>
      let m := secondFrom (s.ext + msTq)
      let s := arm (.mark m)
      okay s (s.rtc.status :: extWords m)
    | 2 =>
      let s := arm .pps
      okay s [s.rtc.status, 0, 0, 0]
    | _ =>
      let s := s.modRtc fun r =>
        if sec = 0 then { r with offset := ofs, ofsPend := false } else { r with ofsPend := true, ofsNext := ofs, ofsAt := pw p 2 }
      okay s [s.rtc.status, 0, 0, 0]

/-- TS_RTC_READ. -/
def cmdTsRtcRead (s : State) : Res :=
  let r := s.rtcLatch
  okay r.1 ([r.1.rtc.secLat, w32 r.2, w32 r.1.rtc.offset.toNat, r.1.rtc.status] ++ dtcWords r.1.tb.dtc)

end Sys2Proof.Machine
end

