-- ==== Sys2Proof/Machine/Secure.lean ====
section
/-! DEFINITION. The Detrix module: sessions, frames, records, seal, firmware slots, audit, tamper and zeroisation (chapter 16). -/
namespace Sys2Proof.Machine

/-! Return codes of R416. -/

def rcNoFrame : Nat := 0x10
def rcSession : Nat := 0x11
def rcRollback : Nat := 0x12
def rcZeroized : Nat := 0x13
def rcLockout : Nat := 0x14

/-! Registers (Table 16-9). -/

def SecState.code : SecState → Nat
  | .boot => 0
  | .error => 1
  | .unowned => 2
  | .operational => 3
  | .zeroized => 4

/-- SEC_STATUS. -/
def Sec.status (x : Sec) : W32 :=
  w32 (put 16 8 x.svnMin + put 12 1 (b2n x.fallback) + put 11 1 (b2n x.updatePending) + put 10 1 (b2n (!x.locks.isEmpty))
    + put 9 1 (b2n (vget x.sess 1).isSome) + put 8 1 (b2n (vget x.sess 0).isSome) + put 7 1 (b2n x.sealHash.isSome)
    + put 5 2 x.debug + put 4 1 (b2n x.slotB) + x.state.code)

/-- SEC_TAMPER. -/
def Tamper.word (t : Tamper) : W32 :=
  w32 (put 16 4 t.extResp + put 12 4 t.extEn + put 8 1 (b2n t.keystoreLost) + put 0 8 t.latched)

/-- SEC_FW_SVN. -/
def Sec.svnWord (x : Sec) : W32 :=
  let v (f : FwSlot) : Nat := if f.valid then f.svn else 0xFF
  w32 (put 16 8 (v x.fwB) + put 8 8 (v x.fwA) + put 0 8 x.svnRun)

/-- The register at a BAR0 offset of the SEC block; the doorbells read 0. -/
def State.secReg (s : State) (o : Nat) : Option W32 :=
  if 0x90000 ≤ o ∧ o < 0x9002C then
    [s.sec.status, s.tamper.word, s.tamper.time0, w32 s.tamper.time1, 0, 0, 0, 0, w32 s.sec.rctr, w32 s.sec.auditWr, s.sec.svnWord][(o - 0x90000) / 4]?
  else none

def State.modSec (s : State) (f : Sec → Sec) : State := { s with sec := f s.sec }

/-- Bytes of words, low byte first. -/
def wordBytes (l : List W32) : List Byte := l.flatMap fun w => natBytes 4 w.toNat

/-- SHA-384 over words. -/
def shaWords (l : List W32) : BitVec 384 := Config.sha384 (wordBytes l)

/-! Reports and audit (R425, R429). -/

/-- A report of class SECURE; codes 3 and 4 carry SEC_TAMPER. Nothing is logged while the log has no power. -/
def State.secReport (s : State) (code mb : Nat) : State :=
  if s.pwr.startup = .held then s
  else s.report 12 code mb s.sec.status (if code = 3 ∨ code = 4 then s.tamper.word else 0)

/-- An audit entry; after the loss of the audit key none can be written. -/
def State.audit (s : State) (kind role key code : Nat) (arg0 arg1 : W32) : State :=
  if !s.sec.keys then s
  else
    let t := s.rtcNow
    s.modSec fun x =>
      let seq := (x.auditWr + 1) % 2 ^ 32
      { x with auditWr := seq
               audit := ({ seq := seq, kind := kind, role := role, key := key, code := code, tai := t.1, sub := t.2, arg0 := arg0, arg1 := arg1,
                           dtc := s.tb.dtc } : AuditEntry) :: x.audit.take 16383 }

/-- The eight words of an entry. -/
def AuditEntry.words (e : AuditEntry) : List W32 :=
  [w32 e.seq, w32 (put 24 8 e.kind + put 16 8 e.role + put 8 8 e.key + put 0 8 e.code), w32 e.tai, w32 (put 0 15 e.sub), e.arg0, e.arg1,
   w32 e.dtc, w32 (e.dtc / 2 ^ 32)]

/-! Requests. -/

def SecReq.opcode (r : SecReq) : Nat := bits r.header 31 16
def SecReq.len (r : SecReq) : Nat := bits r.header 15 8
def SecReq.seq (r : SecReq) : Nat := bits r.header 7 0
/-- Payload word k. -/
def SecReq.w (r : SecReq) (k : Nat) : W32 := pw r.words k

/-- SESSION: word 2 of SEC_SESSION_OPEN, word 1 of the other commands (Table 16-5). -/
def SecReq.session (r : SecReq) : W32 := r.w (if r.opcode = 0x0F00 then 2 else 1)

/-- Session slot of a mailbox. -/
def SecReq.slot (r : SecReq) : Nat := r.mb - 6

/-- An audit entry of a command. -/
def State.auditReq (s : State) (r : SecReq) (kind role key code : Nat) : State :=
  s.audit kind role key code (w32 r.opcode) (w32 r.seq)

/-! Frames on QP3 (R415). -/

/-- Frames at the head that do not match are dropped: how many, and the words that stay. -/
def dropFrames (mb seq : Nat) : Nat → List W32 → Nat × List W32
  | 0, l => (0, l)
  | _ + 1, [] => (0, [])
  | n + 1, w :: l =>
    let nw := bits w 27 16
    let rest : Option (List W32) :=
      if bits w 31 28 ≠ 10 then some l
      else if bits w 15 8 = mb ∧ bits w 7 0 = seq then none
      else if l.length < nw then none
      else some (l.drop nw)
    match rest with
    | none => (0, w :: l)
    | some l =>
      let x := dropFrames mb seq n l
      (x.1 + 1, x.2)

/-- H2D words of QP3 replaced by what is left of them. -/
def State.h2dLeft (s : State) (l : List W32) : State :=
  s.modQp 3 fun q => 
    { q with h2d := q.h2d.drop (q.h2d.length - l.length), h2dCons := q.h2dCons + w32 (q.h2d.length - l.length) }

/-- At the start of a service the frames of others at the head are discarded and counted. -/
def State.dropOthers (s : State) (r : SecReq) : State :=
  let q := (s.qpAt 3).h2d
  let x := dropFrames r.mb r.seq q.length q
  (s.h2dLeft x.2).modQp 3 fun q => { q with framesRej := satAdd 255 q.framesRej x.1 }

/-- The frame of a command, header first, if it is at the head and complete. -/
def State.headFrame (s : State) (r : SecReq) : Option (List W32) :=
  match (s.qpAt 3).h2d with
  | [] => none
  | w :: l =>
    let nw := bits w 27 16
    if bits w 31 28 = 10 ∧ bits w 15 8 = r.mb ∧ bits w 7 0 = r.seq ∧ nw ≤ l.length then some (w :: l.take nw) else none

/-- The frame of a command is taken out of the queue. -/
def State.takeFrame (s : State) (f : List W32) : State := s.h2dLeft ((s.qpAt 3).h2d.drop f.length)

/-- A reply frame of n data words fits. -/
def State.frameFits (s : State) (n : Nat) : Bool := decide (n ≤ 1023 ∧ (s.qpAt 3).d2h.length + n + 1 ≤ 1024)

/-- A reply frame written whole; a service runs only where its frame fits. -/
def State.replyFrame (s : State) (r : SecReq) (l : List W32) : State :=
  let f := w32 (put 28 4 10 + put 16 12 l.length + put 8 8 r.mb + r.seq) :: l
  s.modQp 3 fun q =>
    if q.d2h.length + f.length ≤ 1024 then
      { q with d2h := q.d2h ++ f, d2hProd := q.d2hProd + w32 f.length, d2hFrames := q.d2hFrames ++ [(r.mb, f.length)] }
    else q

/-- A frame for a mailbox waits among the words of the H2D queue. -/
def frameFor (mb : Nat) : Nat → List W32 → Bool
  | 0, _ => false
  | _ + 1, [] => false
  | n + 1, w :: l => (bits w 31 28 = 10 && bits w 15 8 = mb) || frameFor mb n (l.drop (if bits w 31 28 = 10 then bits w 27 16 else 0))

/-- QP_SEC_STAT. -/
def State.secStat (s : State) : W32 :=
  let q := s.qpAt 3
  let d (m : Nat) : Bool := q.d2hFrames.any fun f => f.1 = m
  let h (m : Nat) : Bool := frameFor m q.h2d.length q.h2d
  w32 (put 11 1 (b2n (d 7)) + put 10 1 (b2n (d 6)) + put 9 1 (b2n (h 7)) + put 8 1 (b2n (h 6)) + put 0 8 q.framesRej)

/-! Sessions (R412 to R414). -/

/-- Index of a role and key, as a byte of the signed text. -/
def keyIndex (role key : Nat) : Nat := 16 * role + key

def State.setSess (s : State) (k : Nat) (x : Option Session) : State := s.modSec fun y => { y with sess := vset y.sess k x }

/-- A session closes. -/
def State.closeSess (s : State) (k code : Nat) (arg0 arg1 : W32) : State :=
  match vget s.sec.sess k with
  | none => s
  | some x => (s.setSess k none).audit 1 x.role x.key code arg0 arg1

/-- What the MAC of a command covers: counter, header, words before it, frame. -/
def macText (x : Session) (r : SecReq) (frame : List W32) : List Byte :=
  wordBytes (x.counter :: r.header :: ((List.range (r.len - 4)).map fun i => r.w (i + 1)) ++ frame)

/-- The MAC that a command of a session must carry: the first 128 bits of the HMAC. -/
def macOf (x : Session) (r : SecReq) (frame : List W32) : List W32 := (words384 (Config.hmac384 x.sk (macText x r frame))).take 4

/-- The command carries it. -/
def macOk (x : Session) (r : SecReq) (frame : List W32) : Bool :=
  ((List.range 4).map fun i => r.w (r.len - 3 + i)) == macOf x r frame

/-- An answer: the state after it, its code and reply words. -/
abbrev Answer := State × Nat × List W32

/-- A refusal. -/
def refuse (s : State) (code : Nat) : Answer := (s, code, [])

/-- A command that names a session: its first refusals, session, frame, MAC, role; then its effect on the frame's data words. -/
def State.inSession (s : State) (r : SecReq) (user needs : Bool) (code : Nat) (f : State → Session → List W32 → Answer) : Answer :=
  if code ≠ 0 then refuse s code
  else match vget s.sec.sess r.slot with
    | none => refuse s rcSession
    | some x =>
      if w32 x.handle ≠ r.session then refuse s rcSession
      else
        let fr := if needs then s.headFrame r else some []
        match fr with
        | none => refuse s rcNoFrame
        | some fr =>
          let s := s.takeFrame fr
          if !macOk x r fr then
            let s := s.secReport 2 r.mb
            refuse (s.closeSess r.slot rcIntegrity (w32 r.opcode) (w32 r.seq)) rcIntegrity
          else
            let x := { x with counter := x.counter + 1, lastAt := s.now }
            let s := s.setSess r.slot (some x)
            if x.role ≠ 1 ∧ !user then refuse s rcDenied else f s x (fr.drop 1)

/-- SEC_SESSION_OPEN CHALLENGE. -/
def secChallenge (s : State) (r : SecReq) : Answer :=
  let c := firstCode [(reserved (r.w 1) 0, rcRange), (s.sec.state ≠ .unowned && s.sec.state ≠ .operational, rcState)]
  if c ≠ 0 then refuse s c
  else
    let n := Config.drbg s.sec.drbg
    (s.modSec fun x => { x with drbg := x.drbg + 1, nonce := vset x.nonce r.slot (some (n, s.now)), lastNonce := n }, rcOk, words384 n)

/-- The digest that a role key signs (R412, step 2). -/
def openDigest (nonce : BitVec 384) (role key : Nat) (eph : List W32) : BitVec 384 :=
  Config.sha384 (wordBytes (words384 nonce) ++ natBytes 8 Config.serial.toNat ++ [BitVec.ofNat 8 (keyIndex role key)] ++ (wordBytes eph).take 97)

/-- The nonce of a mailbox while it is valid: for 10 s. -/
def State.validNonce (s : State) (k : Nat) : Option (BitVec 384) :=
  match vget s.sec.nonce k with
  | some (n, t) => if s.now ≤ t + 10 * secondTq then some n else none
  | none => none

/-- Failed OPENs of a key index; the fifth locks it for 10 s (R413). -/
def State.openFailed (s : State) (i : Nat) : State :=
  let n := ((s.sec.fails.find? fun x => x.1 = i).elim 0 Prod.snd) + 1
  let others := s.sec.fails.filter fun x => x.1 ≠ i
  if n < 5 then s.modSec fun x => { x with fails := others ++ [(i, n)] }
  else s.modSec fun x => { x with fails := others, locks := (x.locks.filter fun y => y.1 ≠ i) ++ [(i, s.now + 10 * secondTq)] }

/-- A locked index. -/
def Sec.locked (x : Sec) (i : Nat) : Bool := x.locks.any fun y => y.1 = i

/-- A session opened: key agreement, handle, reply frame (R412, steps 3 and 4). -/
def State.openSess (s : State) (r : SecReq) (role key : Nat) (nonce : BitVec 384) (eph : List W32) : Answer :=
  let n := s.sec.drbg
  let own := (Config.ephemeral n).take 25 ++ List.replicate (25 - (Config.ephemeral n).length) 0
  let t := Config.sha384 (wordBytes (words384 nonce ++ eph ++ own))
  let sig := (Config.sign t (n + 1)).take 24 ++ List.replicate (24 - (Config.sign t (n + 1)).length) 0
  let h := s.sec.handles + 1
  let x : Session := { handle := h, role := role, key := key, sk := Config.sessionKey n eph t, counter := 1, lastAt := s.now, blob := [] }
  let s := s.modSec fun y => { y with drbg := n + 2, handles := h, fails := y.fails.filter fun z => z.1 ≠ keyIndex role key }
  let s := (s.setSess r.slot (some x)).auditReq r 1 role key rcOk
  (s.replyFrame r (own ++ sig), rcOk, [w32 h])

/-- SEC_SESSION_OPEN OPEN; in UNOWNED it takes ownership. -/
def secOpen (s : State) (r : SecReq) : Answer :=
  let role := bits (r.w 1) 9 8
  let key := bits (r.w 1) 14 12
  let i := keyIndex role key
  let take := s.sec.state = .unowned
  let c := firstCode
    [(reserved (r.w 1) 0x730F || role = 0 || role = 3 || (role = 1 && key ≠ 0) || key = 7, rcRange),
     ((s.sec.state ≠ .operational && !take) || (take && role ≠ 1), rcState),
     ((vget s.sec.sess r.slot).isSome, rcBusy),
     (!s.frameFits 49, rcResource)]
  if c ≠ 0 then refuse (refused s role key c) c
  else if s.sec.locked i then
    refuse ((s.modSec fun x => { x with locks := x.locks.map fun y => if y.1 = i then (i, s.now + 10 * secondTq) else y }).auditReq r 1 role key rcLockout) rcLockout
  else match s.headFrame r with
    | none => refuse (refused s role key rcNoFrame) rcNoFrame
    | some fr =>
      let s := s.takeFrame fr
      let d := fr.drop 1
      let pub := if take then some (d.take 25) else if role = 1 then s.sec.coKey else vget s.sec.userKeys key
      let d := if take then d.drop 25 else d
      let eph := d.take 25
      let nonce := s.validNonce r.slot
      let s := s.modSec fun x => { x with nonce := vset x.nonce r.slot none }
      match pub, nonce with
      | some k, some n =>
        if Config.verify k (openDigest n role key eph) (d.drop 25) then
          let s := if take then
              (s.modSec fun x => { x with state := .operational, coKey := some k }).auditReq r 10 role key rcOk else s
          s.openSess r role key n eph
        else failed s i role key
      | _, _ => failed s i role key
where
  /-- A session refused by a module that opens sessions is an audit entry (R425). -/
  refused (s : State) (role key code : Nat) : State :=
    if s.sec.state = .unowned ∨ s.sec.state = .operational then s.auditReq r 1 role key code else s
  failed (s : State) (i role key : Nat) : Answer :=
    refuse (((s.openFailed i).secReport 1 r.mb).auditReq r 1 role key rcIntegrity) rcIntegrity

/-- SEC_SESSION_OPEN CLOSE. -/
def secClose (s : State) (r : SecReq) : Answer :=
  s.inSession r true false (firstCode [(reserved (r.w 1) 0x730F, rcRange), (s.sec.state ≠ .operational, rcState)]) fun s _ _ =>
    (s.closeSess r.slot rcOk (w32 r.opcode) (w32 r.seq), rcOk, [])

/-- SEC_SESSION_OPEN ENROLL: a User public key enters an empty slot. -/
def secEnroll (s : State) (r : SecReq) : Answer :=
  let key := bits (r.w 1) 14 12
  let c := firstCode
    [(reserved (r.w 1) 0x730F || bits (r.w 1) 9 8 ≠ 2 || key = 7, rcRange),
     (s.sec.state ≠ .operational || (vget s.sec.userKeys key).isSome, rcState)]
  s.inSession r false true c fun s x d =>
    ((s.modSec fun y => { y with userKeys := vset y.userKeys key (some (d.take 25)) }).auditReq r 2 x.role key rcOk, rcOk, [])

/-- SEC_SESSION_OPEN REMOVE. -/
def secRemove (s : State) (r : SecReq) : Answer :=
  let key := bits (r.w 1) 14 12
  let c := firstCode
    [(reserved (r.w 1) 0x730F || bits (r.w 1) 9 8 ≠ 2 || key = 7, rcRange), (s.sec.state ≠ .operational, rcState)]
  s.inSession r false false c fun s x _ =>
    ((s.modSec fun y => { y with userKeys := vset y.userKeys key none }).auditReq r 2 x.role key rcOk, rcOk, [])

/-! Restojor records (R418 to R420). -/

/-- ref_lock was 1 from an instant until now. -/
def State.lockHeld (s : State) (since : Int) : Bool :=
  s.refLock && s.st.lockLog.foldl (fun a e => if (e.1 : Int) ≤ since then e.2 else a && e.2) false

/-- Debug access was open at some time from an instant until now. -/
def State.debugIn (s : State) (since : Int) : Bool :=
  s.sec.debug ≠ 0 || match s.sec.debugAt with | some t => decide (since ≤ (t : Int)) | none => false

/-- Word 79. -/
def State.refWord (s : State) (since : Int) : W32 :=
  let r := s.ref.word
  w32 (s.ref.state.code + put 4 2 (bits r 5 4) + put 6 2 (bits r 1 0) + put 8 1 (b2n (s.lockHeld since)) + put 10 2 s.pps.state
    + put 12 1 (b2n (decide (s.pps.mode ≠ 0))) + put 16 3 s.bx.align.code + put 20 4 (s.bx.devnum.getD 0xF)
    + put 24 1 (b2n s.bx.devnum.isSome))

/-- Word 80. -/
def State.traceWord (s : State) (since : Int) : W32 :=
  w32 (min s.st.trace (s.minTrace since) + put 2 2 s.st.trace + put 4 1 (b2n s.st.baseline) + put 5 1 (b2n s.st.serviceDue)
    + put 6 1 (b2n (s.debugIn since)))

/-- Words 85 to 92. -/
def State.confWords (s : State) (mask : Nat) (since : Int) : List W32 :=
  (List.range 8).map fun k =>
    w32 ((List.range 16).foldl (fun a j => a + if mask.testBit (16 * k + j) then put (2 * j) 2 (confCode (s.minConfOf (16 * k + j) since)) else 0) 0)

/-- Words 0 to 114 of a record (Table 16-6); `since` and `start` are the instant and the DTC of INTERVAL_START. -/
def State.recordHead (s : State) (type role key mask : Nat) (since : Int) (start : Nat) (digest : BitVec 384) (bytes : Nat) : List W32 :=
  let t := s.rtcNow
  [0x52455354, w32 (1 + put 16 8 type), w32 (460 + bytes + 96)]
    ++ numWords 2 Config.serial.toNat
    ++ [w32 (0x4128 + put 16 4 1 + put 20 1 (b2n Config.gradeE)), w32 s.sec.rctr]
    ++ words384 s.sec.fwHash
    ++ ([0, 1, 2, 3] : List Nat).flatMap (fun c => (s.me c).hash.toList)
    ++ (match s.sec.sealHash with | some h => words384 h | none => List.replicate 12 0)
    ++ [s.refWord since, s.traceWord since] ++ numWords 4 mask ++ s.confWords mask since
    ++ dtcWords start ++ dtcWords s.tb.dtc
    ++ [w32 t.1, w32 (t.2 + put 15 1 (b2n s.rtc.set) + put 16 16 s.rtc.offset.toNat)]
    ++ words384 digest ++ [w32 bytes, w32 (1 + put 8 8 role + put 16 8 key)]

/-- A record signed: the counter moves on, the audit log notes it, the reply frame holds `before` and the record. -/
def State.signRecord (s : State) (r : SecReq) (x : Session) (type mask : Nat) (since : Int) (start : Nat) (data before : List W32)
    (embed : Bool) : State × List W32 :=
  let s := s.modSec fun y => { y with rctr := y.rctr + 1 }
  let l := s.recordHead type x.role x.key mask since start (shaWords data) (if embed then 4 * data.length else 0) ++ (if embed then data else [])
  let sig := Config.sign (shaWords l) s.sec.drbg
  let l := l ++ sig.take 24 ++ List.replicate (24 - sig.length) 0
  let s := s.modSec fun y => { y with drbg := y.drbg + 1 }
  ((s.audit 3 x.role x.key rcOk (w32 s.sec.rctr) 0).replyFrame r (before ++ l), l)

/-- Words of a detached record, and of a RESULT record. -/
def detachedWords : Nat := 139
def resultWords : Nat := 169

/-- RCTR can still move on (R419). -/
def Sec.exhausted (x : Sec) : Bool := decide (2 ^ 32 - 1 ≤ x.rctr)

/-- SEC_SIGN_RECORD SLOT. -/
def secSignSlot (s : State) (r : SecReq) : Answer :=
  let n := bits (r.w 2) 24 16
  let k := s.slotAt n
  let c := firstCode
    [(reserved (r.w 2) 0x1FF0003 || s.sec.exhausted, rcRange), (!k.published, rcNotReady), (s.sec.state ≠ .operational, rcState),
     (!s.frameFits resultWords, rcResource)]
  s.inSession r true false c fun s x _ =>
    let mask := idxMask (k.chA :: if k.usesB then [k.chB] else [])
    let y := s.signRecord r x 1 mask k.resFrom (dtcOf (k.res.getD 3 0) (k.res.getD 4 0) (k.res.getD 5 0)) (k.res.take 30) [] true
    (y.1, rcOk, [w32 y.1.sec.rctr, w32 (4 * resultWords)])

/-- SEC_SIGN_RECORD BLOB_PART. -/
def secBlobPart (s : State) (r : SecReq) : Answer :=
  let c := firstCode [(reserved (r.w 2) 0x1FF0003, rcRange), (s.sec.state ≠ .operational, rcState)]
  s.inSession r true true c fun s x d =>
    let x := { x with blob := x.blob ++ d }
    (s.setSess r.slot (some x), rcOk, [w32 (4 * x.blob.length)])

/-- INTERVAL_START of a BLOB record, extended: the latest time with these 80 bits that is not in the future. -/
def State.blobStart (s : State) (r : SecReq) : Nat :=
  let v := dtcOf (r.w 3) (r.w 4) (r.w 5)
  v + s.tb.wraps * dtcMod

/-- SEC_SIGN_RECORD BLOB_END. -/
def secBlobEnd (s : State) (r : SecReq) : Answer :=
  let start := s.blobStart r
  let empty : Bool := match vget s.sec.sess r.slot, s.headFrame r with
    | some x, some f => x.blob.isEmpty && f.length = 1
    | _, _ => false
  let c := firstCode
    [(reserved (r.w 2) 0x1FF0003 || reserved (r.w 5) 0xFFFF || s.sec.exhausted
        || decide (s.ext < start ∨ start + 3600 * secondTq < s.ext), rcRange),
     (empty, rcNotReady), (s.sec.state ≠ .operational, rcState), (!s.frameFits detachedWords, rcResource)]
  s.inSession r true true c fun s x d =>
    let mask := (r.w 6).toNat + (r.w 7).toNat * 2 ^ 32 + (r.w 8).toNat * 2 ^ 64 + (r.w 9).toNat * 2 ^ 96
    let y := s.signRecord r x 4 mask ((start : Int) - s.off) (start % dtcMod) (x.blob ++ d) [] false
    (y.1.setSess r.slot (some { x with blob := [] }), rcOk, [w32 y.1.sec.rctr, w32 (4 * detachedWords)])

/-! The seal (R143, R424). -/

/-- The items of R143, in the order that `sealValid` reads. -/
def State.sealNow (s : State) (tSeal : Nat) : List W32 :=
  let ch := (List.range 128).map fun n => s.chan n
  let on (c : Channel) : Bool := c.inp.configured || c.out.configured
  let set (p : Channel → Bool) : List W32 := numWords 4 (idxMask ((List.range 128).filter fun n => p (s.chan n)))
  words384 Config.otpHash ++ words384 s.sec.fwHash ++ set on ++ set (fun c => on c && c.cal.outAt.isSome)
    ++ ch.map (fun c => if on c then BitVec.ofInt 32 c.cal.termIn else 0) ++ ch.map (fun c => if on c then BitVec.ofInt 32 c.cal.termOut else 0)
    ++ [w32 tSeal]

/-- SEC_SEAL_CAL SEAL. -/
def secSeal (s : State) (r : SecReq) : Answer :=
  let t := bits (r.w 2) 11 8
  let failed := (List.range 128).any fun n =>
    let c := s.chan n
    (c.inp.configured || c.out.configured) && c.cal.conf = .failed
  let c := firstCode
    [(reserved (r.w 2) 0xF03 || 8 < t || s.sec.exhausted, rcRange),
     (s.sec.state ≠ .operational || failed || [0, 1, 2, 3].any (fun k => s.calRunBusy k || s.tdrBusy k), rcState),
     (!s.frameFits detachedWords, rcResource)]
  s.inSession r false false c fun s x _ =>
    let tq := 32 * if t = 0 then 2 else t
    let l := s.sealNow tq
    let h := shaWords l
    let s := (s.modSec fun y => { y with sealHash := some h, sealItems := l, tSeal := tq }).settle
    let s := s.auditReq r 4 x.role x.key rcOk
    let y := s.signRecord r x 2 (idxMask ((List.range 128).filter fun n => (s.chan n).inp.configured || (s.chan n).out.configured))
      s.now s.tb.dtc l [] false
    (y.1, rcOk, words384 h)

/-- SEC_SEAL_CAL CLEAR. -/
def secSealClear (s : State) (r : SecReq) : Answer :=
  let c := firstCode
    [(reserved (r.w 2) 0xF03 || s.sec.exhausted, rcRange), (s.sec.state ≠ .operational, rcState), (!s.frameFits detachedWords, rcResource)]
  s.inSession r false false c fun s x _ =>
    let s := (s.modSec fun y => { y with sealHash := none, sealItems := [], tSeal := 0 }).settle
    let s := s.auditReq r 4 x.role x.key rcOk
    let y := s.signRecord r x 2 0 s.now s.tb.dtc [] [] false
    (y.1, rcOk, List.replicate 12 0)

/-! The audit log read (R425). -/

/-- SEC_AUDIT_READ. -/
def secAuditRead (s : State) (r : SecReq) : Answer :=
  let l := s.sec.audit.reverse
  let first := (r.w 2).toNat
  let l := (if first = 0 then l else l.filter fun e => decide (first ≤ e.seq)).take 100
  let c := firstCode
    [(s.sec.auditWr < first || s.sec.exhausted, rcRange), (s.sec.state ≠ .operational, rcState),
     (!s.frameFits (8 * l.length + detachedWords), rcResource)]
  s.inSession r true false c fun s x _ =>
    let words := l.flatMap AuditEntry.words
    let newest := s.sec.auditWr
    let y := s.signRecord r x 3 0 s.now s.tb.dtc words words false
    (y.1, rcOk, [w32 (l.head?.elim 0 AuditEntry.seq), w32 l.length, w32 newest])

/-! Tamper and zeroisation (R426, R427). -/

/-- Zeroisation: keys, sessions and the seal are gone; the first latched cause keeps its time; waiting services end. -/
def State.zeroise (s : State) (cause mb : Nat) : State :=
  let t := s.rtcNow
  let s := { s with tamper :=
    { s.tamper with latched := s.tamper.latched ||| cause
                    time0 := if cause ≠ 0 ∧ s.tamper.latched = 0 then w32 t.1 else s.tamper.time0
                    time1 := if cause ≠ 0 ∧ s.tamper.latched = 0 then t.2 else s.tamper.time1 } }
  let s := s.modSec fun x =>
    { x with state := .zeroized, keys := false, coKey := none, userKeys := Vector.replicate 7 none, sess := Vector.replicate 2 none,
             nonce := Vector.replicate 2 none, sealHash := none, rctr := 0, fails := [], locks := [], update := none
             answers := (x.queue.map fun r => ({ mb := r.mb, code := rcZeroized, reply := [] } : SecAnswer)).reverse ++ x.answers
             queue := [] }
  (s.secReport (if cause = 0 then 4 else 3) mb).settle

/-- SEC_ZEROIZE ZEROIZE: it ends the service in progress, which is itself, with ZEROIZED (R417). -/
def secZeroize (s : State) (r : SecReq) : Answer :=
  let c := firstCode [(reserved (r.w 2) 3 || r.w 3 ≠ 0x5A5A0F04, rcRange), (s.sec.state ≠ .operational, rcState)]
  s.inSession r false false c fun s _ _ => refuse (s.zeroise 0 r.mb) rcZeroized

/-- TAMPER_CFG. -/
def secTamperCfg (s : State) (r : SecReq) : Answer :=
  let w := r.w 2
  let c := firstCode [(reserved w 0x1FF03, rcRange), (s.sec.state ≠ .operational, rcState)]
  s.inSession r false false c fun s x _ =>
    let s := { s with tamper :=
      { s.tamper with extEn := bits w 11 8, extResp := bits w 15 12
                      latched := if bit w 16 then 0 else s.tamper.latched
                      time0 := if bit w 16 then 0 else s.tamper.time0
                      time1 := if bit w 16 then 0 else s.tamper.time1
                      active := s.tamper.active &&& (0xF0 ||| bits w 11 8) } }
    let s := s.lines.auditReq r 8 x.role x.key rcOk
    (s, rcOk, [s.tamper.word])

/-- TAMPER_DETECT: sensor k (0 to 3 TAMPER_N, 4 MESH, 5 TEMP, 6 CLOCK, 7 GLITCH) becomes active, or inactive again. -/
def execTamperDetect (k : Fin 8) (on : Bool) (s : State) : Host.Outcome State Fault Refusal :=
  let b := 2 ^ k.val
  if s.rtc.dead ∨ (k.val < 4 ∧ !s.tamper.extEn.testBit k) then .next s
  else if !on then .next { s with tamper := { s.tamper with active := s.tamper.active &&& (0xFF - b) } }.lines
  else
    let s := { s with tamper := { s.tamper with active := s.tamper.active ||| b } }.lines
    if k.val < 4 ∧ !s.tamper.extResp.testBit k then .next (s.audit 9 0 0 0 0 0)
    else .next (s.zeroise b 0)

/-! Firmware update (R423). -/

/-- The slot that is not running. -/
def State.setSpare (s : State) (f : FwSlot) : State := s.modSec fun x => if x.slotB then { x with fwA := f } else { x with fwB := f }

/-- A part of the update that is refused or interrupted leaves the slot invalid. -/
def State.dropUpdate (s : State) : State :=
  if s.sec.update.isNone then s else (s.setSpare FwSlot.empty).modSec fun x => { x with update := none }

/-- SEC_FW_UPDATE BEGIN. -/
def secFwBegin (s : State) (r : SecReq) : Answer :=
  let c := firstCode [(reserved (r.w 2) 3 || decide (0x400000 < (r.w 3).toNat), rcRange), (s.sec.state ≠ .operational, rcState)]
  s.inSession r false false c fun s _ _ =>
    ((s.setSpare FwSlot.empty).modSec fun x => { x with update := some { len := (r.w 3).toNat, words := [] }, updatePending := false, activeB := x.slotB }, rcOk, [])

/-- SEC_FW_UPDATE DATA. -/
def secFwData (s : State) (r : SecReq) : Answer :=
  let bad : Bool := match s.sec.update with
    | some u => decide ((r.w 3).toNat ≠ 4 * u.words.length)
    | none => false
  let c := firstCode
    [(reserved (r.w 2) 3 || bad, rcRange), (s.sec.state ≠ .operational || s.sec.update.isNone, rcState)]
  s.inSession r false true c fun s _ d =>
    match s.sec.update with
    | none => refuse s rcState
    | some u =>
      if 4 * (u.words.length + d.length) < u.len + 4 then
        (s.modSec fun x => { x with update := some { u with words := u.words ++ d } }, rcOk, [])
      else refuse s rcRange

/-- Hash of an image: over header and body. -/
def imageHash (l : List W32) : BitVec 384 := Config.sha384 ((wordBytes l).take (Config.imageLen l))

/-- SEC_FW_UPDATE COMMIT. -/
def secFwCommit (s : State) (r : SecReq) : Answer :=
  let c := firstCode [(reserved (r.w 2) 3, rcRange), (s.sec.state ≠ .operational || s.sec.update.isNone, rcState)]
  s.inSession r false false c fun s x _ =>
    match s.sec.update with
    | none => refuse s rcState
    | some u =>
      let l := u.words
      let k := if !Config.imageOk l then rcIntegrity else if Config.imageSvn l < s.sec.svnMin then rcRollback else rcOk
      if k ≠ rcOk then refuse ((s.dropUpdate.secReport 6 r.mb).auditReq r 5 x.role x.key k) k
      else
        let h := imageHash l
        let s := s.setSpare { valid := true, svn := Config.imageSvn l % 64, hash := h, version := Config.imageVersion l }
        let s := s.modSec fun y => { y with update := none, updatePending := true, activeB := !y.slotB }
        (s.auditReq r 5 x.role x.key rcOk, rcOk, words384 h)

/-- SEC_FW_UPDATE ABORT. -/
def secFwAbort (s : State) (r : SecReq) : Answer :=
  let c := firstCode [(reserved (r.w 2) 3, rcRange), (s.sec.state ≠ .operational || s.sec.update.isNone, rcState)]
  s.inSession r false false c fun s _ _ => (s.dropUpdate, rcOk, [])

/-! Debug access and certificates (R416, R428). -/

/-- SEC_DEBUG_UNLOCK; LEVEL SEC zeroises first, which ends the service. -/
def secDebugUnlock (s : State) (r : SecReq) : Answer :=
  let lvl := bits (r.w 2) 1 0
  let c := firstCode [(reserved (r.w 2) 3 || lvl = 0 || lvl = 3, rcRange), (s.sec.state ≠ .operational, rcState)]
  s.inSession r false true c fun s x d =>
    let k := if !Config.tokenOk d ∨ Config.tokenNonce d ≠ s.sec.lastNonce then rcIntegrity
      else if Config.tokenSerial d ≠ Config.serial ∨ Config.tokenLevel d ≠ lvl ∨ Config.tokenExpiry d < s.rtcNow.1 then rcRange
      else rcOk
    if k ≠ rcOk then refuse (s.auditReq r 6 x.role x.key k) k
    else
      let s := s.auditReq r 6 x.role x.key rcOk
      if lvl = 1 then
        let s := (s.modSec fun y => { y with debug := 1 }).secReport 7 r.mb
        let s := s.settle
        (s, rcOk, [s.sec.status])
      else refuse (((s.zeroise 0 r.mb).modSec fun y => { y with debug := 2 }).secReport 7 r.mb) rcZeroized

/-- SEC_EXPORT_CERT. -/
def secExportCert (s : State) (r : SecReq) : Answer :=
  let k := bits (r.w 1) 1 0
  let l := Config.cert (k = 1)
  let n := cdiv l.length 4
  let st := s.sec.state
  let c := firstCode
    [(reserved (r.w 1) 3 || 1 < k, rcRange), (st ≠ .unowned && st ≠ .operational, rcState), (!s.frameFits n, rcResource)]
  if c ≠ 0 then refuse s c
  else (s.replyFrame r ((List.range n).map fun i => w32 (bytesNat ((l.drop (4 * i)).take 4))), rcOk, [w32 l.length])

/-! The service of a packet. -/

/-- LEN of a secure opcode and operation (Table 16-5); none for an opcode that the table does not have. -/
def secLen (op sub : Nat) : Option Nat :=
  match op with
  | 0x0F00 => some (if sub ≤ 1 then 1 else 6)
  | 0x0F01 => some 13
  | 0x0F02 | 0x0F03 | 0x0F06 => some 6
  | 0x0F04 | 0x0F05 => some 7
  | 0x0F07 => some 1
  | _ => none

/-- One service, after the checks of R376 that come before its own. -/
def secService (s : State) (r : SecReq) : Answer :=
  let sub := bits (r.w 1) 3 0
  let op := bits (r.w 2) 1 0
  match secLen r.opcode sub with
  | none => refuse s (if r.opcode / 256 = 0x0F then rcBadOpcode else rcDenied)
  | some n =>
    if r.len ≠ n then refuse s rcBadLength
    else
      let s := s.dropOthers r
      match r.opcode, sub, op with
      | 0x0F00, 0, _ => secChallenge s r
      | 0x0F00, 1, _ => secOpen s r
      | 0x0F00, 2, _ => secClose s r
      | 0x0F00, 3, _ => secEnroll s r
      | 0x0F00, 4, _ => secRemove s r
      | 0x0F01, _, 0 => secSignSlot s r
      | 0x0F01, _, 1 => secBlobPart s r
      | 0x0F01, _, 2 => secBlobEnd s r
      | 0x0F02, _, 0 => secSeal s r
      | 0x0F02, _, 1 => secSealClear s r
      | 0x0F03, _, _ => secAuditRead s r
      | 0x0F04, _, 0 => secZeroize s r
      | 0x0F04, _, 1 => secTamperCfg s r
      | 0x0F05, _, 0 => secFwBegin s r
      | 0x0F05, _, 1 => secFwData s r
      | 0x0F05, _, 2 => secFwCommit s r
      | 0x0F05, _, _ => secFwAbort s r
      | 0x0F06, _, _ => secDebugUnlock s r
      | 0x0F07, _, _ => secExportCert s r
      | _, _, _ => refuse s rcRange

/-- The services that wait run one at a time, in the order of delivery (R417). -/
def State.secRun (s : State) : State :=
  let rec go : Nat → State → State
    | 0, s => s
    | n + 1, s =>
      match s.sec.queue with
      | [] => s
      | r :: l =>
        let a := secService (s.modSec fun x => { x with queue := l }) r
        go n (a.1.modSec fun x => { x with answers := { mb := r.mb, code := a.2.1, reply := a.2.2 } :: x.answers })
  (go s.sec.queue.length s).lines

/-- Answers in order reach the mailboxes that still wait for them. An answer that comes after its message has timed out is
discarded (R384): of two answers for one mailbox only the later one belongs to the message now taken. -/
def State.secGive (s : State) : List SecAnswer → State
  | [] => s
  | a :: l =>
    let m := s.mbAt a.mb
    if m.state = .taken ∧ m.wait = .secure ∧ ¬ l.any (fun b => b.mb == a.mb) then (s.mbDone a.mb a.code a.reply).secGive l
    else s.secGive l

/-- The module's answers returned (R384). -/
def State.secReturn (s : State) : State :=
  ((s.modSec fun x => { x with answers := [] }).secGive s.sec.answers.reverse).lines

/-- A packet passed to the module; `silent`: it does not answer in time (R384). -/
def State.secDeliver (s : State) (r : SecReq) (silent : Bool) : State :=
  let s := (s.modSec fun x => { x with queue := x.queue ++ [r] }).lines
  if silent then s else s.secRun.secReturn

/-! Doorbells and time limits. -/

/-- A doorbell rung: its source. -/
def State.ring (s : State) (k : Nat) : State := s.raise (249 + k)

/-- The module serves doorbells. -/
def Sec.serves (x : Sec) : Bool := x.state = .unowned || x.state = .operational || x.state = .zeroized

/-- DOORBELL_FRAME. -/
def execDoorbellFrame (s : State) : Host.Outcome State Fault Refusal := .next (s.ring 0)

/-- DOORBELL_SELF_TEST: a failure enters ERROR (R407). -/
def State.selfTest (s : State) (pass : Bool) : State :=
  let s := s.audit 7 0 0 (if pass then rcOk else rcIntegrity) 0 0
  if pass then s
  else ((s.modSec fun x => { x with state := .error, sess := Vector.replicate 2 none }).secReport 5 0).settle

def execDoorbellSelfTest (pass : Bool) (s : State) : Host.Outcome State Fault Refusal :=
  let s := s.ring 1
  .next (if s.sec.serves then s.selfTest pass else s)

/-- DOORBELL_CLOSE_SESSIONS. -/
def execDoorbellCloseSessions (s : State) : Host.Outcome State Fault Refusal :=
  let s := s.ring 2
  .next (if s.sec.serves then (s.closeSess 0 rcOk 0 0).closeSess 1 rcOk 0 0 else s)

/-- Locking an open debug port: no debugger holds the management core from then on, and the change is audited (R428, R429). -/
def State.lockDebug (s : State) : State :=
  if s.sec.debug = 0 then s
  else
    let s := s.timSyncAll
    let s := { s with pwr := { s.pwr with mcHalted := false } }
    ((s.modSec fun x => { x with debug := 0, debugAt := some s.now }).audit 6 0 0 rcOk 0 0).settle

/-- DOORBELL_LOCK_DEBUG. -/
def execDoorbellLockDebug (s : State) : Host.Outcome State Fault Refusal :=
  let s := s.ring 3
  .next (if s.sec.serves then s.lockDebug else s)

/-- SESSION_TIMEOUT: 600 s without a command on the session (R413). -/
def execSessionTimeout (mb7 : Bool) (s : State) : Host.Outcome State Fault Refusal :=
  let k := b2n mb7
  match vget s.sec.sess k with
  | none => .next s
  | some x => .next ((s.runTo (x.lastAt + 600 * secondTq)).closeSess k rcOk 0 0)

/-- LOCKOUT_EXPIRE: the lock of a key index (16 × role + key) ends. -/
def execLockoutExpire (i : Nat) (s : State) : Host.Outcome State Fault Refusal :=
  match s.sec.locks.find? fun x => x.1 = i with
  | none => .next s
  | some x => .next ((s.runTo x.2).modSec fun y => { y with locks := y.locks.filter fun z => z.1 ≠ i })

end Sys2Proof.Machine
end

