-- ==== Sys2Proof/Machine/Power.lean ====
section
/-! DEFINITION. Power states, reset scopes and start-up (chapter 17), host reset and MC restart (R364, R385, R386), JTAG (R470). -/
namespace Sys2Proof.Machine

def State.modPwr (s : State) (f : Power → Power) : State := { s with pwr := f s.pwr }

/-! Registers (Table 17-6). -/

def PwrState.code : PwrState → Nat
  | .run => 0
  | .trim => 1
  | .retain => 2

/-- PWR_STATUS.CL_CAL: start-up calibration after gating, at most 60 ms (R441). -/
def State.clCalBits (s : State) : Nat :=
  idxMask ((List.range 4).filter fun c =>
    s.pwr.clCal.testBit c && decide (s.now < vget s.pwr.clCalAt c + 60 * msTq) &&
      (List.range 32).any fun j =>
        let k := (s.chan (32 * c + j)).cal
        !(k.int0.started && k.int1.started))

/-- PWR_STATUS. -/
def State.pwrStatus (s : State) : W32 :=
  let p := s.pwr
  w32 (put 16 8 p.wakeCause + put 12 4 s.clCalBits + put 8 4 p.gated + put 3 1 (b2n p.sleepAbort) + put 2 1 (b2n p.safeOff)
    + p.state.code)

/-- The register at a BAR0 offset of the power controller. -/
def State.pwrReg (s : State) (o : Nat) : Option W32 :=
  if o = 0x20000 then some s.pwrStatus
  else if o = 0x20004 then some (w32 (put 8 5 s.pwr.wakeTimer + put 0 8 s.pwr.wakeEn))
  else if o = 0x20008 then some (w32 (put 16 8 s.pwr.devResets + put 8 8 s.pwr.mcRestarts + put 0 3 s.pwr.cause))
  else none

/-! Gating (R441, R142, R154, R226, R274, R289). -/

/-- The state of a microengine that leaving gating leaves (R274). -/
def Microengine.ungated (m : Microengine) (now : Nat) : Microengine :=
  { m with state := if m.loaded then .idle else .halted
           g := Vector.replicate 32 0, fastBank := Vector.replicate 8 0, tm := Vector.replicate 8 0, lc := 0, flags := MeFlags.reset,
           stack := [], handlers := [], wait := none, evl := 0, evlAt := 0, evlRaised := 0, evlPrev := 0, tagq := [],
           taskValid := false, budget := 0, used := 0, nextAt := now, stallTo := 0, wrAt := none, ready := [], bankOut := [], lastAtomic := none }

/-- A cluster enters gating: its slots and decoders stop, handlers are abandoned, nothing is left in flight. -/
def State.gateCluster (s : State) (c : Nat) : State :=
  let dtc := s.tb.dtc
  let s := (s.me c).handlers.foldl (fun s h => s.modSrc h.src (Source.complete s.now)) s
  let s := { s with ic := { s.ic with fastAct := vset s.ic.fastAct c false } }
  let s := s.modMe c fun m => { m with state := .halted, handlers := [], wait := none, taskValid := false }
  let s := s.each (List.range 128) fun s k => s.modSlot (128 * c + k) fun x => x.gateOff dtc s.now
  let s := s.each (List.range 8) fun s d => s.modDec (8 * c + d) Decoder.stop
  let s := s.each (List.range 32) fun s j => s.modIn (32 * c + j) fun x =>
    { x with convs := [], hold := none, waiting := [], fifo := [], busy := Vector.replicate 2 0, withheld := none }
  let s := s.modCl c fun k => { k with pool := [], exchange := [], sch := { k.sch with due := [], carry := [], dueNext := [], carryNext := [], guardTick := none } }
  s.refreshUse

/-- A cluster leaves gating at the present instant; its lists are built for the tick that begins (R289). -/
def State.ungateCluster (s : State) (c : Nat) : State :=
  let s := s.each (List.range 32) fun s j =>
    (s.beginInts (32 * c + j)).modIn (32 * c + j) fun x => { x with lastInterp := none }
  let s := s.each (List.range 8) fun s d => s.modDec (8 * c + d) fun q => if q.en then q.acquire s.now else q
  let s := s.modCl c fun k =>
    { k with me := k.me.ungated s.now, laneLast := Vector.replicate 4 none, laneFree := Vector.replicate 4 0,
             sch := { k.sch with guardTick := none, tasks := k.sch.tasks.map fun t => { t with resume := t.entry, carry := false, cut := false } } }
  s.modPwr fun p => { p with clCal := p.clCal ||| 2 ^ c, clCalAt := vset p.clCalAt c s.now }

/-- The gate mask takes effect. -/
def State.setGated (s : State) (mask : Nat) : State :=
  let old := s.pwr.gated
  let s := s.modPwr fun p => { p with gated := mask, clCal := p.clCal &&& (15 - mask) }
  let s := s.each (maskIdx 4 mask) fun s c => if old.testBit c then s else s.gateCluster c
  s.each (maskIdx 4 old) fun s c => if mask.testBit c then s else s.ungateCluster c

/-- PWR_SET_STATE RUN or TRIM at its boundary, and the clusters' return after a wake. -/
def State.applyPower (s : State) (p : List W32) : State :=
  let mask := if bits (pw p 1) 1 0 = 1 then bits (pw p 1) 11 8 else 0
  let s := s.accrue.setGated mask
  let now_ := if mask = 0 then PwrState.run else .trim
  let changed := decide (s.pwr.state ≠ now_)
  let s := s.modPwr fun q => { q with state := now_ }
  (if changed then s.raise 245 else s).settle

/-- R441: what keeps a cluster from being gated. -/
def State.gateRefused (s : State) (c : Nat) : Bool :=
  ((List.range 32).any fun j => let x := s.chan (32 * c + j); x.inp.en || x.out.en || x.pu.run)
    || ((List.range 128).any fun k => (s.slotAt (128 * c + k)).armed)
    || (s.dma.toList.any fun d => d.kind = 0 && d.state ≠ .idle && (d.cluster = c || decide (d.mask / 2 ^ (32 * c) % 2 ^ 32 ≠ 0)))
    || s.calRunBusy c || s.tdrBusy c

/-- R442: what keeps the device from RETAIN besides. -/
def State.retainRefused (s : State) : Bool :=
  ((List.range 4).any fun c => !s.pwr.gated.testBit c && s.gateRefused c)
    || (s.dma.toList.any fun d => d.state ≠ .idle)
    || (s.grp.toList.any fun g => g.state = .opened || g.state = .committed)
    || s.tb.step.isSome || s.bx.stepWait.isSome || s.tb.tickPend.isSome

/-- Wake sources already pending when the command is taken (R443). -/
def State.wakePending (s : State) : Nat :=
  let src (k : Nat) : Bool := (s.srcAt k).pending
  put 0 1 (b2n (s.mb.toList.any fun m => m.state = .posted)) + put 1 1 (b2n s.pwr.hostResetPend)
    + put 2 1 (b2n (src (160 + s.pwr.wakeTimer))) + put 7 1 (b2n ([232, 233, 234].any src)) + put 3 1 (b2n ((List.range 8).any fun b => src (224 + b)))
    + put 4 1 (b2n (src 235)) + put 6 1 (b2n (src 237))

/-- PWR_SET_STATE. -/
def cmdPwrSetState (s : State) (mb : Nat) (p : List W32) : Res :=
  let st := bits (pw p 1) 1 0
  let mask := if st = 1 then bits (pw p 1) 11 8 else 0
  let s := s.modPwr fun q => { q with sleepAbort := false }
  let k := firstCode [
    (reserved (pw p 1) 0xF03 || reserved (pw p 2) 0x1FFF, rcRange),
    (if st < 2 then (maskIdx 4 mask).any s.gateRefused else s.retainRefused, rcState),
    (s.hasDeferred 0x0A00 (fun _ => true) || s.pwr.retain.isSome, rcBusy)]
  if k ≠ 0 then fail s k
  else
    let s := s.modPwr fun q => { q with wakeEn := bits (pw p 2) 7 0 ||| 3, wakeTimer := bits (pw p 2) 12 8 }
    if st < 2 then
      let s := s.defer s.whenB 0x0A00 p
      okay s (s.pwrStatus :: extWords s.boundaryB)
    else
      let r : RetainPend := { mb := mb, backupOnly := st = 3, limit := s.now + msTq }
      .wait (s.modPwr fun q => { q with retain := some r, wakeFired := s.wakePending &&& q.wakeEn }) (.retain p)

/-- BK_RETAIN0 and BK_RETAIN1. -/
def Power.retainWord (q : Power) (h : Nat) : W32 := w32 (q.retainMask / 2 ^ (32 * h))

/-- PWR_RETAIN_BANKS. -/
def cmdPwrRetainBanks (s : State) (p : List W32) : Res :=
  let s := s.modPwr fun q => { q with retainMask := (pw p 1).toNat + (pw p 2).toNat * 2 ^ 32 }
  okay s [s.pwr.retainWord 0, s.pwr.retainWord 1]

/-! RETAIN (R442 to R446). -/

/-- A RETAIN command that loses its race with a wake source (R443). -/
def State.retainAbort (s : State) (r : RetainPend) : State :=
  (s.modPwr fun q => { q with retain := none, sleepAbort := true, wakeFired := 0 }).mbDone r.mb rcAbortedWake []

/-- Every microengine of an ungated cluster is IDLE or HALTED. -/
def State.mesQuiet (s : State) : Bool :=
  (List.range 4).all fun c => s.pwr.gated.testBit c || (s.me c).state = .idle || (s.me c).state = .halted

/-- The commit edge: everything happens together. -/
def State.retainCommit (s : State) (r : RetainPend) : State :=
  let s := s.accrue.modPwr fun q =>
    { q with before := q.state, gatedBefore := q.gated, state := .retain, safeOff := r.backupOnly, retain := none, wakeFired := 0, mcUp := false }
  let s := s.setGated 15
  let s := (s.vddmWindow true).raise 245
  (s.modMb r.mb fun x => { x with applied := true }).mbDone r.mb rcOk (s.pwrStatus :: dtcWords s.tb.dtc)

/-- RETAIN_COMMIT: on the first CCLK edge at which the microengines are quiet; BUSY when none comes within 1 ms. -/
def execRetainCommit (s : State) : Host.Outcome State Fault Refusal :=
  match s.pwr.retain with
  | none => .next s
  | some r =>
    let s := s.runTo s.edge
    if s.pwr.wakeFired ≠ 0 then .next (s.retainAbort r)
    else if r.limit < s.now then .next ((s.modPwr fun q => { q with retain := none, wakeFired := 0 }).mbDone r.mb rcBusy [])
    else if s.mesQuiet then .next (s.retainCommit r)
    else .next s

/-- A bank as the wake finds it: retained, with its wake scrub, or lost and zeroed (R335). -/
def State.wakeBank (s : State) (b : Nat) : State :=
  if !s.pwr.safeOff ∧ s.pwr.retainMask.testBit b then s.modBank b fun k => { k with scrub := true }
  else (s.zeroBank b).modBank b fun k => { k with owner := 0, lost := true }

/-- What the secure module has answered while the management core was away (R386). -/
def State.mcBack (s : State) : State := s.secRun.secReturn

/-! Host reset (R364, R385). -/

/-- A mailbox after a host reset. -/
def State.mbHostReset (s : State) (m : Nat) : State :=
  let s :=
    if secureMb m then
      s.modMb m fun x => { x with state := .idle, ackDone := false, ackTaken := false, ackTimeout := false, ackRestarted := false,
                                  ackCode := 0, ackRlen := 0, ackSeq := 0, tmoAt := none, wait := .none }
    else if (s.mbAt m).state = .posted then s.mbUntaken m rcCancelledHostReset
    else s
  s.modMb m fun x => { x with tmoMs := 10 }

/-- Groups that are OPEN or FAILED are released. -/
def State.dropGroups (s : State) : State :=
  { s with grp := s.grp.map fun g => if g.state = .committed then g else Group.reset }

/-- A queue pair after a host reset; MARKER goes before LOST. -/
def QueuePair.hostReset (q : QueuePair) (n : Nat) (count : W32) : QueuePair :=
  let q := { q with h2d := [], h2dCons := q.h2dWr, resets := count }
  if n = 3 then { q with d2h := [], d2hRd := q.d2hProd, d2hFrames := [] }
  else if q.d2hEn then (q.write 1 [count]).putLost
  else q

/-- The command path after a host reset (R385, R417). -/
def State.cmdHostReset (s : State) : State :=
  let n := s.st.hostResets + 1
  let s := { s with st := { s.st with hostResets := n } }
  let s := (s.closeSess 0 rcOk 0 0).closeSess 1 rcOk 0 0
  let s := (s.dropUpdate).modSec fun x => { x with queue := [], answers := [] }
  let s := (s.each (List.range 8) State.mbHostReset).dropGroups
  let s := s.each (List.range 4) fun s k => s.modQp k fun q => q.hostReset k n
  (s.modPwr fun q => { q with hostResetPend := false }).lines

/-- A host reset that the management core has put off is acted upon. -/
def State.lateHostReset (s : State) : State := if s.pwr.hostResetPend then s.cmdHostReset else s

/-- HOST_RESET: an FLR, hot reset or PERST, or a loss of the data link. -/
def execHostReset (linkDown : Bool) (s : State) : Host.Outcome State Fault Refusal :=
  if s.pwr.startup = .held then .next s
  else
    let s := s.mirrorStop.dmaHostReset
    let s := { s with mir := { s.mir with addrLo := 0, addrHi := 0, snap := none }
                      pcie := { s.pcie with bme := false, dlUp := s.pcie.dlUp && !linkDown } }
    let s := (s.raise 239).wakeBy 1
    .next (if s.pwr.mcUp then s.cmdHostReset else s.modPwr fun q => { q with hostResetPend := true })

/-- WAKE: from RETAIN, or of a command that has not reached its commit edge (R443, R444). -/
def execWake (s : State) : Host.Outcome State Fault Refusal :=
  if s.pwr.wakeFired = 0 then .next s
  else
    match s.pwr.retain with
    | some r => .next (s.retainAbort r)
    | none =>
      if s.pwr.state ≠ .retain then .next s
      else
        let s := s.accrue.each (List.range 64) State.wakeBank
        let back := 1 + s.pwr.gatedBefore * 256
        let s := s.modPwr fun q =>
          { q with wakeCause := q.wakeFired, wakeFired := 0, state := q.before, safeOff := false, mcUp := true,
                   banksAt := s.now + 16000000 }
        let s := s.defer (.phys (s.now + 80000000)) 0x0A00 [w32 back]
        .next ((((s.vddmWindow false).raise 245).mcBack).lateHostReset)

/-! Restarts of the management core (R386, R436). -/

/-- A taken non-secure message cut short by a restart: w1 bit 0 copies APPLIED. -/
def State.mbAbort (s : State) (m : Nat) : State :=
  let x := s.mbAt m
  if x.state ≠ .taken then s
  else (s.mbDone m rcAborted [w32 (b2n x.applied)]).modMb m fun x => { x with ackRestarted := true }

/-- The management core restarts: `cause` is PWR_RST.CAUSE, `arg` the restart cause of the report. -/
def State.mcRestart (s : State) (cause arg : Nat) : State :=
  let s := s.modPwr fun q =>
    { q with mcUp := false, restartBy := some (s.now + 50 * msTq), mcRestarts := satInc 255 q.mcRestarts, cause := cause, retain := none }
  let s := (s.each (List.range 6) State.mbAbort).dropGroups
  (s.report 13 1 0 (w32 arg) 0).lines

/-- MC_WATCHDOG. -/
def execMcWatchdog (s : State) : Host.Outcome State Fault Refusal :=
  .next (if s.pwr.mcUp then s.mcRestart 4 0 else s)

/-- MC_RESTART_COMPLETE: commands are taken again. -/
def execMcRestartComplete (s : State) : Host.Outcome State Fault Refusal :=
  match s.pwr.restartBy with
  | none => .next s
  | some _ => .next ((s.modPwr fun q => { q with mcUp := true, restartBy := none }).mcBack.lateHostReset)

/-! Power-on reset (R431 to R434). -/

/-- Calibration state that the history carries over a reset. -/
def Channel.keep (c : Channel) : Option ChCal := match c.kept with | some k => some k | none => if c.cal.int0.table = [] then none else some c.cal

/-- The module starts again: its key store, the flash and the OTP stay. -/
def Sec.restart (x : Sec) : Sec :=
  { Sec.reset with svnMin := x.svnMin, fwA := x.fwA, fwB := x.fwB, activeB := x.activeB, keys := x.keys, coKey := x.coKey,
                   userKeys := x.userKeys, drbg := x.drbg, handles := x.handles, sealHash := x.sealHash, sealItems := x.sealItems,
                   tSeal := x.tSeal, rctr := x.rctr, auditWr := x.auditWr, audit := x.audit }

/-- Device-wide status that the history carries over a reset. -/
def Status.restart (x : Status) : Status :=
  { Status.reset with cycles := x.cycles, opHours := x.opHours, opTq := x.opHours * hourTq, intervalH := x.intervalH, cycleAt := x.cycleAt, cycleOn := x.cycleOn }

/-- Internal power-on reset is asserted: every register at its power-on value, the backup domain and the flash kept. -/
def State.porAssert (s : State) (cause jtag : Nat) : State :=
  let s := s.rtcFree
  { State.reset with
    pending := s.pending
    tb := { TimeBase.reset with phys := s.tb.phys }
    ch := Vector.ofFn fun i : Fin 128 => { Channel.resetOf i.val with kept := (s.chan i).keep }
    cl := s.cl.map fun (k : Cluster) => { Cluster.reset with degPpm := k.degPpm, degHist := k.degHist }
    brk := s.brk.map fun b => { Brake.reset with ball := b.ball, seen := b.ball, ballAt := s.now, rawAt := s.now, quietFrom := s.now }
    posted := s.posted
    st := s.st.restart
    sec := s.sec.restart
    tamper := s.tamper
    pwr := { Power.reset with cause := cause, jtag := jtag, porAt := s.now }
    rtc := { s.rtc with trimValid := false, armed := none, anchor := 0, secLat := 0 }
    lastRead := s.lastRead
    freeCnt := s.freeCnt }

/-- RAIL_EXCURSION: a watched rail out of its window for 2 µs. -/
def execRailExcursion (s : State) : Host.Outcome State Fault Refusal := .next (s.porAssert 0 s.pwr.jtag)

/-- POR_N: a low of 1 µs or more; it resets the TAP as well. -/
def execPorN (s : State) : Host.Outcome State Fault Refusal := .next (s.porAssert 1 1)

/-- EXTEST, CLAMP and HIGHZ hold internal power-on reset. -/
def jtagHolds (i : Nat) : Bool := i = 0 || i = 4 || i = 5

/-- The instructions of the debug port (Table 18-10). -/
def jtagDebugs (i : Nat) : Bool := decide (0x80 ≤ i ∧ i ≤ 0x8F)

/-- JTAG_INSTRUCTION: on leaving an instruction that holds the reset, start-up runs again from the hold phase (R470). A debug
instruction through the open management-core port leaves the core halted or running, as it chooses; locked, it acts as BYPASS (R428). -/
def execJtagInstruction (i : Nat) (s : State) : Host.Outcome State Fault Refusal :=
  let i := i % 256
  if jtagHolds i then .next (s.porAssert s.pwr.cause i)
  else if jtagDebugs i ∧ s.sec.debug = 1 ∧ !jtagHolds s.pwr.jtag then
    .next (s.timSyncAll.modPwr fun q => { q with jtag := i, mcHalted := Config.debugHalts i s.now })
  else .next (s.modPwr fun q => { q with jtag := i, porAt := if jtagHolds q.jtag then s.now else q.porAt })

/-! Start-up (R422, R437). -/

/-- A slot acceptable to the module. -/
def Sec.accepts (x : Sec) (f : FwSlot) : Bool := f.valid && decide (x.svnMin ≤ f.svn)

/-- The slot of a running image. -/
def Sec.run (x : Sec) (b fallback : Bool) : Sec :=
  let f := if b then x.fwB else x.fwA
  { x with slotB := b, fallback := fallback, fwHash := f.hash, fwVersion := f.version, svnRun := f.svn, updatePending := false,
           state := if !x.keys then .zeroized else if x.coKey.isNone then .unowned else .operational }

/-- Step 1 and the start of the management core: self-tests, the key store, the first acceptable image (R410, R422). -/
def State.moduleBoot (s : State) (pass : Bool) : State :=
  let none_ (s : State) : State := (s.modPwr fun q => { q with startup := .noFirmware }).settle
  let s := s.selfTest pass
  if !pass then none_ s
  else
    let x := s.sec
    let act := if x.activeB then x.fwB else x.fwA
    let oth := if x.activeB then x.fwA else x.fwB
    let up (b fb : Bool) : State :=
      let s := { s with sec := x.run b fb, st := { s.st with fwRecorded := true } }
      (s.modPwr fun q => { q with startup := .running, mcUp := true }).mcBack.lateHostReset.settle
    if x.accepts act then up x.activeB false
    else if x.accepts oth then up (!x.activeB) true
    else none_ s

/-- An image programmed into a slot from outside. -/
def FwSlot.program (f : FwSlot) (i : Option FwImg) : FwSlot :=
  match i with
  | none => f
  | some i => { valid := i.ok, svn := i.svn % 64, hash := i.hash, version := i.version }

/-- POWER_ON_RESET: internal power-on reset is released, 2 ms or more after the last rail entered its window or POR_N went
high (R431, R433); start-up runs. -/
def execPowerOnReset (dt : Nat) (b : Boot) (s : State) : Host.Outcome State Fault Refusal :=
  if s.pwr.startup ≠ .held ∨ jtagHolds s.pwr.jtag then .next s
  else
    let s := (s.advance dt).runTo (s.pwr.porAt + 2 * msTq)
    let s := s.runTo s.edge
    let lost := s.rtc.dead
    let s := { s with rtc := if lost then { s.rtc with dead := false, freeCount := 0, freeAt := s.now, xtalRuns := true } else s.rtc
                      tamper := { s.tamper with keystoreLost := s.tamper.keystoreLost || lost } }
    let s := s.modSec fun x => { x with fwA := x.fwA.program b.imgA, fwB := x.fwB.program b.imgB }
    .next ((s.modPwr fun q => { q with startup := .running, porAt := s.now }).moduleBoot b.pass)

/-- The rest of step 4: BASELINE and the margins (R141). -/
def State.startCal (s : State) : State :=
  let first := decide (s.st.cycles < 8 ∨ s.st.opHours < 24)
  let p := s.tb.tickP
  let m := if first then (min 128 (p / 8), 1600, 96) else marginsOf s.degMax p
  let s := { s with st := { s.st with baseline := first, intervalH := if first then 3 else s.st.intervalH } }
  s.each (List.range 4) fun s c =>
    s.modCl c fun k => { k with minpwGuard := m.2.1, overlap := m.2.2, sch := { k.sch with guard := m.1 } }

/-- The seal record read at start-up: one that fails its check leaves the device without a seal (R424). -/
def State.checkSeal (s : State) (ok : Bool) : State :=
  if ok ∨ s.sec.sealHash.isNone then s
  else (s.modSec fun x => { x with sealHash := none, sealItems := [], tSeal := 0 }).secReport 8 0

/-- READY: steps 2 to 5 are complete. Start-up waits at most 60 ms for the calibration of step 4 (R140). -/
def execReady (dt : Nat) (cut : Option HistCut) (sealOk : Bool) (s : State) : Host.Outcome State Fault Refusal :=
  if s.pwr.startup ≠ .running then .next s
  else
    let s := s.advance dt
    let s := if s.st.calFrom = none then s.beginCal else s
    let s := if s.calDone then s else s.runTo (s.st.calFrom.getD 0 + 60 * msTq)
    let s := match cut with
      | none => s
      | some h => s.cutHistory h
    let s := s.checkSeal sealOk
    let s := s.each (List.range 64) State.zeroBank
    let s := s.startCal
    let at_ := if s.st.cycles ≠ 0 ∧ s.rtc.set then s.st.cycleAt else s.now
    let s := { s with st := { s.st with cycleAt := at_, planAt := s.now, ageAt := s.now, readyAt := s.now, opFrom := s.now }
                      ic := { s.ic with dis := 0 }
                      perf := { s.perf with en := true } }
    let s := s.modSec fun x => { x with svnMin := max x.svnMin x.svnRun }
    let s := if s.ref.slew = .none then s else s.slowSlew
    .next (s.modPwr fun q => { q with startup := .ready }).settle

/-! SYS_RESET (R379, R435, R484). -/

/-- A channel after SYS_RESET DEVICE: its configuration and brake state stay (R484). -/
def Channel.deviceReset (c : Channel) (n : Nat) : Channel :=
  { Channel.resetOf n with
    cal := { ChCal.reset with steals := c.cal.steals }
    inp := { ChIn.reset with configured := c.inp.configured, qualPol := c.inp.qualPol, term := c.inp.term, edge := c.inp.edge,
                             hys := c.inp.hys, thr := c.inp.thr, minpw := c.inp.minpw, level := c.inp.level, blankUntil := c.inp.blankUntil }
    out := { ChOut.reset with configured := c.out.configured, qp := c.out.qp, qpBind := c.out.qpBind, initLevel := c.out.initLevel,
                              shortPol := c.out.shortPol, lateAsap := c.out.lateAsap, srcPu := c.out.srcPu, voh := c.out.voh, vol := c.out.vol }
    pr := { ChPair.resetOf n with guard := c.pr.guard, held := c.pr.held, resumePend := c.pr.resumePend, clearAt := c.pr.clearAt, holds := c.pr.holds }
    kept := c.keep }

/-- The monitors after SYS_RESET DEVICE: default windows; TDR runs end; a thermal trip stays. -/
def Envir.deviceReset (e : Envir) : Envir :=
  { e with mon := Vector.ofFn fun i : Fin 52 =>
             { vget e.mon i with low := (Monitor.defaults i).1, high := (Monitor.defaults i).2, outRun := 0, inRun := 0 }
           tdr := Vector.replicate 4 none, vddmRun := Monitor.defaults 2 }

/-- What SYS_RESET DEVICE returns to its reset value, and what it keeps. -/
def State.deviceCleared (s : State) : State :=
  { s with
    ch := Vector.ofFn fun i : Fin 128 => (s.chan i).deviceReset i
    cl := s.cl.map fun (k : Cluster) => { Cluster.reset with degPpm := k.degPpm, degHist := k.degHist, ringS := k.ringS, ringU := k.ringU }
    slot := Vector.replicate 512 Slot.reset
    dec := Vector.replicate 32 Decoder.reset
    tim := Vector.replicate 32 Timer.reset
    timWr := []
    bank := Vector.replicate 64 Bank.reset
    mem := []
    ue := []
    grp := Vector.replicate 4 Group.reset
    env := s.env.deviceReset
    st := { s.st.restart with
      hostResets := s.st.hostResets, lockLog := s.st.lockLog, refout := s.st.refout, refoutAt := s.st.refoutAt, capSent := s.st.capSent
      traceLog := s.st.traceLog ++ [(s.now, 0)]
      confLog := s.st.confLog ++ (List.range 128).map fun n => (s.now, n, Conf.provisional.rank) }
    ic := Ic.reset
    perf := Perf.reset
    sec := s.sec.restart
    pwr := { Power.reset with devResets := satInc 255 s.pwr.devResets, porAt := s.pwr.porAt, mcRestarts := s.pwr.mcRestarts, cause := 2, jtag := s.pwr.jtag,
                              startup := .running, hostResetPend := s.pwr.hostResetPend }
    deferred := s.deferred.filter fun d => d.op = 0x0104 }

/-- SYS_RESET DEVICE acts: Table 17-2. The module starts again, with self-tests that pass or fail. -/
def State.deviceReset (s : State) (pass : Bool) : State :=
  let s := (((s.report 13 2 0 1 1).each (List.range 16) State.dmaIdle).each (List.range 8) State.mbAbort).deviceCleared
  ((s.each (List.range 128) fun s n => s.presentLevel n false).settle).moduleBoot pass

/-- SYS_RESET's refusals. -/
def sysResetCheck (p : List W32) : Nat :=
  if reserved (pw p 1) 3 ∨ 1 < (pw p 1).toNat ∨ pw p 2 ≠ 0xA5A50103 then rcRange else rcOk

/-- An accepted SYS_RESET acts after its OK reply. -/
def State.sysReset (s : State) (p : List W32) (silent : Bool) : State :=
  if (pw p 1).toNat = 1 then s.deviceReset (!silent) else s.mcRestart 3 1

/-! The backup domain (R448). -/

/-- BACKUP_DOMAIN_LOST. -/
def execBackupDomainLost (s : State) : Host.Outcome State Fault Refusal :=
  let s := { s with rtc := { Rtc.reset with vbatNow := s.rtc.vbatNow, dead := true }
                    tamper := Tamper.reset }
  .next (s.modSec fun x =>
    { x with keys := false, coKey := none, userKeys := Vector.replicate 7 none, sealHash := none, rctr := 0 }).settle

end Sys2Proof.Machine
end

