-- ==== Sys2Proof/Machine/RegMap.lean ====
section
/-! DEFINITION. The register map: what a host read of BAR0 or BAR4 returns and does, and what a host write does (R6 to R9, R477 to R482). -/
namespace Sys2Proof.Machine

/-! Reads, block by block: none where no register lies at the offset (R9). -/

/-- SYS registers (Table 19-1). -/
def State.sysReg (s : State) (o : Nat) : Option W32 :=
  let brk (base : Nat) : Brake := s.brkAt ((o - base) / 4)
  if 0x200 ≤ o ∧ o < 0x220 then
    some (w32 (put 13 1 (b2n (brk 0x200).en) + put 12 1 (b2n (brk 0x200).activeLow) + put 0 12 (brk 0x200).deb))
  else if 0x220 ≤ o ∧ o < 0x240 then some (w32 (brk 0x220).quietUs)
  else if 0x260 ≤ o ∧ o < 0x280 then some (w32 (put 16 16 (brk 0x260).glitchCnt + put 0 16 (brk 0x260).tripCnt))
  else match o with
    | 0x00 => some (w32 (0x14128 + put 20 1 (b2n Config.gradeE)))
    | 0x04 => some s.sysStatus
    | 0x10 => some s.pcie.word
    | 0x20 => some (w32 s.mir.addrLo)
    | 0x24 => some s.mir.addrHi
    | 0x28 => some s.mir.ctrl
    | 0x2C => some s.mir.seq
    | 0x30 => some s.mir.skip
    | 0x240 => some s.brkStatus
    | _ => none

/-- TS registers (Table 2-6). -/
def State.tsReg (s : State) (o : Nat) : Option W32 :=
  ([s.ref.word, s.ref.freq, w32 s.ref.level, s.tsStatus, 0] ++ dtcWords s.tb.cap ++ dtcWords s.pps.cap
    ++ [s.pps.word, s.pps.offset, w32 s.tb.tickP] ++ dtcWords (unsigned 80 s.tb.anchor)
    ++ [w32 (put 2 2 s.ref.ppsoutMode + put 0 2 s.ref.refoutMode), w32 (unsigned 32 s.ref.ppsoutOfs), w32 s.ref.ppsoutWidth])[(o - 0x10000) / 4]?

/-- GPT_CTRL. -/
def Timer.ctrlWord (t : Timer) : W32 :=
  w32 (put 24 3 t.owner + put 20 1 (b2n t.trigStart) + put 19 1 (b2n t.capEn) + put 16 3 t.evEn + put 11 5 t.master
    + put 8 3 t.slave + put 7 1 (b2n t.freeze) + put 6 1 (b2n t.oneshot) + put 4 2 t.src + put 0 4 t.psc)

/-- GPT registers of timer n (Table 10-8); CNT as it stands now. -/
def State.gptReg (s : State) (n o : Nat) : Option W32 :=
  let t := (s.timSettle.timSync n).timAt n
  [t.ctrlWord, w32 t.top, w32 t.cmp, w32 t.phase, w32 t.cnt, w32 t.cap, w32 t.trigA, w32 t.trigB, t.statusWord, 0][o / 4]?

/-- MB and QP registers (Table 19-5). -/
def State.mbReg (s : State) (o : Nat) : Option W32 :=
  if o < 0x50400 then
    let m := s.mbAt ((o - 0x50000) / 0x80)
    let r := o % 0x80
    if r < 0x40 then some (vget m.data (r / 4))
    else [m.ack, 0, w32 m.tmoMs, m.stat][(r - 0x40) / 4]?
  else if o < 0x50410 then some (vget s.grp ((o - 0x50400) / 4)).word
  else if 0x50800 ≤ o ∧ o < 0x51000 then
    let n := (o - 0x50800) / 0x200
    let q := s.qpAt n
    let r := (o - 0x50800) % 0x200
    if r < 0x100 then some 0
    else if r = 0x120 then (if n = 3 then some s.secStat else none)
    else [q.d2h.headD 0, q.cfg, q.h2dWr, q.h2dCons, q.d2hProd, q.d2hRd, q.h2dDrop, q.d2hLost, 0, q.resets][(r - 0x100) / 4]?
  else none

/-- DMA registers of one channel (Table 19-6). -/
def Dma.reg (d : Dma) (r : Nat) : Option W32 :=
  let lo (v : W64) : List W32 := [w32 v.toNat, w32 (v.toNat / 2 ^ 32)]
  ([d.cfgWord, d.statusWord, w32 (d.baseLo * 32), d.baseHi, w32 d.sizeL, w32 d.tail, w32 d.head, w32 d.hopmax, 0,
    w32 (put 10 17 d.off + put 6 4 d.nbM1 + put 0 6 d.bank), w32 d.len, w32 d.hwm, w32 d.lwm] ++ lo d.w ++ lo d.r
    ++ [d.drop, d.late, d.gates, d.bad, w32 d.src, w32 d.dst, w32 d.cnt, 0])[r / 4]?

/-- BK registers (Table 12-5). -/
def State.bkReg (s : State) (o : Nat) : Option W32 :=
  if o < 0x70800 then
    let k := s.bankAt ((o - 0x70000) / 0x20)
    [w32 k.owner, k.cfgWord, k.statusWord, w32 k.ceCnt, w32 k.ueCnt, k.errWord_, k.denyWord_, w32 k.denyCnt][o % 0x20 / 4]?
  else
    [s.hostMap 0, s.hostMap 1, s.pwr.retainWord 0, s.pwr.retainWord 1, s.bankMap 0 Bank.scrub, s.bankMap 1 Bank.scrub][(o - 0x70800) / 4]?

/-- BX registers (Tables 2-7 and 2-8). -/
def State.bxReg (s : State) (o : Nat) : Option W32 :=
  if o < 0x80200 then
    let x := s.port (o < 0x80100)
    [x.word, w32 x.pcap.toNat, w32 (x.pcap.toNat / 2 ^ 32), w32 (unsigned 32 x.offset), w32 x.rtt, x.fwdLoss][o % 0x100 / 4]?
  else [w32 s.bxCap.toNat, w32 (s.bxCap.toNat / 2 ^ 32), s.bx.alignWord][(o - 0x80200) / 4]?

/-- The four registers of a task-table entry (Table 10-7). -/
def Task.reg (t : Task) (i : Nat) : W32 :=
  match i with
  | 0 => w32 (put 31 1 (b2n t.en) + put 30 1 (b2n t.enforce) + put 29 1 (b2n t.auto) + put 24 5 t.pexp + put 16 8 t.prio + put 0 13 t.entry)
  | 1 => w32 (put 16 16 t.phase + put 0 13 t.resume)
  | 2 => w32 t.budget
  | _ => w32 (put 31 1 (b2n t.faulted) + put 30 1 (b2n t.carry) + put 29 1 (b2n t.cut) + put 23 6 t.ovrCnt + put 0 23 t.usedMax)

/-- SCH registers of a cluster. -/
def State.schReg (s : State) (c o : Nat) : Option W32 :=
  let h := (s.clus c).sch
  [w32 (put 16 9 h.doneCnt + put 0 9 h.dueCnt), w32 h.guard, w32 (s.tb.tickP - h.guard), w32 (s.peakOf c), w32 (hyper (s.table c)),
    w32 h.slackLast, w32 h.slackMin, h.ovr, h.cut, h.skip][o / 4]?

/-- ME_STATUS. -/
def Microengine.statusWord (m : Microengine) : W32 :=
  w32 (put 18 1 (b2n m.taskValid) + put 10 8 m.task + put 4 6 m.stack.length + put 3 1 (b2n m.flags.ie)
    + match m.state with | .halted => 0 | .loading => 1 | .idle => 2 | .task => 3 | .normal => 4 | .fast => 5)

/-- ME registers (Table 9-12). -/
def Microengine.reg (m : Microengine) (o : Nat) : Option W32 :=
  if 0x40 ≤ o ∧ o < 0x80 then
    let k := (o - 0x40) / 4
    some (w32 (put 16 16 (vget m.image.evb (2 * k + 1)) + put 0 16 (vget m.image.evb (2 * k))))
  else if 0xC0 ≤ o ∧ o < 0xF0 then some (vget m.hash ((o - 0xC0) / 4))
  else
    ([m.statusWord, w32 m.shownPc, m.faultReg, m.faultCnt, w32 (put 8 1 (b2n m.tagOvf) + put 0 7 m.tagq.length), m.tagLoss]
      ++ ((List.range 4).map fun k => w32 (m.image.tagsel / 2 ^ (32 * k)))
      ++ [w32 m.evl.toNat, w32 (put 16 16 m.image.normMax + put 0 16 m.image.fastMax), w32 m.image.reserve, w32 m.irqLast, m.irqHeld])[o / 4]?

/-- MS registers of a slot (Table 5-6). -/
def Slot.reg (k : Slot) (o : Nat) : Option W32 :=
  if 0x80 ≤ o ∧ o < 0xF8 then some (k.res.getD ((o - 0x80) / 4) 0)
  else if o = 0xFC then some k.seqEnd
  else
    let h := k.hist.getD { bank := 0, offset := 0, nbins := 0, width := 1, origin := 0 }
    ([w32 (put 9 1 (b2n k.widthNeg) + put 8 1 (b2n k.startLatest) + put 6 2 k.edgeB + put 4 2 k.edgeA + put 0 4 k.type),
      w32 (put 8 7 k.chB + put 0 7 k.chA), w32 k.g, w32 k.ngate, w32 k.ivlMax, k.stateWord,
      w32 (put 6 17 h.offset + put 0 6 h.bank), w32 h.nbins, w32 h.width]
      ++ numWords 2 (unsigned 64 h.origin) ++ numWords 2 k.under.toNat ++ numWords 2 k.above.toNat ++ [w32 k.drop])[o / 4]?

/-- CAL registers of a cluster (Table 4-6). -/
def State.calReg (s : State) (c o : Nat) : Option W32 :=
  let k := s.clus c
  let int (i : Nat) : Interp := ((s.chan (32 * c + i / 2)).cal).interp (i % 2 = 1)
  if 0x100 ≤ o ∧ o < 0x200 then some (int ((o - 0x100) / 4)).calInt
  else if 0x200 ≤ o ∧ o < 0x300 then
    let x := int ((o - 0x200) / 4)
    some (w32 (put 21 2 x.rejRun + put 0 21 x.hits.all))
  else if 0x400 ≤ o ∧ o < 0x800 then
    let n := 32 * c + (o - 0x400) / 0x20
    let x := (s.chan n).cal
    [w32 (unsigned 32 x.lin), w32 (unsigned 32 x.lout), w32 (unsigned 16 x.d1),
      w32 (put 16 16 (unsigned 16 x.outFsK) + unsigned 16 x.inFsK), s.calAge n, x.projWord, s.calConf n][o % 0x20 / 4]?
  else
    [calCfg k.starveMs k.monitor, s.calCstat c, s.calPlan c, w32 (put 8 12 k.minpwGuard + put 0 7 k.overlap), k.ringS, k.ringU,
      w32 (s.shown k.degPpm 0), s.calHist][o / 4]?

/-- CL_STATUS and CL_IMPORT (Table 19-10). -/
def State.clReg (s : State) (c o : Nat) : Option W32 :=
  let m := (s.clus c).imports
  if o = 0 then
    some (w32 (put 8 6 (maskIdx 128 m).length + put 1 1 (b2n (s.clCalBits.testBit c)) + b2n (s.pwr.gated.testBit c)))
  else if o < 0x14 then some (w32 (m / 2 ^ (32 * (o / 4 - 1))))
  else none

/-- The registers of a cluster block (Table 19-8). -/
def State.clusterReg (s : State) (c o : Nat) : Option W32 :=
  if o < 0x2000 then s.clReg c o
  else if o < 0x3000 then s.schReg c (o - 0x2000)
  else if o < 0x4000 then some ((vget (s.clus c).sch.tasks ((o - 0x3000) / 0x10)).reg (o % 0x10 / 4))
  else if o < 0x6000 then none
  else if o < 0x8000 then (s.me c).reg (o - 0x6000)
  else if o < 0x10000 then (s.slotAt (128 * c + (o - 0x8000) / 0x100)).reg (o % 0x100)
  else if o < 0x12000 then s.qdReg (8 * c + (o - 0x10000) / 0x400) (o % 0x400)
  else if o < 0x14000 then none
  else if o < 0x1E000 then
    let i := (o - 0x14000) / 0x280
    some (w32 (unsigned 18 ((((s.chan (32 * c + i / 2)).cal.interp (i % 2 = 1)).table.getD ((o - 0x14000) % 0x280 / 4) 0))))
  else s.calReg c (o - 0x1E000)

/-- Input registers of a channel (Table 3-9). -/
def Channel.inReg (c : Channel) (now o : Nat) : Option W32 :=
  let x := c.inp
  ([c.status, w32 (put 4 1 (b2n x.configured) + put 3 1 (b2n x.qualPol) + put 2 1 (b2n x.term) + put 0 2 x.edge),
    w32 (put 16 8 x.hys + put 0 16 x.thr), w32 x.minpw, w32 (put 16 10 (x.hwmAt now) + fifoTags x.fifo)]
    ++ numWords 2 x.tagCnt.toNat ++ [x.lossFifo, x.lossDead, x.lossBlank, x.qualCnt])[o / 4]?

/-- Output and pattern-unit registers of a channel (Table 6-10). -/
def Channel.outReg (c : Channel) (o : Nat) : Option W32 :=
  let x := c.out
  let p := c.pu
  if o < 0x140 then
    ([x.cfgWord, w32 (put 16 12 x.voh + put 0 12 x.vol), x.eqStatus, 0, 0, 0, 0, x.lateCnt, x.fullCnt, x.orderCnt, x.shortCnt]
      ++ numWords 2 x.edgeCnt.toNat)[(o - 0x100) / 4]?
  else
    ([p.ctrlWord, p.statusWord, w32 p.act.per, w32 p.act.cmp, w32 p.shadow.per, w32 p.shadow.cmp, w32 p.act.npulse,
      w32 p.act.bper, w32 p.act.nburst] ++ dtcWords (p.t0 % dtcMod) ++ numWords 2 p.pidx ++ [p.shlate])[(o - 0x140) / 4]?

/-- Registers of a channel block (Table 19-9). -/
def State.channelReg (s : State) (n o : Nat) : Option W32 :=
  let c := s.chan n
  if o < 0x100 then c.inReg s.now o
  else if o < 0x180 then c.outReg o
  else match o with
    | 0x180 => if n % 2 = 0 then some c.pr.cfgWord else none
    | 0x184 => if n % 2 = 0 then some (w32 c.pr.dtA) else none
    | 0x188 => if n % 2 = 0 then some (w32 c.pr.dtB) else none
    | 0x18C => some c.out.swallow
    | 0x190 => some (w32 c.pr.guard)
    | 0x194 => some (s.chBrkStatus n)
    | 0x198 => some c.pr.holds
    | _ => none

/-- The value of the 32-bit register at an aligned BAR0 offset; none where no register lies (R477). -/
def State.regValue (s : State) (o : Nat) : Option W32 :=
  if o < 0x10000 then s.sysReg o
  else if o < 0x10050 then s.tsReg o
  else if o < 0x10800 then s.rtcReg o
  else if o < 0x11000 then s.gptReg ((o - 0x10800) / 0x40) (o % 0x40)
  else if o < 0x20000 then none
  else if o < 0x28000 then s.pwrReg o
  else if o < 0x30000 then s.envReg o
  else if o < 0x50000 then s.icReg o
  else if o < 0x60000 then s.mbReg o
  else if o < 0x61000 then (s.dmaAt ((o - 0x60000) / 0x100)).reg (o % 0x100)
  else if o = 0x61000 then some s.noStream
  else if o < 0x70000 then none
  else if o < 0x80000 then s.bkReg o
  else if o < 0x90000 then s.bxReg o
  else if o < 0x100000 then s.secReg o
  else if o < 0x180000 then s.clusterReg ((o - 0x100000) / 0x20000) (o % 0x20000)
  else if o < 0x200000 then none
  else if o < 0x300000 then s.channelReg ((o - 0x200000) / 0x2000) (o % 0x2000)
  else none

/-! What a read does besides: RC fields (R7) and the latches. -/

/-- RC fields of a channel block. -/
def State.readChannel (s : State) (n o : Nat) : State :=
  match o with
  | 0x000 => s.modIn n fun x => { x with deadMiss := false, fifoOvf := false }
  | 0x010 => s.modIn n fun x => { x with hwm := 0, hwmFrom := s.lowerEdge }
  | 0x108 => s.modOut n fun x => { x with lateSeen := false, hwm := x.queue.length }
  | 0x144 => s.modPu n fun x => { x with wrRej := false, hoRej := false }
  | _ => s

/-- RC fields of a cluster block. -/
def State.readCluster (s : State) (c o : Nat) : State :=
  if o = 0x2018 then s.modSch c fun h => { h with slackMin := 0x7FFFFF }
  else if 0x1E100 ≤ o ∧ o < 0x1E200 then
    let i := (o - 0x1E100) / 4
    s.modInt (32 * c + i / 2) (i % 2 = 1) fun x => { x with rangeHit := false }
  else s

/-- The side effect of a 32-bit read of the register at an aligned BAR0 offset. -/
def State.readEffect (s : State) (o : Nat) : State :=
  if o = 0x10404 then s.rtcLatch.1
  else if o = 0x10418 then s.modRtc fun r => { r with onVbat := r.vbatNow }
  else if 0x30800 ≤ o ∧ o < 0x30C00 then s.modSrc ((o - 0x30800) / 4) fun x => { x with cnt := 0, cntPrev := 0 }
  else if 0x40200 ≤ o ∧ o < 0x40300 then (s.snapRead ((o - 0x40200) / 4) true).1
  else if o = 0x40300 then { s with perf := { s.perf with ovf := BitVec.ofNat 64 (s.perf.ovf.toNat / 2 ^ 32 * 2 ^ 32) } }
  else if o = 0x40304 then { s with perf := { s.perf with ovf := BitVec.ofNat 64 (s.perf.ovf.toNat % 2 ^ 32) } }
  else if 0x50000 ≤ o ∧ o < 0x50400 then
    if o % 0x80 = 0x4C then s.modMb ((o - 0x50000) / 0x80) fun x => { x with wrRej := false, goRej := false, cancelLate := false }
    else s
  else if 0x50800 ≤ o ∧ o < 0x51000 then
    if (o - 0x50800) % 0x200 = 0x100 then (s.d2hRead ((o - 0x50800) / 0x200)).1 else s
  else if 0x60000 ≤ o ∧ o < 0x61000 then
    if o % 0x100 = 4 then s.modDma ((o - 0x60000) / 0x100) fun d => { d with badSeen := false } else s
  else if 0x70000 ≤ o ∧ o < 0x70800 then
    if o % 0x20 = 8 then s.modBank ((o - 0x70000) / 0x20) fun k => { k with lost := false, denySeen := false, ueSeen := false }
    else s
  else if 0x100000 ≤ o ∧ o < 0x180000 then s.readCluster ((o - 0x100000) / 0x20000) (o % 0x20000)
  else if 0x200000 ≤ o ∧ o < 0x300000 then s.readChannel ((o - 0x200000) / 0x2000) (o % 0x2000)
  else s

/-- What the read returns: a snapshot read returns what it has latched. -/
def State.readValue (s : State) (o : Nat) : Option W32 :=
  if 0x40200 ≤ o ∧ o < 0x40300 then some (s.snapRead ((o - 0x40200) / 4) true).2 else s.regValue o

/-- A 32-bit host read at an aligned BAR0 offset: 0 and no effect where no register lies (R9). -/
def State.regRead (s : State) (o : Nat) : State × W32 :=
  match s.readValue o with
  | none => (s, 0)
  | some v => (s.readEffect o, v)

/-- A 32-bit read at an aligned BAR4 offset (R404, R482, Table 19-11). -/
def State.bar4Read (s : State) (o : Nat) : State × W32 :=
  if o < 0x100 then (s, s.mir.copy.getD (o / 4) 0)
  else if 0x1000 ≤ o ∧ o < 0x10F0 then (s, vget s.perf.val ((o - 0x1000) / 4))
  else if 0x1100 ≤ o ∧ o < 0x11F0 then s.snapRead ((o - 0x1100) / 4) true
  else (s, 0)

/-- The bytes of a read of any size and alignment: each covered register is read once, in ascending order (R6). -/
def State.readBytes (s : State) (bar4 : Bool) (off len : Nat) : State × List Byte :=
  let a := (rangeIdx (off / 4) ((off + len - 1) / 4)).foldl (fun (a : State × List Byte) i =>
    let r := if bar4 then a.1.bar4Read (4 * i) else a.1.regRead (4 * i)
    (r.1, a.2 ++ natBytes 4 r.2.toNat)) (s, [])
  (a.1, (a.2.drop (off % 4)).take len)

/-- READ_CLEAR: a 32-bit read of BAR0. -/
def execReadClear (off : Nat) (s : State) : Host.Outcome State Fault Refusal :=
  let r := s.readBytes false off 4
  .next { r.1 with lastRead := { bytes := r.2, poisoned := false } }

/-! Host writes. -/

/-- A write to a register or field that the host may only read (R8). -/
def State.readOnly (s : State) (o : Nat) (v : W32) : State := s.report 1 2 o v 0

/-- The write found another value than the present one in the fields outside a mask: recorded, and the rest goes on. -/
def State.mixed (s : State) (o : Nat) (v cur : W32) (mask : Nat) : State :=
  if v.toNat ||| mask = cur.toNat ||| mask then s else s.readOnly o v

/-- A write of a SYS register. -/
def State.sysWrite (s : State) (o : Nat) (v : W32) : State :=
  match o with
  | 0x20 =>
    if s.mir.en then s.report 1 4 o v 0
    else { s with mir := { s.mir with addrLo := bits v 31 8 * 256 } }.mixed o v (w32 s.mir.addrLo) 0xFFFFFF00
  | 0x24 => if s.mir.en then s.report 1 4 o v 0 else { s with mir := { s.mir with addrHi := v } }
  | 0x28 =>
    let s := s.mixed o v s.mir.ctrl 1
    if bit v 0 then s else s.mirrorStop
  | _ => if (s.sysReg o).isSome then s.readOnly o v else s

/-- A write of an MB or QP register. -/
def State.mbRegWrite (s : State) (o : Nat) (v : W32) : State :=
  if o < 0x50400 then
    let m := (o - 0x50000) / 0x80
    let r := o % 0x80
    if r < 0x40 then s.mbWrite m (r / 4) v
    else if r = 0x44 then (s.mixed o v 0 3).mbCtrl m v
    else if r = 0x48 then (s.mixed o v 0 0x3FFF).mbTimeoutWrite m v
    else if (s.mbReg o).isSome then s.readOnly o v else s
  else if 0x50800 ≤ o ∧ o < 0x51000 then
    let n := (o - 0x50800) / 0x200
    let r := (o - 0x50800) % 0x200
    if r < 0x100 then s.h2dPush n v
    else if r = 0x104 then (s.mixed o v 0 (if n = 3 then 3 else 0x1F03)).modQp n (QueuePair.setCfg · n v)
    else if (s.mbReg o).isSome then s.readOnly o v else s
  else if (s.mbReg o).isSome then s.readOnly o v else s

/-- A write of a DMA register (R351, R357). -/
def State.dmaWrite (s : State) (o : Nat) (v : W32) : State :=
  let k := (o - 0x60000) / 0x100
  let d := s.dmaAt k
  match o % 0x100 with
  | 0x08 => (if d.state = .idle then s.mixed o v 0 0xFFFFFFE0 else s).ringRegWrite k 0x08 v
  | 0x0C => s.ringRegWrite k 0x0C v
  | 0x10 => (if d.state = .idle then s.mixed o v 0 0x1F else s).ringRegWrite k 0x10 v
  | 0x14 => (s.mixed o v 0 0xFFFF).tailWrite k v
  | 0x18 => (if d.state = .halted then s.mixed o v 0 0xFFFF else s).headWrite k v
  | 0x20 =>
    let s := s.mixed o v 0 1
    if bit v 0 then (s.runTo s.edge).dmaFlush k else s
  | r => if (d.reg r).isSome then s.readOnly o v else s

/-- A doorbell write (R429). -/
def State.doorbell (s : State) (k : Nat) : State :=
  let s := s.ring k
  if !s.sec.serves then s
  else match k with
    | 1 => s.useFree.selfTest (Config.selfTest s.freeCnt)
    | 2 => (s.closeSess 0 rcOk 0 0).closeSess 1 rcOk 0 0
    | 3 => s.lockDebug
    | _ => s

/-- A 32-bit host write at an aligned BAR0 offset: w fields are set, anything else is ignored, and recorded as R8 says. -/
def State.regWrite (s : State) (o : Nat) (v : W32) : State :=
  if o < 0x10000 then s.sysWrite o v
  else if o = 0x10010 then s.capture3
  else if 0x50000 ≤ o ∧ o < 0x60000 then s.mbRegWrite o v
  else if 0x60000 ≤ o ∧ o < 0x61000 then s.dmaWrite o v
  else if 0x90010 ≤ o ∧ o < 0x90020 then
    let s := s.mixed o v 0 1
    if bit v 0 then s.doorbell ((o - 0x90010) / 4) else s
  else if (s.regValue o).isSome then s.readOnly o v
  else s

/-- HOST_REGISTER_WRITE. -/
def execHostRegisterWrite (off : Nat) (v : W32) (s : State) : Host.Outcome State Fault Refusal :=
  .next (if off % 4 = 0 then s.regWrite off v else s.report 1 1 off v 0)

/-- HOST_ODD_SIZE_ACCESS: a BAR0 access of another size or alignment, or an access of any size to BAR4. -/
def execHostOddSizeAccess (bar4 : Bool) (off len : Nat) (data : Option W32) (s : State) : Host.Outcome State Fault Refusal :=
  match data with
  | some v => .next (if bar4 then s else s.report 1 1 off v 0)
  | none =>
    let r := if len = 0 then (s, []) else s.readBytes bar4 off len
    .next { r.1 with lastRead := { bytes := r.2, poisoned := false } }

end Sys2Proof.Machine
end

