-- ==== Sys2Proof/Machine/MicroIo.lean ====
section
/-! DEFINITION. The datapath classes TAG, EDGE, IO, BANK and EVENT of a microengine (R253 to R260), and every microword row. -/
namespace Sys2Proof.Machine

/-! TAG (R254). -/

/-- The full time of a tag: the value congruent to TIME modulo 2⁵⁴ within ±2⁵³ tq of the DTC (R97). -/
def fullTime (dtc time : Nat) : BitVec 80 :=
  BitVec.ofInt 80 ((dtc : Int) + signed 54 (unsigned 54 ((time : Int) - (dtc : Int))))

/-- The oldest word read into G[DST], and a tag's time into TM[SRA]; 0 and Z from an empty queue. -/
def State.tagRead (s : State) (c : Nat) (w : BitVec 128) (t : Nat) (pop : Bool) : State :=
  let m := s.me c
  match m.tagq with
  | [] => s.modMe c fun m => { m.setG (mwDst w) 0 with flags := { m.flags with z := true, n := false, c := false, v := false } }
  | x :: l =>
    let v := x.word.encode
    let m := m.setG (mwDst w) v
    let m := match x.word with
      | .tag _ time _ _ => m.setT (mwSra w) (fullTime (s.dtcAt t) time)
      | _ => m
    let m := { m with flags := { m.flags with z := false, n := bit64 v 63, c := false, v := false } }
    s.modMe c fun _ => if pop then { m with tagq := l } else m

/-- TAG (class 0x6). -/
def dpTag (c : Nat) (s : State) (w : BitVec 128) (t : Nat) : Did :=
  match mwOp w with
  | 0 => .ok (s.tagRead c w t true)
  | 1 => .ok (s.tagRead c w t false)
  | 2 => .ok (s.modMe c fun m => m.result w (aluPlain (BitVec.ofNat 64 m.tagq.length)) true false)
  | _ => .ok (s.modMe c fun m => { m with tagOvf := false })

/-! EDGE (R255). -/

/-- EDGE (class 0x7): a refused push leaves N and Z 0. -/
def dpEdge (c : Nat) (s : State) (w : BitVec 128) (t : Nat) : Did :=
  let m := s.me c
  let n := 32 * c + mwSel w % 32
  let o := (s.chan n).out
  if mwOp w = 0 then
    let v := (m.tr (mwSra w)).toNat
    let d := dtcWords v
    let x := v + s.tb.wraps * dtcMod
    let r := s.eqPush n (d.getD 0 0) (d.getD 1 0) (d.getD 2 0) (w32 ((mwImm w).toNat % 4))
    let full : Bool := r.2 ≠ .accepted
    let late : Bool := (s.extAt t).toNat + entryTq > x
    let behind : Bool := match o.lastPush with | some p => decide (x ≤ p) | none => false
    .ok (r.1.modMe c fun m =>
      { m with flags := { m.flags with c := full, n := !full && late, z := !full && behind, v := false }, wrAt := some t })
  else .ok (s.modMe c fun m => m.result w (aluPlain (BitVec.ofNat 64 o.queue.length)) true false)

/-! IO (R256, R257). -/

/-- BAR0 offset that SEL names for a read; none outside the registers. -/
def ioOffset (c sel : Nat) : Option Nat :=
  let k := sel % 32768
  match sel / 32768 with
  | 0 => some (0x100000 + 0x20000 * c + 4 * k)
  | 1 => if k / 4096 = 0 then some (0x200000 + 0x2000 * (32 * c + k / 128 % 32) + 4 * (k % 128)) else none
  | 2 => if k < 512 then some (0x10800 + 4 * k) else none
  | _ => none

/-- A write of a timer register that this read is to return (R252). -/
def State.timAhead (s : State) (o : Nat) (v : W32) : W32 :=
  s.timWr.foldl (fun v x => if 0x10800 + 0x40 * x.timer + x.reg = o ∧ x.reg ≠ 0x24 ∧ s.now < x.at_ then x.value else v) v

/-- The read of IO.RD, with the side effects of a host read. -/
def State.ioRead (s : State) (c sel : Nat) : State × W32 :=
  match ioOffset c sel with
  | none => (s, 0)
  | some o => let r := s.regRead o
              (r.1, s.timAhead o r.2)

/-- A shadow or active register of the pattern unit at an offset of a channel block. -/
def puRegAt (o : Nat) : Option PuReg :=
  match o with
  | 0x148 => some .per
  | 0x14C => some .cmp
  | 0x150 => some .per
  | 0x154 => some .cmp
  | 0x158 => some .npulse
  | 0x15C => some .bper
  | 0x160 => some .nburst
  | _ => none

/-- The write of IO.WR; none where it is denied. A timer write waits for the fourth edge (R298). -/
def State.ioWrite (s : State) (c sel t : Nat) (v : W32) : Option State :=
  let k := sel % 32768
  match sel / 32768 with
  | 1 =>
    let n := 32 * c + k / 128 % 32
    let o := 4 * (k % 128)
    if k / 4096 ≠ 0 then none
    else match puRegAt o with
      | some r => some (s.puWrite n r v)
      | none =>
        match o with
        | 0x140 => some (s.puCtrl n v)
        | 0x10C => some (s.modOut n fun x => { x with push0 := v })
        | 0x110 => some (s.modOut n fun x => { x with push1 := v })
        | 0x114 => some (s.modOut n fun x => { x with push2 := v })
        | 0x118 => let x := (s.chan n).out
                   some (s.eqPush n x.push0 x.push1 x.push2 v).1
        | _ => none
  | 2 =>
    let i := k / 16
    let r := 4 * (k % 16)
    if i < 32 ∧ (s.timAt i).owner = c + 1 ∧ (r = 0x04 ∨ r = 0x08 ∨ r = 0x24) then
      some { s with timWr := s.timWr ++ [{ at_ := t + 4 * cclk, timer := i, reg := r, value := v }] }
    else none
  | _ => none

/-- IO (class 0x8): a read stalls 6 cycles, one of a timer 12 (Table 9-7); a stall that the guard band, a budget or a handler's limit
cuts short chooses no next address. -/
def dpIo (c : Nat) (s : State) (w : BitVec 128) (t : Nat) : Did :=
  let sel := mwSel w
  if mwOp w = 0 then
    let r := s.ioRead c sel
    let n := if sel / 32768 = 2 then 12 else 6
    let e := t + n * cclk
    let a := (s.me c).gr (mwSra w)
    let u := r.1.modMe c fun m => { m.result w (aluPlain (BitVec.ofNat 64 r.2.toNat)) true false with stallTo := e }
    .handled (if s.undisturbed c t e then u.nextAddr c w (t + (n - 1) * cclk) a else u.charge c (t + cclk))
  else
    match s.ioWrite c sel t (BitVec.ofNat 32 ((s.me c).gr (mwSrb w)).toNat) with
    | some s => .ok (if sel / 32768 = 1 then s.modMe c fun m => { m with wrAt := some t } else s)
    | none => .fault s 6 0

/-! BANK (R259, R332). -/

/-- Word address of a BANK microword. -/
def Microengine.bankWord (m : Microengine) (w : BitVec 128) : Nat :=
  ((m.gr (mwSra w)).toNat + (mwImm w).toNat) % 2 ^ 23

/-- When an access of the new owner that a drain or a clear holds is served (R326). -/
def Bank.heldTo (k : Bank) (t : Nat) : Nat :=
  let t := if k.handover then max t k.drainAt else t
  match k.clearAt with | some e => max t e | none => t

/-- BANK (class 0x9): LD arrives 6 cycles after issue, the old value of an atomic 8 cycles. -/
def dpBank (c : Nat) (e : Ecc) (s : State) (w : BitVec 128) (t : Nat) : Did :=
  let m := s.me c
  let op := mwOp w
  let a := m.bankWord w
  let b := a / bankWords
  let k := s.bankAt b
  let v := m.gr (mwSrb w)
  let lag := if op = 0 then 6 else 8
  let from_ := k.heldTo t
  if k.owner ≠ 8 + c then .fault (s.deny b (8 + c) (a % bankWords) (op ≠ 0)) 4 0
  else
    let s := s.pcAdd (36 + c) 1
    let s := s.modMe c fun m =>
      { m with bankOut := (from_ + lag * cclk, b) :: m.bankOut.filter fun x => decide (t < x.1)
               lastAtomic := if 2 ≤ op then some (b, t) else m.lastAtomic }
    if op = 1 then .ok (s.writeWord a v)
    else
      let r := s.readWord a (8 + c) e
      match r.2 with
      | none => .fault r.1 5 0
      | some old =>
        let s := if op = 0 then r.1
          else r.1.writeWord a (if op = 2 then addWord k.addMode old v else v)
        .ok (s.modMe c fun m =>
          (m.result w (aluPlain old) true false).late (mwDst w) from_ lag false)

/-! EVENT (R260). -/

/-- Latches cleared on the edge `t`; one whose event is raised on that edge stays set. -/
def Microengine.clearLatches (m : Microengine) (mask : BitVec 32) (t : Nat) : Microengine :=
  let keep : BitVec 32 := if m.evlAt = t / cclk then m.evlRaised else 0
  { m with evl := m.evl &&& ~~~(mask &&& ~~~keep), evlPrev := m.evlPrev &&& ~~~mask }

/-- EVENT (class 0xA): SIG raises the software source and a notice. -/
def dpEvent (c : Nat) (s : State) (w : BitVec 128) (t : Nat) : Did :=
  let sel := mwSel w
  match mwOp w with
  | 0 => .ok ((s.raise (196 + 4 * c + sel % 4)).notice 3
      ([w32 (put 16 8 (s.me c).task + put 8 2 sel + put 0 2 c)] ++ dtcWords (s.dtcAt t)))
  | 1 => .ok (s.modMe c fun m => m.clearLatches (BitVec.ofNat 32 (2 ^ (sel % 32))) t)
  | _ => .ok (s.modMe c fun m => m.clearLatches (BitVec.ofNat 32 (m.gr (mwSrb w)).toNat) t)

/-! The rows: one microword that matches the row's class and operation, or its next-address form, issues; otherwise nothing does. -/

/-- CTRL NOP. -/
def execUNop (c : Fin 4) (ue : Bool) (s : State) : Host.Outcome State Fault Refusal :=
  .next (s.issue c ue (isOp 0 0) (dpCtrl c))

/-- CTRL RETI. -/
def execUReti (c : Fin 4) (ue : Bool) (s : State) : Host.Outcome State Fault Refusal :=
  .next (s.issue c ue (isOp 0 1) (dpCtrl c))

/-- CTRL EI. -/
def execUEi (c : Fin 4) (ue : Bool) (s : State) : Host.Outcome State Fault Refusal :=
  .next (s.issue c ue (isOp 0 2) (dpCtrl c))

/-- CTRL DI. -/
def execUDi (c : Fin 4) (ue : Bool) (s : State) : Host.Outcome State Fault Refusal :=
  .next (s.issue c ue (isOp 0 3) (dpCtrl c))

/-- CTRL LDLC. -/
def execULdlc (c : Fin 4) (ue : Bool) (s : State) : Host.Outcome State Fault Refusal :=
  .next (s.issue c ue (isOp 0 4) (dpCtrl c))

/-- CTRL SETF. -/
def execUSetf (c : Fin 4) (ue : Bool) (s : State) : Host.Outcome State Fault Refusal :=
  .next (s.issue c ue (isOp 0 5) (dpCtrl c))

/-- CTRL FAULT. -/
def execUFault (c : Fin 4) (ue : Bool) (s : State) : Host.Outcome State Fault Refusal :=
  .next (s.issue c ue (isOp 0 6) (dpCtrl c))

/-- ALU ADD. -/
def execUAdd (c : Fin 4) (ue : Bool) (s : State) : Host.Outcome State Fault Refusal :=
  .next (s.issue c ue (isOp 1 0) (fun s w _ => dpAlu c s w))

/-- ALU ADC. -/
def execUAdc (c : Fin 4) (ue : Bool) (s : State) : Host.Outcome State Fault Refusal :=
  .next (s.issue c ue (isOp 1 1) (fun s w _ => dpAlu c s w))

/-- ALU SUB. -/
def execUSub (c : Fin 4) (ue : Bool) (s : State) : Host.Outcome State Fault Refusal :=
  .next (s.issue c ue (isOp 1 2) (fun s w _ => dpAlu c s w))

/-- ALU SBC. -/
def execUSbc (c : Fin 4) (ue : Bool) (s : State) : Host.Outcome State Fault Refusal :=
  .next (s.issue c ue (isOp 1 3) (fun s w _ => dpAlu c s w))

/-- ALU AND. -/
def execUAnd (c : Fin 4) (ue : Bool) (s : State) : Host.Outcome State Fault Refusal :=
  .next (s.issue c ue (isOp 1 4) (fun s w _ => dpAlu c s w))

/-- ALU OR. -/
def execUOr (c : Fin 4) (ue : Bool) (s : State) : Host.Outcome State Fault Refusal :=
  .next (s.issue c ue (isOp 1 5) (fun s w _ => dpAlu c s w))

/-- ALU XOR. -/
def execUXor (c : Fin 4) (ue : Bool) (s : State) : Host.Outcome State Fault Refusal :=
  .next (s.issue c ue (isOp 1 6) (fun s w _ => dpAlu c s w))

/-- ALU ANDN. -/
def execUAndn (c : Fin 4) (ue : Bool) (s : State) : Host.Outcome State Fault Refusal :=
  .next (s.issue c ue (isOp 1 7) (fun s w _ => dpAlu c s w))

/-- ALU MIN. -/
def execUMin (c : Fin 4) (ue : Bool) (s : State) : Host.Outcome State Fault Refusal :=
  .next (s.issue c ue (isOp 1 8) (fun s w _ => dpAlu c s w))

/-- ALU MAX. -/
def execUMax (c : Fin 4) (ue : Bool) (s : State) : Host.Outcome State Fault Refusal :=
  .next (s.issue c ue (isOp 1 9) (fun s w _ => dpAlu c s w))

/-- ALU MINU. -/
def execUMinu (c : Fin 4) (ue : Bool) (s : State) : Host.Outcome State Fault Refusal :=
  .next (s.issue c ue (isOp 1 10) (fun s w _ => dpAlu c s w))

/-- ALU MAXU. -/
def execUMaxu (c : Fin 4) (ue : Bool) (s : State) : Host.Outcome State Fault Refusal :=
  .next (s.issue c ue (isOp 1 11) (fun s w _ => dpAlu c s w))

/-- ALU ADDSAT. -/
def execUAddsat (c : Fin 4) (ue : Bool) (s : State) : Host.Outcome State Fault Refusal :=
  .next (s.issue c ue (isOp 1 12) (fun s w _ => dpAlu c s w))

/-- ALU SUBSAT. -/
def execUSubsat (c : Fin 4) (ue : Bool) (s : State) : Host.Outcome State Fault Refusal :=
  .next (s.issue c ue (isOp 1 13) (fun s w _ => dpAlu c s w))

/-- ALU CMP. -/
def execUCmp (c : Fin 4) (ue : Bool) (s : State) : Host.Outcome State Fault Refusal :=
  .next (s.issue c ue (isOp 1 14) (fun s w _ => dpAlu c s w))

/-- ALU TST. -/
def execUTst (c : Fin 4) (ue : Bool) (s : State) : Host.Outcome State Fault Refusal :=
  .next (s.issue c ue (isOp 1 15) (fun s w _ => dpAlu c s w))

/-- SHIFT SHL. -/
def execUShl (c : Fin 4) (ue : Bool) (s : State) : Host.Outcome State Fault Refusal :=
  .next (s.issue c ue (isOp 2 0) (fun s w _ => dpShift c s w))

/-- SHIFT SHR. -/
def execUShr (c : Fin 4) (ue : Bool) (s : State) : Host.Outcome State Fault Refusal :=
  .next (s.issue c ue (isOp 2 1) (fun s w _ => dpShift c s w))

/-- SHIFT SAR. -/
def execUSar (c : Fin 4) (ue : Bool) (s : State) : Host.Outcome State Fault Refusal :=
  .next (s.issue c ue (isOp 2 2) (fun s w _ => dpShift c s w))

/-- SHIFT ROL. -/
def execURol (c : Fin 4) (ue : Bool) (s : State) : Host.Outcome State Fault Refusal :=
  .next (s.issue c ue (isOp 2 3) (fun s w _ => dpShift c s w))

/-- SHIFT EXT. -/
def execUExt (c : Fin 4) (ue : Bool) (s : State) : Host.Outcome State Fault Refusal :=
  .next (s.issue c ue (isOp 2 4) (fun s w _ => dpShift c s w))

/-- SHIFT INS. -/
def execUIns (c : Fin 4) (ue : Bool) (s : State) : Host.Outcome State Fault Refusal :=
  .next (s.issue c ue (isOp 2 5) (fun s w _ => dpShift c s w))

/-- SHIFT CLZ. -/
def execUClz (c : Fin 4) (ue : Bool) (s : State) : Host.Outcome State Fault Refusal :=
  .next (s.issue c ue (isOp 2 6) (fun s w _ => dpShift c s w))

/-- SHIFT POPC. -/
def execUPopc (c : Fin 4) (ue : Bool) (s : State) : Host.Outcome State Fault Refusal :=
  .next (s.issue c ue (isOp 2 7) (fun s w _ => dpShift c s w))

/-- MUL MULL. -/
def execUMull (c : Fin 4) (ue : Bool) (s : State) : Host.Outcome State Fault Refusal :=
  .next (s.issue c ue (isOp 3 0) (dpMul c))

/-- MUL MULHU. -/
def execUMulhu (c : Fin 4) (ue : Bool) (s : State) : Host.Outcome State Fault Refusal :=
  .next (s.issue c ue (isOp 3 1) (dpMul c))

/-- MUL MULHS. -/
def execUMulhs (c : Fin 4) (ue : Bool) (s : State) : Host.Outcome State Fault Refusal :=
  .next (s.issue c ue (isOp 3 2) (dpMul c))

/-- TIME TADD. -/
def execUTadd (c : Fin 4) (ue : Bool) (s : State) : Host.Outcome State Fault Refusal :=
  .next (s.issue c ue (isOp 4 0) (dpTime c))

/-- TIME TSUB. -/
def execUTsub (c : Fin 4) (ue : Bool) (s : State) : Host.Outcome State Fault Refusal :=
  .next (s.issue c ue (isOp 4 1) (dpTime c))

/-- TIME TADDI. -/
def execUTaddi (c : Fin 4) (ue : Bool) (s : State) : Host.Outcome State Fault Refusal :=
  .next (s.issue c ue (isOp 4 2) (dpTime c))

/-- TIME TDIFF. -/
def execUTdiff (c : Fin 4) (ue : Bool) (s : State) : Host.Outcome State Fault Refusal :=
  .next (s.issue c ue (isOp 4 3) (dpTime c))

/-- TIME TCMP. -/
def execUTcmp (c : Fin 4) (ue : Bool) (s : State) : Host.Outcome State Fault Refusal :=
  .next (s.issue c ue (isOp 4 4) (dpTime c))

/-- TIME TLD. -/
def execUTld (c : Fin 4) (ue : Bool) (s : State) : Host.Outcome State Fault Refusal :=
  .next (s.issue c ue (isOp 4 5) (dpTime c))

/-- TIME TSET. -/
def execUTset (c : Fin 4) (ue : Bool) (s : State) : Host.Outcome State Fault Refusal :=
  .next (s.issue c ue (isOp 4 6) (dpTime c))

/-- TIME TLOW. -/
def execUTlow (c : Fin 4) (ue : Bool) (s : State) : Host.Outcome State Fault Refusal :=
  .next (s.issue c ue (isOp 4 7) (dpTime c))

/-- TIME THIGH. -/
def execUThigh (c : Fin 4) (ue : Bool) (s : State) : Host.Outcome State Fault Refusal :=
  .next (s.issue c ue (isOp 4 8) (dpTime c))

/-- TIME TMOV. -/
def execUTmov (c : Fin 4) (ue : Bool) (s : State) : Host.Outcome State Fault Refusal :=
  .next (s.issue c ue (isOp 4 9) (dpTime c))

/-- MOVE MOVI. -/
def execUMovi (c : Fin 4) (ue : Bool) (s : State) : Host.Outcome State Fault Refusal :=
  .next (s.issue c ue (isOp 5 0) (dpMove c))

/-- MOVE MOV. -/
def execUMov (c : Fin 4) (ue : Bool) (s : State) : Host.Outcome State Fault Refusal :=
  .next (s.issue c ue (isOp 5 1) (dpMove c))

/-- MOVE RDSPEC. -/
def execURdspec (c : Fin 4) (ue : Bool) (s : State) : Host.Outcome State Fault Refusal :=
  .next (s.issue c ue (isOp 5 2) (dpMove c))

/-- MOVE WRSPEC. -/
def execUWrspec (c : Fin 4) (ue : Bool) (s : State) : Host.Outcome State Fault Refusal :=
  .next (s.issue c ue (isOp 5 3) (dpMove c))

/-- TAG TAG_POP. -/
def execUTagPop (c : Fin 4) (ue : Bool) (s : State) : Host.Outcome State Fault Refusal :=
  .next (s.issue c ue (isOp 6 0) (dpTag c))

/-- TAG TAG_PEEK. -/
def execUTagPeek (c : Fin 4) (ue : Bool) (s : State) : Host.Outcome State Fault Refusal :=
  .next (s.issue c ue (isOp 6 1) (dpTag c))

/-- TAG TAG_LEVEL. -/
def execUTagLevel (c : Fin 4) (ue : Bool) (s : State) : Host.Outcome State Fault Refusal :=
  .next (s.issue c ue (isOp 6 2) (dpTag c))

/-- TAG TAG_CLRLOSS. -/
def execUTagClrloss (c : Fin 4) (ue : Bool) (s : State) : Host.Outcome State Fault Refusal :=
  .next (s.issue c ue (isOp 6 3) (dpTag c))

/-- EDGE EDGE_PUSH. -/
def execUEdgePush (c : Fin 4) (ue : Bool) (s : State) : Host.Outcome State Fault Refusal :=
  .next (s.issue c ue (isOp 7 0) (dpEdge c))

/-- EDGE EDGE_QLEVEL. -/
def execUEdgeQlevel (c : Fin 4) (ue : Bool) (s : State) : Host.Outcome State Fault Refusal :=
  .next (s.issue c ue (isOp 7 1) (dpEdge c))

/-- IO IO_RD. -/
def execUIoRd (c : Fin 4) (ue : Bool) (s : State) : Host.Outcome State Fault Refusal :=
  .next (s.issue c ue (isOp 8 0) (dpIo c))

/-- IO IO_WR. -/
def execUIoWr (c : Fin 4) (ue : Bool) (s : State) : Host.Outcome State Fault Refusal :=
  .next (s.issue c ue (isOp 8 1) (dpIo c))

/-- BANK BANK_LD. -/
def execUBankLd (c : Fin 4) (ue : Bool) (e : Ecc) (s : State) : Host.Outcome State Fault Refusal :=
  .next (s.issue c ue (isOp 9 0) (dpBank c e))

/-- BANK BANK_ST. -/
def execUBankSt (c : Fin 4) (ue : Bool) (e : Ecc) (s : State) : Host.Outcome State Fault Refusal :=
  .next (s.issue c ue (isOp 9 1) (dpBank c e))

/-- BANK BANK_ADD. -/
def execUBankAdd (c : Fin 4) (ue : Bool) (e : Ecc) (s : State) : Host.Outcome State Fault Refusal :=
  .next (s.issue c ue (isOp 9 2) (dpBank c e))

/-- BANK BANK_SWAP. -/
def execUBankSwap (c : Fin 4) (ue : Bool) (e : Ecc) (s : State) : Host.Outcome State Fault Refusal :=
  .next (s.issue c ue (isOp 9 3) (dpBank c e))

/-- EVENT SIG. -/
def execUSig (c : Fin 4) (ue : Bool) (s : State) : Host.Outcome State Fault Refusal :=
  .next (s.issue c ue (isOp 10 0) (dpEvent c))

/-- EVENT EVCLR. -/
def execUEvclr (c : Fin 4) (ue : Bool) (s : State) : Host.Outcome State Fault Refusal :=
  .next (s.issue c ue (isOp 10 1) (dpEvent c))

/-- EVENT EVCLRM. -/
def execUEvclrm (c : Fin 4) (ue : Bool) (s : State) : Host.Outcome State Fault Refusal :=
  .next (s.issue c ue (isOp 10 2) (dpEvent c))

/-- WAIT WAIT. -/
def execUWait (c : Fin 4) (ue : Bool) (s : State) : Host.Outcome State Fault Refusal :=
  .next (s.issue c ue (isOp 11 0) (dpWait c))

/-- The datapath of any class, for the rows that name a next-address form. -/
def datapath (c : Nat) (s : State) (w : BitVec 128) (t : Nat) : Did :=
  match mwClass w with
  | 0 => dpCtrl c s w t
  | 1 => dpAlu c s w
  | 2 => dpShift c s w
  | 3 => dpMul c s w t
  | 4 => dpTime c s w t
  | 5 => dpMove c s w t
  | 6 => dpTag c s w t
  | 7 => dpEdge c s w t
  | 8 => dpIo c s w t
  | 9 => dpBank c .ok s w t
  | 10 => dpEvent c s w t
  | _ => dpWait c s w t

/-- SEQ JUMP: a microword with this next-address form, whatever its class. -/
def execUJump (c : Fin 4) (ue : Bool) (s : State) : Host.Outcome State Fault Refusal :=
  .next (s.issue c ue (isSeq 1) (datapath c))

/-- SEQ CALL: a microword with this next-address form, whatever its class. -/
def execUCall (c : Fin 4) (ue : Bool) (s : State) : Host.Outcome State Fault Refusal :=
  .next (s.issue c ue (isSeq 2) (datapath c))

/-- SEQ RET: a microword with this next-address form, whatever its class. -/
def execURet (c : Fin 4) (ue : Bool) (s : State) : Host.Outcome State Fault Refusal :=
  .next (s.issue c ue (isSeq 3) (datapath c))

/-- SEQ LOOP: a microword with this next-address form, whatever its class. -/
def execULoop (c : Fin 4) (ue : Bool) (s : State) : Host.Outcome State Fault Refusal :=
  .next (s.issue c ue (isSeq 4) (datapath c))

/-- SEQ DISPATCH: a microword with this next-address form, whatever its class. -/
def execUDispatch (c : Fin 4) (ue : Bool) (s : State) : Host.Outcome State Fault Refusal :=
  .next (s.issue c ue (isSeq 5) (datapath c))

/-- SEQ END: a microword with this next-address form, whatever its class. -/
def execUEnd (c : Fin 4) (ue : Bool) (s : State) : Host.Outcome State Fault Refusal :=
  .next (s.issue c ue (isSeq 6) (datapath c))

end Sys2Proof.Machine
end

