-- ==== Sys2Proof/Machine/Load.lean ====
section
/-! DEFINITION. Microcode images: their validation and UC_LOAD (R269 to R274, R390). -/
namespace Sys2Proof.Machine

/-! A microword of an image (R244, R246, R247, R270). -/

/-- Highest OP of a class; none for a reserved class. -/
def classTop (k : Nat) : Option Nat := [6, 15, 7, 2, 9, 3, 3, 1, 1, 3, 2, 0][k]?

/-- A field used by its class, or 0: DST, SRA, SRB, BIMM, FLG, SEL, IMM. -/
def mwFieldsOk (w : BitVec 128) : Bool :=
  let k := mwClass w
  let obj : Bool := [10, 11, 12, 17].contains (mwCond w)
  let zero (x : Nat) (used : Bool) : Bool := used || x = 0
  zero (mwDst w) ([1, 2, 3, 4, 5, 6, 7, 8, 9].contains k)
    && zero (mwSra w) ([1, 2, 3, 4, 5, 6, 7, 9].contains k || obj || mwSeq w = 5)
    && zero (mwSrb w) ([0, 1, 2, 3, 4, 8, 9, 10].contains k)
    && zero (b2n (mwBimm w)) ([0, 1, 2, 3, 4].contains k)
    && zero (b2n (mwFlg w)) ([1, 2, 3, 4, 5, 6, 7, 8, 9].contains k)
    && zero (mwSel w) ([5, 7, 8, 10].contains k || obj)
    && zero (mwImm w).toNat ([0, 1, 2, 3, 4, 5, 7, 9, 11].contains k)

/-- Fields that name a TM register. -/
def mwTmFields (w : BitVec 128) : List Nat :=
  let cond := if mwCond w = 12 then [mwSra w] else []
  cond ++ match mwClass w, mwOp w with
    | 4, 0 => [mwDst w, mwSra w, mwSrb w]
    | 4, 1 => [mwDst w, mwSra w, mwSrb w]
    | 4, 2 => [mwDst w, mwSra w]
    | 4, 3 => [mwSra w, mwSrb w]
    | 4, 4 => [mwSra w, mwSrb w]
    | 4, 5 => [mwDst w]
    | 4, 6 => [mwDst w]
    | 4, 9 => [mwDst w, mwSra w]
    | 4, _ => [mwSra w]
    | 6, 0 => [mwSra w]
    | 6, 1 => [mwSra w]
    | 7, 0 => [mwSra w]
    | _, _ => []

/-- SEL names no reserved region or special register. -/
def mwSelOk (w : BitVec 128) : Bool :=
  let sel := mwSel w
  match mwClass w with
  | 8 => sel / 32768 ≠ 3 && (sel / 32768 ≠ 1 || sel / 4096 % 8 = 0)
  | 5 => mwOp w < 2 || sel % 16 < 11
  | _ => true

/-- The object conditions stand in CTRL and WAIT only, in CTRL without BIMM (R247). -/
def mwCondOk (w : BitVec 128) : Bool :=
  mwCond w ≠ 31 &&
    (!([10, 11, 12, 17].contains (mwCond w)) || mwClass w = 11 || (mwClass w = 0 && !mwBimm w))

/-- A TARGET that is used lies in the image. -/
def mwTargetOk (w : BitVec 128) (nwords : Nat) : Bool :=
  let t := mwTarget w
  match mwSeq w with
  | 1 => t < nwords
  | 2 => t < nwords
  | 4 => t < nwords
  | 5 => t + 15 < nwords
  | 6 => t < nwords
  | _ => mwClass w ≠ 11 || (mwImm w).toNat % 2 ^ 32 = 0 || t < nwords

/-- A microword that R270 admits. -/
def mwValid (w : BitVec 128) (nwords : Nat) : Bool :=
  (match classTop (mwClass w) with | some n => mwOp w ≤ n | none => false)
    && mwSeq w ≠ 7 && mwCondOk w && mwSelOk w && mwFieldsOk w && (mwTmFields w).all (fun r => decide (r < 8))
    && (mwClass w ≠ 11 || mwSeq w = 0) && mwTargetOk w nwords

/-! The image (Table 9-10). -/

/-- The 64-bit words of an image. -/
def imageWords (m : List Host.Cell) (addr len : Nat) : List W64 :=
  (List.range (len / 8)).map fun i => BitVec.ofNat 64 (bytesNat (Mem.readList m (addr + 8 * i) 8))

/-- Word i of an image; 0 beyond its end. -/
def iw (l : List W64) (i : Nat) : W64 := l.getD i 0

def imageNwords (l : List W64) : Nat := bits64 (iw l 1) 13 0
def imageNvec (l : List W64) : Nat := bits64 (iw l 1) 24 16
def imageReserve (l : List W64) : Nat := bits64 (iw l 2) 54 32

/-- Microword a. -/
def imageWord (l : List W64) (a : Nat) : BitVec 128 :=
  BitVec.ofNat 128 ((iw l (16 + 2 * a)).toNat + (iw l (17 + 2 * a)).toNat * 2 ^ 64)

/-- Vector entry v: source, address, fast class, and whether its reserved bits are 0. -/
def imageVector (l : List W64) (v : Nat) : W32 :=
  let x := iw l (16 + 2 * imageNwords l + v / 2)
  w32 (x.toNat / 2 ^ (32 * (v % 2)))

def imageVectors (l : List W64) : List W32 := (List.range (imageNvec l)).map (imageVector l)

/-- A word has no bit outside a mask. -/
def clean64 (x : W64) (mask : Nat) : Bool := decide (x.toNat &&& mask = x.toNat)

/-- The header settings. -/
def imageSettings (l : List W64) : MeImage :=
  { nwords := imageNwords l, fastMax := bits64 (iw l 2) 15 0, normMax := bits64 (iw l 2) 31 16, reserve := imageReserve l
    tagsel := (iw l 3).toNat + (iw l 4).toNat * 2 ^ 64
    evb := Vector.ofFn fun i : Fin 32 => bits64 (iw l (5 + i.val / 4)) (16 * (i.val % 4) + 15) (16 * (i.val % 4)) }

/-- MAGIC, FORMAT, the ranges of the fields, the reserved bits and the length are right. -/
def headerOk (l : List W64) (len : Nat) : Bool :=
  let n := imageNwords l
  let h := imageSettings l
  bits64 (iw l 0) 31 0 = 0x4B345543 && bits64 (iw l 0) 47 32 = 1 && clean64 (iw l 0) 0x0000FFFFFFFFFFFF
    && clean64 (iw l 1) 0x01FF3FFF && clean64 (iw l 2) 0x007FFFFFFFFFFFFF
    && 1 ≤ n && n ≤ 8192 && imageNvec l ≤ 256 && 1 ≤ h.fastMax && h.fastMax ≤ 4096 && 1 ≤ h.normMax && h.normMax ≤ 4096
    && iw l 13 = 0 && iw l 14 = 0 && iw l 15 = 0
    && len = 128 + 16 * n + 8 * ((imageNvec l + 1) / 2)

/-- Bindings and vectors are right: no reserved code, no fixed or reserved source, every handler inside the image. -/
def tablesOk (l : List W64) : Bool :=
  (imageSettings l).evb.toList.all codeOk
    && (imageVectors l).all fun v => bits v 7 0 < 212 && bits v 20 8 < imageNwords l && !reserved v 0x011FFFFF

/-- The first microword that R270 refuses. -/
def firstBad (l : List W64) : Option Nat :=
  (List.range (imageNwords l)).find? fun a => !mwValid (imageWord l a) (imageNwords l)

/-! UC_LOAD (Table 9-11). -/

def ucMask (p : List W32) : Nat := bits (pw p 1) 3 0
def ucBank (p : List W32) : Nat := bits (pw p 1) 13 8
def ucAddr (p : List W32) : Nat := ucBank p * bankBytes + (pw p 2).toNat
def ucLen (p : List W32) : Nat := (pw p 3).toNat
def ucClusters (p : List W32) : List Nat := maskIdx 4 (ucMask p)

/-- The image that a UC_LOAD names, as 64-bit words, and its digest. -/
def State.ucImage (s : State) (p : List W32) : List W64 := imageWords s.mem (ucAddr p) (ucLen p)
def State.ucHash (s : State) (p : List W32) : BitVec 384 := Config.sha384 (Mem.readList s.mem (ucAddr p) (ucLen p))

/-- The expected hash is absent or right. -/
def ucHashOk (p : List W32) (h : BitVec 384) : Bool :=
  let e := (List.range 12).map fun i => pw p (4 + i)
  e.all (fun x => decide (x = 0)) || e == words384 h

/-- RANGE: from the payload, and from the header of an image in a bank that HOST owns. -/
def ucRange (s : State) (p : List W32) : Bool :=
  let l := s.ucImage p
  ucMask p = 0 || reserved (pw p 1) 0x3F0F || (pw p 2).toNat % 8 ≠ 0 || bankBytes < (pw p 2).toNat + ucLen p
    || ((s.bankAt (ucBank p)).owner = 1 &&
        ((0 < imageNvec l && 1 < (ucClusters p).length)
          || (ucClusters p).any fun c => decide (s.tb.tickP - (s.clus c).sch.guard < imageReserve l)))

/-- The imports of a cluster with another tag input mask. -/
def State.importsWith (s : State) (c tagsel : Nat) : Nat :=
  let t := s.modMe c fun m => { m with image := { m.image with tagsel := tagsel } }
  count128 (t.importWant c)

/-- Refusals of UC_LOAD before its image is validated. -/
def ucCheck (s : State) (p : List W32) : Nat :=
  let sel := (imageSettings (s.ucImage p)).tagsel
  firstCode [
    (ucRange s p, rcRange),
    ((ucClusters p).any fun c => (s.table c).any fun t => t.en, rcState),
    ((s.bankAt (ucBank p)).owner ≠ 1 || (ucClusters p).any fun c => decide (32 < s.importsWith c sel), rcResource)]

/-- A source's target, class, address and enable written; a source that is ACTIVE takes them over at its completion
(Table 15-2). -/
def Source.retarget (x : Source) (target : IcTarget) (fast : Bool) (addr : Nat) (en : Bool) : Source :=
  if x.active then { x with later := some { target := target, fast := fast, addr := addr, en := en } }
  else { x with target := target, fast := fast, addr := addr, en := en, pending := x.pending && en }

/-- A source's target once what waits for its completion is counted in. -/
def Source.goal (x : Source) : IcTarget := match x.later with | some l => l.target | none => x.target

/-- The sources after an accepted image of cluster c (R390). -/
def State.vectorSources (s : State) (c : Fin 4) (vs : List W32) : State :=
  let named (k : Nat) : Bool := vs.any fun v => bits v 7 0 = k
  let s := s.each (List.range 212) fun s k =>
    if named k ∨ (s.srcAt k).goal ≠ .me c then s else s.modSrc k fun x => x.retarget .mc false 0 (decide (196 ≤ k))
  vs.foldl (fun s v =>
    let k := bits v 7 0
    let s := match (s.srcAt k).goal with
      | .me d => if d = c then s else s.report 6 3 c (w32 k) (w32 d.val)
      | _ => s
    s.modSrc k fun x => x.retarget (.me c) (bit v 24) (bits v 20 8) true) s

/-- The image enters one cluster (R271): the handlers of the old one are abandoned. -/
def State.loadImage (s : State) (c : Fin 4) (l : List W64) (h : BitVec 384) : State :=
  let s := (s.me c).handlers.foldl (fun s h => s.modSrc h.src (Source.complete s.now)) s
  let s := { s with ic := { s.ic with fastAct := vset s.ic.fastAct c false } }
  let n := imageNwords l
  let s := s.modMe c fun m =>
    { m with state := if s.pwr.gated.testBit c then .halted else .idle
             store := (List.range n).map (imageWord l), loaded := true, image := imageSettings l
             hash := Vector.ofFn fun i : Fin 12 => (words384 h).getD i.val 0
             handlers := [], stack := [], wait := none, nextAt := max m.nextAt s.now }
  s.vectorSources c (imageVectors l)

/-- UC_LOAD. -/
def cmdUcLoad (s : State) (p : List W32) : Res :=
  let c := ucCheck s p
  if c ≠ 0 then fail s c
  else
    let l := s.ucImage p
    let h := s.ucHash p
    let b := ucBank p
    let back (s : State) : State := (s.giveBank b 0).giveBank b 1
    let bad := firstBad l
    if headerOk l (ucLen p) && bad.isNone && tablesOk l && ucHashOk p h then
      let s := ((ucClusters p).foldl (fun s c => (s.countIdle c s.now).modMe c fun m => { m with state := .loading }) s).settle
      let s := s.each (ucClusters p) fun s c => s.loadImage (Fin.ofNat 4 c) l h
      okay (back s).settle (words384 h)
    else
      let w13 := match bad with | some a => w32 (2 ^ 31 + a % 8192) | none => 0
      .done (back s) rcIntegrity (words384 h ++ [w13])

end Sys2Proof.Machine
end

