-- ==== Sys2Proof/Machine/Mail.lean ====
section
/-! DEFINITION. The checks of a packet, the opcode table, the system commands, and the handler of each opcode (R376 to R379). -/
namespace Sys2Proof.Machine

/-! The opcode table (R378, Table 14-4). -/

/-- Least and greatest LEN of an opcode, and whether it is accepted before READY. -/
def opRow (op : Nat) : Option (Nat × Nat × Bool) :=
  match op with
  | 0x0100 => some (0, 15, true)
  | 0x0101 => some (0, 1, true)
  | 0x0102 => some (0, 0, true)
  | 0x0103 => some (2, 2, true)
  | 0x0104 => some (1, 1, true)
  | 0x0200 => some (3, 3, false)
  | 0x0201 => some (1, 1, false)
  | 0x0202 => some (3, 3, false)
  | 0x0203 => some (4, 4, false)
  | 0x0204 => some (3, 3, true)
  | 0x0205 => some (0, 0, true)
  | 0x0300 => some (4, 4, false)
  | 0x0301 => some (3, 3, false)
  | 0x0302 => some (1, 1, false)
  | 0x0303 => some (1, 1, false)
  | 0x0400 => some (5, 5, false)
  | 0x0401 => some (4, 4, false)
  | 0x0402 => some (1, 1, false)
  | 0x0403 => some (1, 1, false)
  | 0x0404 => some (7, 7, false)
  | 0x0500 => some (10, 10, false)
  | 0x0501 => some (4, 4, false)
  | 0x0502 => some (5, 5, false)
  | 0x0503 => some (1, 1, false)
  | 0x0600 => some (7, 7, false)
  | 0x0601 => some (1, 1, false)
  | 0x0700 => some (15, 15, false)
  | 0x0701 => some (4, 4, false)
  | 0x0702 => some (1, 1, false)
  | 0x0703 => some (7, 7, false)
  | 0x0704 => some (7, 7, false)
  | 0x0800 => some (1, 1, false)
  | 0x0801 => some (1, 1, false)
  | 0x0802 => some (3, 3, false)
  | 0x0803 => some (2, 2, false)
  | 0x0804 => some (2, 2, true)
  | 0x0900 => some (9, 9, false)
  | 0x0901 => some (1, 1, false)
  | 0x0902 => some (1, 1, false)
  | 0x0A00 => some (2, 2, false)
  | 0x0A01 => some (2, 2, false)
  | 0x0B00 => some (2, 15, false)
  | 0x0B01 => some (4, 4, false)
  | 0x0B02 => some (1, 1, false)
  | 0x0C00 => some (9, 9, false)
  | 0x0C01 => some (2, 2, false)
  | _ => if 0x0F00 ≤ op ∧ op ≤ 0x0F07 then some (0, 15, true) else none

/-- An opcode of the secure path. -/
def secureOp (op : Nat) : Bool := op / 256 = 0x0F

/-- The checks of R376 that come before a command's own refusals. -/
def State.packetCheck (s : State) (mb op len : Nat) : Nat :=
  match opRow op with
  | none => rcBadOpcode
  | some (lo, hi, early) =>
    firstCode [
      (secureOp op != secureMb mb, rcDenied),
      (len < lo || hi < len, rcBadLength),
      (!early && s.pwr.startup ≠ .ready, rcNotReady)]

/-! System commands (R379, Table 14-5). -/

/-- SYS_PING: the payload words unchanged. -/
def cmdSysPing (s : State) (p : List W32) : Res := okay s p

/-- SYS_GET_INFO. -/
def cmdSysGetInfo (s : State) (p : List W32) : Res :=
  let page := (pw p 1).toNat
  if 1 < page then fail s rcRange
  else if page = 0 then
    okay s [w32 (put 20 1 (b2n Config.gradeE) + put 16 4 1 + 0x4128), w32 Config.serial.toNat, w32 (Config.serial.toNat / 2 ^ 32),
      s.sec.fwVersion, 1]
  else okay s (words384 s.sec.fwHash)

/-- Enabled channels whose conformance state is not NOMINAL. -/
def State.notNominal (s : State) : Nat :=
  (s.ch.toList.filter fun c => (c.inp.en || c.out.en) && c.cal.conf ≠ .nominal).length

/-- SYS_GET_HEALTH. -/
def cmdSysGetHealth (s : State) : Res :=
  okay s [s.sysStatus, w32 s.monFaults, w32 (s.monFaults / 2 ^ 32), s.thermWord, s.ref.word, s.pps.word, s.bx.alignWord, s.pcie.word,
    w32 s.err.wr, w32 s.pwr.gated, w32 s.notNominal, w32 s.pwr.mcRestarts]

/-! The handlers. -/

/-- The handler of every opcode but SYS_RESET, the group commands and the secure ones. -/
def State.command (s : State) (mb op : Nat) (env : Env) (p : List W32) : Res :=
  match op with
  | 0x0100 => cmdSysPing s p
  | 0x0101 => cmdSysGetInfo s p
  | 0x0102 => cmdSysGetHealth s
  | 0x0104 => cmdSysSetMirror s p
  | 0x0200 => cmdTsSetReference s p
  | 0x0201 => cmdTsSetTick s env p
  | 0x0202 => cmdTsDiscipline s env p
  | 0x0203 => cmdTsSetTime s env p
  | 0x0204 => cmdTsRtcSet s p
  | 0x0205 => cmdTsRtcRead s
  | 0x0300 => cmdChSetInput s p
  | 0x0301 => cmdChSetOutput s p
  | 0x0302 => cmdChEnable s p
  | 0x0303 => cmdChDisable s p
  | 0x0400 => cmdMeasDefine s p
  | 0x0401 => cmdMeasArm s p
  | 0x0402 => cmdMeasStop s p
  | 0x0403 => cmdMeasRead s p
  | 0x0404 => cmdHistDefine s p
  | 0x0500 => cmdSynPattern s p
  | 0x0501 => cmdSynPair s p
  | 0x0502 => cmdSynBrakeCfg s p
  | 0x0503 => cmdSynBrakeClear s p
  | 0x0600 => cmdQdDefine s p
  | 0x0601 => cmdQdRead s p
  | 0x0700 => cmdUcLoad s p
  | 0x0701 => cmdTaskSet s p
  | 0x0702 => cmdTaskRemove s p
  | 0x0703 => cmdSchedCheck s p
  | 0x0704 => cmdTimerSet s p
  | 0x0800 => cmdCalRun s p
  | 0x0801 => cmdCalStatus s p
  | 0x0802 => cmdCalPolicy s p
  | 0x0803 => cmdEnvTdr s p
  | 0x0804 => cmdEnvMonitors s p
  | 0x0900 => cmdStreamOpen s p
  | 0x0901 => cmdStreamClose s p
  | 0x0902 => cmdBankAssign s p
  | 0x0A00 => cmdPwrSetState s mb p
  | 0x0A01 => cmdPwrRetainBanks s p
  | 0x0C00 => cmdBxLink s p
  | 0x0C01 => cmdBxAlign s p
  | _ => fail s rcBadOpcode

/-- The code a handler answers; one that waits has passed its checks. -/
def Res.code : Res → Nat
  | .done _ c _ => c
  | .wait _ _ => rcOk

/-- An accepted action takes effect at the boundary that has just begun; `b` is that boundary (extended). -/
def State.applyAt (s : State) (op : Nat) (p : List W32) (b : Nat) : State :=
  match op with
  | 0x0104 => s.applyMirror
  | 0x0300 => applySetInput s p
  | 0x0301 => applySetOutput s p
  | 0x0302 => applyEnable s p
  | 0x0303 => applyDisable s p
  | 0x0401 => armSlots s p b
  | 0x0402 => stopSlots s p (s.now : Nat)
  | 0x0500 => applyPattern s p b
  | 0x0501 => applySynPair s p
  | 0x0502 => applyBrakeGuard s p
  | 0x0600 => s.applyQd p
  | 0x0701 => applyTaskSet s p
  | 0x0702 => applyTaskRemove s p
  | 0x0704 => applyTimerStart s p
  | 0x0802 => applyCalPolicy s p
  | 0x0803 => s.applyTdr p
  | 0x0900 => applyStreamStart s p
  | 0x0901 => applyStreamClose s p
  | 0x0A00 => s.applyPower p
  | _ => s

/-! Objects that a command names (R381). -/

/-- Kinds of objects that a group reserves. -/
inductive ObjKind where
  | channel | slot | decoder
  | task (c : Nat)
deriving DecidableEq, Repr

/-- The objects named in a payload: a kind and its numbers. -/
def named (op : Nat) (p : List W32) : List (ObjKind × List Nat) :=
  match op with
  | 0x0300 | 0x0301 | 0x0302 | 0x0303 | 0x0500 | 0x0501 | 0x0800 | 0x0803 => [(.channel, rangeChans p)]
  | 0x0502 => if bit (pw p 1) 9 then [(.channel, rangeChans (guardRange p))] else []
  | 0x0801 => [(.channel, [bits (pw p 1) 6 0])]
  | 0x0400 =>
    let k := Slot.reset.define p
    [(.slot, [bits (pw p 1) 8 0]), (.channel, if k.type = 0 then [] else k.chA :: (if k.usesB then [k.chB] else []))]
  | 0x0401 | 0x0402 => [(.slot, slotRange p)]
  | 0x0403 | 0x0404 => [(.slot, [bits (pw p 1) 8 0])]
  | 0x0600 | 0x0601 => [(.decoder, [bits (pw p 1) 4 0])]
  | 0x0701 => [(.task (bits (pw p 1) 1 0), [bits (pw p 1) 15 8])]
  | 0x0702 => [(.task (bits (pw p 1) 1 0), rangeIdx (bits (pw p 1) 15 8) (bits (pw p 1) 23 16))]
  | 0x0900 => if openKind p = 0 then [(.channel, maskIdx 128 (openMask p))] else []
  | _ => []

/-- Two commands name a common object. -/
def shareObject (a b : List (ObjKind × List Nat)) : Bool :=
  a.any fun x => b.any fun y => x.1 == y.1 && x.2.any fun n => y.2.contains n

/-- A command names an object that a group, but for the group numbered `but`, reserves (R381). -/
def State.groupBusy (s : State) (but op : Nat) (p : List W32) : Bool :=
  let mine := named op p
  s.grp.toList.any fun g =>
    (g.state = .opened || g.state = .committed) && g.num ≠ but && g.members.any fun m => shareObject mine (named m.op m.words)

/-- The handler with the reservations of groups: BUSY comes after RANGE, NOT_READY and STATE (R376). -/
def State.guarded (s : State) (but mb op : Nat) (env : Env) (p : List W32) : Res :=
  let r := s.command mb op env p
  if s.groupBusy but op p ∧ r.code ≠ rcRange ∧ r.code ≠ rcNotReady ∧ r.code ≠ rcState then fail s rcBusy else r

end Sys2Proof.Machine
end

