-- ==== Sys2Proof/Machine/Group.lean ====
section
/-! DEFINITION. Group commands: prepare, commit, abandon (R380 to R382). -/
namespace Sys2Proof.Machine

def State.modGrp (s : State) (k : Nat) (f : Group → Group) : State := { s with grp := vmod s.grp k f }
def State.grpAt (s : State) (k : Nat) : Group := vget s.grp k

/-- The register that holds a group number. -/
def State.groupOf (s : State) (n : Nat) : Option Nat :=
  (List.range 4).find? fun k => (s.grpAt k).state ≠ .free && (s.grpAt k).num = n

/-- The lowest free group register. -/
def State.freeGroup (s : State) : Option Nat := (List.range 4).find? fun k => (s.grpAt k).state = .free

/-! Members (R380). -/

/-- Channel, slot and object fields of a template lie in cluster 0, its own time field is 0, and it is no form that R380 shuts out. -/
def templateOk (op : Nat) (p : List W32) : Bool :=
  let chans (q : List W32) : Bool := rangeFirst q < 32 && rangeLast q < 32
  match op with
  | 0x0300 | 0x0301 | 0x0302 | 0x0303 | 0x0501 => chans p
  | 0x0401 => slotFirst p < 128 && slotLast p < 128 && !bit (pw p 1) 31 && pw p 2 = 0 && pw p 3 = 0 && pw p 4 = 0
  | 0x0402 => slotFirst p < 128 && slotLast p < 128
  | 0x0500 => chans p && pw p 8 = 0 && pw p 9 = 0 && pw p 10 = 0
  | 0x0502 => !bit (pw p 1) 8 && (!bit (pw p 1) 9 || chans (guardRange p))
  | 0x0600 => bits (pw p 1) 4 0 < 8
  | 0x0701 | 0x0702 => bits (pw p 1) 1 0 = 0
  | 0x0803 => chans p && tdrOp p ≠ 0
  | _ => false

/-- The member length that the opcode table gives; MEAS_ARM may come without its unused time words, as in R382's example. -/
def memberLenOk (op n : Nat) : Bool :=
  (op = 0x0401 && n = 1) || match opRow op with | some (lo, _, _) => n = lo | none => false

/-- What a template's word gains for cluster c. -/
def memberShift (op c : Nat) : W32 :=
  match op with
  | 0x0401 | 0x0402 => w32 (128 * c * 0x10001)
  | 0x0600 => w32 (8 * c)
  | 0x0701 | 0x0702 => w32 c
  | _ => w32 (32 * c * 0x101)

/-- The member's payload for cluster c. -/
def memberWords (op c : Nat) (p : List W32) : List W32 :=
  let d := memberShift op c
  if op = 0x0502 then (if bit (pw p 1) 9 then p.take 3 ++ (pw p 4 + d) :: p.drop 4 else p)
  else (pw p 1 + d) :: p.drop 1

/-- The state that will hold once the members already prepared in a group have taken effect (R380). -/
def State.groupAhead (s : State) (k : Option Nat) : State :=
  match k with
  | none => s
  | some k =>
    let g := s.grpAt k
    let b := s.boundaryB
    g.members.foldl (fun s m => s.applyAt m.op (asEnabled m.op m.words) b) (s.modGrp k fun _ => Group.reset)

/-- The code that the member gives in cluster c, against the state ahead. -/
def memberCode (ahead : State) (num op : Nat) (env : Env) (p : List W32) : Nat :=
  (ahead.guarded num 0 op env (asEnabled op p)).code

/-- The member as it is kept: a PHASE that AUTO_PHASE chooses is chosen now. -/
def memberKept (ahead : State) (op : Nat) (p : List W32) : List W32 :=
  if op = 0x0701 then pw p 1 :: (ahead.taskPlan (asEnabled op p)).2.2.tail else p

/-! GRP_PREPARE. -/

/-- GRP_PREPARE's refusals but GROUP_FAILED. -/
def prepareCheck (s : State) (p : List W32) : Nat :=
  let n := bits (pw p 1) 7 0
  let op := bits (pw p 2) 31 16
  let q := p.drop 2
  let k := s.groupOf n
  firstCode [
    (n = 0 || bits (pw p 1) 11 8 = 0 || reserved (pw p 1) 0xFFF || reserved (pw p 2) 0xFFFFFF00
      || !memberLenOk op (bits (pw p 2) 15 8) || !templateOk op q, rcRange),
    (match k with | some k => (s.grpAt k).state ≠ .opened | none => false, rcState),
    (match k with | some k => 16 ≤ (s.grpAt k).prepares | none => s.freeGroup.isNone, rcResource)]

/-- GRP_PREPARE: every cluster of the mask passes, or the group fails. -/
def cmdGrpPrepare (s : State) (env : Env) (p : List W32) : Res :=
  let c := prepareCheck s p
  if c ≠ 0 then fail s c
  else
    let n := bits (pw p 1) 7 0
    let mask := bits (pw p 1) 11 8
    let op := bits (pw p 2) 31 16
    let q := (p.drop 2).take (bits (pw p 2) 15 8)
    let old := s.groupOf n
    let ahead := s.groupAhead old
    let code (c : Nat) : Nat := if mask.testBit c then memberCode ahead n op env (memberWords op c q) else 0
    let failed := idxMask ((List.range 4).filter fun c => code c ≠ 0)
    let reply := w32 failed :: (List.range 4).map fun c => w32 (code c)
    let k := (old.or s.freeGroup).getD 0
    let s := if old.isSome then s else s.modGrp k fun _ => { Group.reset with num := n, state := .opened }
    if failed ≠ 0 then .done (s.modGrp k fun g => { g with state := .failed, failed := failed }) rcGroupFailed reply
    else
      let l := (maskIdx 4 mask).map fun c =>
        ({ op := op, clusters := 2 ^ c, words := memberKept ahead op (memberWords op c q) } : Member)
      okay (s.modGrp k fun g =>
        { g with prepares := g.prepares + 1, clusters := g.clusters ||| mask, members := g.members ++ l }) reply

/-! GRP_COMMIT and GRP_ABANDON. -/

/-- A member set going: it waits for the commit boundary; a start of a pattern unit is armed with the boundary as its T0. -/
def State.stageMember (s : State) (b : Nat) (m : Member) : State :=
  if m.op = 0x0500 ∧ bit (pw m.words 1) 31 = false ∧ bits (pw m.words 2) 2 0 ≠ 0 then applyPattern s m.words b
  else s.defer (.dtc b) m.op m.words

/-- The commit boundary that GRP_COMMIT names. -/
def State.commitAt (s : State) (p : List W32) : Nat :=
  if bit (pw p 1) 31 then s.extOf (pw p 2) (pw p 3) (pw p 4) else s.boundaryB

/-- A commit boundary outside R381. -/
def State.commitRange (s : State) (p : List W32) : Bool :=
  let x := s.commitAt p
  reserved (pw p 1) 0x800000FF ||
    (bit (pw p 1) 31 && (dtcReserved (pw p 4) || !s.futureBoundary x || decide (s.ext + 10 * secondTq < x)))

/-- GRP_COMMIT. -/
def cmdGrpCommit (s : State) (p : List W32) : Res :=
  if s.commitRange p then fail s rcRange
  else
    match s.groupOf (bits (pw p 1) 7 0) with
    | none => fail s rcNoGroup
    | some k =>
      let g := s.grpAt k
      match g.state with
      | .opened =>
        let x := s.commitAt p
        let s := g.members.foldl (fun s m => s.stageMember x m) s
        okay (s.modGrp k fun g => { g with state := .committed, commitAt := some x }) (w32 g.clusters :: extWords x)
      | .failed => .done (s.modGrp k fun _ => Group.reset) rcGroupFailed []
      | _ => fail s rcState

/-- GRP_ABANDON. -/
def cmdGrpAbandon (s : State) (p : List W32) : Res :=
  if reserved (pw p 1) 0xFF then fail s rcRange
  else
    match s.groupOf (bits (pw p 1) 7 0) with
    | none => fail s rcNoGroup
    | some k =>
      if (s.grpAt k).state = .committed then fail s rcState
      else okay (s.modGrp k fun _ => Group.reset) [w32 (s.grpAt k).prepares]

/-- A committed group whose boundary has come. -/
def Group.dueAt (g : Group) (b : Nat) : Bool :=
  g.state = .committed && match g.commitAt with | some x => decide (x ≤ b) | none => true

/-- Committed groups whose boundary has come are released (R381). -/
def State.releaseGroups (s : State) (b : Nat) : State :=
  { s with grp := s.grp.map fun g => if g.dueAt b then Group.reset else g }

end Sys2Proof.Machine
end

