-- ==== Sys2Proof/Machine/Take.lean ====
section
/-! DEFINITION. Taking a posted message, and the rows that post one: every command of the opcode table (R371, R372, R376, R384). -/
namespace Sys2Proof.Machine

/-! Taking a message (R372). -/

/-- Device firmware may take the message now: a secure one at once, the others one at a time in the order of their GO writes. -/
def State.canTake (s : State) (mb : Nat) : Bool :=
  let x := s.mbAt mb
  x.state = .posted && s.pwr.mcUp &&
    (secureMb mb || (List.range 6).all fun k =>
      let y := s.mbAt k
      y.state ≠ .taken && (k = mb || y.state ≠ .posted || x.goOrder < y.goOrder))

/-- The outcome of a handler written to the mailbox: APPLIED where the change was made (R386). -/
def State.finish (r : Res) (mb : Nat) : State :=
  match r with
  | .done s c reply => (if c = rcOk then s.modMb mb fun x => { x with applied := true } else s).mbDone mb c reply
  | .wait s w =>
    s.modMb mb fun x => { x with wait := w, applied := match w with | .banks _ _ => true | _ => false }

/-- A taken non-secure packet, checked and carried out; SYS_RESET acts after its reply (R379). -/
def State.runPacket (s : State) (mb : Nat) (env : Env) : State :=
  let x := s.mbAt mb
  let p := x.payload
  let c := s.packetCheck mb x.opcode x.len
  if c ≠ 0 then s.mbDone mb c []
  else
    match x.opcode with
    | 0x0103 =>
      if sysResetCheck p ≠ 0 then s.mbDone mb rcRange []
      else (State.finish (okay s []) mb).sysReset p env.silent
    | 0x0B00 => State.finish (cmdGrpPrepare s env p) mb
    | 0x0B01 => State.finish (cmdGrpCommit s p) mb
    | 0x0B02 => State.finish (cmdGrpAbandon s p) mb
    | op => State.finish (s.guarded 0 mb op env p) mb

/-- A taken secure packet, passed to the module (R384). -/
def State.runSecure (s : State) (mb : Nat) (env : Env) : State :=
  let x := s.mbAt mb
  let c := s.packetCheck mb x.opcode x.len
  if c ≠ 0 then s.mbDone mb c []
  else
    (s.modMb mb fun x => { x with wait := .secure }).secDeliver { mb := mb, header := x.header, words := x.payload } env.silent

/-- MESSAGE_TAKE. -/
def State.take (s : State) (mb : Nat) (env : Env) : State :=
  if !s.canTake mb then s
  else
    let s := s.mbTake mb
    if secureMb mb then s.runSecure mb env else s.runPacket mb env

/-- MESSAGE_TAKE. -/
def execMessageTake (mb : Fin 8) (e : Env) (s : State) : Host.Outcome State Fault Refusal := .next (s.take mb e)

/-- GO: the message is posted. -/
def execGo (mb : Fin 8) (s : State) : Host.Outcome State Fault Refusal := .next (s.mbGo mb)

/-- Bound of a secure service in ms (Table 16-4). -/
def secBoundMs (op : Nat) (p : List W32) : Nat :=
  match op with
  | 0x0F00 => 50
  | 0x0F01 => 25
  | 0x0F02 => 100
  | 0x0F03 => 500
  | 0x0F04 => 10
  | 0x0F05 => if bits (pw p 2) 1 0 = 2 then 2000 else 50
  | 0x0F06 => 50
  | _ => 10

/-- SECURE_TIMEOUT: no answer within the bound; a later one is discarded (R384). -/
def execSecureTimeout (mb : Fin 8) (s : State) : Host.Outcome State Fault Refusal :=
  let x := s.mbAt mb
  if x.state = .taken ∧ x.wait = .secure then
    .next ((s.runTo (x.takenAt + secBoundMs x.opcode x.payload * msTq)).mbDone mb rcTimeout [])
  else .next s

/-! Command rows: the host writes the words, then the header, then GO (R371, steps 1 and 2), and the message is taken if it may be. -/

/-- A field of word k put into a list of 15 payload words. -/
def setField (k hi lo v : Nat) (l : List W32) : List W32 :=
  (List.range 15).map fun j =>
    let w := pw l (j + 1)
    if j + 1 = k then w32 (w.toNat - bits w hi lo * 2 ^ lo + put lo (hi + 1 - lo) v) else w

/-- The host writes LEN payload words, the header and GO. -/
def State.hostPost (s : State) (m : Msg) (op : Nat) (p : List W32) : State :=
  let s := s.each (List.range m.len) fun s j => s.mbWrite m.mb (j + 1) (pw p (j + 1))
  let s := s.mbWrite m.mb 0 (w32 (put 16 16 op + put 8 8 m.len + m.seq.toNat))
  s.mbGo m.mb

/-- A command row. A message that its mailbox cannot hold is rejected; one that is posted is taken when firmware may. -/
def State.send (s : State) (m : Msg) (op : Nat) (p : List W32) : State :=
  let free := (s.mbAt m.mb).state.open_
  let s := s.hostPost m op p
  if free then s.take m.mb m.env else s

/-- SYS_PING. -/
def execSysPing (m : Msg) (s : State) : Host.Outcome State Fault Refusal := .next (s.send m 0x0100 m.words)

/-- SYS_GET_INFO. -/
def execSysGetInfo (m : Msg) (s : State) : Host.Outcome State Fault Refusal := .next (s.send m 0x0101 m.words)

/-- SYS_GET_HEALTH. -/
def execSysGetHealth (m : Msg) (s : State) : Host.Outcome State Fault Refusal := .next (s.send m 0x0102 m.words)

/-- SYS_RESET with SCOPE FIRMWARE. -/
def execSysResetFirmware (m : Msg) (s : State) : Host.Outcome State Fault Refusal := .next (s.send m 0x0103 (setField 1 1 0 0 m.words))

/-- SYS_RESET with SCOPE DEVICE. -/
def execSysResetDevice (m : Msg) (s : State) : Host.Outcome State Fault Refusal := .next (s.send m 0x0103 (setField 1 1 0 1 m.words))

/-- SYS_SET_MIRROR. -/
def execSysSetMirror (m : Msg) (s : State) : Host.Outcome State Fault Refusal := .next (s.send m 0x0104 m.words)

/-- TS_SET_REFERENCE. -/
def execTsSetReference (m : Msg) (s : State) : Host.Outcome State Fault Refusal := .next (s.send m 0x0200 m.words)

/-- TS_SET_TICK. -/
def execTsSetTick (m : Msg) (s : State) : Host.Outcome State Fault Refusal := .next (s.send m 0x0201 m.words)

/-- TS_DISCIPLINE. -/
def execTsDiscipline (m : Msg) (s : State) : Host.Outcome State Fault Refusal := .next (s.send m 0x0202 m.words)

/-- TS_SET_TIME with MODE 0. -/
def execTsSetTimeAtTick (m : Msg) (s : State) : Host.Outcome State Fault Refusal := .next (s.send m 0x0203 (setField 1 1 0 0 m.words))

/-- TS_SET_TIME with MODE 1. -/
def execTsSetTimeAtPps (m : Msg) (s : State) : Host.Outcome State Fault Refusal := .next (s.send m 0x0203 (setField 1 1 0 1 m.words))

/-- TS_SET_TIME with MODE 2. -/
def execTsSetTimeCancel (m : Msg) (s : State) : Host.Outcome State Fault Refusal := .next (s.send m 0x0203 (setField 1 1 0 2 m.words))

/-- TS_RTC_SET with MODE 0. -/
def execTsRtcSetNow (m : Msg) (s : State) : Host.Outcome State Fault Refusal := .next (s.send m 0x0204 (setField 1 1 0 0 m.words))

/-- TS_RTC_SET with MODE 1. -/
def execTsRtcSetAtNextMark (m : Msg) (s : State) : Host.Outcome State Fault Refusal := .next (s.send m 0x0204 (setField 1 1 0 1 m.words))

/-- TS_RTC_SET with MODE 2. -/
def execTsRtcSetAtPps (m : Msg) (s : State) : Host.Outcome State Fault Refusal := .next (s.send m 0x0204 (setField 1 1 0 2 m.words))

/-- TS_RTC_SET with MODE 3. -/
def execTsRtcSetOffsetOnly (m : Msg) (s : State) : Host.Outcome State Fault Refusal := .next (s.send m 0x0204 (setField 1 1 0 3 m.words))

/-- TS_RTC_READ. -/
def execTsRtcRead (m : Msg) (s : State) : Host.Outcome State Fault Refusal := .next (s.send m 0x0205 m.words)

/-- CH_SET_INPUT. -/
def execChSetInput (m : Msg) (s : State) : Host.Outcome State Fault Refusal := .next (s.send m 0x0300 m.words)

/-- CH_SET_OUTPUT. -/
def execChSetOutput (m : Msg) (s : State) : Host.Outcome State Fault Refusal := .next (s.send m 0x0301 m.words)

/-- CH_ENABLE. -/
def execChEnable (m : Msg) (s : State) : Host.Outcome State Fault Refusal := .next (s.send m 0x0302 m.words)

/-- CH_DISABLE. -/
def execChDisable (m : Msg) (s : State) : Host.Outcome State Fault Refusal := .next (s.send m 0x0303 m.words)

/-- MEAS_DEFINE. -/
def execMeasDefine (m : Msg) (s : State) : Host.Outcome State Fault Refusal := .next (s.send m 0x0400 m.words)

/-- MEAS_ARM. -/
def execMeasArm (m : Msg) (s : State) : Host.Outcome State Fault Refusal := .next (s.send m 0x0401 m.words)

/-- MEAS_STOP. -/
def execMeasStop (m : Msg) (s : State) : Host.Outcome State Fault Refusal := .next (s.send m 0x0402 m.words)

/-- MEAS_READ. -/
def execMeasRead (m : Msg) (s : State) : Host.Outcome State Fault Refusal := .next (s.send m 0x0403 m.words)

/-- HIST_DEFINE. -/
def execHistDefine (m : Msg) (s : State) : Host.Outcome State Fault Refusal := .next (s.send m 0x0404 m.words)

/-- SYN_PATTERN without SHADOW. -/
def execSynPattern (m : Msg) (s : State) : Host.Outcome State Fault Refusal := .next (s.send m 0x0500 (setField 1 31 31 0 m.words))

/-- SYN_PATTERN with SHADOW. -/
def execSynPatternShadow (m : Msg) (s : State) : Host.Outcome State Fault Refusal := .next (s.send m 0x0500 (setField 1 31 31 1 m.words))

/-- SYN_PAIR. -/
def execSynPair (m : Msg) (s : State) : Host.Outcome State Fault Refusal := .next (s.send m 0x0501 m.words)

/-- SYN_BRAKE_CFG with SET_INPUT. -/
def execSynBrakeCfgSetInput (m : Msg) (s : State) : Host.Outcome State Fault Refusal := .next (s.send m 0x0502 (setField 1 8 8 1 m.words))

/-- SYN_BRAKE_CFG with SET_GUARD. -/
def execSynBrakeCfgSetGuard (m : Msg) (s : State) : Host.Outcome State Fault Refusal := .next (s.send m 0x0502 (setField 1 9 9 1 m.words))

/-- SYN_BRAKE_CLEAR. -/
def execSynBrakeClear (m : Msg) (s : State) : Host.Outcome State Fault Refusal := .next (s.send m 0x0503 m.words)

/-- QD_DEFINE. -/
def execQdDefine (m : Msg) (s : State) : Host.Outcome State Fault Refusal := .next (s.send m 0x0600 m.words)

/-- QD_READ. -/
def execQdRead (m : Msg) (s : State) : Host.Outcome State Fault Refusal := .next (s.send m 0x0601 m.words)

/-- UC_LOAD. -/
def execUcLoad (m : Msg) (s : State) : Host.Outcome State Fault Refusal := .next (s.send m 0x0700 m.words)

/-- TASK_SET. -/
def execTaskSet (m : Msg) (s : State) : Host.Outcome State Fault Refusal := .next (s.send m 0x0701 m.words)

/-- TASK_REMOVE. -/
def execTaskRemove (m : Msg) (s : State) : Host.Outcome State Fault Refusal := .next (s.send m 0x0702 m.words)

/-- SCHED_CHECK. -/
def execSchedCheck (m : Msg) (s : State) : Host.Outcome State Fault Refusal := .next (s.send m 0x0703 m.words)

/-- TIMER_SET. -/
def execTimerSet (m : Msg) (s : State) : Host.Outcome State Fault Refusal := .next (s.send m 0x0704 m.words)

/-- CAL_RUN. -/
def execCalRun (m : Msg) (s : State) : Host.Outcome State Fault Refusal := .next (s.send m 0x0800 m.words)

/-- CAL_STATUS. -/
def execCalStatus (m : Msg) (s : State) : Host.Outcome State Fault Refusal := .next (s.send m 0x0801 m.words)

/-- CAL_POLICY. -/
def execCalPolicy (m : Msg) (s : State) : Host.Outcome State Fault Refusal := .next (s.send m 0x0802 m.words)

/-- ENV_TDR MEASURE. -/
def execEnvTdrMeasure (m : Msg) (s : State) : Host.Outcome State Fault Refusal := .next (s.send m 0x0803 (setField 1 17 16 0 m.words))

/-- ENV_TDR APPLY. -/
def execEnvTdrApply (m : Msg) (s : State) : Host.Outcome State Fault Refusal := .next (s.send m 0x0803 (setField 1 17 16 1 m.words))

/-- ENV_TDR SET. -/
def execEnvTdrSet (m : Msg) (s : State) : Host.Outcome State Fault Refusal := .next (s.send m 0x0803 (setField 1 17 16 2 m.words))

/-- ENV_TDR CLEAR. -/
def execEnvTdrClear (m : Msg) (s : State) : Host.Outcome State Fault Refusal := .next (s.send m 0x0803 (setField 1 17 16 3 m.words))

/-- ENV_MONITORS without SET_WIN and CLEAR_TRIP. -/
def execEnvMonitors (m : Msg) (s : State) : Host.Outcome State Fault Refusal := .next (s.send m 0x0804 (setField 1 9 8 0 m.words))

/-- ENV_MONITORS with SET_WIN. -/
def execEnvMonitorsSetWin (m : Msg) (s : State) : Host.Outcome State Fault Refusal := .next (s.send m 0x0804 (setField 1 8 8 1 m.words))

/-- ENV_MONITORS with CLEAR_TRIP. -/
def execEnvMonitorsClearTrip (m : Msg) (s : State) : Host.Outcome State Fault Refusal := .next (s.send m 0x0804 (setField 1 9 9 1 m.words))

/-- STREAM_OPEN with KIND CAPTURE. -/
def execStreamOpenCapture (m : Msg) (s : State) : Host.Outcome State Fault Refusal := .next (s.send m 0x0900 (setField 1 5 4 0 m.words))

/-- STREAM_OPEN with KIND BLOCK. -/
def execStreamOpenBlock (m : Msg) (s : State) : Host.Outcome State Fault Refusal := .next (s.send m 0x0900 (setField 1 5 4 1 m.words))

/-- STREAM_OPEN with KIND COPY. -/
def execStreamOpenCopy (m : Msg) (s : State) : Host.Outcome State Fault Refusal := .next (s.send m 0x0900 (setField 1 5 4 2 m.words))

/-- STREAM_CLOSE without DISCARD. -/
def execStreamClose (m : Msg) (s : State) : Host.Outcome State Fault Refusal := .next (s.send m 0x0901 (setField 1 8 8 0 m.words))

/-- STREAM_CLOSE with DISCARD. -/
def execStreamCloseDiscard (m : Msg) (s : State) : Host.Outcome State Fault Refusal := .next (s.send m 0x0901 (setField 1 8 8 1 m.words))

/-- BANK_ASSIGN. -/
def execBankAssign (m : Msg) (s : State) : Host.Outcome State Fault Refusal := .next (s.send m 0x0902 m.words)

/-- PWR_SET_STATE with RUN or TRIM. -/
def execPwrSetStateTrim (m : Msg) (s : State) : Host.Outcome State Fault Refusal := .next (s.send m 0x0A00 (setField 1 1 1 0 m.words))

/-- PWR_SET_STATE with RETAIN. -/
def execPwrSetStateRetain (m : Msg) (s : State) : Host.Outcome State Fault Refusal := .next (s.send m 0x0A00 (setField 1 1 0 2 m.words))

/-- PWR_SET_STATE with BACKUP_ONLY. -/
def execPwrSetStateBackupOnly (m : Msg) (s : State) : Host.Outcome State Fault Refusal := .next (s.send m 0x0A00 (setField 1 1 0 3 m.words))

/-- PWR_RETAIN_BANKS. -/
def execPwrRetainBanks (m : Msg) (s : State) : Host.Outcome State Fault Refusal := .next (s.send m 0x0A01 m.words)

/-- GRP_PREPARE. -/
def execGrpPrepare (m : Msg) (s : State) : Host.Outcome State Fault Refusal := .next (s.send m 0x0B00 m.words)

/-- GRP_COMMIT. -/
def execGrpCommit (m : Msg) (s : State) : Host.Outcome State Fault Refusal := .next (s.send m 0x0B01 m.words)

/-- GRP_ABANDON. -/
def execGrpAbandon (m : Msg) (s : State) : Host.Outcome State Fault Refusal := .next (s.send m 0x0B02 m.words)

/-- BX_LINK. -/
def execBxLink (m : Msg) (s : State) : Host.Outcome State Fault Refusal := .next (s.send m 0x0C00 m.words)

/-- BX_ALIGN. -/
def execBxAlign (m : Msg) (s : State) : Host.Outcome State Fault Refusal := .next (s.send m 0x0C01 m.words)

/-- SEC_SESSION_OPEN CHALLENGE. -/
def execSecChallenge (m : Msg) (s : State) : Host.Outcome State Fault Refusal := .next (s.send m 0x0F00 (setField 1 3 0 0 m.words))

/-- SEC_SESSION_OPEN OPEN. -/
def execSecOpen (m : Msg) (s : State) : Host.Outcome State Fault Refusal := .next (s.send m 0x0F00 (setField 1 3 0 1 m.words))

/-- SEC_SESSION_OPEN CLOSE. -/
def execSecClose (m : Msg) (s : State) : Host.Outcome State Fault Refusal := .next (s.send m 0x0F00 (setField 1 3 0 2 m.words))

/-- SEC_SESSION_OPEN ENROLL. -/
def execSecEnroll (m : Msg) (s : State) : Host.Outcome State Fault Refusal := .next (s.send m 0x0F00 (setField 1 3 0 3 m.words))

/-- SEC_SESSION_OPEN REMOVE. -/
def execSecRemove (m : Msg) (s : State) : Host.Outcome State Fault Refusal := .next (s.send m 0x0F00 (setField 1 3 0 4 m.words))

/-- SEC_SIGN_RECORD with SOURCE 0. -/
def execSecSignRecordSlot (m : Msg) (s : State) : Host.Outcome State Fault Refusal := .next (s.send m 0x0F01 (setField 2 1 0 0 m.words))

/-- SEC_SIGN_RECORD with SOURCE 1. -/
def execSecSignRecordBlobPart (m : Msg) (s : State) : Host.Outcome State Fault Refusal := .next (s.send m 0x0F01 (setField 2 1 0 1 m.words))

/-- SEC_SIGN_RECORD with SOURCE 2. -/
def execSecSignRecordBlobEnd (m : Msg) (s : State) : Host.Outcome State Fault Refusal := .next (s.send m 0x0F01 (setField 2 1 0 2 m.words))

/-- SEC_SEAL_CAL SEAL. -/
def execSecSealCalSeal (m : Msg) (s : State) : Host.Outcome State Fault Refusal := .next (s.send m 0x0F02 (setField 2 1 0 0 m.words))

/-- SEC_SEAL_CAL CLEAR. -/
def execSecSealCalClear (m : Msg) (s : State) : Host.Outcome State Fault Refusal := .next (s.send m 0x0F02 (setField 2 1 0 1 m.words))

/-- SEC_AUDIT_READ. -/
def execSecAuditRead (m : Msg) (s : State) : Host.Outcome State Fault Refusal := .next (s.send m 0x0F03 m.words)

/-- SEC_ZEROIZE ZEROIZE. -/
def execSecZeroize (m : Msg) (s : State) : Host.Outcome State Fault Refusal := .next (s.send m 0x0F04 (setField 2 1 0 0 m.words))

/-- SEC_ZEROIZE TAMPER_CFG. -/
def execTamperCfg (m : Msg) (s : State) : Host.Outcome State Fault Refusal := .next (s.send m 0x0F04 (setField 2 1 0 1 m.words))

/-- SEC_FW_UPDATE BEGIN. -/
def execSecFwUpdateBegin (m : Msg) (s : State) : Host.Outcome State Fault Refusal := .next (s.send m 0x0F05 (setField 2 1 0 0 m.words))

/-- SEC_FW_UPDATE DATA. -/
def execSecFwUpdateData (m : Msg) (s : State) : Host.Outcome State Fault Refusal := .next (s.send m 0x0F05 (setField 2 1 0 1 m.words))

/-- SEC_FW_UPDATE COMMIT. -/
def execSecFwUpdateCommit (m : Msg) (s : State) : Host.Outcome State Fault Refusal := .next (s.send m 0x0F05 (setField 2 1 0 2 m.words))

/-- SEC_FW_UPDATE ABORT. -/
def execSecFwUpdateAbort (m : Msg) (s : State) : Host.Outcome State Fault Refusal := .next (s.send m 0x0F05 (setField 2 1 0 3 m.words))

/-- SEC_DEBUG_UNLOCK. -/
def execSecDebugUnlock (m : Msg) (s : State) : Host.Outcome State Fault Refusal := .next (s.send m 0x0F06 m.words)

/-- SEC_EXPORT_CERT. -/
def execSecExportCert (m : Msg) (s : State) : Host.Outcome State Fault Refusal := .next (s.send m 0x0F07 m.words)

end Sys2Proof.Machine
end

