-- ==== Sys2Proof/Machine/Tick.lean ====
section
/-! DEFINITION. The tick boundary: steps of the DTC, the tick sequence, actions that wait for a boundary, and all that a boundary drives (R44, R50 to R56, R67, R70, R94 to R96). -/
namespace Sys2Proof.Machine

/-! A step of the DTC (R50, R56, R67). -/

/-- Times on the extended scale that stand for instants move with the scale. -/
def ChOut.shift (o : ChOut) (d : Int) : ChOut :=
  { o with entered := o.entered.map fun e => { e with t := e.t + d }
           computed := o.computed.map fun e => { e with t := e.t + d, launch := e.launch + d }
           lastT := o.lastT.map (· + d), events := o.events.map fun e => (e.1 + d, e.2)
           onReq := o.onReq.map (· + d), lastOff := o.lastOff.map (· + d) }

def ChPair.shift (c : ChPair) (d : Int) : ChPair := { c with clearAt := c.clearAt + d, resumeAt := c.resumeAt.map (· + d) }

/-- The scale moves by d: the DTC reads d more, and no wrap is counted (R41). -/
def State.moveScale (s : State) (d : Int) : State :=
  { s with
    tb := { s.tb with dtc := (((s.tb.dtc : Int) + d) % (dtcMod : Int)).toNat }
    ch := s.ch.map fun c => { c with out := c.out.shift d, pr := c.pr.shift d }
    dec := s.dec.map fun q => q.stepped s.now
    ref := { s.ref with ppsoutMark := skipMark s.ref.ppsoutMark s.ext (s.ext + d) }
    rtc := s.rtc.stepBy d }

/-- The step of boundary x applied, or abandoned, or still waiting: the state and the move of the scale, none where no step
was applied. -/
def State.stepTick (s : State) (x : Nat) : State × Option Int :=
  match s.stepDue x with
  | none => (s, none)
  | some (d, r, set) =>
    if s.stepAllowed then
      let m := stepShift s.tb.dtc d
      let s := s.moveScale m
      let s := if set then { s with tb := { s.tb with step := none, stepDone := true, epochWrap := false } }
        else s.modBx fun b => { b with stepWait := none }
      (if r = 0 then s else s.startSlew r, some m)
    else if set then (({ s with tb := { s.tb with step := none, stepAbandoned := true } }.carry .cancel).timeReport 3, none)
    else (s, none)

/-! The tick sequence (R52, R53, R55, R56, R70). -/

/-- First boundary of a grid at least P after b. -/
def nextEnd (anchor : Int) (p b : Nat) : Nat := b + p + ((anchor - (b + p : Nat)) % (p : Int)).toNat

/-- The partner's anchor counts: θ has been judged and no step waits for its boundary (R70). -/
def Basxus.takesAnchor (x : Basxus) : Bool := (x.align = .acquire || x.align = .track) && x.judged && x.stepWait.isNone

/-- The anchor after a step of m at boundary b: on a second mark while the discipline is on, the partner's in ACQUIRE. -/
def State.anchorAfter (s : State) (m : Option Int) (b : Nat) : Int :=
  let a := s.tb.anchor + m.getD 0
  let a := if m.isSome ∧ s.pps.mode ≠ 0 ∧ a % (secondTq : Int) ≠ 0 then ((b / secondTq * secondTq : Nat) : Int) else a
  if s.bx.takesAnchor then s.bx.anchorPend.getD a else a

/-- The phase shifter is at work now. -/
def TimeBase.moving (t : TimeBase) : Bool :=
  (match t.slew with | some m => m.runs slewStep t.phys | none => false) || match t.track with | some m => m.runs trackStep t.phys | none => false

/-- The tick that begins at boundary b (extended): a pending period, the anchor, its end, its index. `len` is the length of
the tick that ends, in tq. -/
def State.newTick (s : State) (m : Option Int) (b len : Nat) : State :=
  let t := s.tb
  let a0 := t.anchor
  let a := s.anchorAfter m b
  let stretched : Bool := decide (s.tickTq < len)
  let t := { t with tickStart := b, tickIdx := t.tickIdx + 1, stretchCnt := if stretched then satInc 255 t.stretchCnt else t.stretchCnt, moved := t.moving }
  let t := match t.tickPend with
    | some p =>
      if s.pps.mode = 0 ∨ b % secondTq = 0 then { t with tickP := p, anchor := (b : Int), tickPend := none, tickEnd := b + p * cclk }
      else { t with anchor := a, tickEnd := nextEnd a s.tickTq b }
    | none => { t with anchor := a, tickEnd := nextEnd a s.tickTq b }
  let s := { s with tb := t }.modBx fun x => if x.takesAnchor && x.align == AlignState.track then { x with anchorPend := none } else x
  if t.anchor % (dtcMod : Int) = a0 % (dtcMod : Int) then s else s.ctl (.anchor (t.anchor % (dtcMod : Int)).toNat)

/-! Actions that wait (R75, R106, R107, R381). -/

/-- The boundary of a waiting action has come: `b` is its extended time, `at_` its instant. -/
def Deferred.due (d : Deferred) (b : Nat) (at_ : Int) : Bool :=
  match d.at_ with
  | .phys p => decide ((p : Int) ≤ at_)
  | .dtc x => decide (x ≤ b)

/-- Waiting actions whose boundary has come take effect in the order of their acceptance. -/
def State.deferTick (s : State) (b : Nat) (at_ : Int) : State :=
  let l := s.deferred.filter fun d => d.due b at_
  let s := { s with deferred := s.deferred.filter fun d => !d.due b at_ }
  (l.foldl (fun s d => s.applyAt d.op d.words b) s).releaseGroups b

/-- Clusters whose task table changes at the boundary. -/
def State.taskTick (s : State) (b : Nat) (at_ : Int) : List Nat :=
  (s.deferred.filter fun d => d.due b at_ && (d.op = 0x0701 || d.op = 0x0702)).map fun d => bits (pw d.words 1) 1 0

/-! Records of a boundary (R93 to R96). -/

/-- STEP, STRETCH, EPOCH and TICK; `len` is the length in CCLK cycles of a stretched tick that ends here. -/
def State.recordTick (s : State) (stepped : Bool) (len : Option Nat) (b : Nat) (at_ : Int) : State :=
  let t := b % dtcMod
  let s := if stepped then s.emitAll at_ t (.trace 1 0 0) else s
  let s := match len with | some n => s.emitAll at_ t (.trace 2 0 n) | none => s
  let s := s.emitAll at_ t (.epoch (if stepped then 3 else 2) (t / 2 ^ 54))
  s.emitAll at_ t (.tick len.isSome (t % 2 ^ 54))

/-- The events of a boundary: source 192 + c of every cluster that is not gated, kind 5, PC57. -/
def State.eventTick (s : State) : State :=
  let s := s.each ([0, 1, 2, 3].filter fun c => !s.pwr.gated.testBit c) fun s c => s.raise (192 + c)
  (s.event 4 5 0).pcAdd 57 1

/-- Everything that a tick boundary does, at the boundary that ends the tick in progress. -/
def State.boundary (s : State) : State :=
  let x := s.tb.tickEnd
  let at_ : Int := (x : Int) - s.off
  let len := x - s.tb.tickStart
  let stretched := if s.tickTq < len then some (len / cclk) else none
  let moved := s.tb.moved
  let s := s.lossAtBoundary (at_ - 1) (s.dtcAt (at_ - 1))
  let r := s.stepTick x
  let m := r.2
  let b := ((x : Int) + m.getD 0).toNat
  let s := r.1.newTick m b len
  let tasks := s.taskTick b at_
  let s := s.deferTick b at_
  let s := s.slotTick (x % dtcMod) (b % dtcMod) b at_ m.isSome moved
  let s := s.each [0, 1, 2, 3] State.importTick
  let s := (s.stealTick at_ (b % dtcMod)).tempTick
  let s := (s.each [0, 1, 2, 3] State.applyPlan).baseTick
  let s := (s.raiseAll at_).settle
  let s := (s.recordTick m.isSome stretched b at_).eventTick
  let s := s.each [0, 1, 2, 3] fun s c => s.schTick c at_.toNat (tasks.contains c)
  let s := (s.streamTick at_).dmaAge
  let s := if s.pwr.banksAt ≤ s.now ∧ s.pwr.state ≠ .retain then s.each (List.range 64) State.serveHeld else s
  s.mirrorTick

/-- TICK_BOUNDARY: time goes on to the end of the tick in progress. No tick runs while internal power-on reset is held. -/
def execTickBoundary (s : State) : Host.Outcome State Fault Refusal :=
  if s.pwr.startup = .held then .next s
  else .next (s.runTo (((s.tb.tickEnd : Int) - s.off).toNat)).boundary

end Sys2Proof.Machine
end

