-- ==== Sys2Proof/Machine/Dispatch.lean ====
section
/-! DEFINITION. The meaning of every command: one arm per constructor, each one direct call. -/
namespace Sys2Proof.Machine

/-- The effect of a command on everything but the queue. -/
def exec (i : Instr) (s : State) : Host.Outcome State Fault Refusal :=
  match i with
  | .sysPing m => Sys2Proof.Machine.execSysPing m s
  | .sysGetInfo m => Sys2Proof.Machine.execSysGetInfo m s
  | .sysGetHealth m => Sys2Proof.Machine.execSysGetHealth m s
  | .sysResetFirmware m => Sys2Proof.Machine.execSysResetFirmware m s
  | .sysResetDevice m => Sys2Proof.Machine.execSysResetDevice m s
  | .sysSetMirror m => Sys2Proof.Machine.execSysSetMirror m s
  | .tsSetReference m => Sys2Proof.Machine.execTsSetReference m s
  | .tsSetTick m => Sys2Proof.Machine.execTsSetTick m s
  | .tsDiscipline m => Sys2Proof.Machine.execTsDiscipline m s
  | .tsSetTimeAtTick m => Sys2Proof.Machine.execTsSetTimeAtTick m s
  | .tsSetTimeAtPps m => Sys2Proof.Machine.execTsSetTimeAtPps m s
  | .tsSetTimeCancel m => Sys2Proof.Machine.execTsSetTimeCancel m s
  | .tsRtcSetNow m => Sys2Proof.Machine.execTsRtcSetNow m s
  | .tsRtcSetAtNextMark m => Sys2Proof.Machine.execTsRtcSetAtNextMark m s
  | .tsRtcSetAtPps m => Sys2Proof.Machine.execTsRtcSetAtPps m s
  | .tsRtcSetOffsetOnly m => Sys2Proof.Machine.execTsRtcSetOffsetOnly m s
  | .tsRtcRead m => Sys2Proof.Machine.execTsRtcRead m s
  | .chSetInput m => Sys2Proof.Machine.execChSetInput m s
  | .chSetOutput m => Sys2Proof.Machine.execChSetOutput m s
  | .chEnable m => Sys2Proof.Machine.execChEnable m s
  | .chDisable m => Sys2Proof.Machine.execChDisable m s
  | .measDefine m => Sys2Proof.Machine.execMeasDefine m s
  | .measArm m => Sys2Proof.Machine.execMeasArm m s
  | .measStop m => Sys2Proof.Machine.execMeasStop m s
  | .measRead m => Sys2Proof.Machine.execMeasRead m s
  | .histDefine m => Sys2Proof.Machine.execHistDefine m s
  | .synPattern m => Sys2Proof.Machine.execSynPattern m s
  | .synPatternShadow m => Sys2Proof.Machine.execSynPatternShadow m s
  | .synPair m => Sys2Proof.Machine.execSynPair m s
  | .synBrakeCfgSetInput m => Sys2Proof.Machine.execSynBrakeCfgSetInput m s
  | .synBrakeCfgSetGuard m => Sys2Proof.Machine.execSynBrakeCfgSetGuard m s
  | .synBrakeClear m => Sys2Proof.Machine.execSynBrakeClear m s
  | .qdDefine m => Sys2Proof.Machine.execQdDefine m s
  | .qdRead m => Sys2Proof.Machine.execQdRead m s
  | .ucLoad m => Sys2Proof.Machine.execUcLoad m s
  | .taskSet m => Sys2Proof.Machine.execTaskSet m s
  | .taskRemove m => Sys2Proof.Machine.execTaskRemove m s
  | .schedCheck m => Sys2Proof.Machine.execSchedCheck m s
  | .timerSet m => Sys2Proof.Machine.execTimerSet m s
  | .calRun m => Sys2Proof.Machine.execCalRun m s
  | .calStatus m => Sys2Proof.Machine.execCalStatus m s
  | .calPolicy m => Sys2Proof.Machine.execCalPolicy m s
  | .envTdrMeasure m => Sys2Proof.Machine.execEnvTdrMeasure m s
  | .envTdrApply m => Sys2Proof.Machine.execEnvTdrApply m s
  | .envTdrSet m => Sys2Proof.Machine.execEnvTdrSet m s
  | .envTdrClear m => Sys2Proof.Machine.execEnvTdrClear m s
  | .envMonitors m => Sys2Proof.Machine.execEnvMonitors m s
  | .envMonitorsSetWin m => Sys2Proof.Machine.execEnvMonitorsSetWin m s
  | .envMonitorsClearTrip m => Sys2Proof.Machine.execEnvMonitorsClearTrip m s
  | .streamOpenCapture m => Sys2Proof.Machine.execStreamOpenCapture m s
  | .streamOpenBlock m => Sys2Proof.Machine.execStreamOpenBlock m s
  | .streamOpenCopy m => Sys2Proof.Machine.execStreamOpenCopy m s
  | .streamClose m => Sys2Proof.Machine.execStreamClose m s
  | .streamCloseDiscard m => Sys2Proof.Machine.execStreamCloseDiscard m s
  | .bankAssign m => Sys2Proof.Machine.execBankAssign m s
  | .pwrSetStateTrim m => Sys2Proof.Machine.execPwrSetStateTrim m s
  | .pwrSetStateRetain m => Sys2Proof.Machine.execPwrSetStateRetain m s
  | .pwrSetStateBackupOnly m => Sys2Proof.Machine.execPwrSetStateBackupOnly m s
  | .pwrRetainBanks m => Sys2Proof.Machine.execPwrRetainBanks m s
  | .grpPrepare m => Sys2Proof.Machine.execGrpPrepare m s
  | .grpCommit m => Sys2Proof.Machine.execGrpCommit m s
  | .grpAbandon m => Sys2Proof.Machine.execGrpAbandon m s
  | .bxLink m => Sys2Proof.Machine.execBxLink m s
  | .bxAlign m => Sys2Proof.Machine.execBxAlign m s
  | .secChallenge m => Sys2Proof.Machine.execSecChallenge m s
  | .secOpen m => Sys2Proof.Machine.execSecOpen m s
  | .secClose m => Sys2Proof.Machine.execSecClose m s
  | .secEnroll m => Sys2Proof.Machine.execSecEnroll m s
  | .secRemove m => Sys2Proof.Machine.execSecRemove m s
  | .secSignRecordSlot m => Sys2Proof.Machine.execSecSignRecordSlot m s
  | .secSignRecordBlobPart m => Sys2Proof.Machine.execSecSignRecordBlobPart m s
  | .secSignRecordBlobEnd m => Sys2Proof.Machine.execSecSignRecordBlobEnd m s
  | .secSealCalSeal m => Sys2Proof.Machine.execSecSealCalSeal m s
  | .secSealCalClear m => Sys2Proof.Machine.execSecSealCalClear m s
  | .secAuditRead m => Sys2Proof.Machine.execSecAuditRead m s
  | .secZeroize m => Sys2Proof.Machine.execSecZeroize m s
  | .tamperCfg m => Sys2Proof.Machine.execTamperCfg m s
  | .secFwUpdateBegin m => Sys2Proof.Machine.execSecFwUpdateBegin m s
  | .secFwUpdateData m => Sys2Proof.Machine.execSecFwUpdateData m s
  | .secFwUpdateCommit m => Sys2Proof.Machine.execSecFwUpdateCommit m s
  | .secFwUpdateAbort m => Sys2Proof.Machine.execSecFwUpdateAbort m s
  | .secDebugUnlock m => Sys2Proof.Machine.execSecDebugUnlock m s
  | .secExportCert m => Sys2Proof.Machine.execSecExportCert m s
  | .doorbellFrame => Sys2Proof.Machine.execDoorbellFrame s
  | .doorbellSelfTest pass => Sys2Proof.Machine.execDoorbellSelfTest pass s
  | .doorbellCloseSessions => Sys2Proof.Machine.execDoorbellCloseSessions s
  | .doorbellLockDebug => Sys2Proof.Machine.execDoorbellLockDebug s
  | .go mb => Sys2Proof.Machine.execGo mb s
  | .cancel mb => Sys2Proof.Machine.execCancel mb s
  | .mbDataWrite mb k v => Sys2Proof.Machine.execMbDataWrite mb k v s
  | .messageTake mb e => Sys2Proof.Machine.execMessageTake mb e s
  | .mailboxTimeout mb => Sys2Proof.Machine.execMailboxTimeout mb s
  | .secureTimeout mb => Sys2Proof.Machine.execSecureTimeout mb s
  | .qpH2dPush q v => Sys2Proof.Machine.execQpH2dPush q v s
  | .qpD2hRead q => Sys2Proof.Machine.execQpD2hRead q s
  | .qpDescriptorForward q => Sys2Proof.Machine.execQpDescriptorForward q s
  | .hostRegisterWrite off v => Sys2Proof.Machine.execHostRegisterWrite off v s
  | .hostOddSizeAccess bar4 off len data => Sys2Proof.Machine.execHostOddSizeAccess bar4 off len data s
  | .readClear off => Sys2Proof.Machine.execReadClear off s
  | .tsCapture => Sys2Proof.Machine.execTsCapture s
  | .rtcSubRead => Sys2Proof.Machine.execRtcSubRead s
  | .pcSnapRead n host => Sys2Proof.Machine.execPcSnapRead n host s
  | .mirrorDisable => Sys2Proof.Machine.execMirrorDisable s
  | .dmaRingTailWrite k v => Sys2Proof.Machine.execDmaRingTailWrite k v s
  | .dmaRingHeadWrite k v => Sys2Proof.Machine.execDmaRingHeadWrite k v s
  | .flush k => Sys2Proof.Machine.execFlush k s
  | .hostBankAccess addr len data e => Sys2Proof.Machine.execHostBankAccess addr len data e s
  | .icEoi sec n => Sys2Proof.Machine.execIcEoi sec n s
  | .chEqPush n w0 w1 w2 w3 => Sys2Proof.Machine.execChEqPush n w0 w1 w2 w3 s
  | .puCmpWrite n v => Sys2Proof.Machine.execPuCmpWrite n v s
  | .puPerWrite n v => Sys2Proof.Machine.execPuPerWrite n v s
  | .puShadowWrite n r v => Sys2Proof.Machine.execPuShadowWrite n r v s
  | .puLockClear n => Sys2Proof.Machine.execPuLockClear n s
  | .gptStart n => Sys2Proof.Machine.execGptStart n s
  | .gptStop n => Sys2Proof.Machine.execGptStop n s
  | .gptSync n => Sys2Proof.Machine.execGptSync n s
  | .gptClrFlags n => Sys2Proof.Machine.execGptClrFlags n s
  | .uNop c ue => Sys2Proof.Machine.execUNop c ue s
  | .uReti c ue => Sys2Proof.Machine.execUReti c ue s
  | .uEi c ue => Sys2Proof.Machine.execUEi c ue s
  | .uDi c ue => Sys2Proof.Machine.execUDi c ue s
  | .uLdlc c ue => Sys2Proof.Machine.execULdlc c ue s
  | .uSetf c ue => Sys2Proof.Machine.execUSetf c ue s
  | .uFault c ue => Sys2Proof.Machine.execUFault c ue s
  | .uAdd c ue => Sys2Proof.Machine.execUAdd c ue s
  | .uAdc c ue => Sys2Proof.Machine.execUAdc c ue s
  | .uSub c ue => Sys2Proof.Machine.execUSub c ue s
  | .uSbc c ue => Sys2Proof.Machine.execUSbc c ue s
  | .uAnd c ue => Sys2Proof.Machine.execUAnd c ue s
  | .uOr c ue => Sys2Proof.Machine.execUOr c ue s
  | .uXor c ue => Sys2Proof.Machine.execUXor c ue s
  | .uAndn c ue => Sys2Proof.Machine.execUAndn c ue s
  | .uMin c ue => Sys2Proof.Machine.execUMin c ue s
  | .uMax c ue => Sys2Proof.Machine.execUMax c ue s
  | .uMinu c ue => Sys2Proof.Machine.execUMinu c ue s
  | .uMaxu c ue => Sys2Proof.Machine.execUMaxu c ue s
  | .uAddsat c ue => Sys2Proof.Machine.execUAddsat c ue s
  | .uSubsat c ue => Sys2Proof.Machine.execUSubsat c ue s
  | .uCmp c ue => Sys2Proof.Machine.execUCmp c ue s
  | .uTst c ue => Sys2Proof.Machine.execUTst c ue s
  | .uShl c ue => Sys2Proof.Machine.execUShl c ue s
  | .uShr c ue => Sys2Proof.Machine.execUShr c ue s
  | .uSar c ue => Sys2Proof.Machine.execUSar c ue s
  | .uRol c ue => Sys2Proof.Machine.execURol c ue s
  | .uExt c ue => Sys2Proof.Machine.execUExt c ue s
  | .uIns c ue => Sys2Proof.Machine.execUIns c ue s
  | .uClz c ue => Sys2Proof.Machine.execUClz c ue s
  | .uPopc c ue => Sys2Proof.Machine.execUPopc c ue s
  | .uMull c ue => Sys2Proof.Machine.execUMull c ue s
  | .uMulhu c ue => Sys2Proof.Machine.execUMulhu c ue s
  | .uMulhs c ue => Sys2Proof.Machine.execUMulhs c ue s
  | .uTadd c ue => Sys2Proof.Machine.execUTadd c ue s
  | .uTsub c ue => Sys2Proof.Machine.execUTsub c ue s
  | .uTaddi c ue => Sys2Proof.Machine.execUTaddi c ue s
  | .uTdiff c ue => Sys2Proof.Machine.execUTdiff c ue s
  | .uTcmp c ue => Sys2Proof.Machine.execUTcmp c ue s
  | .uTld c ue => Sys2Proof.Machine.execUTld c ue s
  | .uTset c ue => Sys2Proof.Machine.execUTset c ue s
  | .uTlow c ue => Sys2Proof.Machine.execUTlow c ue s
  | .uThigh c ue => Sys2Proof.Machine.execUThigh c ue s
  | .uTmov c ue => Sys2Proof.Machine.execUTmov c ue s
  | .uMovi c ue => Sys2Proof.Machine.execUMovi c ue s
  | .uMov c ue => Sys2Proof.Machine.execUMov c ue s
  | .uRdspec c ue => Sys2Proof.Machine.execURdspec c ue s
  | .uWrspec c ue => Sys2Proof.Machine.execUWrspec c ue s
  | .uTagPop c ue => Sys2Proof.Machine.execUTagPop c ue s
  | .uTagPeek c ue => Sys2Proof.Machine.execUTagPeek c ue s
  | .uTagLevel c ue => Sys2Proof.Machine.execUTagLevel c ue s
  | .uTagClrloss c ue => Sys2Proof.Machine.execUTagClrloss c ue s
  | .uEdgePush c ue => Sys2Proof.Machine.execUEdgePush c ue s
  | .uEdgeQlevel c ue => Sys2Proof.Machine.execUEdgeQlevel c ue s
  | .uIoRd c ue => Sys2Proof.Machine.execUIoRd c ue s
  | .uIoWr c ue => Sys2Proof.Machine.execUIoWr c ue s
  | .uBankLd c ue e => Sys2Proof.Machine.execUBankLd c ue e s
  | .uBankSt c ue e => Sys2Proof.Machine.execUBankSt c ue e s
  | .uBankAdd c ue e => Sys2Proof.Machine.execUBankAdd c ue e s
  | .uBankSwap c ue e => Sys2Proof.Machine.execUBankSwap c ue e s
  | .uSig c ue => Sys2Proof.Machine.execUSig c ue s
  | .uEvclr c ue => Sys2Proof.Machine.execUEvclr c ue s
  | .uEvclrm c ue => Sys2Proof.Machine.execUEvclrm c ue s
  | .uWait c ue => Sys2Proof.Machine.execUWait c ue s
  | .waitConditionMet c => Sys2Proof.Machine.execWaitConditionMet c s
  | .waitTimeout c => Sys2Proof.Machine.execWaitTimeout c s
  | .uJump c ue => Sys2Proof.Machine.execUJump c ue s
  | .uCall c ue => Sys2Proof.Machine.execUCall c ue s
  | .uRet c ue => Sys2Proof.Machine.execURet c ue s
  | .uLoop c ue => Sys2Proof.Machine.execULoop c ue s
  | .uDispatch c ue => Sys2Proof.Machine.execUDispatch c ue s
  | .uEnd c ue => Sys2Proof.Machine.execUEnd c ue s
  | .fastEntry c => Sys2Proof.Machine.execFastEntry c s
  | .normalEntry c => Sys2Proof.Machine.execNormalEntry c s
  | .handlerLong c => Sys2Proof.Machine.execHandlerLong c s
  | .budgetCut c => Sys2Proof.Machine.execBudgetCut c s
  | .guardBand c => Sys2Proof.Machine.execGuardBand c s
  | .tickBoundary => Sys2Proof.Machine.execTickBoundary s
  | .msPublish n => Sys2Proof.Machine.execMsPublish n s
  | .qdSnapshotPublish d => Sys2Proof.Machine.execQdSnapshotPublish d s
  | .mirrorWrite => Sys2Proof.Machine.execMirrorWrite s
  | .inputTransition n rising dt => Sys2Proof.Machine.execInputTransition n rising dt s
  | .conversionComplete n code => Sys2Proof.Machine.execConversionComplete n code s
  | .qualifierRelease n => Sys2Proof.Machine.execQualifierRelease n s
  | .lanePickup c l => Sys2Proof.Machine.execLanePickup c l s
  | .mergeRelease c => Sys2Proof.Machine.execMergeRelease c s
  | .tagImport c => Sys2Proof.Machine.execTagImport c s
  | .histAdd n e => Sys2Proof.Machine.execHistAdd n e s
  | .qdTagHandle d => Sys2Proof.Machine.execQdTagHandle d s
  | .binTableUpdate n i1 hits => Sys2Proof.Machine.execBinTableUpdate n i1 hits s
  | .tableSwap n i1 => Sys2Proof.Machine.execTableSwap n i1 s
  | .calStarved n i1 => Sys2Proof.Machine.execCalStarved n i1 s
  | .stealOverdue n => Sys2Proof.Machine.execStealOverdue n s
  | .calCycleStart => Sys2Proof.Machine.execCalCycleStart s
  | .deferredCalMeasure n => Sys2Proof.Machine.execDeferredCalMeasure n s
  | .calMeasureDone n out tags => Sys2Proof.Machine.execCalMeasureDone n out tags s
  | .tempTermUpdate => Sys2Proof.Machine.execTempTermUpdate s
  | .ageingMeasure rings => Sys2Proof.Machine.execAgeingMeasure rings s
  | .replan => Sys2Proof.Machine.execReplan s
  | .baselineClear => Sys2Proof.Machine.execBaselineClear s
  | .tdrChannelDone n r => Sys2Proof.Machine.execTdrChannelDone n r s
  | .monitorReading k v invalid => Sys2Proof.Machine.execMonitorReading k v invalid s
  | .thermalTrip k => Sys2Proof.Machine.execThermalTrip k s
  | .refWindow w => Sys2Proof.Machine.execRefWindow w s
  | .refMissingPulse => Sys2Proof.Machine.execRefMissingPulse s
  | .refPhaseError => Sys2Proof.Machine.execRefPhaseError s
  | .pllAcquireStart => Sys2Proof.Machine.execPllAcquireStart s
  | .pllSlewDone => Sys2Proof.Machine.execPllSlewDone s
  | .refLocked => Sys2Proof.Machine.execRefLocked s
  | .refLockTimeout => Sys2Proof.Machine.execRefLockTimeout s
  | .ppsEdge dt high => Sys2Proof.Machine.execPpsEdge dt high s
  | .ppsLoss => Sys2Proof.Machine.execPpsLoss s
  | .phaseSlewDone => Sys2Proof.Machine.execPhaseSlewDone s
  | .dtcWrap => Sys2Proof.Machine.execDtcWrap s
  | .ppsoutPulse => Sys2Proof.Machine.execPpsoutPulse s
  | .bxPortUp up bad => Sys2Proof.Machine.execBxPortUp up bad s
  | .bxLeaderTimeout rx => Sys2Proof.Machine.execBxLeaderTimeout rx s
  | .bxPortLost up failed => Sys2Proof.Machine.execBxPortLost up failed s
  | .bxCapReceived up cap rx => Sys2Proof.Machine.execBxCapReceived up cap rx s
  | .bxTimeFrame up t bad => Sys2Proof.Machine.execBxTimeFrame up t bad s
  | .bxOffsetUpdate up => Sys2Proof.Machine.execBxOffsetUpdate up s
  | .bxTagFrame up src words => Sys2Proof.Machine.execBxTagFrame up src words s
  | .bxControlFrame f => Sys2Proof.Machine.execBxControlFrame f s
  | .brakeInputChange b dt => Sys2Proof.Machine.execBrakeInputChange b dt s
  | .brakeTrip b => Sys2Proof.Machine.execBrakeTrip b s
  | .brakeResume n => Sys2Proof.Machine.execBrakeResume n s
  | .edgeCompute n => Sys2Proof.Machine.execEdgeCompute n s
  | .edgeLaunch n => Sys2Proof.Machine.execEdgeLaunch n s
  | .outputEvent n => Sys2Proof.Machine.execOutputEvent n s
  | .puGenerate n => Sys2Proof.Machine.execPuGenerate n s
  | .puHandover n => Sys2Proof.Machine.execPuHandover n s
  | .gptTopEvent n => Sys2Proof.Machine.execGptTopEvent n s
  | .gptCmpEvent n => Sys2Proof.Machine.execGptCmpEvent n s
  | .gptTrigger n => Sys2Proof.Machine.execGptTrigger n s
  | .dicDelivery sec => Sys2Proof.Machine.execDicDelivery sec s
  | .coalTimeout n => Sys2Proof.Machine.execCoalTimeout n s
  | .errlogWrite => Sys2Proof.Machine.execErrlogWrite s
  | .dmaDescriptorFetch k f => Sys2Proof.Machine.execDmaDescriptorFetch k f s
  | .dmaMove k n e h => Sys2Proof.Machine.execDmaMove k n e h s
  | .flushTimeout k => Sys2Proof.Machine.execFlushTimeout k s
  | .copyStep k e => Sys2Proof.Machine.execCopyStep k e s
  | .handoverDrainEnd b => Sys2Proof.Machine.execHandoverDrainEnd b s
  | .bankClearDone b => Sys2Proof.Machine.execBankClearDone b s
  | .patrolScrub b e => Sys2Proof.Machine.execPatrolScrub b e s
  | .retainCommit => Sys2Proof.Machine.execRetainCommit s
  | .wake => Sys2Proof.Machine.execWake s
  | .powerOnReset dt b => Sys2Proof.Machine.execPowerOnReset dt b s
  | .railExcursion => Sys2Proof.Machine.execRailExcursion s
  | .porN => Sys2Proof.Machine.execPorN s
  | .ready dt cut sealOk => Sys2Proof.Machine.execReady dt cut sealOk s
  | .mcWatchdog => Sys2Proof.Machine.execMcWatchdog s
  | .hostReset linkDown => Sys2Proof.Machine.execHostReset linkDown s
  | .pcieRetrain width speed => Sys2Proof.Machine.execPcieRetrain width speed s
  | .backupSwitch vbat => Sys2Proof.Machine.execBackupSwitch vbat s
  | .backupDomainLost => Sys2Proof.Machine.execBackupDomainLost s
  | .xtalFail => Sys2Proof.Machine.execXtalFail s
  | .rtcTrimMeasure trim => Sys2Proof.Machine.execRtcTrimMeasure trim s
  | .rtcOffsetApply => Sys2Proof.Machine.execRtcOffsetApply s
  | .tamperDetect k on => Sys2Proof.Machine.execTamperDetect k on s
  | .sessionTimeout mb7 => Sys2Proof.Machine.execSessionTimeout mb7 s
  | .lockoutExpire k => Sys2Proof.Machine.execLockoutExpire k s
  | .debouncedInactive b => Sys2Proof.Machine.execDebouncedInactive b s
  | .quietTimeMet b => Sys2Proof.Machine.execQuietTimeMet b s
  | .inAgePassed n out => Sys2Proof.Machine.execInAgePassed n out s
  | .secondMark => Sys2Proof.Machine.execSecondMark s
  | .busMasterEnable en => Sys2Proof.Machine.execBusMasterEnable en s
  | .dataLinkUp width speed => Sys2Proof.Machine.execDataLinkUp width speed s
  | .mcRestartComplete => Sys2Proof.Machine.execMcRestartComplete s
  | .wakeScrubDone b e => Sys2Proof.Machine.execWakeScrubDone b e s
  | .jtagInstruction k => Sys2Proof.Machine.execJtagInstruction k s
  | .counterWrap n => Sys2Proof.Machine.execCounterWrap n s

end Sys2Proof.Machine
end

