-- ==== Sys2Proof/WellFormed.lean ====
section
/-! DEFINITION. What the spec asks of a command's operands beyond their types. -/
namespace Sys2Proof

/-- A message gives as many payload words as its LEN says (R369). -/
def Msg.wellFormed (m : Msg) : Bool := m.words.length = m.len.val

/-- The operands stand in the ranges the spec gives: LEN of a message, offsets inside BAR0 and BAR4 and bytes inside BAR2
(R339, R334), the link widths (R340), the 160 codes of a bin table (R117), the key indices of the two roles (R411), 8-bit JTAG instructions, words of a move. -/
def Instr.wellFormed : Instr → Bool
  | .sysPing m => m.wellFormed
  | .sysGetInfo m => m.wellFormed
  | .sysGetHealth m => m.wellFormed
  | .sysResetFirmware m => m.wellFormed
  | .sysResetDevice m => m.wellFormed
  | .sysSetMirror m => m.wellFormed
  | .tsSetReference m => m.wellFormed
  | .tsSetTick m => m.wellFormed
  | .tsDiscipline m => m.wellFormed
  | .tsSetTimeAtTick m => m.wellFormed
  | .tsSetTimeAtPps m => m.wellFormed
  | .tsSetTimeCancel m => m.wellFormed
  | .tsRtcSetNow m => m.wellFormed
  | .tsRtcSetAtNextMark m => m.wellFormed
  | .tsRtcSetAtPps m => m.wellFormed
  | .tsRtcSetOffsetOnly m => m.wellFormed
  | .tsRtcRead m => m.wellFormed
  | .chSetInput m => m.wellFormed
  | .chSetOutput m => m.wellFormed
  | .chEnable m => m.wellFormed
  | .chDisable m => m.wellFormed
  | .measDefine m => m.wellFormed
  | .measArm m => m.wellFormed
  | .measStop m => m.wellFormed
  | .measRead m => m.wellFormed
  | .histDefine m => m.wellFormed
  | .synPattern m => m.wellFormed
  | .synPatternShadow m => m.wellFormed
  | .synPair m => m.wellFormed
  | .synBrakeCfgSetInput m => m.wellFormed
  | .synBrakeCfgSetGuard m => m.wellFormed
  | .synBrakeClear m => m.wellFormed
  | .qdDefine m => m.wellFormed
  | .qdRead m => m.wellFormed
  | .ucLoad m => m.wellFormed
  | .taskSet m => m.wellFormed
  | .taskRemove m => m.wellFormed
  | .schedCheck m => m.wellFormed
  | .timerSet m => m.wellFormed
  | .calRun m => m.wellFormed
  | .calStatus m => m.wellFormed
  | .calPolicy m => m.wellFormed
  | .envTdrMeasure m => m.wellFormed
  | .envTdrApply m => m.wellFormed
  | .envTdrSet m => m.wellFormed
  | .envTdrClear m => m.wellFormed
  | .envMonitors m => m.wellFormed
  | .envMonitorsSetWin m => m.wellFormed
  | .envMonitorsClearTrip m => m.wellFormed
  | .streamOpenCapture m => m.wellFormed
  | .streamOpenBlock m => m.wellFormed
  | .streamOpenCopy m => m.wellFormed
  | .streamClose m => m.wellFormed
  | .streamCloseDiscard m => m.wellFormed
  | .bankAssign m => m.wellFormed
  | .pwrSetStateTrim m => m.wellFormed
  | .pwrSetStateRetain m => m.wellFormed
  | .pwrSetStateBackupOnly m => m.wellFormed
  | .pwrRetainBanks m => m.wellFormed
  | .grpPrepare m => m.wellFormed
  | .grpCommit m => m.wellFormed
  | .grpAbandon m => m.wellFormed
  | .bxLink m => m.wellFormed
  | .bxAlign m => m.wellFormed
  | .secChallenge m => m.wellFormed
  | .secOpen m => m.wellFormed
  | .secClose m => m.wellFormed
  | .secEnroll m => m.wellFormed
  | .secRemove m => m.wellFormed
  | .secSignRecordSlot m => m.wellFormed
  | .secSignRecordBlobPart m => m.wellFormed
  | .secSignRecordBlobEnd m => m.wellFormed
  | .secSealCalSeal m => m.wellFormed
  | .secSealCalClear m => m.wellFormed
  | .secAuditRead m => m.wellFormed
  | .secZeroize m => m.wellFormed
  | .tamperCfg m => m.wellFormed
  | .secFwUpdateBegin m => m.wellFormed
  | .secFwUpdateData m => m.wellFormed
  | .secFwUpdateCommit m => m.wellFormed
  | .secFwUpdateAbort m => m.wellFormed
  | .secDebugUnlock m => m.wellFormed
  | .secExportCert m => m.wellFormed
  | .doorbellFrame => true
  | .doorbellSelfTest .. => true
  | .doorbellCloseSessions => true
  | .doorbellLockDebug => true
  | .go .. => true
  | .cancel .. => true
  | .mbDataWrite .. => true
  | .messageTake .. => true
  | .mailboxTimeout .. => true
  | .secureTimeout .. => true
  | .qpH2dPush .. => true
  | .qpD2hRead .. => true
  | .qpDescriptorForward .. => true
  | .hostRegisterWrite off _ => off < 4194304
  | .hostOddSizeAccess bar4 off len _ => off + len ≤ (if bar4 then 65536 else 4194304)
  | .readClear off => off + 4 ≤ 4194304
  | .tsCapture => true
  | .rtcSubRead => true
  | .pcSnapRead .. => true
  | .mirrorDisable => true
  | .dmaRingTailWrite .. => true
  | .dmaRingHeadWrite .. => true
  | .flush .. => true
  | .hostBankAccess addr len data _ => let n := match data with | some l => l.length | none => len
    addr + n ≤ 67108864
  | .icEoi .. => true
  | .chEqPush .. => true
  | .puCmpWrite .. => true
  | .puPerWrite .. => true
  | .puShadowWrite .. => true
  | .puLockClear .. => true
  | .gptStart .. => true
  | .gptStop .. => true
  | .gptSync .. => true
  | .gptClrFlags .. => true
  | .uNop .. => true
  | .uReti .. => true
  | .uEi .. => true
  | .uDi .. => true
  | .uLdlc .. => true
  | .uSetf .. => true
  | .uFault .. => true
  | .uAdd .. => true
  | .uAdc .. => true
  | .uSub .. => true
  | .uSbc .. => true
  | .uAnd .. => true
  | .uOr .. => true
  | .uXor .. => true
  | .uAndn .. => true
  | .uMin .. => true
  | .uMax .. => true
  | .uMinu .. => true
  | .uMaxu .. => true
  | .uAddsat .. => true
  | .uSubsat .. => true
  | .uCmp .. => true
  | .uTst .. => true
  | .uShl .. => true
  | .uShr .. => true
  | .uSar .. => true
  | .uRol .. => true
  | .uExt .. => true
  | .uIns .. => true
  | .uClz .. => true
  | .uPopc .. => true
  | .uMull .. => true
  | .uMulhu .. => true
  | .uMulhs .. => true
  | .uTadd .. => true
  | .uTsub .. => true
  | .uTaddi .. => true
  | .uTdiff .. => true
  | .uTcmp .. => true
  | .uTld .. => true
  | .uTset .. => true
  | .uTlow .. => true
  | .uThigh .. => true
  | .uTmov .. => true
  | .uMovi .. => true
  | .uMov .. => true
  | .uRdspec .. => true
  | .uWrspec .. => true
  | .uTagPop .. => true
  | .uTagPeek .. => true
  | .uTagLevel .. => true
  | .uTagClrloss .. => true
  | .uEdgePush .. => true
  | .uEdgeQlevel .. => true
  | .uIoRd .. => true
  | .uIoWr .. => true
  | .uBankLd .. => true
  | .uBankSt .. => true
  | .uBankAdd .. => true
  | .uBankSwap .. => true
  | .uSig .. => true
  | .uEvclr .. => true
  | .uEvclrm .. => true
  | .uWait .. => true
  | .waitConditionMet .. => true
  | .waitTimeout .. => true
  | .uJump .. => true
  | .uCall .. => true
  | .uRet .. => true
  | .uLoop .. => true
  | .uDispatch .. => true
  | .uEnd .. => true
  | .fastEntry .. => true
  | .normalEntry .. => true
  | .handlerLong .. => true
  | .budgetCut .. => true
  | .guardBand .. => true
  | .tickBoundary => true
  | .msPublish .. => true
  | .qdSnapshotPublish .. => true
  | .mirrorWrite => true
  | .inputTransition .. => true
  | .conversionComplete .. => true
  | .qualifierRelease .. => true
  | .lanePickup .. => true
  | .mergeRelease .. => true
  | .tagImport .. => true
  | .histAdd .. => true
  | .qdTagHandle .. => true
  | .binTableUpdate _ _ h => h.nom.length = 160 && h.early.length = 160 && h.late.length = 160 && h.all ≤ 1048576
  | .tableSwap .. => true
  | .calStarved .. => true
  | .stealOverdue .. => true
  | .calCycleStart => true
  | .deferredCalMeasure .. => true
  | .calMeasureDone _ out tags => tags.length = if out then 4096 else 16384
  | .tempTermUpdate => true
  | .ageingMeasure rings => rings.length = 4
  | .replan => true
  | .baselineClear => true
  | .tdrChannelDone _ r =>
    r.seen1.length = 16 && r.seen2.length = 16 && (r.seen1 ++ r.seen2).all (· ≤ 16) && r.tagsA.length = 4096 && r.tagsB.length = 4096
  | .monitorReading .. => true
  | .thermalTrip .. => true
  | .refWindow w => w.dt ≤ 8000000000
  | .refMissingPulse => true
  | .refPhaseError => true
  | .pllAcquireStart => true
  | .pllSlewDone => true
  | .refLocked => true
  | .refLockTimeout => true
  | .ppsEdge .. => true
  | .ppsLoss => true
  | .phaseSlewDone => true
  | .dtcWrap => true
  | .ppsoutPulse => true
  | .bxPortUp .. => true
  | .bxLeaderTimeout .. => true
  | .bxPortLost .. => true
  | .bxCapReceived .. => true
  | .bxTimeFrame .. => true
  | .bxOffsetUpdate .. => true
  | .bxTagFrame .. => true
  | .bxControlFrame .. => true
  | .brakeInputChange .. => true
  | .brakeTrip .. => true
  | .brakeResume .. => true
  | .edgeCompute .. => true
  | .edgeLaunch .. => true
  | .outputEvent .. => true
  | .puGenerate .. => true
  | .puHandover .. => true
  | .gptTopEvent .. => true
  | .gptCmpEvent .. => true
  | .gptTrigger .. => true
  | .dicDelivery .. => true
  | .coalTimeout .. => true
  | .errlogWrite => true
  | .dmaDescriptorFetch .. => true
  | .dmaMove _ n _ _ => 0 < n && n ≤ 64
  | .flushTimeout .. => true
  | .copyStep .. => true
  | .handoverDrainEnd .. => true
  | .bankClearDone .. => true
  | .patrolScrub .. => true
  | .retainCommit => true
  | .wake => true
  | .powerOnReset .. => true
  | .railExcursion => true
  | .porN => true
  | .ready .. => true
  | .mcWatchdog => true
  | .hostReset .. => true
  | .pcieRetrain width speed => [1, 2, 4, 8].contains width && [1, 2, 3, 4].contains speed
  | .backupSwitch .. => true
  | .backupDomainLost => true
  | .xtalFail => true
  | .rtcTrimMeasure .. => true
  | .rtcOffsetApply => true
  | .tamperDetect .. => true
  | .sessionTimeout .. => true
  | .lockoutExpire k => k / 16 = 1 || k / 16 = 2
  | .debouncedInactive .. => true
  | .quietTimeMet .. => true
  | .inAgePassed .. => true
  | .secondMark => true
  | .busMasterEnable .. => true
  | .dataLinkUp width speed => [1, 2, 4, 8].contains width && [1, 2, 3, 4].contains speed
  | .mcRestartComplete => true
  | .wakeScrubDone _ e => e.all fun p => decide (p.1 < 131072)
  | .jtagInstruction k => k < 256
  | .counterWrap .. => true

end Sys2Proof
end

