-- ==== Sys2Proof/Safety.lean ====
section
/-! DEFINITION. What holds of every state of the block, and what counts as a safe run. -/
namespace Sys2Proof.Machine

/-- The word queues of a pair hold at most 4,096 and 1,024 words (R383). -/
def QueuePair.Bounded (q : QueuePair) : Prop := q.h2d.length ≤ 4096 ∧ q.d2h.length ≤ 1024

/-- Bank memory is in its canonical form, the DTC is an 80-bit value (R41), and no queue pair holds more than R383 allows. -/
def State.Inv (s : State) : Prop :=
  Mem.wf s.mem = true ∧ s.tb.dtc < dtcMod ∧ ∀ k : Fin 4, (vget s.qp k).Bounded

/-- Every command that waits has operands the spec allows. -/
def State.CleanQueue (s : State) : Prop := s.pending.all Instr.wellFormed = true

/-- A run is safe when its state keeps the invariant and no command with operands outside the spec waits. -/
def State.Safe (s : State) : Prop := s.Inv ∧ s.CleanQueue

/-! Frames: which kinds of state a command may change. -/

/-- The kinds of state: one name per field of State. -/
inductive Kind where
  | pending | tb | ref | pps | bx | ch | cl | slot | dec | tim | timWr | brk | bank | mem | ue | dma | noStream | posted | mir |
  pcie | env | st | mb | goNext | qp | grp | ic | err | perf | sec | tamper | pwr | rtc | deferred | lastRead | freeCnt
deriving DecidableEq, Repr

/-- Between two states only the listed kinds of state differ. -/
structure Same (l : List Kind) (s t : State) : Prop where
  pending : Kind.pending ∈ l ∨ t.pending = s.pending
  tb : Kind.tb ∈ l ∨ t.tb = s.tb
  ref : Kind.ref ∈ l ∨ t.ref = s.ref
  pps : Kind.pps ∈ l ∨ t.pps = s.pps
  bx : Kind.bx ∈ l ∨ t.bx = s.bx
  ch : Kind.ch ∈ l ∨ t.ch = s.ch
  cl : Kind.cl ∈ l ∨ t.cl = s.cl
  slot : Kind.slot ∈ l ∨ t.slot = s.slot
  dec : Kind.dec ∈ l ∨ t.dec = s.dec
  tim : Kind.tim ∈ l ∨ t.tim = s.tim
  timWr : Kind.timWr ∈ l ∨ t.timWr = s.timWr
  brk : Kind.brk ∈ l ∨ t.brk = s.brk
  bank : Kind.bank ∈ l ∨ t.bank = s.bank
  mem : Kind.mem ∈ l ∨ t.mem = s.mem
  ue : Kind.ue ∈ l ∨ t.ue = s.ue
  dma : Kind.dma ∈ l ∨ t.dma = s.dma
  noStream : Kind.noStream ∈ l ∨ t.noStream = s.noStream
  posted : Kind.posted ∈ l ∨ t.posted = s.posted
  mir : Kind.mir ∈ l ∨ t.mir = s.mir
  pcie : Kind.pcie ∈ l ∨ t.pcie = s.pcie
  env : Kind.env ∈ l ∨ t.env = s.env
  st : Kind.st ∈ l ∨ t.st = s.st
  mb : Kind.mb ∈ l ∨ t.mb = s.mb
  goNext : Kind.goNext ∈ l ∨ t.goNext = s.goNext
  qp : Kind.qp ∈ l ∨ t.qp = s.qp
  grp : Kind.grp ∈ l ∨ t.grp = s.grp
  ic : Kind.ic ∈ l ∨ t.ic = s.ic
  err : Kind.err ∈ l ∨ t.err = s.err
  perf : Kind.perf ∈ l ∨ t.perf = s.perf
  sec : Kind.sec ∈ l ∨ t.sec = s.sec
  tamper : Kind.tamper ∈ l ∨ t.tamper = s.tamper
  pwr : Kind.pwr ∈ l ∨ t.pwr = s.pwr
  rtc : Kind.rtc ∈ l ∨ t.rtc = s.rtc
  deferred : Kind.deferred ∈ l ∨ t.deferred = s.deferred
  lastRead : Kind.lastRead ∈ l ∨ t.lastRead = s.lastRead
  freeCnt : Kind.freeCnt ∈ l ∨ t.freeCnt = s.freeCnt

end Sys2Proof.Machine

namespace Sys2Proof

/-- The kinds of state a command may change: all others stay as they were. -/
def Instr.mayChange : Instr → List Machine.Kind
  | .sysPing .. | .sysGetInfo .. | .sysGetHealth .. | .qdRead .. | .schedCheck .. | .calStatus .. | .pwrRetainBanks ..
  | .go .. =>
    [.mb, .goNext, .ic, .err, .perf, .pwr]
  | .sysResetFirmware .. | .sysResetDevice .. =>
    [.ch, .cl, .slot, .dec, .tim, .timWr, .bank, .mem, .ue, .dma, .env, .st, .mb, .goNext, .qp, .grp, .ic, .err, .perf, .sec,
     .tamper, .pwr, .deferred]
  | .sysSetMirror .. =>
    [.mir, .mb, .goNext, .ic, .err, .perf, .pwr, .deferred]
  | .tsSetReference .. =>
    [.ref, .ch, .cl, .env, .st, .mb, .goNext, .qp, .ic, .err, .perf, .pwr]
  | .tsSetTick .. | .tsSetTimeAtTick .. | .tsSetTimeAtPps .. | .tsSetTimeCancel .. | .bxAlign .. =>
    [.tb, .bx, .mb, .goNext, .ic, .err, .perf, .pwr]
  | .tsDiscipline .. =>
    [.tb, .ref, .pps, .bx, .ch, .cl, .env, .st, .mb, .goNext, .qp, .ic, .err, .perf, .pwr]
  | .tsRtcSetNow .. | .tsRtcSetAtNextMark .. | .tsRtcSetAtPps .. | .tsRtcSetOffsetOnly .. | .tsRtcRead .. =>
    [.mb, .goNext, .ic, .err, .perf, .pwr, .rtc]
  | .chSetInput .. | .chSetOutput .. =>
    [.ch, .cl, .env, .st, .mb, .goNext, .qp, .ic, .err, .perf, .pwr, .deferred]
  | .chEnable .. | .chDisable .. | .qdDefine .. | .calPolicy .. | .pwrSetStateTrim .. | .pwrSetStateRetain ..
  | .pwrSetStateBackupOnly .. =>
    [.mb, .goNext, .ic, .err, .perf, .pwr, .deferred]
  | .measDefine .. =>
    [.slot, .mb, .goNext, .ic, .err, .perf, .pwr]
  | .measArm .. | .measStop .. =>
    [.slot, .bank, .mb, .goNext, .ic, .err, .perf, .pwr]
  | .measRead .. =>
    [.mb, .goNext, .ic, .err, .perf, .pwr, .freeCnt]
  | .histDefine .. =>
    [.slot, .mem, .ue, .mb, .goNext, .ic, .err, .perf, .pwr]
  | .synPattern .. | .synPatternShadow .. =>
    [.ch, .cl, .tim, .env, .st, .mb, .goNext, .qp, .ic, .err, .perf, .pwr]
  | .synPair .. | .envTdrMeasure .. | .envTdrApply .. | .envTdrSet .. | .envTdrClear .. =>
    [.ch, .env, .mb, .goNext, .ic, .err, .perf, .pwr, .deferred]
  | .synBrakeCfgSetInput .. | .synBrakeCfgSetGuard .. =>
    [.tb, .brk, .mb, .goNext, .ic, .err, .perf, .pwr, .deferred]
  | .synBrakeClear .. =>
    [.tb, .ch, .brk, .mb, .goNext, .ic, .err, .perf, .pwr]
  | .ucLoad .. =>
    [.ch, .cl, .bank, .env, .st, .mb, .goNext, .qp, .ic, .err, .perf, .pwr]
  | .taskSet .. | .taskRemove .. =>
    [.cl, .mb, .goNext, .ic, .err, .perf, .pwr, .deferred]
  | .timerSet .. =>
    [.tb, .cl, .tim, .timWr, .mb, .goNext, .ic, .err, .perf, .pwr, .deferred]
  | .calRun .. =>
    [.ch, .mb, .goNext, .ic, .err, .perf, .pwr]
  | .envMonitors .. | .envMonitorsSetWin .. | .envMonitorsClearTrip .. =>
    [.env, .mb, .goNext, .ic, .err, .perf, .pwr]
  | .streamOpenCapture .. | .streamOpenBlock .. | .streamOpenCopy .. =>
    [.ch, .cl, .bank, .dma, .env, .st, .mb, .goNext, .qp, .ic, .err, .perf, .pwr, .deferred]
  | .streamClose .. | .streamCloseDiscard .. =>
    [.bank, .dma, .mb, .goNext, .ic, .err, .perf, .pwr, .deferred]
  | .bankAssign .. =>
    [.tb, .ch, .bank, .mem, .ue, .mb, .goNext, .ic, .err, .perf, .pwr]
  | .grpPrepare .. =>
    [.bx, .ch, .cl, .slot, .dec, .tim, .timWr, .bank, .mem, .ue, .dma, .posted, .mir, .env, .st, .mb, .goNext, .qp, .grp, .ic,
     .err, .perf, .pwr]
  | .grpCommit .. =>
    [.ch, .cl, .tim, .env, .st, .mb, .goNext, .qp, .grp, .ic, .err, .perf, .pwr, .deferred]
  | .grpAbandon .. =>
    [.mb, .goNext, .grp, .ic, .err, .perf, .pwr]
  | .bxLink .. =>
    [.tb, .ref, .bx, .ch, .cl, .env, .st, .mb, .goNext, .qp, .ic, .err, .perf, .pwr]
  | .secChallenge .. | .secOpen .. | .secClose .. | .secEnroll .. | .secRemove .. | .secSignRecordSlot ..
  | .secSignRecordBlobPart .. | .secSignRecordBlobEnd .. | .secSealCalSeal .. | .secSealCalClear .. | .secAuditRead ..
  | .secZeroize .. | .tamperCfg .. | .secFwUpdateBegin .. | .secFwUpdateData .. | .secFwUpdateCommit .. | .secFwUpdateAbort ..
  | .secDebugUnlock .. | .secExportCert .. =>
    [.ch, .cl, .env, .st, .mb, .goNext, .qp, .ic, .err, .perf, .sec, .tamper, .pwr]
  | .doorbellFrame =>
    [.ic, .pwr]
  | .doorbellSelfTest .. =>
    [.ch, .cl, .env, .st, .qp, .ic, .err, .perf, .sec, .pwr]
  | .doorbellCloseSessions =>
    [.ic, .sec, .pwr]
  | .doorbellLockDebug =>
    [.ch, .cl, .tim, .env, .st, .qp, .ic, .sec, .pwr]
  | .cancel .. | .mbDataWrite .. =>
    [.mb, .ic, .err, .perf, .pwr]
  | .messageTake .. =>
    [.tb, .ref, .pps, .bx, .ch, .cl, .slot, .dec, .tim, .timWr, .brk, .bank, .mem, .ue, .dma, .posted, .mir, .env, .st, .mb,
     .qp, .grp, .ic, .err, .perf, .sec, .tamper, .pwr, .rtc, .deferred, .freeCnt]
  | .mailboxTimeout .. | .secureTimeout .. =>
    [.tb, .mb, .ic, .perf, .pwr]
  | .qpH2dPush .. =>
    [.qp, .ic]
  | .qpD2hRead .. =>
    [.qp, .lastRead]
  | .qpDescriptorForward .. =>
    [.tb, .ch, .qp, .ic, .err, .perf, .pwr]
  | .hostRegisterWrite .. =>
    [.tb, .ch, .cl, .tim, .bank, .dma, .posted, .mir, .env, .st, .mb, .goNext, .qp, .ic, .err, .perf, .sec, .pwr, .deferred,
     .freeCnt]
  | .hostOddSizeAccess .. =>
    [.ch, .cl, .bank, .dma, .mb, .qp, .ic, .err, .perf, .pwr, .rtc, .lastRead]
  | .readClear .. =>
    [.ch, .cl, .bank, .dma, .mb, .qp, .ic, .perf, .rtc, .lastRead]
  | .tsCapture | .phaseSlewDone | .dtcWrap | .dicDelivery .. | .coalTimeout .. =>
    [.tb, .ic, .perf, .pwr]
  | .rtcSubRead =>
    [.rtc, .lastRead]
  | .pcSnapRead .. =>
    [.perf, .lastRead]
  | .mirrorDisable =>
    [.mir, .deferred]
  | .dmaRingTailWrite .. =>
    [.ch, .cl, .dma, .env, .st, .qp, .ic, .pwr]
  | .dmaRingHeadWrite .. =>
    [.ch, .cl, .bank, .dma, .env, .st, .qp, .ic, .err, .perf, .pwr]
  | .flush .. =>
    [.tb, .ch, .cl, .bank, .dma, .posted, .env, .st, .qp, .ic, .err, .perf, .pwr]
  | .hostBankAccess .. =>
    [.tb, .bank, .mem, .ue, .ic, .err, .perf, .pwr, .lastRead]
  | .icEoi .. =>
    [.ic]
  | .chEqPush .. | .puCmpWrite .. | .puPerWrite .. | .puShadowWrite .. | .puGenerate .. | .puHandover .. =>
    [.tb, .ch, .ic, .err, .perf, .pwr]
  | .puLockClear .. =>
    [.tb, .ch, .cl, .tim, .ic, .err, .perf, .pwr]
  | .gptStart .. | .gptStop .. | .gptSync .. | .gptClrFlags .. | .gptTopEvent .. | .gptCmpEvent .. | .gptTrigger .. =>
    [.tb, .cl, .tim, .timWr, .ic, .perf, .pwr]
  | .uNop .. | .uReti .. | .uEi .. | .uDi .. | .uLdlc .. | .uSetf .. | .uFault .. | .uAdd .. | .uAdc .. | .uSub .. | .uSbc ..
  | .uAnd .. | .uOr .. | .uXor .. | .uAndn .. | .uMin .. | .uMax .. | .uMinu .. | .uMaxu .. | .uAddsat .. | .uSubsat ..
  | .uCmp .. | .uTst .. | .uShl .. | .uShr .. | .uSar .. | .uRol .. | .uExt .. | .uIns .. | .uClz .. | .uPopc .. | .uMull ..
  | .uMulhu .. | .uMulhs .. | .uTadd .. | .uTsub .. | .uTaddi .. | .uTdiff .. | .uTcmp .. | .uTld .. | .uTset .. | .uTlow ..
  | .uThigh .. | .uTmov .. | .uMovi .. | .uMov .. | .uRdspec .. | .uWrspec .. | .uTagPop .. | .uTagPeek .. | .uTagLevel ..
  | .uTagClrloss .. | .uSig .. | .uEvclr .. | .uEvclrm .. | .uWait .. | .handlerLong .. =>
    [.tb, .cl, .qp, .ic, .err, .perf, .pwr]
  | .uEdgePush .. | .uEdgeQlevel .. =>
    [.tb, .ch, .cl, .qp, .ic, .err, .perf, .pwr]
  | .uIoRd .. | .uIoWr .. =>
    [.tb, .ch, .cl, .tim, .timWr, .bank, .dma, .mb, .qp, .ic, .err, .perf, .pwr, .rtc]
  | .uBankLd .. | .uBankSt .. | .uBankAdd .. | .uBankSwap .. =>
    [.tb, .cl, .bank, .mem, .ue, .qp, .ic, .err, .perf, .pwr]
  | .waitConditionMet .. | .waitTimeout .. | .fastEntry .. | .normalEntry .. | .budgetCut .. | .tagImport .. =>
    [.tb, .cl, .ic, .perf, .pwr]
  | .uJump .. | .uCall .. | .uRet .. | .uLoop .. | .uDispatch .. | .uEnd .. =>
    [.tb, .ch, .cl, .tim, .timWr, .bank, .mem, .ue, .dma, .mb, .qp, .ic, .err, .perf, .pwr, .rtc]
  | .guardBand .. =>
    [.tb, .cl, .ic, .err, .perf, .pwr]
  | .tickBoundary =>
    [.tb, .ref, .bx, .ch, .cl, .slot, .dec, .tim, .timWr, .bank, .mem, .ue, .dma, .posted, .mir, .env, .st, .qp, .grp, .ic,
     .err, .perf, .pwr, .rtc, .deferred, .lastRead]
  | .msPublish .. =>
    [.tb, .cl, .slot, .tim, .bank, .ic, .perf, .pwr]
  | .qdSnapshotPublish .. =>
    [.tb, .dec, .ic, .perf, .pwr]
  | .mirrorWrite =>
    [.posted, .mir, .ic, .perf, .pwr]
  | .inputTransition .. | .brakeResume .. | .edgeLaunch .. =>
    [.tb, .ch, .ic, .perf, .pwr]
  | .conversionComplete .. | .tableSwap .. | .calStarved .. | .stealOverdue .. | .calMeasureDone .. | .replan
  | .inAgePassed .. =>
    [.tb, .ch, .cl, .env, .st, .qp, .ic, .perf, .pwr]
  | .qualifierRelease .. | .lanePickup .. =>
    [.tb, .ch, .cl, .ic, .perf, .pwr]
  | .mergeRelease .. =>
    [.tb, .bx, .ch, .cl, .slot, .dec, .bank, .mem, .ue, .dma, .posted, .env, .st, .qp, .ic, .err, .perf, .pwr]
  | .histAdd .. =>
    [.tb, .slot, .bank, .mem, .ue, .ic, .err, .perf, .pwr]
  | .qdTagHandle .. =>
    [.tb, .ch, .cl, .dec, .tim, .ic, .perf, .pwr]
  | .binTableUpdate .. | .thermalTrip .. =>
    [.ch, .cl, .env, .st, .qp, .ic, .err, .perf, .pwr]
  | .calCycleStart =>
    [.tb, .ch, .st, .ic, .perf, .pwr]
  | .deferredCalMeasure .. | .tempTermUpdate =>
    [.ch]
  | .ageingMeasure .. =>
    [.tb, .ch, .cl, .st, .ic, .perf, .pwr]
  | .baselineClear =>
    [.st]
  | .tdrChannelDone .. =>
    [.tb, .ch, .env, .ic, .perf, .pwr, .deferred]
  | .monitorReading .. =>
    [.env, .qp, .ic, .err, .perf, .pwr]
  | .refWindow .. | .refLockTimeout =>
    [.tb, .ref, .ch, .cl, .env, .st, .qp, .ic, .err, .perf, .pwr]
  | .refMissingPulse | .refPhaseError =>
    [.ref, .ch, .cl, .env, .st, .qp, .ic, .err, .perf, .pwr]
  | .pllAcquireStart =>
    [.ref, .ch, .cl, .env, .st, .qp, .ic, .pwr]
  | .pllSlewDone | .refLocked =>
    [.tb, .ref, .ch, .cl, .env, .st, .qp, .ic, .perf, .pwr]
  | .ppsEdge .. =>
    [.tb, .ref, .pps, .bx, .ic, .perf, .pwr, .rtc]
  | .ppsLoss =>
    [.tb, .pps, .ic, .err, .perf, .pwr]
  | .ppsoutPulse =>
    [.tb, .ref, .ic, .perf, .pwr]
  | .bxPortUp .. | .bxLeaderTimeout .. =>
    [.tb, .bx, .ch, .cl, .env, .st, .qp, .ic, .pwr]
  | .bxPortLost .. | .bxCapReceived .. =>
    [.tb, .ref, .bx, .ch, .cl, .env, .st, .qp, .ic, .err, .perf, .pwr]
  | .bxTimeFrame .. =>
    [.bx]
  | .bxOffsetUpdate .. =>
    [.tb, .bx, .ic, .pwr]
  | .bxTagFrame .. =>
    [.tb, .bx, .ch, .cl, .mem, .ue, .dma, .noStream, .ic, .perf, .pwr]
  | .bxControlFrame .. =>
    [.tb, .ref, .pps, .bx, .ch, .cl, .env, .st, .qp, .ic, .pwr]
  | .brakeInputChange .. | .brakeTrip .. =>
    [.tb, .ch, .cl, .tim, .brk, .env, .qp, .ic, .err, .perf, .pwr]
  | .edgeCompute .. | .outputEvent .. =>
    [.tb, .ch, .cl, .tim, .ic, .perf, .pwr]
  | .errlogWrite =>
    [.tb, .ic, .err, .perf, .pwr]
  | .dmaDescriptorFetch .. | .flushTimeout .. =>
    [.ch, .cl, .bank, .dma, .posted, .env, .st, .qp, .ic, .err, .perf, .pwr]
  | .dmaMove .. =>
    [.tb, .ch, .cl, .bank, .mem, .ue, .dma, .posted, .env, .st, .qp, .ic, .err, .perf, .pwr]
  | .copyStep .. =>
    [.tb, .bank, .mem, .ue, .dma, .ic, .err, .perf, .pwr]
  | .handoverDrainEnd .. | .bankClearDone .. =>
    [.tb, .ch, .bank, .mem, .ue, .mb, .ic, .err, .perf, .pwr, .lastRead]
  | .patrolScrub .. | .wakeScrubDone .. =>
    [.tb, .bank, .ue, .ic, .err, .perf, .pwr]
  | .retainCommit =>
    [.tb, .bx, .ch, .cl, .slot, .dec, .bank, .env, .st, .mb, .ic, .perf, .pwr]
  | .wake =>
    [.ch, .cl, .bank, .mem, .ue, .env, .st, .mb, .qp, .grp, .ic, .err, .perf, .sec, .tamper, .pwr, .deferred]
  | .powerOnReset .. =>
    [.tb, .ch, .cl, .env, .st, .mb, .qp, .grp, .ic, .err, .perf, .sec, .tamper, .pwr, .rtc]
  | .railExcursion | .porN | .jtagInstruction .. =>
    [.tb, .ref, .pps, .bx, .ch, .cl, .slot, .dec, .tim, .timWr, .brk, .bank, .mem, .ue, .dma, .noStream, .mir, .pcie, .env,
     .st, .mb, .goNext, .qp, .grp, .ic, .err, .perf, .sec, .tamper, .pwr, .rtc, .deferred]
  | .ready .. =>
    [.tb, .ref, .ch, .cl, .mem, .ue, .env, .st, .qp, .ic, .err, .perf, .sec, .pwr]
  | .mcWatchdog =>
    [.mb, .grp, .ic, .err, .perf, .pwr]
  | .hostReset .. =>
    [.bank, .dma, .mir, .pcie, .st, .mb, .qp, .grp, .ic, .sec, .pwr, .deferred]
  | .pcieRetrain .. =>
    [.pcie, .ic, .err, .perf, .pwr]
  | .backupSwitch .. | .xtalFail =>
    [.rtc]
  | .backupDomainLost =>
    [.ch, .cl, .env, .st, .qp, .ic, .sec, .tamper, .pwr, .rtc]
  | .rtcTrimMeasure .. | .rtcOffsetApply | .secondMark =>
    [.tb, .ic, .perf, .pwr, .rtc]
  | .tamperDetect .. =>
    [.ch, .cl, .env, .st, .qp, .ic, .err, .perf, .sec, .tamper, .pwr]
  | .sessionTimeout .. | .lockoutExpire .. =>
    [.tb, .ic, .perf, .sec, .pwr]
  | .debouncedInactive .. | .quietTimeMet .. =>
    [.tb, .brk, .ic, .perf, .pwr]
  | .busMasterEnable .. =>
    [.pcie]
  | .dataLinkUp .. =>
    [.tb, .pcie, .ic, .perf, .pwr]
  | .mcRestartComplete =>
    [.ch, .cl, .env, .st, .mb, .qp, .grp, .ic, .err, .perf, .sec, .tamper, .pwr]
  | .counterWrap .. =>
    [.ic, .perf, .pwr]

end Sys2Proof
end

