-- ==== Sys2Proof/Certificates/Slice0/Obligations.lean ====
section
/-! DEFINITION. The statements for the provers, with the words they are said in. -/
namespace Sys2Proof.Claims
open Sys2Proof.Machine

/-- The command answers a next state, and that state has the property. -/
def Answers (c : Instr) (s : State) (P : State → Prop) : Prop := ∃ t, exec c s = .next t ∧ P t

/-- Commands run one after another, as long as each answers a next state. -/
def runs : List Instr → State → Host.Outcome State Fault Refusal
  | [], s => .next s
  | c :: l, s =>
    match exec c s with
    | .next t => runs l t
    | o => o

end Sys2Proof.Claims

open Sys2Proof Sys2Proof.Machine Sys2Proof.Claims

/-! The machine as a whole. -/

/-- A step runs the command at the front of the queue on the state with the rest of the queue. -/
def Obligations.StepRunsTheFrontCommand : Prop :=
  ∀ (c : Instr) (l : List Instr) (s : State), step { s with pending := c :: l } = exec c { s with pending := l }

/-- With no command waiting one CCLK cycle passes: the DTC counts 12,800 tq modulo 2^80 (R42), and only the time base and
counters move. That a step without a command is one cycle is the model's choice (log 7). -/
def Obligations.AnEmptyQueuePassesOneCycle : Prop :=
  ∀ s : State, s.pending = [] → s.pwr.startup ≠ .held → s.tb.dtc < 2 ^ 80 →
    ∃ t, step s = .next t ∧ t.now = s.now + 12800 ∧ t.tb.dtc = (s.tb.dtc + 12800) % 2 ^ 80 ∧
      t.ext = s.ext + 12800 ∧ Same [.tb, .ic, .perf, .pwr] s t

/-- The state after reset meets the invariant that every step keeps. -/
def Obligations.ResetMeetsTheInvariant : Prop := State.reset.Inv

/-- Every step keeps bank memory in its canonical form, the DTC an 80-bit value (R41) and every word queue within its size
(R383), from every state that has these. -/
def Obligations.EveryStepKeepsTheInvariant : Prop :=
  ∀ s t : State, s.Inv → step s = .next t → t.Inv

/-- No command changes a kind of state outside its frame; the queue of waiting commands is in no frame. -/
def Obligations.EveryCommandKeepsToItsFrame : Prop :=
  (∀ (c : Instr) (s t : State), exec c s = .next t → Same c.mayChange s t) ∧ ∀ c : Instr, Kind.pending ∉ c.mayChange

/-- Every command answers a next state in every state, but for a host access that reaches beyond the 64 MiB bank window of
BAR2 (R334), which stops with the fault noSuchAddress. -/
def Obligations.OnlyAnAccessOutsideTheWindowStops : Prop :=
  (∀ (c : Instr) (s : State), (∀ a l d e, c ≠ .hostBankAccess a l d e) → ∃ t, exec c s = .next t) ∧
  (∀ (a n : Nat) (d : Option (List Byte)) (e : List (Nat × Ecc)) (s : State),
    let len := match d with | some l => l.length | none => n
    if 64 * 2 ^ 20 < a + len then exec (.hostBankAccess a n d e) s = .fault .noSuchAddress
    else ∃ t, exec (.hostBankAccess a n d e) s = .next t)

/-- No command goes back in time. -/
def Obligations.TimeNeverRunsBackwards : Prop :=
  ∀ s t : State, step s = .next t → s.now ≤ t.now

/-! Mailboxes and word queues (R369 to R375, R383). -/

/-- CANCEL (R374): a posted message ends DONE with ABORTED, TAKEN = 0, RESTARTED = 0 and reply length 0, and TIMEOUT keeps its
value; in TAKEN only CANCEL_LATE is set; in IDLE and DONE nothing changes. -/
def Obligations.CancelWithdrawsAPostedMessage : Prop :=
  ∀ (m : Fin 8) (s : State),
    ((s.mbAt m).state = .posted →
      Answers (.cancel m) s fun t =>
        (t.mbAt m).state = .done ∧ (t.mbAt m).ackDone = true ∧ (t.mbAt m).ackCode = 0x0C ∧ (t.mbAt m).ackTaken = false ∧
        (t.mbAt m).ackRestarted = false ∧ (t.mbAt m).ackRlen = 0 ∧ (t.mbAt m).ackTimeout = (s.mbAt m).ackTimeout ∧
        (t.mbAt m).data = (s.mbAt m).data ∧ (∀ k : Fin 8, k ≠ m → t.mbAt k = s.mbAt k) ∧ Same [.mb, .ic] s t) ∧
    ((s.mbAt m).state = .taken →
      Answers (.cancel m) s fun t => t.mb = vmod s.mb m (fun x => { x with cancelLate := true }) ∧
        Same [.mb, .ic, .err, .perf, .pwr] s t) ∧
    ((s.mbAt m).state = .idle ∨ (s.mbAt m).state = .done → exec (.cancel m) s = .next s)

/-- MAILBOX_TIMEOUT (R373): when the MB_TMO period ends before DONE, TIMEOUT is set and the message keeps its state, its data
and its code. -/
def Obligations.MailboxTimeoutIsNoResult : Prop :=
  ∀ (m : Fin 8) (s : State) (e : Nat), (s.mbAt m).tmoAt = some e →
    Answers (.mailboxTimeout m) s fun t =>
      t.mb = vmod s.mb m (fun x => { x with ackTimeout := true, tmoAt := none }) ∧ e ≤ t.now ∧
      Same [.tb, .mb, .ic, .perf, .pwr] s t

/-- MB_DATA (R370): in IDLE or DONE a host write sets the word; in POSTED or TAKEN it is discarded, sets WR_REJ and changes
no mailbox otherwise. GO (R371, step 2, and R370): in IDLE or DONE the message is posted, MB_ACK becomes 0 but for SEQ of the header, and the
MB_TMO period starts; in POSTED or TAKEN the GO is discarded and sets GO_REJ. SECURE_TIMEOUT (R384): a secure message that has no answer within its bound (Table 16-4) completes with TIMEOUT. -/
def Obligations.MailboxesAcceptMessages : Prop :=
  (
  ∀ (m : Fin 8) (k : Fin 16) (v : W32) (s : State),
    ((s.mbAt m).state = .idle ∨ (s.mbAt m).state = .done →
      Answers (.mbDataWrite m k v) s fun t => t.mb = vmod s.mb m (fun x => { x with data := vset x.data k v }) ∧ Same [.mb] s t) ∧
    ((s.mbAt m).state = .posted ∨ (s.mbAt m).state = .taken →
      Answers (.mbDataWrite m k v) s fun t => t.mb = vmod s.mb m (fun x => { x with wrRej := true }) ∧
        Same [.mb, .ic, .err, .perf, .pwr] s t)) ∧ (
  ∀ (m : Fin 8) (s : State),
    ((s.mbAt m).state = .idle ∨ (s.mbAt m).state = .done →
      Answers (.go m) s fun t =>
        (t.mbAt m).state = .posted ∧ (t.mbAt m).ack = BitVec.ofNat 32 ((vget (s.mbAt m).data 0).toNat % 256) ∧
        (t.mbAt m).tmoAt = some (s.now + (s.mbAt m).tmoMs * 8000000000) ∧ (t.mbAt m).data = (s.mbAt m).data ∧
        (∀ k : Fin 8, k ≠ m → t.mbAt k = s.mbAt k) ∧ Same [.mb, .goNext, .ic, .pwr] s t) ∧
    ((s.mbAt m).state = .posted ∨ (s.mbAt m).state = .taken →
      Answers (.go m) s fun t => t.mb = vmod s.mb m (fun x => { x with goRej := true }) ∧ Same [.mb, .ic, .err, .perf, .pwr] s t)) ∧ (
  ∀ (m : Fin 8) (s : State), (s.mbAt m).state = .taken → (s.mbAt m).wait = .secure →
    Answers (.secureTimeout m) s fun t =>
      (t.mbAt m).state = .done ∧ (t.mbAt m).ackDone = true ∧ (t.mbAt m).ackTaken = true ∧ (t.mbAt m).ackCode = 0x08 ∧
      (t.mbAt m).ackRlen = 0 ∧ (s.mbAt m).takenAt + secBoundMs (s.mbAt m).opcode (s.mbAt m).payload * 8000000000 ≤ t.now ∧
      (∀ k : Fin 8, k ≠ m → t.mbAt k = s.mbAt k) ∧ Same [.tb, .mb, .ic, .perf, .pwr] s t)

/-- QP_H2D and QP_D2H_DATA (R383): a pushed word goes to the end of an enabled queue with room and is counted, and is dropped and
counted otherwise; a read returns the oldest word and removes it, and 0 from an empty queue; a LOST notice with the count of dropped
notices follows as soon as two words are free. -/
def Obligations.WordQueuesAreFirstInFirstOut : Prop :=
  (∀ (q : Fin 4) (v : W32) (s : State),
    ((s.qpAt q).h2dEn = true → (s.qpAt q).h2d.length < 4096 →
      Answers (.qpH2dPush q v) s fun t =>
        t.qp = vmod s.qp q (fun x => { x with h2d := x.h2d ++ [v], h2dWr := x.h2dWr + 1 }) ∧ Same [.qp, .ic] s t) ∧
    ((s.qpAt q).h2dEn = false ∨ 4096 ≤ (s.qpAt q).h2d.length →
      Answers (.qpH2dPush q v) s fun t =>
        t.qp = vmod s.qp q (fun x => { x with h2dDrop := x.h2dDrop + 1 }) ∧ Same [.qp] s t)) ∧
  (∀ (q : Fin 4) (s : State),
    ((s.qpAt q).d2h = [] →
      Answers (.qpD2hRead q) s fun t => t.lastRead = { bytes := [0, 0, 0, 0], poisoned := false } ∧ Same [.lastRead] s t) ∧
    (∀ w l, (s.qpAt q).d2h = w :: l →
      Answers (.qpD2hRead q) s fun t =>
        t.lastRead = { bytes := natBytes 4 w.toNat, poisoned := false } ∧ (t.qpAt q).d2hRd = (s.qpAt q).d2hRd + 1 ∧
        (if (s.qpAt q).lostSince ≠ 0 ∧ l.length + 2 ≤ 1024 then
          (t.qpAt q).d2h = l ++ [BitVec.ofNat 32 (2 * 2 ^ 24 + 1 * 2 ^ 16 + (s.qpAt q).noteSeq.toNat), (s.qpAt q).lostSince] ∧
          (t.qpAt q).lostSince = 0 ∧ (t.qpAt q).d2hProd = (s.qpAt q).d2hProd + 2
        else (t.qpAt q).d2h = l ∧ (t.qpAt q).d2hProd = (s.qpAt q).d2hProd) ∧
        (t.qpAt q).h2d = (s.qpAt q).h2d ∧ (∀ k : Fin 4, k ≠ q → t.qpAt k = s.qpAt k) ∧ Same [.qp, .lastRead] s t))

/-! Command rows (R371, R372, R376, R378): a row posts its message, and device firmware takes it. -/
namespace Sys2Proof.Claims

/-- A command row: its constructor, opcode, and payload words, and what Table 14-4 gives the opcode: least and greatest LEN, and
whether it is accepted before READY. -/
structure Row where
  make : Msg → Instr
  op : Nat
  words : Msg → List W32
  lo : Nat
  hi : Nat
  early : Bool

def rSysPing : Row := ⟨.sysPing, 0x0100, Msg.words, 0, 15, true⟩
def rSysGetInfo : Row := ⟨.sysGetInfo, 0x0101, Msg.words, 0, 1, true⟩
def rSysGetHealth : Row := ⟨.sysGetHealth, 0x0102, Msg.words, 0, 0, true⟩
def rSysResetFirmware : Row := ⟨.sysResetFirmware, 0x0103, fun m => setField 1 1 0 0 m.words, 2, 2, true⟩
def rSysResetDevice : Row := ⟨.sysResetDevice, 0x0103, fun m => setField 1 1 0 1 m.words, 2, 2, true⟩
def rSysSetMirror : Row := ⟨.sysSetMirror, 0x0104, Msg.words, 1, 1, true⟩
def rTsSetReference : Row := ⟨.tsSetReference, 0x0200, Msg.words, 3, 3, false⟩
def rTsSetTick : Row := ⟨.tsSetTick, 0x0201, Msg.words, 1, 1, false⟩
def rTsDiscipline : Row := ⟨.tsDiscipline, 0x0202, Msg.words, 3, 3, false⟩
def rTsSetTimeAtTick : Row := ⟨.tsSetTimeAtTick, 0x0203, fun m => setField 1 1 0 0 m.words, 4, 4, false⟩
def rTsSetTimeAtPps : Row := ⟨.tsSetTimeAtPps, 0x0203, fun m => setField 1 1 0 1 m.words, 4, 4, false⟩
def rTsSetTimeCancel : Row := ⟨.tsSetTimeCancel, 0x0203, fun m => setField 1 1 0 2 m.words, 4, 4, false⟩
def rTsRtcSetNow : Row := ⟨.tsRtcSetNow, 0x0204, fun m => setField 1 1 0 0 m.words, 3, 3, true⟩
def rTsRtcSetAtNextMark : Row := ⟨.tsRtcSetAtNextMark, 0x0204, fun m => setField 1 1 0 1 m.words, 3, 3, true⟩
def rTsRtcSetAtPps : Row := ⟨.tsRtcSetAtPps, 0x0204, fun m => setField 1 1 0 2 m.words, 3, 3, true⟩
def rTsRtcSetOffsetOnly : Row := ⟨.tsRtcSetOffsetOnly, 0x0204, fun m => setField 1 1 0 3 m.words, 3, 3, true⟩
def rTsRtcRead : Row := ⟨.tsRtcRead, 0x0205, Msg.words, 0, 0, true⟩
def rChSetInput : Row := ⟨.chSetInput, 0x0300, Msg.words, 4, 4, false⟩
def rChSetOutput : Row := ⟨.chSetOutput, 0x0301, Msg.words, 3, 3, false⟩
def rChEnable : Row := ⟨.chEnable, 0x0302, Msg.words, 1, 1, false⟩
def rChDisable : Row := ⟨.chDisable, 0x0303, Msg.words, 1, 1, false⟩
def rMeasDefine : Row := ⟨.measDefine, 0x0400, Msg.words, 5, 5, false⟩
def rMeasArm : Row := ⟨.measArm, 0x0401, Msg.words, 4, 4, false⟩
def rMeasStop : Row := ⟨.measStop, 0x0402, Msg.words, 1, 1, false⟩
def rMeasRead : Row := ⟨.measRead, 0x0403, Msg.words, 1, 1, false⟩
def rHistDefine : Row := ⟨.histDefine, 0x0404, Msg.words, 7, 7, false⟩
def rSynPattern : Row := ⟨.synPattern, 0x0500, fun m => setField 1 31 31 0 m.words, 10, 10, false⟩
def rSynPatternShadow : Row := ⟨.synPatternShadow, 0x0500, fun m => setField 1 31 31 1 m.words, 10, 10, false⟩
def rSynPair : Row := ⟨.synPair, 0x0501, Msg.words, 4, 4, false⟩
def rSynBrakeCfgSetInput : Row := ⟨.synBrakeCfgSetInput, 0x0502, fun m => setField 1 8 8 1 m.words, 5, 5, false⟩
def rSynBrakeCfgSetGuard : Row := ⟨.synBrakeCfgSetGuard, 0x0502, fun m => setField 1 9 9 1 m.words, 5, 5, false⟩
def rSynBrakeClear : Row := ⟨.synBrakeClear, 0x0503, Msg.words, 1, 1, false⟩
def rQdDefine : Row := ⟨.qdDefine, 0x0600, Msg.words, 7, 7, false⟩
def rQdRead : Row := ⟨.qdRead, 0x0601, Msg.words, 1, 1, false⟩
def rUcLoad : Row := ⟨.ucLoad, 0x0700, Msg.words, 15, 15, false⟩
def rTaskSet : Row := ⟨.taskSet, 0x0701, Msg.words, 4, 4, false⟩
def rTaskRemove : Row := ⟨.taskRemove, 0x0702, Msg.words, 1, 1, false⟩
def rSchedCheck : Row := ⟨.schedCheck, 0x0703, Msg.words, 7, 7, false⟩
def rTimerSet : Row := ⟨.timerSet, 0x0704, Msg.words, 7, 7, false⟩
def rCalRun : Row := ⟨.calRun, 0x0800, Msg.words, 1, 1, false⟩
def rCalStatus : Row := ⟨.calStatus, 0x0801, Msg.words, 1, 1, false⟩
def rCalPolicy : Row := ⟨.calPolicy, 0x0802, Msg.words, 3, 3, false⟩
def rEnvTdrMeasure : Row := ⟨.envTdrMeasure, 0x0803, fun m => setField 1 17 16 0 m.words, 2, 2, false⟩
def rEnvTdrApply : Row := ⟨.envTdrApply, 0x0803, fun m => setField 1 17 16 1 m.words, 2, 2, false⟩
def rEnvTdrSet : Row := ⟨.envTdrSet, 0x0803, fun m => setField 1 17 16 2 m.words, 2, 2, false⟩
def rEnvTdrClear : Row := ⟨.envTdrClear, 0x0803, fun m => setField 1 17 16 3 m.words, 2, 2, false⟩
def rEnvMonitors : Row := ⟨.envMonitors, 0x0804, fun m => setField 1 9 8 0 m.words, 2, 2, true⟩
def rEnvMonitorsSetWin : Row := ⟨.envMonitorsSetWin, 0x0804, fun m => setField 1 8 8 1 m.words, 2, 2, true⟩
def rEnvMonitorsClearTrip : Row := ⟨.envMonitorsClearTrip, 0x0804, fun m => setField 1 9 9 1 m.words, 2, 2, true⟩
def rStreamOpenCapture : Row := ⟨.streamOpenCapture, 0x0900, fun m => setField 1 5 4 0 m.words, 9, 9, false⟩
def rStreamOpenBlock : Row := ⟨.streamOpenBlock, 0x0900, fun m => setField 1 5 4 1 m.words, 9, 9, false⟩
def rStreamOpenCopy : Row := ⟨.streamOpenCopy, 0x0900, fun m => setField 1 5 4 2 m.words, 9, 9, false⟩
def rStreamClose : Row := ⟨.streamClose, 0x0901, fun m => setField 1 8 8 0 m.words, 1, 1, false⟩
def rStreamCloseDiscard : Row := ⟨.streamCloseDiscard, 0x0901, fun m => setField 1 8 8 1 m.words, 1, 1, false⟩
def rBankAssign : Row := ⟨.bankAssign, 0x0902, Msg.words, 1, 1, false⟩
def rPwrSetStateTrim : Row := ⟨.pwrSetStateTrim, 0x0A00, fun m => setField 1 1 1 0 m.words, 2, 2, false⟩
def rPwrSetStateRetain : Row := ⟨.pwrSetStateRetain, 0x0A00, fun m => setField 1 1 0 2 m.words, 2, 2, false⟩
def rPwrSetStateBackupOnly : Row := ⟨.pwrSetStateBackupOnly, 0x0A00, fun m => setField 1 1 0 3 m.words, 2, 2, false⟩
def rPwrRetainBanks : Row := ⟨.pwrRetainBanks, 0x0A01, Msg.words, 2, 2, false⟩
def rGrpPrepare : Row := ⟨.grpPrepare, 0x0B00, Msg.words, 2, 15, false⟩
def rGrpCommit : Row := ⟨.grpCommit, 0x0B01, Msg.words, 4, 4, false⟩
def rGrpAbandon : Row := ⟨.grpAbandon, 0x0B02, Msg.words, 1, 1, false⟩
def rBxLink : Row := ⟨.bxLink, 0x0C00, Msg.words, 9, 9, false⟩
def rBxAlign : Row := ⟨.bxAlign, 0x0C01, Msg.words, 2, 2, false⟩

/-- The rows whose commands act in one handler. -/
def rows : List Row :=
  [rSysPing, rSysGetInfo, rSysGetHealth, rSysSetMirror, rTsSetReference, rTsSetTick, rTsDiscipline, rTsSetTimeAtTick,
   rTsSetTimeAtPps, rTsSetTimeCancel, rTsRtcSetNow, rTsRtcSetAtNextMark, rTsRtcSetAtPps, rTsRtcSetOffsetOnly, rTsRtcRead,
   rChSetInput, rChSetOutput, rChEnable, rChDisable, rMeasDefine, rMeasArm, rMeasStop, rMeasRead, rHistDefine, rSynPattern,
   rSynPatternShadow, rSynPair, rSynBrakeCfgSetInput, rSynBrakeCfgSetGuard, rSynBrakeClear, rQdDefine, rQdRead, rUcLoad,
   rTaskSet, rTaskRemove, rSchedCheck, rTimerSet, rCalRun, rCalStatus, rCalPolicy, rEnvTdrMeasure, rEnvTdrApply, rEnvTdrSet,
   rEnvTdrClear, rEnvMonitors, rEnvMonitorsSetWin, rEnvMonitorsClearTrip, rStreamOpenCapture, rStreamOpenBlock,
   rStreamOpenCopy, rStreamClose, rStreamCloseDiscard, rBankAssign, rPwrSetStateTrim, rPwrSetStateRetain,
   rPwrSetStateBackupOnly, rPwrRetainBanks, rBxLink, rBxAlign]

/-! The rows of the secure services (Table 16-4). -/

def rSecChallenge : Row := ⟨.secChallenge, 0x0F00, fun m => setField 1 3 0 0 m.words, 0, 15, true⟩
def rSecOpen : Row := ⟨.secOpen, 0x0F00, fun m => setField 1 3 0 1 m.words, 0, 15, true⟩
def rSecClose : Row := ⟨.secClose, 0x0F00, fun m => setField 1 3 0 2 m.words, 0, 15, true⟩
def rSecEnroll : Row := ⟨.secEnroll, 0x0F00, fun m => setField 1 3 0 3 m.words, 0, 15, true⟩
def rSecRemove : Row := ⟨.secRemove, 0x0F00, fun m => setField 1 3 0 4 m.words, 0, 15, true⟩
def rSecSignRecordSlot : Row := ⟨.secSignRecordSlot, 0x0F01, fun m => setField 2 1 0 0 m.words, 0, 15, true⟩
def rSecSignRecordBlobPart : Row := ⟨.secSignRecordBlobPart, 0x0F01, fun m => setField 2 1 0 1 m.words, 0, 15, true⟩
def rSecSignRecordBlobEnd : Row := ⟨.secSignRecordBlobEnd, 0x0F01, fun m => setField 2 1 0 2 m.words, 0, 15, true⟩
def rSecSealCalSeal : Row := ⟨.secSealCalSeal, 0x0F02, fun m => setField 2 1 0 0 m.words, 0, 15, true⟩
def rSecSealCalClear : Row := ⟨.secSealCalClear, 0x0F02, fun m => setField 2 1 0 1 m.words, 0, 15, true⟩
def rSecAuditRead : Row := ⟨.secAuditRead, 0x0F03, Msg.words, 0, 15, true⟩
def rSecZeroize : Row := ⟨.secZeroize, 0x0F04, fun m => setField 2 1 0 0 m.words, 0, 15, true⟩
def rTamperCfg : Row := ⟨.tamperCfg, 0x0F04, fun m => setField 2 1 0 1 m.words, 0, 15, true⟩
def rSecFwUpdateBegin : Row := ⟨.secFwUpdateBegin, 0x0F05, fun m => setField 2 1 0 0 m.words, 0, 15, true⟩
def rSecFwUpdateData : Row := ⟨.secFwUpdateData, 0x0F05, fun m => setField 2 1 0 1 m.words, 0, 15, true⟩
def rSecFwUpdateCommit : Row := ⟨.secFwUpdateCommit, 0x0F05, fun m => setField 2 1 0 2 m.words, 0, 15, true⟩
def rSecFwUpdateAbort : Row := ⟨.secFwUpdateAbort, 0x0F05, fun m => setField 2 1 0 3 m.words, 0, 15, true⟩
def rSecDebugUnlock : Row := ⟨.secDebugUnlock, 0x0F06, Msg.words, 0, 15, true⟩
def rSecExportCert : Row := ⟨.secExportCert, 0x0F07, Msg.words, 0, 15, true⟩

/-- The rows of the secure services. -/
def secureRows : List Row :=
  [rSecChallenge, rSecOpen, rSecClose, rSecEnroll, rSecRemove, rSecSignRecordSlot, rSecSignRecordBlobPart, rSecSignRecordBlobEnd,
   rSecSealCalSeal, rSecSealCalClear, rSecAuditRead, rSecZeroize, rTamperCfg, rSecFwUpdateBegin, rSecFwUpdateData,
   rSecFwUpdateCommit, rSecFwUpdateAbort, rSecDebugUnlock, rSecExportCert]

/-- Every command row. -/
def allRows : List Row :=
  rows ++ [rSysResetFirmware, rSysResetDevice, rGrpPrepare, rGrpCommit, rGrpAbandon] ++ secureRows

/-- Payload words w1 to wLEN of a row's message. -/
def payload (r : Row) (m : Msg) : List W32 := (List.range m.len).map fun j => pw (r.words m) (j + 1)

/-- The header word of a row's message (R369). -/
def header (r : Row) (m : Msg) : W32 := BitVec.ofNat 32 (r.op * 2 ^ 16 + m.len * 2 ^ 8 + m.seq.toNat)

/-- The host's part of a row: the writes of w1 to wLEN, of the header and of GO (R371, step 1). -/
def hostWrites (r : Row) (m : Msg) : List Instr :=
  (List.finRange 15).filterMap (fun j => if j.val < m.len.val then some (.mbDataWrite m.mb (Fin.ofNat 16 (j.val + 1)) (pw (r.words m) (j.val + 1))) else none)
    ++ [.mbDataWrite m.mb 0 (header r m), .go m.mb]

/-- The state in which the handler of a row runs: its message is posted and taken. -/
def taken (r : Row) (s : State) (m : Msg) : State := (s.hostPost m r.op (r.words m)).mbTake m.mb

/-- A row's message is posted on a free mailbox of the common command path, is the next to be taken, has the length and the readiness
that Table 14-4 asks for, and names no object that a group reserves (R371, R372, R376, R381). -/
structure Sends (r : Row) (s : State) (m : Msg) : Prop where
  box : m.mb.val < 6
  alone : ∀ k : Fin 8, k.val < 6 → (s.mbAt k).state = .idle ∨ (s.mbAt k).state = .done
  up : s.pwr.mcUp = true
  length : r.lo ≤ m.len.val ∧ m.len.val ≤ r.hi
  ready : r.early = true ∨ s.pwr.startup = .ready
  unreserved : s.groupBusy 0 r.op (payload r m) = false

/-- The mailbox of a row holds the reply (R371, steps 4 and 5): DONE, TAKEN, the code, the reply words over w1 and on, and beyond them
the words the host wrote; APPLIED where the change was made (R386). -/
def Replied (r : Row) (m : Msg) (code : Nat) (reply : List W32) (t : State) : Prop :=
  let x := t.mbAt m.mb
  x.state = .done ∧ x.ackDone = true ∧ x.ackTaken = true ∧ x.ackTimeout = false ∧ x.ackRestarted = false ∧ x.ackCode = code ∧
  x.ackRlen = reply.length ∧ x.ackSeq = m.seq.toNat ∧ x.applied = decide (code = 0) ∧
  ∀ k : Fin 15, (k.val < reply.length → vget x.data (k.val + 1) = reply.getD k 0) ∧
    (reply.length ≤ k.val → k.val < m.len.val → vget x.data (k.val + 1) = pw (r.words m) (k.val + 1))

/-- What the mailbox path changes after a handler: the mailbox, and sources and counters that move with it. -/
def replyKinds : List Kind := [.mb, .ic, .perf]

/-- What a row does: where its message is sent and the condition holds of the state it runs in, its environment and its payload, the
row answers a next state that differs from the state `post` only by the reply, and the reply is OK with these words. -/
def Does (r : Row) (pre : State → Env → List W32 → Prop) (post : State → Env → List W32 → State)
    (reply : State → Env → List W32 → List W32) : Prop :=
  ∀ (s : State) (m : Msg), Sends r s m → pre (taken r s m) m.env (payload r m) →
    Answers (r.make m) s fun t =>
      Replied r m 0x00 (reply (taken r s m) m.env (payload r m)) t ∧
      Same replyKinds (post (taken r s m) m.env (payload r m)) t ∧
      ∀ k : Fin 8, k ≠ m.mb → t.mbAt k = (post (taken r s m) m.env (payload r m)).mbAt k

end Sys2Proof.Claims

/-- A command row on a free mailbox is its mailbox events one after another: the host's data writes, the header, GO, and the taking of
the message (R371). Posting and taking a message changes nothing but the mailbox, the order of the GO writes, sources and wake latches; and a row whose
message passes the common checks runs the handler of its opcode and ends with its outcome (R371, R372, R376). -/
def Obligations.RowsAreMailboxEventsAndHandlers : Prop :=
  (
  ∀ r ∈ allRows, ∀ (m : Msg) (s : State), (s.mbAt m.mb).state = .idle ∨ (s.mbAt m.mb).state = .done →
    exec (r.make m) s = runs (hostWrites r m ++ [.messageTake m.mb m.env]) s) ∧ (
  ∀ r ∈ rows, ∀ (m : Msg) (s : State), Sends r s m →
    Same [.mb, .goNext, .ic, .pwr] s (taken r s m) ∧
    exec (r.make m) s = .next (State.finish ((taken r s m).command m.mb r.op m.env (payload r m)) m.mb))

/-- A refused command changes nothing (R376): where the handler answers a code other than OK, the row ends with that code and only the
mailbox, the order of GO writes, sources, the log, counters and wake latches differ. Not said of SYN_BRAKE_CLEAR, whose STATE reply
samples the inputs on the next edge, and of UC_LOAD, whose INTEGRITY hands the bank over (R272). -/
def Obligations.RefusedCommandsChangeNothing : Prop :=
  ∀ r ∈ rows, r.op ≠ 0x0503 → r.op ≠ 0x0700 → ∀ (m : Msg) (s : State), Sends r s m →
    ((taken r s m).command m.mb r.op m.env (payload r m)).code ≠ 0x00 →
    Answers (r.make m) s fun t =>
      (t.mbAt m.mb).state = .done ∧
      (t.mbAt m.mb).ackCode = ((taken r s m).command m.mb r.op m.env (payload r m)).code ∧
      (t.mbAt m.mb).applied = false ∧ (∀ k : Fin 8, k ≠ m.mb → t.mbAt k = s.mbAt k) ∧
      Same [.mb, .goNext, .ic, .err, .perf, .pwr] s t

/-- A message is taken only in its turn: one at a time on MB0 to MB5 in the order of the GO writes, a secure one at once (R372). The
packet's checks come in the order of R376, and the first that fails gives the code with reply length 0. A SYS_PING that passes is answered
with its payload. -/
def Obligations.MessagesAreTakenInTurnAndChecked : Prop :=
  ∀ (mb : Fin 8) (e : Env) (s : State),
    let x := s.mbAt mb
    let turn : Prop := x.state = .posted ∧ s.pwr.mcUp = true ∧
      (6 ≤ mb.val ∨ ∀ k : Fin 8, k.val < 6 → (s.mbAt k).state ≠ .taken ∧
        (k = mb ∨ (s.mbAt k).state ≠ .posted ∨ x.goOrder < (s.mbAt k).goOrder))
    let known := allRows.filter fun r => decide (r.op = x.opcode)
    let code := match known with
      | [] => 0x02
      | r :: _ =>
        if (decide (r.op / 256 = 0x0F)) ≠ decide (6 ≤ mb.val) then 0x09
        else if x.len < r.lo ∨ r.hi < x.len then 0x03
        else if r.early = false ∧ s.pwr.startup ≠ .ready then 0x0A
        else 0x00
    (¬ turn → exec (.messageTake mb e) s = .next s) ∧
    (turn → code ≠ 0x00 → Answers (.messageTake mb e) s fun t =>
      (t.mbAt mb).state = .done ∧ (t.mbAt mb).ackDone = true ∧ (t.mbAt mb).ackTaken = true ∧ (t.mbAt mb).ackCode = code ∧
      (t.mbAt mb).ackRlen = 0 ∧ (t.mbAt mb).data = x.data ∧ (∀ k : Fin 8, k ≠ mb → t.mbAt k = s.mbAt k) ∧
      Same [.mb, .ic, .perf, .pwr] s t) ∧
    (turn → code = 0x00 → x.opcode = 0x0100 → Answers (.messageTake mb e) s fun t =>
      (t.mbAt mb).state = .done ∧ (t.mbAt mb).ackCode = 0x00 ∧ (t.mbAt mb).ackRlen = x.len ∧ (t.mbAt mb).data = x.data ∧
      (∀ k : Fin 8, k ≠ mb → t.mbAt k = s.mbAt k) ∧ Same [.mb, .ic, .perf, .pwr] s t)

/-! What each command does (chapters 2 to 17). -/
namespace Sys2Proof.Claims

/-- The state is left as it is. -/
def still (u : State) (_ : Env) (_ : List W32) : State := u

/-- The command's action waits for the first tick boundary at least 1 µs ahead. -/
def waits (op : Nat) (u : State) (p : List W32) : State :=
  { u with deferred := u.deferred ++ [{ at_ := .phys (u.now + 8000000), op := op, words := p }] }

/-- The reply words of that boundary. -/
def boundaryWords (u : State) : List W32 := dtcWords (u.boundaryB % 2 ^ 80)

/-- No follower turns a carried command away, or the device has none (R71). -/
abbrev carried (u : State) (e : Env) : Prop := u.bx.leader = false ∨ u.bx.dn.link ≠ .up ∨ (e.refuse = 0 ∧ e.silent = false)

/-- A device that commands its own time scale: alignment is OFF (R69). -/
abbrev ownTime (u : State) : Prop := u.bx.align = .off

/-- A word with no bit outside the mask. -/
abbrev only (w : W32) (mask : Nat) : Prop := w.toNat &&& mask = w.toNat

end Sys2Proof.Claims

/-- System commands (Table 14-5, R343): SYS_PING returns its payload; SYS_GET_INFO and SYS_GET_HEALTH return the words of Table 14-5;
SYS_SET_MIRROR sets N and EN at once and arms the first mirror boundary, or stops the mirror. -/
def Obligations.SystemCommandsDo : Prop :=
  Does rSysPing (fun _ _ _ => True) still (fun _ _ p => p) ∧
  Does rSysGetInfo (fun _ _ p => pw p 1 = 0) still (fun u _ _ =>
    [BitVec.ofNat 32 (0x4128 + 0x10000 + 0x100000 * b2n Config.gradeE), BitVec.ofNat 32 Config.serial.toNat,
     BitVec.ofNat 32 (Config.serial.toNat / 2 ^ 32), u.sec.fwVersion, 0x00000001]) ∧
  Does rSysGetInfo (fun _ _ p => pw p 1 = 1) still (fun u _ _ => words384 u.sec.fwHash) ∧
  Does rSysGetHealth (fun _ _ _ => True) still (fun u _ _ =>
    [u.sysStatus, BitVec.ofNat 32 u.monFaults, BitVec.ofNat 32 (u.monFaults / 2 ^ 32), u.thermWord, u.ref.word, u.pps.word, u.bx.alignWord,
     u.pcie.word, BitVec.ofNat 32 u.err.wr, BitVec.ofNat 32 u.pwr.gated,
     BitVec.ofNat 32 (u.ch.toList.filter fun c => (c.inp.en || c.out.en) && decide (c.cal.conf ≠ .nominal)).length,
     BitVec.ofNat 32 u.pwr.mcRestarts]) ∧
  Does rSysSetMirror (fun _ _ p => only (pw p 1) 0xFFFF)
    (fun u _ p => { u with
      mir := { u.mir with en := false, left := none, n := bits (pw p 1) 15 0 }
      deferred := u.deferred.filter fun d => decide (d.op ≠ 0x0104) })
    (fun _ _ p => [BitVec.ofNat 32 (bits (pw p 1) 15 0 * 65536), 0, 0, 0]) ∧
  Does rSysSetMirror
    (fun u _ p => only (pw p 1) 0x1FFFF ∧ bit (pw p 1) 16 = true ∧ bits (pw p 1) 15 0 ≠ 0 ∧ ¬ (u.mir.addrLo = 0 ∧ u.mir.addrHi = 0))
    (fun u _ p => waits 0x0104 { u with
      mir := { u.mir with en := true, left := none, n := bits (pw p 1) 15 0 }
      deferred := u.deferred.filter fun d => decide (d.op ≠ 0x0104) } p)
    (fun u _ p => BitVec.ofNat 32 (bits (pw p 1) 15 0 * 65536 + 1) :: boundaryWords u)

namespace Sys2Proof.Claims

/-- The reference settings in force: INTERNAL ends the use of any source, another source than the present one is left, and windows that were
counted for a source no longer asked for count no more (R39). -/
def referenceSet (u : State) (p : List W32) : State :=
  let sel := bits (pw p 1) 1 0
  let v : State := { u with ref := { u.ref with
    srcSel := sel, expect := bits (pw p 1) 5 4, refoutMode := bits (pw p 1) 9 8, ppsoutMode := bits (pw p 1) 13 12
    ppsoutOfs := (pw p 2).toInt, ppsoutWidth := (pw p 3).toNat } }
  let v := if sel = 3 then v.refInternal else if u.keepsSource sel then v else v.refLose
  let run := v.ref.runKey
  let wanted : Bool := decide
    ((sel = 0 ∧ (run = 4 ∨ v.ref.expect = 0 ∨ run = v.ref.expect)) ∨ (sel = 1 ∧ run ≠ 4 ∧ (v.ref.expect = 0 ∨ run = v.ref.expect)) ∨ (sel = 2 ∧ run = 4))
  State.settle { v with ref := { v.ref with validRun := if wanted then v.ref.validRun else 0, runKey := if wanted then run else 0 } }

end Sys2Proof.Claims

/-- Time-scale commands (R39, R46, R49, R50, R55, R71, R75): the reference settings; the new tick period with the boundary at which it applies; the
discipline mode, window and compensation; a step armed for a tick boundary or for a PPS edge, and its withdrawal. Calendar commands (R453): SET_NOW sets the clock at once and makes it FREE; AT_NEXT_MARK arms a setting for the first second mark at least
1 ms ahead, AT_PPS for the next edge in the window; OFFSET_ONLY changes the offset at once or at a second; TS_RTC_READ latches the seconds. -/
def Obligations.TimeCommandsDo : Prop :=
  (
  Does rTsSetReference (fun _ _ p => setReferenceRange p = false)
    (fun u _ p => referenceSet u p) (fun u _ p => [(referenceSet u p).ref.word]) ∧
  Does rTsSetTick
    (fun u e p => 640 ≤ (pw p 1).toNat ∧ (pw p 1).toNat ≤ 6250000 ∧ (u.pps.mode ≠ 0 → 625000000 % (pw p 1).toNat = 0) ∧
      (∀ c : Fin 4, 8 * (u.clus c).sch.guard ≤ (pw p 1).toNat) ∧ ownTime u ∧ u.tb.tickPend = none ∧ u.committed = false ∧
      u.tickFits (pw p 1).toNat = true ∧ carried u e)
    (fun u _ p => State.carry { u with tb := { u.tb with tickPend := some (pw p 1).toNat } } (.tick (pw p 1).toNat))
    (fun u _ _ => dtcWords ((if u.pps.mode = 0 then u.tb.tickEnd else secondFrom u.tb.tickEnd) % 2 ^ 80)) ∧
  Does rTsDiscipline
    (fun u e p => only (pw p 1) 3 ∧ bits (pw p 1) 1 0 ≠ 3 ∧ 10 ≤ (pw p 2).toNat ∧ (pw p 2).toNat ≤ 100000 ∧
      (bits (pw p 1) 1 0 ≠ 0 → u.pps.mode = 0 → 625000000 % u.tb.tickP = 0 ∧ ∀ n, u.tb.tickPend = some n → 625000000 % n = 0) ∧
      ownTime u ∧ carried u e)
    (fun u _ p => (u.setDiscipline (bits (pw p 1) 1 0) (pw p 2).toNat (pw p 3).toInt).carry
      (.discipline (bits (pw p 1) 1 0) (pw p 2).toNat (pw p 3).toInt))
    (fun u _ p => [(u.setDiscipline (bits (pw p 1) 1 0) (pw p 2).toNat (pw p 3).toInt).pps.word]) ∧
  Does rTsSetTimeAtTick
    (fun u e p => only (pw p 1) 3 ∧ only (pw p 4) 0xFFFF ∧ u.extOf (pw p 2) (pw p 3) (pw p 4) % 12800 = 0 ∧ ownTime u ∧
      (∀ k : Fin 512, (u.slotAt k).armed = false) ∧ u.tb.step = none ∧ u.committed = false ∧ carried u e)
    (fun u _ p => State.carry { u with tb := { u.tb with
      step := some (.atTick (dtcOf (pw p 2) (pw p 3) (pw p 4))), stepDone := false, stepAbandoned := false } }
      (.step ((dtcOf (pw p 2) (pw p 3) (pw p 4) : Int) - (u.tb.tickEnd % 2 ^ 80 : Nat))))
    (fun _ _ _ => []) ∧
  Does rTsSetTimeAtPps
    (fun u e p => only (pw p 1) 3 ∧ only (pw p 4) 0xFFFF ∧ u.extOf (pw p 2) (pw p 3) (pw p 4) % 8000000000000 = 0 ∧ u.pps.mode ≠ 0 ∧ ownTime u ∧
      (∀ k : Fin 512, (u.slotAt k).armed = false) ∧ u.tb.step = none ∧ u.committed = false ∧ carried u e)
    (fun u _ p => { u with tb := { u.tb with
      step := some (.atPps (dtcOf (pw p 2) (pw p 3) (pw p 4))), stepDone := false, stepAbandoned := false } })
    (fun _ _ _ => []) ∧
  Does rTsSetTimeCancel
    (fun u e p => only (pw p 1) 3 ∧ ownTime u ∧ (∀ k : Fin 512, (u.slotAt k).armed = false) ∧ u.committed = false ∧ carried u e)
    (fun u _ _ => State.carry { u with tb := { u.tb with step := none } } .cancel)
    (fun _ _ _ => [])) ∧ (
  Does rTsRtcSetNow (fun u _ p => rtcSetCheck u p = 0)
    (fun u _ p => State.rtcWasSet { u with rtc := { u.rtc with
      slaved := none, freeCount := (pw p 2).toNat * 32768 + (pw p 3).toNat, freeAt := u.now } }
      (if bit (pw p 1) 4 then some (BitVec.ofNat 16 (bits (pw p 1) 31 16)) else none))
    (fun u _ p => [(State.rtcWasSet { u with rtc := { u.rtc with
      slaved := none, freeCount := (pw p 2).toNat * 32768 + (pw p 3).toNat, freeAt := u.now } }
      (if bit (pw p 1) 4 then some (BitVec.ofNat 16 (bits (pw p 1) 31 16)) else none)).rtc.status, 0, 0, 0]) ∧
  Does rTsRtcSetAtNextMark (fun u _ p => rtcSetCheck u p = 0)
    (fun u _ p => { u with rtc := { u.rtc with armed := some ⟨.mark (secondFrom (u.ext + 8000000000)), (pw p 2).toNat, bit (pw p 1) 4,
      BitVec.ofNat 16 (bits (pw p 1) 31 16)⟩ } })
    (fun u _ p => ({ u.rtc with armed := some ⟨.mark (secondFrom (u.ext + 8000000000)), (pw p 2).toNat, bit (pw p 1) 4,
      BitVec.ofNat 16 (bits (pw p 1) 31 16)⟩ } : Rtc).status :: dtcWords (secondFrom (u.ext + 8000000000) % 2 ^ 80)) ∧
  Does rTsRtcSetAtPps (fun u _ p => rtcSetCheck u p = 0)
    (fun u _ p => { u with rtc := { u.rtc with armed := some ⟨.pps, (pw p 2).toNat, bit (pw p 1) 4, BitVec.ofNat 16 (bits (pw p 1) 31 16)⟩ } })
    (fun u _ p => [({ u.rtc with armed := some ⟨.pps, (pw p 2).toNat, bit (pw p 1) 4, BitVec.ofNat 16 (bits (pw p 1) 31 16)⟩ } : Rtc).status,
      0, 0, 0]) ∧
  Does rTsRtcSetOffsetOnly (fun u _ p => rtcSetCheck u p = 0 ∧ pw p 2 = 0)
    (fun u _ p => { u with rtc := { u.rtc with offset := BitVec.ofNat 16 (bits (pw p 1) 31 16), ofsPend := false } })
    (fun u _ _ => [u.rtc.status, 0, 0, 0]) ∧
  Does rTsRtcSetOffsetOnly (fun u _ p => rtcSetCheck u p = 0 ∧ pw p 2 ≠ 0)
    (fun u _ p => { u with rtc := { u.rtc with ofsPend := true, ofsNext := BitVec.ofNat 16 (bits (pw p 1) 31 16), ofsAt := pw p 2 } })
    (fun u _ _ => [u.rtc.status, 0, 0, 0]) ∧
  Does rTsRtcRead (fun _ _ _ => True)
    (fun u _ _ => { u with rtc := { u.rtc with secLat := BitVec.ofNat 32 u.rtcNow.1 } })
    (fun u _ _ => [BitVec.ofNat 32 u.rtcNow.1, BitVec.ofNat 32 u.rtcNow.2, BitVec.ofNat 32 u.rtc.offset.toNat, u.rtc.status]
      ++ dtcWords u.tb.dtc))

namespace Sys2Proof.Claims

/-- ENV_MONITORS: SET_WIN gives the named monitor its window from the next reading, and VDDM the window it has outside retention; CLEAR_TRIP
clears the thermal trip. -/
def monitorsSet (u : State) (p : List W32) : State :=
  let lo := signed 16 (bits (pw p 2) 15 0)
  let hi := signed 16 (bits (pw p 2) 31 16)
  let v := if bit (pw p 1) 8 then u.modMon (bits (pw p 1) 5 0) fun x => { x with low := lo, high := hi, outRun := 0, inRun := 0 } else u
  let v := if bit (pw p 1) 8 ∧ bits (pw p 1) 5 0 = 2 then { v with env := { v.env with vddmRun := (lo, hi) } } else v
  if bit (pw p 1) 9 then State.lines { v with env := { v.env with trip := false } } else v

/-- The reply of ENV_MONITORS. -/
def monitorWords (v : State) (p : List W32) : List W32 :=
  [(vget v.env.mon (bits (pw p 1) 5 0)).valWord, (vget v.env.mon (bits (pw p 1) 5 0)).winWord, BitVec.ofNat 32 v.monFaults,
   BitVec.ofNat 32 (v.monFaults / 2 ^ 32), BitVec.ofNat 32 (2 * (v.env.sensor % 32) + b2n v.env.trip)]

/-- SYN_BRAKE_CFG's input settings, on the CCLK edge of execution. -/
def brakesSet (u : State) (p : List W32) : State :=
  if bit (pw p 1) 8 then
    (u.runTo u.edge).each (maskIdx 8 (bits (pw p 1) 7 0)) fun s b => if (s.brkAt b).same p then s else s.modBrk b (Brake.setInput · p s.now)
  else u.runTo u.edge

/-- SYN_PAIR's settings on the named pairs that are disabled, at once. -/
def pairsSet (u : State) (p : List W32) : State :=
  u.each ((pairsNamed p).filter fun a => !u.pairEnabled a) fun s a => s.setPair a p

/-- TIMER_SET on the edge it acts on, up to its start: STOP, the new settings, CLEAR. -/
def timerSet (u : State) (p : List W32) : State :=
  let n := bits (pw p 1) 4 0
  let v := u.onEdge
  let v := if bit (pw p 1) 9 then v.timStop n v.now else (v.timSyncAllTo v.now).timCatch n v.now
  let v := v.modTim n (Timer.configured · p)
  if bit (pw p 1) 11 then v.timClear n v.now else v

/-- The assumed period, guard band and table of SCHED_CHECK, and the phase that AUTO_PHASE chooses. -/
def assumed (u : State) (p : List W32) : Nat × Nat × List Task × Nat :=
  let c := bits (pw p 1) 1 0
  let per := if bit (pw p 1) 8 then (pw p 2).toNat else u.tb.tickP
  let g := if bit (pw p 1) 9 then (pw p 3).toNat else (u.clus c).sch.guard
  let t := taskOf (p.drop 3)
  let i := bits (pw p 4) 15 8
  let φ := if bit (pw p 1) 10 then autoPhase (u.table c) [] (u.me c).image.reserve i t else 0
  (per, g, if bit (pw p 1) 10 then (u.table c).set i { t with phase := if t.auto then φ else t.phase } else u.table c, φ)

end Sys2Proof.Claims

namespace Sys2Proof.Claims

/-- FIRST to LAST in order and in one cluster (R106). -/
abbrev inCluster (p : List W32) : Prop :=
  bits (pw p 1) 6 0 ≤ bits (pw p 1) 14 8 ∧ bits (pw p 1) 6 0 / 32 = bits (pw p 1) 14 8 / 32

/-- No change of these opcodes waits for its boundary with a channel of the range. -/
abbrev noneWaits (u : State) (ops : List Nat) (p : List W32) : Prop :=
  ∀ d ∈ u.deferred, d.op ∈ ops → bits (pw p 1) 14 8 < bits (pw d.words 1) 6 0 ∨ bits (pw d.words 1) 14 8 < bits (pw p 1) 6 0

/-- CH_SET_INPUT that is not refused (Table 3-6): EDGE, HYS, MINPW and the reserved bits in range, and no change of a named channel pending. -/
abbrev InputFits (u : State) (p : List W32) : Prop :=
  inCluster p ∧ only (pw p 1) 0x7F7F ∧ only (pw p 2) 0xFF0F ∧ only (pw p 3) 0xFFFF ∧ bits (pw p 2) 1 0 ≠ 3 ∧ bits (pw p 2) 15 8 ≤ 250 ∧
  ((pw p 4).toNat = 0 ∨ 2000 ≤ (pw p 4).toNat ∧ (pw p 4).toNat ≤ 12800000) ∧ noneWaits u [0x0300] p

/-- CH_SET_OUTPUT that is not refused: a queue pair below 3, VOH above VOL, and no change of a named channel pending. -/
abbrev OutputFits (u : State) (p : List W32) : Prop :=
  inCluster p ∧ only (pw p 1) 0x7F7F ∧ only (pw p 2) 0x7F ∧ only (pw p 3) 0x0FFF0FFF ∧ bits (pw p 2) 6 5 ≠ 3 ∧
  bits (pw p 3) 11 0 < bits (pw p 3) 27 16 ∧ noneWaits u [0x0301] p

/-- CH_ENABLE or CH_DISABLE that is not refused: some direction named, and none pending. -/
abbrev SwitchFits (u : State) (p : List W32) : Prop :=
  inCluster p ∧ only (pw p 1) 0x37F7F ∧ (bit (pw p 1) 16 = true ∨ bit (pw p 1) 17 = true) ∧ noneWaits u [0x0302, 0x0303] p

/-- MEAS_DEFINE that is not refused (Table 5-5): a type, edges and G in range, the slot neither ARMED nor RUNNING, and at most 32 imports of the cluster with
the slot so defined. -/
abbrev DefineFits (u : State) (p : List W32) : Prop :=
  bits (pw p 1) 19 16 ≤ 7 ∧ bits (pw p 1) 21 20 ≠ 3 ∧ bits (pw p 1) 23 22 ≠ 3 ∧
  (2 ≤ bits (pw p 1) 19 16 → bits (pw p 1) 19 16 ≤ 4 → bits (pw p 1) 21 20 ≠ 2) ∧ 1 ≤ (pw p 3).toNat ∧ (pw p 3).toNat ≤ 1048576 ∧
  only (pw p 1) 0x03FF01FF ∧ only (pw p 2) 0x7F7F ∧ (u.slotAt (bits (pw p 1) 8 0)).armed = false ∧
  count128 ((u.modSlot (bits (pw p 1) 8 0) fun k => k.define p).importWant (bits (pw p 1) 8 0 / 128)) ≤ 32

/-- A range of slots, in order and in one cluster. -/
abbrev slotsInCluster (p : List W32) : Prop :=
  bits (pw p 1) 8 0 ≤ bits (pw p 1) 24 16 ∧ bits (pw p 1) 8 0 / 128 = bits (pw p 1) 24 16 / 128

/-- MEAS_ARM that is not refused for the boundary x (R155, R168): each slot DEFINED or STOPPED with its histogram's bank owned by its cluster's pipeline, x a
boundary at least 1 µs ahead where the payload names it, and no step pending nor its slew in progress. -/
abbrev ArmFits (u : State) (p : List W32) (x : Nat) : Prop :=
  slotsInCluster p ∧ only (pw p 1) 0x81FF01FF ∧
  (bit (pw p 1) 31 = true → only (pw p 4) 0xFFFF ∧ u.ext + 8000000 ≤ x ∧ u.boundaryFrom x = x) ∧
  u.tb.step = none ∧ u.tb.slew = none ∧
  ∀ n ∈ rangeIdx (bits (pw p 1) 8 0) (bits (pw p 1) 24 16),
    ((u.slotAt n).state = .defined ∨ (u.slotAt n).state = .stopped) ∧ ∀ h ∈ (u.slotAt n).hist, (u.bankAt h.bank).owner = 4 + n / 128

/-- HIST_DEFINE that is not refused (R168): the slot has a sample type and is DEFINED or STOPPED, the region lies in a bank that its cluster's pipeline owns, shares
no word with another slot's or with a ring, and a region to clear is the pipeline's. -/
abbrev HistFits (u : State) (p : List W32) : Prop :=
  let n := bits (pw p 1) 8 0
  let k := u.slotAt n
  let h := histOf p
  only (pw p 1) 0x301FF ∧ sampleType k.type = true ∧ (k.state = .defined ∨ k.state = .stopped) ∧
  (bit (pw p 1) 16 = true → only (pw p 2) 0x3F ∧ 1 ≤ h.nbins ∧ h.nbins ≤ 131072 ∧ 1 ≤ h.width ∧ h.width ≤ 2 ^ 24 ∧ h.offset + h.nbins ≤ 131072 ∧
    (u.bankAt h.bank).owner = 4 + n / 128 ∧ u.regionTaken n h.region = false) ∧
  (bit (pw p 1) 16 = false → bit (pw p 1) 17 = true → ∀ g ∈ k.hist, (u.bankAt g.bank).owner = 4 + n / 128)

end Sys2Proof.Claims

/-- Channel commands (R106, R107, R196, R197): settings reach disabled channels at once and the others at boundary B, which the reply names;
CH_ENABLE and CH_DISABLE always wait for B. Measurement commands (R155, R165, R172): a slot is defined or released; slots are armed for B0, and stopped from a boundary at least 1 µs
ahead; the last published block is read, where its value has no formula with a free value (log 36); a histogram is defined, cleared
or removed. -/
def Obligations.ChannelAndMeasurementCommandsDo : Prop :=
  (
  Does rChSetInput (fun u _ p => InputFits u p ∧ ∀ n ∈ rangeChans p, (u.chan n).inp.en = false)
    (fun u _ p => applySetInput u p) (fun u _ p => [((applySetInput u p).chan (bits (pw p 1) 6 0)).status, 0, 0, 0]) ∧
  Does rChSetInput (fun u _ p => InputFits u p ∧ ∃ n ∈ rangeChans p, (u.chan n).inp.en = true)
    (fun u _ p => waits 0x0300 u p) (fun u _ p => (u.chan (bits (pw p 1) 6 0)).status :: boundaryWords u) ∧
  Does rChSetOutput (fun u _ p => OutputFits u p ∧ ∀ n ∈ rangeChans p, (u.chan n).out.en = false)
    (fun u _ p => applySetOutput u p) (fun u _ p => [((applySetOutput u p).chan (bits (pw p 1) 6 0)).status, 0, 0, 0]) ∧
  Does rChSetOutput (fun u _ p => OutputFits u p ∧ ∃ n ∈ rangeChans p, (u.chan n).out.en = true)
    (fun u _ p => waits 0x0301 u p) (fun u _ p => (u.chan (bits (pw p 1) 6 0)).status :: boundaryWords u) ∧
  Does rChEnable (fun u _ p => SwitchFits u p ∧ ∀ n ∈ rangeChans p,
    (bit (pw p 1) 16 = true → (u.chan n).inp.configured = true) ∧ (bit (pw p 1) 17 = true → (u.chan n).out.configured = true)) (fun u _ p => waits 0x0302 u p) (fun u _ _ => boundaryWords u) ∧
  Does rChDisable (fun u _ p => SwitchFits u p) (fun u _ p => waits 0x0303 u p) (fun u _ _ => boundaryWords u)) ∧ (
  Does rMeasDefine (fun u _ p => DefineFits u p)
    (fun u _ p => u.modSlot (bits (pw p 1) 8 0) fun k => k.define p)
    (fun u _ p => [((u.slotAt (bits (pw p 1) 8 0)).define p).stateWord]) ∧
  Does rMeasArm
    (fun u _ p => ArmFits u p (if bit (pw p 1) 31 then u.extOf (pw p 2) (pw p 3) (pw p 4) else u.boundaryB))
    (fun u _ p => armSlots u p (if bit (pw p 1) 31 then u.extOf (pw p 2) (pw p 3) (pw p 4) else u.boundaryB))
    (fun u _ p => dtcWords ((if bit (pw p 1) 31 then u.extOf (pw p 2) (pw p 3) (pw p 4) else u.boundaryB) % 2 ^ 80)) ∧
  Does rMeasStop (fun _ _ p => slotsInCluster p ∧ only (pw p 1) 0x81FF01FF)
    (fun u _ p => stopSlots u p ((u.now + 8000000 : Nat) : Int))
    (fun u _ p => dtcWords (((slotRange p).filterMap fun n =>
      if (u.slotAt n).state = .running then some (u.stopBoundary (u.slotAt n) (u.ext + 8000000) (bit (pw p 1) 31)) else none).foldl max 0 % 2 ^ 80)) ∧
  Does rMeasRead
    (fun u _ p => only (pw p 1) 0x1FF ∧ (u.slotAt (bits (pw p 1) 8 0)).published = true ∧ (u.slotAt (bits (pw p 1) 8 0)).state ≠ .idle)
    (fun u _ _ => { u with freeCnt := u.freeCnt + 1 })
    (fun u _ p =>
      let l := (u.slotAt (bits (pw p 1) 8 0)).res
      let type := bits (l.getD 0 0) 31 28
      [l.getD 1 0, l.getD 2 0, l.getD 9 0, l.getD 10 0]
        ++ numWords 4 (unsigned 128 ((blockValue l type).getD (Config.measOpen u.freeCnt)))
        ++ numWords 2 (blockSpread l type) ++ [l.getD 27 0, l.getD 28 0, l.getD 29 0]) ∧
  Does rHistDefine (fun u _ p => HistFits u p)
    (fun u _ p =>
      let n := bits (pw p 1) 8 0
      let new := if bit (pw p 1) 16 then some (histOf p) else none
      let target := match new with | some h => some h | none => (u.slotAt n).hist
      (if bit (pw p 1) 17 then match target with | some h => u.zeroRegion h.region | none => u else u).modSlot n fun k => { k with hist := new })
    (fun u _ p => [({ u.slotAt (bits (pw p 1) 8 0) with hist := if bit (pw p 1) 16 then some (histOf p) else none } : Slot).stateWord]))

/-- Pattern and pair commands (R198, R208): SYN_PATTERN starts at T0, stops, or with SHADOW writes the shadows; SYN_PAIR changes disabled pairs at
once and the others at boundary B. Brake commands (R210, R211, R214, R218): input settings of the named brakes change on the CCLK edge of execution, guard masks at boundary B;
SYN_BRAKE_CLEAR clears the tripped brakes among those named, when each is inactive and quiet, and sets RESUME_PEND on the held channels that no
other tripped brake guards. -/
def Obligations.PatternPairAndBrakeCommandsDo : Prop :=
  (
  Does rSynPattern (fun u _ p => patternCheck u p = 0)
    (fun u _ p => applyPattern u p ((u.patT0 p).getD u.boundaryB))
    (fun u _ p => ((applyPattern u p ((u.patT0 p).getD u.boundaryB)).chan (bits (pw p 1) 6 0)).pu.statusWord ::
      dtcWords ((if bits (pw p 2) 2 0 = 0 then 0 else (u.patT0 p).getD u.boundaryB) % 2 ^ 80)) ∧
  Does rSynPatternShadow (fun u _ p => patternCheck u p = 0)
    (fun u _ p => applyPattern u p ((u.patT0 p).getD u.boundaryB))
    (fun u _ p => ((applyPattern u p ((u.patT0 p).getD u.boundaryB)).chan (bits (pw p 1) 6 0)).pu.statusWord ::
      dtcWords (u.shadowFrom (bits (pw p 1) 6 0) % 2 ^ 80)) ∧
  Does rSynPair (fun u _ p => pairCheck u p = 0 ∧ ∀ a ∈ pairsNamed p, u.pairEnabled a = false)
    (fun u _ p => pairsSet u p) (fun u _ p => [((pairsSet u p).chan (bits (pw p 1) 6 0)).pr.cfgWord, 0, 0, 0]) ∧
  Does rSynPair (fun u _ p => pairCheck u p = 0 ∧ ∃ a ∈ pairsNamed p, u.pairEnabled a = true)
    (fun u _ p => waits 0x0501 (pairsSet u p) p)
    (fun u _ p => ((pairsSet u p).chan (bits (pw p 1) 6 0)).pr.cfgWord :: boundaryWords u)) ∧ (
  Does rSynBrakeCfgSetInput (fun u _ p => brakeCfgCheck u p = 0 ∧ bit (pw p 1) 9 = false)
    (fun u _ p => brakesSet u p) (fun u _ p => [(brakesSet u p).brkStatus, 0, 0, 0]) ∧
  Does rSynBrakeCfgSetInput (fun u _ p => brakeCfgCheck u p = 0 ∧ bit (pw p 1) 9 = true)
    (fun u _ p => waits 0x0502 (brakesSet u p) p) (fun u _ p => (brakesSet u p).brkStatus :: boundaryWords (brakesSet u p)) ∧
  Does rSynBrakeCfgSetGuard (fun u _ p => brakeCfgCheck u p = 0)
    (fun u _ p => waits 0x0502 (brakesSet u p) p) (fun u _ p => (brakesSet u p).brkStatus :: boundaryWords (brakesSet u p)) ∧
  Does rSynBrakeClear
    (fun u _ p => bits (pw p 1) 7 0 ≠ 0 ∧ only (pw p 1) 0xFF ∧ ∀ b : Fin 8, (bits (pw p 1) 7 0).testBit b →
      let k := ((u.runTo u.edge).brkAt b).upTo (u.runTo u.edge).now
      ((u.runTo u.edge).brkAt b).tripped = true → k.activeAt (u.runTo u.edge).now = false ∧ k.notQuiet (u.runTo u.edge).now = false)
    (fun u _ p =>
      let l := (maskIdx 8 (bits (pw p 1) 7 0)).filter fun b => ((u.runTo u.edge).brkAt b).tripped
      ((u.runTo u.edge).each l fun s b => s.modBrk b fun k => { k with tripped := false }).each (List.range 128) fun s n =>
        if (s.chan n).pr.held ∧ s.holdBy n = 0 ∧ !(s.chan n).pr.resumePend then
          s.modPr n fun c => { c with resumePend := true, clearAt := s.ext, resumeAt := none, forced := false }
        else s)
    (fun u _ p =>
      let v := u.runTo u.edge
      BitVec.ofNat 32 (idxMask ((maskIdx 8 (bits (pw p 1) 7 0)).filter fun b => (v.brkAt b).tripped)) :: dtcWords (v.dtcAt v.now)))

/-- Decoder, task and timer commands (R240, R290, R300): QD_DEFINE, TASK_SET and TASK_REMOVE wait for boundary B; QD_READ and SCHED_CHECK only
reply; TIMER_SET stops, changes, clears and starts the timer in that order, the start at once or at boundary B. UC_LOAD (R271, R272): an image that passes every check enters the control stores of the named clusters and the bank goes back to HOST; one that
does not is refused with INTEGRITY and the digest, and the bank goes back. -/
def Obligations.DecoderTaskTimerAndCodeCommandsDo : Prop :=
  (
  Does rQdDefine
    (fun u _ p => only (pw p 1) 0x3FF1F ∧ only (pw p 4) 0x7FFF ∧ only (pw p 5) 0xFFFFF ∧ bits (pw p 1) 10 9 ≠ 3 ∧
      (pw p 3).toNat ≤ (pw p 2).toNat ∧ (pw p 6).toNat ≤ (pw p 2).toNat ∧
      (bit (pw p 1) 8 = true → u.qdChannels (bits (pw p 1) 4 0) (pw p 1) = true) ∧
      ((u.decAt (bits (pw p 1) 4 0)).state = .off ∨ bit (pw p 1) 16 = true ∨ (u.decAt (bits (pw p 1) 4 0)).cprM1 = (pw p 2).toNat) ∧
      u.qdPending (bits (pw p 1) 4 0) = false)
    (fun u _ p => waits 0x0600 u p)
    (fun u _ p => (u.decAt (bits (pw p 1) 4 0)).status true :: boundaryWords u) ∧
  Does rQdRead (fun u _ p => only (pw p 1) 0x1F ∧ (u.decAt (bits (pw p 1) 4 0)).snapNew = true) still
    (fun u _ p =>
      let d := bits (pw p 1) 4 0
      let q := u.decAt d
      [q.snapSeq, q.status (u.qdPending d), BitVec.ofNat 32 q.snap.pos, q.snap.rev, BitVec.ofNat 32 q.snap.frac, BitVec.ofNat 32 q.span,
       BitVec.ofNat 32 (q.span / 2 ^ 32)] ++ dtcWords q.snap.time ++ [q.qerr, q.mismatch, q.idxDiff, BitVec.ofNat 32 q.logWr]) ∧
  Does rTaskSet (fun u _ p => taskSetCheck u p = 0)
    (fun u _ p => waits 0x0701 u (u.taskPlan p).2.2)
    (fun u _ p =>
      let q := (u.taskPlan p).2.2
      let c := bits (pw p 1) 1 0
      [pw q 3, BitVec.ofNat 32 ((applyTaskSet (u.tasksBy u.boundaryB) q).peakOf c), BitVec.ofNat 32 (u.capBy c u.boundaryB)] ++ boundaryWords u) ∧
  Does rTaskRemove (fun u _ p => taskRemoveCheck u p = 0)
    (fun u _ p => waits 0x0702 u p)
    (fun u _ p => BitVec.ofNat 32 ((applyTaskRemove (u.tasksBy u.boundaryB) p).peakOf (bits (pw p 1) 1 0)) :: boundaryWords u) ∧
  Does rSchedCheck
    (fun u _ p => only (pw p 1) 0x703 ∧ u.periodOk (assumed u p).1 = true ∧ 64 ≤ (assumed u p).2.1 ∧ (assumed u p).2.1 ≤ 1024 ∧
      (assumed u p).2.1 ≤ (assumed u p).1 / 8 ∧ (bit (pw p 1) 10 = true →
        taskRange (taskOf (p.drop 3)) (p.drop 3) ((assumed u p).1 - (assumed u p).2.1) (u.me (bits (pw p 1) 1 0)).image.nwords = false))
    still
    (fun u _ p =>
      let (per, g, l, φ) := assumed u p
      let r := (u.me (bits (pw p 1) 1 0)).image.reserve
      [BitVec.ofNat 32 (b2n (decide (peak l r (hyper l) ≤ per - g))), BitVec.ofNat 32 (peak l r (hyper l)), BitVec.ofNat 32 (per - g),
       BitVec.ofNat 32 (peakAt l r (hyper l)), BitVec.ofNat 32 φ, BitVec.ofNat 32 (hyper l)]) ∧
  Does rTimerSet (fun u _ p => timerSetCheck u p = 0 ∧ bit (pw p 1) 8 = false)
    (fun u _ p => (timerSet u p).timSettle)
    (fun u _ p => [((timerSet u p).timAt (bits (pw p 1) 4 0)).statusWord, 0, 0, 0]) ∧
  Does rTimerSet (fun u _ p => timerSetCheck u p = 0 ∧ bit (pw p 1) 8 = true ∧ bit (pw p 1) 10 = false)
    (fun u _ p => ((timerSet u p).timStart (bits (pw p 1) 4 0) (timerSet u p).now).timSettle)
    (fun u _ p => [(((timerSet u p).timStart (bits (pw p 1) 4 0) (timerSet u p).now).timAt (bits (pw p 1) 4 0)).statusWord, 0, 0, 0]) ∧
  Does rTimerSet (fun u _ p => timerSetCheck u p = 0 ∧ bit (pw p 1) 8 = true ∧ bit (pw p 1) 10 = true)
    (fun u _ p => (waits 0x0704 (timerSet u p) p).timSettle)
    (fun u _ p => ((timerSet u p).timAt (bits (pw p 1) 4 0)).statusWord :: boundaryWords (timerSet u p))) ∧ (
  Does rUcLoad
    (fun u _ p => ucCheck u p = 0 ∧ headerOk (u.ucImage p) (ucLen p) = true ∧ firstBad (u.ucImage p) = none ∧ tablesOk (u.ucImage p) = true ∧
      ucHashOk p (u.ucHash p) = true)
    (fun u _ p =>
      let v := ((ucClusters p).foldl (fun s c => s.modMe c fun m => { m with state := .loading }) u).settle
      let v := v.each (ucClusters p) fun s c => s.loadImage (Fin.ofNat 4 c) (u.ucImage p) (u.ucHash p)
      ((v.giveBank (bits (pw p 1) 13 8) 0).giveBank (bits (pw p 1) 13 8) 1).settle)
    (fun u _ p => words384 (u.ucHash p)) ∧
  (∀ (s : State) (m : Msg), Sends rUcLoad s m →
    let u := taken rUcLoad s m
    let p := payload rUcLoad m
    ucCheck u p = 0 →
    (headerOk (u.ucImage p) (ucLen p) = false ∨ firstBad (u.ucImage p) ≠ none ∨ tablesOk (u.ucImage p) = false ∨ ucHashOk p (u.ucHash p) = false) →
    Answers (.ucLoad m) s fun t =>
      Replied rUcLoad m 0x0B (words384 (u.ucHash p) ++
        [match firstBad (u.ucImage p) with | some a => BitVec.ofNat 32 (2 ^ 31 + a % 8192) | none => 0]) t ∧
      Same replyKinds ((u.giveBank (bits (pw p 1) 13 8) 0).giveBank (bits (pw p 1) 13 8) 1) t))

namespace Sys2Proof.Claims

/-- The measurements that CAL_RUN names, begun. -/
def calRunSet (u : State) (p : List W32) : State :=
  u.each (rangeChans p) fun s n =>
    let v := s.modCal n fun k => { k with runOk := true }
    let v := if bit (pw p 1) 16 then v.startMeasure n true else v
    if bit (pw p 1) 17 then v.modCal n fun k => { k with measOut := some { run := true, since := v.now } } else v

end Sys2Proof.Claims

/-- Calibration commands (R126, R146): CAL_RUN starts the measurements it names, CAL_STATUS only replies, CAL_POLICY waits for the next boundary. Environment commands (R305, R311, R315, R316, R320): ENV_TDR MEASURE starts with the first named channel; APPLY, SET and CLEAR wait for boundary
B and name the channels they change; ENV_MONITORS replies with the monitor, narrows its window or clears the thermal trip. -/
def Obligations.CalibrationAndEnvironmentCommandsDo : Prop :=
  (
  Does rCalRun (fun u _ p => calRunCheck u p = 0)
    (fun u _ p => calRunSet u p) (fun u _ p => [(calRunSet u p).calCstat (bits (pw p 1) 6 0 / 32)]) ∧
  Does rCalStatus (fun _ _ p => only (pw p 1) 0x7F) still
    (fun u _ p =>
      let n := bits (pw p 1) 6 0
      let k := (u.chan n).cal
      [(u.chan n).status, u.calConf n, k.int0.calInt, k.int1.calInt, u.calAge n, k.projWord, u.calPlan (n / 32), u.calHist,
       BitVec.ofNat 32 (unsigned 32 (u.driftOf n))]) ∧
  Does rCalPolicy
    (fun _ _ p => bits (pw p 1) 3 0 ≠ 0 ∧ 1000 ≤ (pw p 2).toNat ∧ (pw p 2).toNat ≤ 600000 ∧ (pw p 3).toNat ≤ 2160 ∧ only (pw p 1) 0x10F)
    (fun u _ p => { u with deferred := u.deferred ++ [{ at_ := .phys u.now, op := 0x0802, words := p }] })
    (fun _ _ p => [calCfg (pw p 2).toNat (bit (pw p 1) 8)])) ∧ (
  Does rEnvTdrMeasure (fun u _ p => tdrCheck u p = 0)
    (fun u _ p => u.tdrFrom (bits (pw p 1) 6 0 / 32)
      { cur := bits (pw p 1) 6 0, last := bits (pw p 1) 14 8, auto := bit (pw p 1) 18, unlocked := false, since := u.now } (rangeChans p))
    (fun u _ p => [(u.tdrFrom (bits (pw p 1) 6 0 / 32)
      { cur := bits (pw p 1) 6 0, last := bits (pw p 1) 14 8, auto := bit (pw p 1) 18, unlocked := false, since := u.now } (rangeChans p)).tdrStatus, 0, 0, 0, 0]) ∧
  Does rEnvTdrApply (fun u _ p => tdrCheck u p = 0) (fun u _ p => waits 0x0803 u p)
    (fun u _ p => u.tdrStatus :: (boundaryWords u ++
      [BitVec.ofNat 32 (idxMask (((rangeChans p).filter fun n => (u.chan n).cable.usable).map fun n => n % 32))])) ∧
  Does rEnvTdrSet (fun u _ p => tdrCheck u p = 0) (fun u _ p => waits 0x0803 u p)
    (fun u _ p => u.tdrStatus :: (boundaryWords u ++ [BitVec.ofNat 32 (idxMask ((rangeChans p).map fun n => n % 32))])) ∧
  Does rEnvTdrClear (fun u _ p => tdrCheck u p = 0) (fun u _ p => waits 0x0803 u p)
    (fun u _ p => u.tdrStatus :: (boundaryWords u ++ [BitVec.ofNat 32 (idxMask ((rangeChans p).map fun n => n % 32))])) ∧
  Does rEnvMonitors (fun _ _ p => bits (pw p 1) 5 0 < 52 ∧ only (pw p 1) 0x3F) still (fun u _ p => monitorWords u p) ∧
  Does rEnvMonitorsSetWin (fun u _ p => monitorsCheck u p = 0) (fun u _ p => monitorsSet u p) (fun u _ p => monitorWords (monitorsSet u p) p) ∧
  Does rEnvMonitorsClearTrip (fun u _ p => monitorsCheck u p = 0) (fun u _ p => monitorsSet u p)
    (fun u _ p => monitorWords (monitorsSet u p) p))

namespace Sys2Proof.Claims

/-- No opening or closing of a stream channel waits for its boundary. -/
abbrev noOpening (u : State) (k : Nat) : Prop :=
  ∀ d ∈ u.deferred, d.op = 0x0900 ∨ d.op = 0x0901 → (pw d.words 1).toNat % 16 ≠ k

/-- STREAM_OPEN's common conditions (Table 13-11): the channel is IDLE and no change of it pending. -/
abbrev OpenFits (u : State) (p : List W32) : Prop :=
  only (pw p 1) 0x00FFFF3F ∧ (u.dmaAt (bits (pw p 1) 3 0)).state = .idle ∧ noOpening u (bits (pw p 1) 3 0)

/-- A ring size of 1 to 16 (R356). -/
abbrev ringSized (u : State) (p : List W32) : Prop :=
  1 ≤ (u.dmaAt (bits (pw p 1) 3 0)).sizeL ∧ (u.dmaAt (bits (pw p 1) 3 0)).sizeL ≤ 16

/-- A CAPTURE stream that is not refused (R349, R350, R354, Table 13-11): its ring within banks that its cluster's pipeline owns, apart from histograms and other
rings, its watermarks in order, a mask of channels or a remote device that has no stream yet, and at most 32 imports. -/
abbrev CaptureFits (u : State) (p : List W32) : Prop :=
  let c := bits (pw p 1) 9 8
  let bank := bits (pw p 2) 5 0
  let last := bank + bits (pw p 2) 9 6
  let len := (pw p 3).toNat
  let words := (bits (pw p 2) 9 6 + 1) * len
  let mask := (pw p 6).toNat + (pw p 7).toNat * 2 ^ 32 + (pw p 8).toNat * 2 ^ 64 + (pw p 9).toNat * 2 ^ 96
  OpenFits u p ∧ ringSized u p ∧ only (pw p 2) 0x07FFFFFF ∧ only (pw p 3) 0x3FFFF ∧ only (pw p 4) 0x3FFFFF ∧ only (pw p 5) 0x3FFFFF ∧
  last ≤ 63 ∧ len % 32 = 0 ∧ bits (pw p 2) 26 10 + len ≤ 131072 ∧ 1024 ≤ words ∧ (pw p 5).toNat ≤ words - 256 ∧
  (bit (pw p 1) 10 = true → (pw p 5).toNat < (pw p 4).toNat ∧ (pw p 4).toNat ≤ words - 256) ∧
  (mask = 0 ↔ bit (pw p 1) 11 = true) ∧
  (∀ b ∈ rangeIdx bank last, (u.bankAt b).owner = 4 + c ∧ u.regionTaken 512 (b * 131072 + bits (pw p 2) 26 10, len) = false) ∧
  count128 (u.importWant c ||| idxMask ((maskIdx 128 mask).filter fun n => decide (n / 32 ≠ c))) ≤ 32 ∧
  (bit (pw p 1) 11 = true → ∀ k : Fin 16, (u.dmaAt k).kind = 0 → (u.dmaAt k).state ≠ .idle → (u.dmaAt k).remote = true →
    (u.dmaAt k).rdev ≠ bits (pw p 1) 15 12)

/-- A BLOCK stream that is not refused (R363): HOPMAX from 1 to 65,536. -/
abbrev BlockFits (u : State) (p : List W32) : Prop :=
  OpenFits u p ∧ ringSized u p ∧ 1 ≤ (pw p 4).toNat ∧ (pw p 4).toNat ≤ 65536

/-- A COPY that is not refused (R367): its regions lie in banks that DMA owns. -/
abbrev CopyFits (u : State) (p : List W32) : Prop :=
  OpenFits u p ∧ 1 ≤ (pw p 4).toNat ∧ only (pw p 2) 0x7FFFFF ∧ only (pw p 3) 0x7FFFFF ∧ only (pw p 4) 0x7FFFFF ∧
  u.dmaOwns (pw p 2).toNat (pw p 4).toNat = true ∧ u.dmaOwns (pw p 3).toNat (pw p 4).toNat = true

/-- STREAM_CLOSE that is not refused: the channel is open, and with DISCARD = 0 neither HALTED nor CLOSING, and no change of it pending. -/
abbrev CloseFits (u : State) (p : List W32) (discard : Bool) : Prop :=
  let d := u.dmaAt (bits (pw p 1) 3 0)
  only (pw p 1) 0x10F ∧ d.state ≠ .idle ∧ noOpening u (bits (pw p 1) 3 0) ∧ (discard = false → d.state ≠ .halted ∧ d.state ≠ .closing)

/-- BANK_ASSIGN that is not refused (R327, Table 12-1): banks in order, an owner code that is not reserved, and no named bank holding an open ring or a histogram. -/
abbrev AssignFits (u : State) (p : List W32) : Prop :=
  bits (pw p 1) 5 0 ≤ bits (pw p 1) 13 8 ∧ bits (pw p 1) 19 16 ≠ 3 ∧ bits (pw p 1) 19 16 < 12 ∧ only (pw p 1) 0x070F3F3F ∧
  ∀ b ∈ rangeIdx (bits (pw p 1) 5 0) (bits (pw p 1) 13 8), (u.bankAt b).useRing = false ∧ (u.bankAt b).useHist = false

/-- The channel that a stream command names, opened: its configuration from the payload, its pointers and counters cleared. -/
def opened (u : State) (p : List W32) : State := u.modDma (bits (pw p 1) 3 0) fun d => (d.open_ p).settle

/-- The channel that STREAM_CLOSE names, closing. -/
def closing (u : State) (p : List W32) : State := u.modDma (bits (pw p 1) 3 0) fun d => { d with state := .closing }

/-- The row's message stays TAKEN and waits. -/
def Kept (m : Msg) (w : MbWait) (applied : Bool) (t : State) : Prop :=
  (t.mbAt m.mb).state = .taken ∧ (t.mbAt m.mb).wait = w ∧ (t.mbAt m.mb).applied = applied ∧ (t.mbAt m.mb).ackDone = false

/-- BANK_ASSIGN on the CCLK edge of execution: each bank goes to its new owner, takes ADD_MODE and is cleared as the payload asks. -/
def assigned (u : State) (p : List W32) : State :=
  (u.runTo u.edge).each (rangeIdx (bits (pw p 1) 5 0) (bits (pw p 1) 13 8)) fun s b =>
    let s := s.giveBank b (bits (pw p 1) 19 16)
    let s := if bit (pw p 1) 24 then s.modBank b fun k => { k with addMode := bit (pw p 1) 25 } else s
    if bit (pw p 1) 26 then s.clearBank b else s

/-- A named bank is still handed over or cleared. -/
abbrev unsettled (v : State) (p : List W32) : Prop :=
  ∃ b ∈ rangeIdx (bits (pw p 1) 5 0) (bits (pw p 1) 13 8), (v.bankAt b).handover = true ∨ (v.bankAt b).clearAt ≠ none

/-- The reply of BANK_ASSIGN: the banks that HOST owns, and the time of the edge. -/
def hostMaps (v : State) : List W32 := [v.hostMap 0, v.hostMap 1] ++ dtcWords (v.dtcAt v.now)

/-- What an accepted PWR_SET_STATE writes at once: PWR_WAKE, with MB and HOST_RESET always enabled, and SLEEP_ABORT = 0. -/
def wakeSet (u : State) (p : List W32) : State :=
  { u with pwr := { u.pwr with sleepAbort := false, wakeEn := bits (pw p 2) 7 0 ||| 3, wakeTimer := bits (pw p 2) 12 8 } }

/-- PWR_SET_STATE's words with no reserved bit set. -/
abbrev powerWords (p : List W32) : Prop := only (pw p 1) 0xF03 ∧ only (pw p 2) 0x1FFF

/-- A member that a template may hold (R380): channel and object fields in cluster 0, no time of its own, no input change of a brake, no measurement of a cable. -/
abbrev Template (op : Nat) (q : List W32) : Prop :=
  let chans (w : W32) : Prop := bits w 6 0 < 32 ∧ bits w 14 8 < 32
  (op ∈ [0x0300, 0x0301, 0x0302, 0x0303, 0x0501] ∧ chans (pw q 1)) ∨
  (op = 0x0401 ∧ bits (pw q 1) 8 0 < 128 ∧ bits (pw q 1) 24 16 < 128 ∧ bit (pw q 1) 31 = false ∧ pw q 2 = 0 ∧ pw q 3 = 0 ∧ pw q 4 = 0) ∨
  (op = 0x0402 ∧ bits (pw q 1) 8 0 < 128 ∧ bits (pw q 1) 24 16 < 128) ∨
  (op = 0x0500 ∧ chans (pw q 1) ∧ pw q 8 = 0 ∧ pw q 9 = 0 ∧ pw q 10 = 0) ∨
  (op = 0x0502 ∧ bit (pw q 1) 8 = false ∧ (bit (pw q 1) 9 = true → chans (pw q 4))) ∨
  (op = 0x0600 ∧ bits (pw q 1) 4 0 < 8) ∨
  (op ∈ [0x0701, 0x0702] ∧ bits (pw q 1) 1 0 = 0) ∨
  (op = 0x0803 ∧ chans (pw q 1) ∧ bits (pw q 1) 17 16 ≠ 0)

/-- GRP_PREPARE that is not refused for itself (R380, R382): a group number, clusters, a member of its opcode's length, and an open group with fewer than 16 prepares
or a free register. -/
abbrev PrepareFits (u : State) (p : List W32) : Prop :=
  bits (pw p 1) 7 0 ≠ 0 ∧ bits (pw p 1) 11 8 ≠ 0 ∧ only (pw p 1) 0xFFF ∧ only (pw p 2) 0xFFFFFF00 ∧
  ((bits (pw p 2) 31 16 = 0x0401 ∧ bits (pw p 2) 15 8 = 1) ∨ ∃ r ∈ rows, r.op = bits (pw p 2) 31 16 ∧ r.lo = bits (pw p 2) 15 8) ∧
  Template (bits (pw p 2) 31 16) (p.drop 2) ∧
  (∀ k ∈ u.groupOf (bits (pw p 1) 7 0), (u.grpAt k).state = .opened ∧ (u.grpAt k).prepares < 16) ∧
  (u.groupOf (bits (pw p 1) 7 0) = none → u.freeGroup ≠ none)

/-- GRP_COMMIT's boundary in range (R381): one at least 1 µs and at most 10 s ahead, where the payload names it. -/
abbrev CommitFits (u : State) (p : List W32) : Prop :=
  only (pw p 1) 0x800000FF ∧
  (bit (pw p 1) 31 = true →
    let x := u.extOf (pw p 2) (pw p 3) (pw p 4)
    only (pw p 4) 0xFFFF ∧ u.ext + 8000000 ≤ x ∧ u.boundaryFrom x = x ∧ x ≤ u.ext + 80000000000000)

/-- The group register of a GRP_PREPARE: that of its number, or the lowest free one. -/
def groupReg (u : State) (p : List W32) : Nat := ((u.groupOf (bits (pw p 1) 7 0)).or u.freeGroup).getD 0

/-- The code of a GRP_PREPARE's member in a cluster. -/
def prepared (u : State) (e : Env) (p : List W32) (c : Nat) : Nat :=
  if (bits (pw p 1) 11 8).testBit c then
    memberCode (u.groupAhead (u.groupOf (bits (pw p 1) 7 0))) (bits (pw p 1) 7 0) (bits (pw p 2) 31 16) e
      (memberWords (bits (pw p 2) 31 16) c ((p.drop 2).take (bits (pw p 2) 15 8)))
  else 0

/-- The members that a passing GRP_PREPARE adds: one for each cluster of its mask. -/
def newMembers (u : State) (p : List W32) : List Member :=
  (maskIdx 4 (bits (pw p 1) 11 8)).map fun c =>
    { op := bits (pw p 2) 31 16, clusters := 2 ^ c
      words := memberKept (u.groupAhead (u.groupOf (bits (pw p 1) 7 0))) (bits (pw p 2) 31 16)
        (memberWords (bits (pw p 2) 31 16) c ((p.drop 2).take (bits (pw p 2) 15 8))) }

/-- A register of an unused number opens for it. -/
def groupOpened (u : State) (p : List W32) : State :=
  if (u.groupOf (bits (pw p 1) 7 0)).isSome then u
  else u.modGrp (groupReg u p) fun _ => { Group.reset with num := bits (pw p 1) 7 0, state := .opened }

end Sys2Proof.Claims

/-- Stream commands (R350, R356, R361, R363, R367): STREAM_OPEN opens an idle channel, with HEAD and the counters of the stream 0 and TAIL
kept; a capture starts at boundary B, block and copy channels run at once. STREAM_CLOSE closes a capture from boundary B_c, others when they
have ended; with DISCARD the channel is IDLE at once. BANK_ASSIGN (R325, R326, R338): the named banks get their owner, ADD_MODE and clears on the CCLK edge of execution; the reply comes at
once where no bank drains or clears, and otherwise the message waits for the drains and clears with the change made. -/
def Obligations.StreamAndBankCommandsDo : Prop :=
  (
  Does rStreamOpenCapture (fun u _ p => CaptureFits u p)
    (fun u _ p => waits 0x0900 (opened u p).refreshRings [BitVec.ofNat 32 (bits (pw p 1) 3 0)])
    (fun u _ p => (((opened u p).refreshRings).dmaAt (bits (pw p 1) 3 0)).statusWord :: boundaryWords u) ∧
  Does rStreamOpenBlock (fun u _ p => BlockFits u p) (fun u _ p => opened u p)
    (fun u _ p => [((opened u p).dmaAt (bits (pw p 1) 3 0)).statusWord, 0, 0, 0]) ∧
  Does rStreamOpenCopy (fun u _ p => CopyFits u p) (fun u _ p => opened u p)
    (fun u _ p => [((opened u p).dmaAt (bits (pw p 1) 3 0)).statusWord, 0, 0, 0]) ∧
  (∀ (d : Dma) (p : List W32),
    let x := (d.open_ p).settle
    x.kind = bits (pw p 1) 5 4 ∧ x.head = 0 ∧ x.tail = d.tail ∧ x.w = 0 ∧ x.r = 0 ∧ x.drop = 0 ∧ x.late = 0 ∧ x.gates = 0 ∧ x.bad = 0 ∧
    x.state = (if x.noDesc = true ∧ x.kind ≠ 2 then .wait else .run)) ∧
  Does rStreamClose (fun u _ p => CloseFits u p false ∧ (u.dmaAt (bits (pw p 1) 3 0)).kind = 0)
    (fun u _ p => waits 0x0901 (closing u p) [BitVec.ofNat 32 (bits (pw p 1) 3 0)])
    (fun u _ p => ((closing u p).dmaAt (bits (pw p 1) 3 0)).statusWord :: boundaryWords u) ∧
  Does rStreamClose (fun u _ p => CloseFits u p false ∧ (u.dmaAt (bits (pw p 1) 3 0)).kind ≠ 0)
    (fun u _ p => ((closing u p).modDma (bits (pw p 1) 3 0) fun d => { d with closeAt := some u.now }).closeCheck (bits (pw p 1) 3 0))
    (fun u _ p => [((((closing u p).modDma (bits (pw p 1) 3 0) fun d => { d with closeAt := some u.now }).closeCheck
      (bits (pw p 1) 3 0)).dmaAt (bits (pw p 1) 3 0)).statusWord, 0, 0, 0]) ∧
  Does rStreamCloseDiscard (fun u _ p => CloseFits u p true) (fun u _ p => u.dmaIdle (bits (pw p 1) 3 0))
    (fun u _ p => [((u.dmaIdle (bits (pw p 1) 3 0)).dmaAt (bits (pw p 1) 3 0)).statusWord, 0, 0, 0])) ∧ (
  Does rBankAssign (fun u _ p => AssignFits u p ∧ ¬ unsettled (assigned u p) p) (fun u _ p => assigned u p)
    (fun u _ p => hostMaps (assigned u p)) ∧
  (∀ (s : State) (m : Msg), Sends rBankAssign s m →
    let u := taken rBankAssign s m
    let p := payload rBankAssign m
    AssignFits u p → unsettled (assigned u p) p →
    Answers (.bankAssign m) s fun t =>
      Kept m (.banks (rangeIdx (bits (pw p 1) 5 0) (bits (pw p 1) 13 8)) (hostMaps (assigned u p))) true t ∧ Same [.mb] (assigned u p) t) ∧
  (∀ (u : State) (b : Fin 64) (o : Nat),
    ((u.bankAt b).owner = o → u.giveBank b o = u) ∧
    ((u.bankAt b).owner ≠ o →
      let k := (u.giveBank b o).bankAt b
      k.owner = o ∧ k.handover = true ∧ u.now + 12800 ≤ k.drainAt ∧ k.drainAt ≤ u.now + 16 * 12800)))

/-- Group commands (R380, R381, R382): GRP_PREPARE keeps one member for each named cluster when all pass, and fails the group otherwise;
GRP_COMMIT sets an open group's members going for the commit boundary, releases a failed one and knows no other number; GRP_ABANDON releases
a group that is not committed. Link commands (R63, R67): BX_LINK enables or disables the ports with their forwarding masks and sets the relay; BX_ALIGN sets the asymmetry,
clears a fault and starts or stops alignment. -/
def Obligations.GroupAndLinkCommandsDo : Prop :=
  (
  Does rGrpPrepare (fun u e p => PrepareFits u p ∧ ∀ c : Fin 4, prepared u e p c = 0)
    (fun u _ p => (groupOpened u p).modGrp (groupReg u p) fun g =>
      { g with prepares := g.prepares + 1, clusters := g.clusters ||| bits (pw p 1) 11 8, members := g.members ++ newMembers u p })
    (fun _ _ _ => [0, 0, 0, 0, 0]) ∧
  (∀ (s : State) (m : Msg), Sends rGrpPrepare s m →
    let u := taken rGrpPrepare s m
    let p := payload rGrpPrepare m
    let failed := idxMask ((List.range 4).filter fun c => decide (prepared u m.env p c ≠ 0))
    PrepareFits u p → (∃ c : Fin 4, prepared u m.env p c ≠ 0) →
    Answers (.grpPrepare m) s fun t =>
      Replied rGrpPrepare m 0x07 (BitVec.ofNat 32 failed :: (List.range 4).map fun c => BitVec.ofNat 32 (prepared u m.env p c)) t ∧
      Same replyKinds ((groupOpened u p).modGrp (groupReg u p) fun g => { g with state := .failed, failed := failed }) t) ∧
  (∀ (s : State) (m : Msg), Sends rGrpCommit s m →
    let u := taken rGrpCommit s m
    let p := payload rGrpCommit m
    CommitFits u p →
    (u.groupOf (bits (pw p 1) 7 0) = none →
      Answers (.grpCommit m) s fun t => Replied rGrpCommit m 0x10 [] t ∧ Same replyKinds u t) ∧
    (∀ k, u.groupOf (bits (pw p 1) 7 0) = some k → (u.grpAt k).state = .failed →
      Answers (.grpCommit m) s fun t => Replied rGrpCommit m 0x07 [] t ∧ Same replyKinds (u.modGrp k fun _ => Group.reset) t) ∧
    (∀ k, u.groupOf (bits (pw p 1) 7 0) = some k → (u.grpAt k).state = .committed →
      Answers (.grpCommit m) s fun t => Replied rGrpCommit m 0x05 [] t ∧ Same replyKinds u t)) ∧
  Does rGrpCommit
    (fun u _ p => CommitFits u p ∧ ∃ k, u.groupOf (bits (pw p 1) 7 0) = some k ∧ (u.grpAt k).state = .opened)
    (fun u _ p =>
      let k := (u.groupOf (bits (pw p 1) 7 0)).getD 0
      ((u.grpAt k).members.foldl (fun s m => s.stageMember (u.commitAt p) m) u).modGrp k fun g =>
        { g with state := .committed, commitAt := some (u.commitAt p) })
    (fun u _ p => BitVec.ofNat 32 (u.grpAt ((u.groupOf (bits (pw p 1) 7 0)).getD 0)).clusters :: dtcWords (u.commitAt p % 2 ^ 80)) ∧
  Does rGrpAbandon
    (fun u _ p => only (pw p 1) 0xFF ∧ ∃ k, u.groupOf (bits (pw p 1) 7 0) = some k ∧ (u.grpAt k).state ≠ .committed)
    (fun u _ p => u.modGrp ((u.groupOf (bits (pw p 1) 7 0)).getD 0) fun _ => Group.reset)
    (fun u _ p => [BitVec.ofNat 32 (u.grpAt ((u.groupOf (bits (pw p 1) 7 0)).getD 0)).prepares])) ∧ (
  Does rBxLink (fun _ _ p => only (pw p 1) 7)
    (fun u _ p => ((u.enablePort true (bit (pw p 1) 0) (mask128 p 2)).enablePort false (bit (pw p 1) 1) (mask128 p 6)).modBx fun b =>
      { b with relay := bit (pw p 1) 2 })
    (fun u _ p =>
      let v := (u.enablePort true (bit (pw p 1) 0) (mask128 p 2)).enablePort false (bit (pw p 1) 1) (mask128 p 6)
      [v.bx.up.word, v.bx.dn.word]) ∧
  Does rBxAlign
    (fun u _ p => only (pw p 1) 1 ∧ -8000 ≤ (pw p 2).toInt ∧ (pw p 2).toInt ≤ 8000 ∧ (bit (pw p 1) 0 = true → u.bx.leader = false))
    (fun u _ p =>
      let v := u.modBx fun b => { b with asym := (pw p 2).toInt, faultCause := 0, stepWait := none, anchorPend := none }
      if bit (pw p 1) 0 = true ∧ u.bx.up.link ≠ .refused then (v.alignTo .acquire).tickCheck else v.alignTo .off)
    (fun u _ p =>
      let v := u.modBx fun b => { b with asym := (pw p 2).toInt, faultCause := 0, stepWait := none, anchorPend := none }
      [(if bit (pw p 1) 0 = true ∧ u.bx.up.link ≠ .refused then (v.alignTo .acquire).tickCheck else v.alignTo .off).bx.alignWord]))

/-- Power commands (R441, R442, R443, R446): PWR_SET_STATE to RUN or TRIM writes PWR_WAKE and changes the gates at boundary B; RETAIN and
BACKUP_ONLY leave the message TAKEN until a commit edge within 1 ms or a wake; PWR_RETAIN_BANKS writes the masks and returns them. SYS_RESET (R379, R386, R435, R484, Table 17-2): the reply is OK. FIRMWARE then restarts the management core, back within 50 ms, and drops
groups that are not committed, and changes nothing else. DEVICE then returns slots, decoders, timers, banks, groups, interrupt control and
counters to their reset values and disables every channel, which keeps its configuration, and keeps the time scale, the calendar clock, the
brakes and the link. -/
def Obligations.PowerAndResetCommandsDo : Prop :=
  (
  Does rPwrSetStateTrim
    (fun u _ p => powerWords p ∧ u.hasDeferred 0x0A00 (fun _ => true) = false ∧ u.pwr.retain = none ∧
      ∀ c : Fin 4, bits (pw p 1) 1 0 = 1 → (bits (pw p 1) 11 8).testBit c → u.gateRefused c = false)
    (fun u _ p => waits 0x0A00 (wakeSet u p) p)
    (fun u _ p => (wakeSet u p).pwrStatus :: boundaryWords u) ∧
  (∀ r ∈ [rPwrSetStateRetain, rPwrSetStateBackupOnly], ∀ (s : State) (m : Msg), Sends r s m →
    let u := taken r s m
    let p := payload r m
    powerWords p → u.retainRefused = false → u.hasDeferred 0x0A00 (fun _ => true) = false → u.pwr.retain = none →
    Answers (r.make m) s fun t =>
      Kept m (.retain p) false t ∧
      t.pwr = { (wakeSet u p).pwr with
        retain := some { mb := m.mb, backupOnly := decide (bits (pw p 1) 1 0 = 3), limit := u.now + 8000000000 }
        wakeFired := u.wakePending &&& (wakeSet u p).pwr.wakeEn } ∧
      Same [.mb, .pwr] u t) ∧
  Does rPwrRetainBanks (fun _ _ _ => True)
    (fun u _ p => { u with pwr := { u.pwr with retainMask := (pw p 1).toNat + (pw p 2).toNat * 2 ^ 32 } })
    (fun _ _ p => [pw p 1, pw p 2])) ∧ (
  (∀ (s : State) (m : Msg), Sends rSysResetFirmware s m → only (pw (payload rSysResetFirmware m) 1) 3 →
    bits (pw (payload rSysResetFirmware m) 1) 1 1 = 0 → pw (payload rSysResetFirmware m) 2 = 0xA5A50103 →
    Answers (.sysResetFirmware m) s fun t =>
      Replied rSysResetFirmware m 0x00 [] t ∧ t.pwr.mcUp = false ∧ t.pwr.cause = 3 ∧ t.pwr.mcRestarts = min 255 (s.pwr.mcRestarts + 1) ∧
      t.pwr.restartBy = some (s.now + 50 * 8000000000) ∧ t.pwr.startup = s.pwr.startup ∧
      t.grp = s.grp.map (fun g => if g.state = .committed then g else Group.reset) ∧
      Same [.mb, .goNext, .grp, .ic, .err, .perf, .pwr] s t) ∧
  (∀ (s : State) (m : Msg), Sends rSysResetDevice s m → only (pw (payload rSysResetDevice m) 1) 3 →
    bits (pw (payload rSysResetDevice m) 1) 1 1 = 0 → pw (payload rSysResetDevice m) 2 = 0xA5A50103 →
    Answers (.sysResetDevice m) s fun t =>
      Replied rSysResetDevice m 0x00 [] t ∧ t.pwr.cause = 2 ∧ t.pwr.devResets = min 255 (s.pwr.devResets + 1) ∧
      t.pwr.mcRestarts = s.pwr.mcRestarts ∧ t.pwr.state = .run ∧ t.pwr.gated = 0 ∧
      t.slot = Vector.replicate 512 Slot.reset ∧ t.dec = Vector.replicate 32 Decoder.reset ∧ t.tim = Vector.replicate 32 Timer.reset ∧
      t.bank = Vector.replicate 64 Bank.reset ∧ t.mem = [] ∧ t.ue = [] ∧ t.grp = Vector.replicate 4 Group.reset ∧
      (∀ k : Fin 16, (t.dmaAt k).state = .idle) ∧
      (∀ n : Fin 128, (t.chan n).inp.en = false ∧ (t.chan n).out.en = false ∧ (t.chan n).inp.thr = (s.chan n).inp.thr ∧
        (t.chan n).inp.edge = (s.chan n).inp.edge ∧ (t.chan n).out.voh = (s.chan n).out.voh ∧ (t.chan n).out.vol = (s.chan n).out.vol ∧
        (t.chan n).out.srcPu = (s.chan n).out.srcPu ∧ (t.chan n).pr.guard = (s.chan n).pr.guard) ∧
      Same [.ch, .cl, .slot, .dec, .tim, .timWr, .bank, .mem, .ue, .dma, .env, .st, .mb, .goNext, .qp, .grp, .ic, .err, .perf, .sec,
        .tamper, .pwr, .deferred] s t))

/-! Secure services (chapter 16). -/
namespace Sys2Proof.Claims

/-- A secure row's message is posted on a free MB6 or MB7, has the length of Table 16-5 and finds the module with no request waiting and
able to answer in time (R372, R384, R417). -/
structure Asks (r : Row) (n : Nat) (s : State) (m : Msg) : Prop where
  box : 6 ≤ m.mb.val
  free : (s.mbAt m.mb).state = .idle ∨ (s.mbAt m.mb).state = .done
  up : s.pwr.mcUp = true
  length : m.len.val = n
  queue : s.sec.queue = []
  answers : s.sec.answers = []
  inTime : m.env.silent = false

/-- The request that the module gets. -/
def request (r : Row) (m : Msg) : SecReq := { mb := m.mb, header := header r m, words := payload r m }

/-- The state in which the module carries out a request: taken from the mailbox, passed on and at the head of the module's queue. -/
def given (r : Row) (s : State) (m : Msg) : State :=
  State.modSec (State.lines (State.modSec ((taken r s m).modMb m.mb fun x => { x with wait := .secure }) fun x => { x with queue := [request r m] }))
    fun x => { x with queue := [] }

/-- Frames of other messages at the head of QP3 are dropped at the start of a service (R415). -/
def cleaned (r : Row) (s : State) (m : Msg) : State := (given r s m).dropOthers (request r m)

/-- The mailbox of a secure row holds the answer (R371, R384). -/
def SecReplied (m : Msg) (code : Nat) (reply : List W32) (t : State) : Prop :=
  let x := t.mbAt m.mb
  x.state = .done ∧ x.ackDone = true ∧ x.ackTaken = true ∧ x.ackTimeout = false ∧ x.ackCode = code ∧ x.ackRlen = reply.length ∧
  x.ackSeq = m.seq.toNat ∧ ∀ k : Fin 15, k.val < reply.length → vget x.data (k.val + 1) = reply.getD k 0

/-- What a secure row does on the state the module sees. -/
def SecDoes (r : Row) (n : Nat) (pre : State → SecReq → Prop) (post : State → SecReq → State) (code : Nat) (reply : State → SecReq → List W32) : Prop :=
  ∀ (s : State) (m : Msg), Asks r n s m → pre (cleaned r s m) (request r m) →
    Answers (r.make m) s fun t =>
      SecReplied m code (reply (cleaned r s m) (request r m)) t ∧ Same replyKinds (post (cleaned r s m) (request r m)) t ∧
      ∀ k : Fin 8, k ≠ m.mb → t.mbAt k = (post (cleaned r s m) (request r m)).mbAt k

/-- A command names its mailbox's session by its handle, has its frame `fr` at the head of QP3 where it needs one, carries the session's MAC
and has a role that may send it (R412, R414, R415). -/
def InSession (user needs : Bool) (g : State) (q : SecReq) (x : Session) (fr : List W32) : Prop :=
  vget g.sec.sess (q.mb - 6) = some x ∧ BitVec.ofNat 32 x.handle = q.w (if bits q.header 31 16 = 0x0F00 then 2 else 1) ∧
  (if needs then g.headFrame q = some fr else fr = []) ∧ macOk x q fr = true ∧ (x.role = 1 ∨ user = true)

/-- The session after the MAC has passed: its counter moves on, and its 600 s begin again. -/
def passed (g : State) (x : Session) : Session := { x with counter := x.counter + 1, lastAt := g.now }

/-- The state in which an authenticated command acts: its frame is consumed. -/
def entered (g : State) (q : SecReq) (x : Session) (fr : List W32) : State := (g.takeFrame fr).setSess (q.mb - 6) (some (passed g x))

/-- What an authenticated row does, from the state it acts in, its session and the data words of its frame. -/
def InSessionDoes (r : Row) (n : Nat) (user needs : Bool) (pre : State → SecReq → Session → List W32 → Prop)
    (post : State → SecReq → Session → List W32 → State) (code : Nat) (reply : State → SecReq → Session → List W32 → List W32) : Prop :=
  ∀ x fr, SecDoes r n (fun g q => InSession user needs g q x fr ∧ pre g q x (fr.drop 1))
    (fun g q => post (entered g q x fr) q (passed g x) (fr.drop 1)) code (fun g q => reply (entered g q x fr) q (passed g x) (fr.drop 1))

/-- The module owns a key of its owner and may serve sessions. -/
abbrev operational (g : State) : Prop := g.sec.state = .operational

/-- An audit entry with the command's opcode and SEQ. -/
def noted (u : State) (q : SecReq) (kind role key code : Nat) : State :=
  u.audit kind role key code (BitVec.ofNat 32 (bits q.header 31 16)) (BitVec.ofNat 32 (bits q.header 7 0))

/-- The channels in use, as a mask. -/
def inUse (u : State) : Nat := idxMask ((List.range 128).filter fun n => (u.chan n).inp.configured || (u.chan n).out.configured)

/-- A seal taken, with its temperature span in 1/16 °C steps. -/
def sealed (u : State) (q : SecReq) : State :=
  let t := 32 * if bits (q.w 2) 11 8 = 0 then 2 else bits (q.w 2) 11 8
  State.settle { u with sec := { u.sec with sealHash := some (shaWords (u.sealNow t)), sealItems := u.sealNow t, tSeal := t } }

/-- The key that verifies an OPEN: the frame's own in UNOWNED, the CO key, or the named User key. -/
def openKey (g : State) (q : SecReq) (d : List W32) : Option (List W32) :=
  if g.sec.state = .unowned then some (d.take 25)
  else if bits (q.w 1) 9 8 = 1 then g.sec.coKey else vget g.sec.userKeys (bits (q.w 1) 14 12)

/-- OPEN of an allowed role and key on a mailbox without a session, with room for the reply frame. -/
abbrev openFine (g : State) (q : SecReq) : Prop :=
  only (q.w 1) 0x730F ∧ (bits (q.w 1) 9 8 = 1 ∧ bits (q.w 1) 14 12 = 0 ∨ bits (q.w 1) 9 8 = 2 ∧ bits (q.w 1) 14 12 < 7 ∧ operational g) ∧
  (g.sec.state = .unowned ∨ operational g) ∧ vget g.sec.sess (q.mb - 6) = none ∧ g.frameFits 49 = true

/-- Ephemeral key and signature words of an OPEN's frame. -/
def openParts (g : State) (d : List W32) : List W32 := if g.sec.state = .unowned then d.drop 25 else d

/-- The entries that SEC_AUDIT_READ returns: from the named one, or from the oldest held, at most 100. -/
def auditFrom (u : State) (q : SecReq) : List AuditEntry :=
  ((if (q.w 2).toNat = 0 then u.sec.audit.reverse else u.sec.audit.reverse.filter fun e => decide ((q.w 2).toNat ≤ e.seq))).take 100

/-- A token that verifies, holds the last nonce and names this device, the level and a date not past (R428). -/
def tokenFine (g : State) (q : SecReq) (d : List W32) : Prop :=
  Config.tokenOk d = true ∧ Config.tokenNonce d = g.sec.lastNonce ∧ Config.tokenSerial d = Config.serial ∧
  Config.tokenLevel d = bits (q.w 2) 1 0 ∧ g.rtcNow.1 ≤ Config.tokenExpiry d

end Sys2Proof.Claims

/-- Sessions (R411 to R413): CHALLENGE returns a nonce, valid for 10 s on its mailbox; OPEN with a signature that the role's key verifies opens
a session with a new handle and counter 1, and in UNOWNED makes the key the owner's; one that fails is counted, and five lock the key for
10 s; CLOSE closes; ENROLL and REMOVE change a User key. Records, the seal and the audit log (R418 to R420, R424, R425): a record is signed around a slot's last block or over the data of the
session's BLOB parts, and moves RCTR on by 1; SEAL stores the hash of the seal items; CLEAR removes it; AUDIT_READ returns entries with a
record over them. -/
def Obligations.SessionAndRecordCommandsDo : Prop :=
  (
  SecDoes rSecChallenge 1 (fun g q => q.w 1 = 0 ∧ (g.sec.state = .unowned ∨ operational g))
    (fun g q => { g with sec := { g.sec with
      drbg := g.sec.drbg + 1, nonce := vset g.sec.nonce (q.mb - 6) (some (Config.drbg g.sec.drbg, g.now))
      lastNonce := Config.drbg g.sec.drbg } }) 0x00 (fun g _ => words384 (Config.drbg g.sec.drbg)) ∧
  (∀ fr k n, SecDoes rSecOpen 1
    (fun g q => openFine g q ∧ g.sec.locked (16 * bits (q.w 1) 9 8 + bits (q.w 1) 14 12) = false ∧ g.headFrame q = some fr ∧
      openKey g q (fr.drop 1) = some k ∧ g.validNonce (q.mb - 6) = some n ∧
      Config.verify k (openDigest n (bits (q.w 1) 9 8) (bits (q.w 1) 14 12) ((openParts g (fr.drop 1)).take 25)) ((openParts g (fr.drop 1)).drop 25) = true)
    (fun g q =>
      let v := (g.takeFrame fr).modSec fun x => { x with nonce := vset x.nonce (q.mb - 6) none }
      let v := if g.sec.state = .unowned then
          noted (v.modSec fun x => { x with state := .operational, coKey := some k }) q 10 (bits (q.w 1) 9 8) (bits (q.w 1) 14 12) 0
        else v
      (v.openSess q (bits (q.w 1) 9 8) (bits (q.w 1) 14 12) n ((openParts g (fr.drop 1)).take 25)).1)
    0x00 (fun g _ => [BitVec.ofNat 32 (g.sec.handles + 1)])) ∧
  (∀ (u : State) (q : SecReq) (role key : Nat) (n : BitVec 384) (eph : List W32), 6 ≤ q.mb → q.mb < 8 →
    let v := (u.openSess q role key n eph).1
    ∃ x, vget v.sec.sess (q.mb - 6) = some x ∧ x.handle = u.sec.handles + 1 ∧ x.role = role ∧ x.key = key ∧ x.counter = 1 ∧ x.lastAt = u.now ∧
      v.sec.handles = u.sec.handles + 1 ∧ Same [.sec, .qp] u v) ∧
  (∀ fr, SecDoes rSecOpen 1
    (fun g q => openFine g q ∧ g.sec.locked (16 * bits (q.w 1) 9 8 + bits (q.w 1) 14 12) = false ∧ g.headFrame q = some fr ∧
      ∀ k n, openKey g q (fr.drop 1) = some k → g.validNonce (q.mb - 6) = some n →
        Config.verify k (openDigest n (bits (q.w 1) 9 8) (bits (q.w 1) 14 12) ((openParts g (fr.drop 1)).take 25)) ((openParts g (fr.drop 1)).drop 25) = false)
    (fun g q =>
      let v := (g.takeFrame fr).modSec fun x => { x with nonce := vset x.nonce (q.mb - 6) none }
      noted ((v.openFailed (16 * bits (q.w 1) 9 8 + bits (q.w 1) 14 12)).secReport 1 q.mb) q 1 (bits (q.w 1) 9 8) (bits (q.w 1) 14 12) 0x0B)
    0x0B (fun _ _ => [])) ∧
  SecDoes rSecOpen 1 (fun g q => openFine g q ∧ g.sec.locked (16 * bits (q.w 1) 9 8 + bits (q.w 1) 14 12) = true)
    (fun g q =>
      let i := 16 * bits (q.w 1) 9 8 + bits (q.w 1) 14 12
      let until_ (y : Nat × Nat) : Nat × Nat := if y.1 = i then (i, g.now + 10 * 8000000000000) else y
      noted (g.modSec fun x => { x with locks := x.locks.map until_ }) q 1 (bits (q.w 1) 9 8) (bits (q.w 1) 14 12) 0x14)
    0x14 (fun _ _ => []) ∧
  InSessionDoes rSecClose 6 true false (fun g q _ _ => only (q.w 1) 0x730F ∧ operational g)
    (fun u q x _ => noted (u.setSess (q.mb - 6) none) q 1 x.role x.key 0) 0x00 (fun _ _ _ _ => []) ∧
  InSessionDoes rSecEnroll 6 false true
    (fun g q _ _ => only (q.w 1) 0x730F ∧ bits (q.w 1) 9 8 = 2 ∧ bits (q.w 1) 14 12 ≠ 7 ∧ operational g ∧ vget g.sec.userKeys (bits (q.w 1) 14 12) = none)
    (fun u q x d => noted (u.modSec fun y => { y with userKeys := vset y.userKeys (bits (q.w 1) 14 12) (some (d.take 25)) }) q 2 x.role
      (bits (q.w 1) 14 12) 0) 0x00 (fun _ _ _ _ => []) ∧
  InSessionDoes rSecRemove 6 false false
    (fun g q _ _ => only (q.w 1) 0x730F ∧ bits (q.w 1) 9 8 = 2 ∧ bits (q.w 1) 14 12 ≠ 7 ∧ operational g)
    (fun u q x _ => noted (u.modSec fun y => { y with userKeys := vset y.userKeys (bits (q.w 1) 14 12) none }) q 2 x.role
      (bits (q.w 1) 14 12) 0) 0x00 (fun _ _ _ _ => [])) ∧ (
  InSessionDoes rSecSignRecordSlot 13 true false
    (fun g q _ _ => only (q.w 2) 0x1FF0003 ∧ g.sec.rctr < 2 ^ 32 - 1 ∧ (g.slotAt (bits (q.w 2) 24 16)).published = true ∧ operational g ∧
      g.frameFits 169 = true)
    (fun u q x _ =>
      let k := u.slotAt (bits (q.w 2) 24 16)
      (u.signRecord q x 1 (idxMask (k.chA :: if k.type = 1 ∨ k.type = 5 then [k.chB] else [])) k.resFrom
        (dtcOf (k.res.getD 3 0) (k.res.getD 4 0) (k.res.getD 5 0)) (k.res.take 30) [] true).1)
    0x00 (fun u _ _ _ => [BitVec.ofNat 32 (u.sec.rctr + 1), 676]) ∧
  InSessionDoes rSecSignRecordBlobPart 13 true true (fun g q _ _ => only (q.w 2) 0x1FF0003 ∧ operational g)
    (fun u q x d => u.setSess (q.mb - 6) (some { x with blob := x.blob ++ d })) 0x00
    (fun _ _ x d => [BitVec.ofNat 32 (4 * (x.blob.length + d.length))]) ∧
  InSessionDoes rSecSignRecordBlobEnd 13 true true
    (fun g q x d => only (q.w 2) 0x1FF0003 ∧ only (q.w 5) 0xFFFF ∧ g.sec.rctr < 2 ^ 32 - 1 ∧ g.blobStart q ≤ g.ext ∧
      g.ext ≤ g.blobStart q + 3600 * 8000000000000 ∧ ¬ (x.blob = [] ∧ d = []) ∧ operational g ∧ g.frameFits 139 = true)
    (fun u q x d =>
      ((u.signRecord q x 4 ((q.w 6).toNat + (q.w 7).toNat * 2 ^ 32 + (q.w 8).toNat * 2 ^ 64 + (q.w 9).toNat * 2 ^ 96)
        ((u.blobStart q : Int) - u.off) (u.blobStart q % 2 ^ 80) (x.blob ++ d) [] false).1).setSess (q.mb - 6) (some { x with blob := [] }))
    0x00 (fun u _ _ _ => [BitVec.ofNat 32 (u.sec.rctr + 1), 556]) ∧
  InSessionDoes rSecSealCalSeal 6 false false
    (fun g q _ _ => only (q.w 2) 0xF03 ∧ bits (q.w 2) 11 8 ≤ 8 ∧ g.sec.rctr < 2 ^ 32 - 1 ∧ operational g ∧ g.frameFits 139 = true ∧
      (∀ n : Fin 128, (g.chan n).inp.configured = true ∨ (g.chan n).out.configured = true → (g.chan n).cal.conf ≠ .failed) ∧
      ∀ c : Fin 4, g.calRunBusy c = false ∧ g.tdrBusy c = false)
    (fun u q x _ =>
      ((noted (sealed u q) q 4 x.role x.key 0).signRecord q x 2 (inUse (noted (sealed u q) q 4 x.role x.key 0)) u.now u.tb.dtc
        (u.sealNow (32 * if bits (q.w 2) 11 8 = 0 then 2 else bits (q.w 2) 11 8)) [] false).1)
    0x00 (fun u q _ _ => words384 (shaWords (u.sealNow (32 * if bits (q.w 2) 11 8 = 0 then 2 else bits (q.w 2) 11 8)))) ∧
  InSessionDoes rSecSealCalClear 6 false false
    (fun g q _ _ => only (q.w 2) 0xF03 ∧ g.sec.rctr < 2 ^ 32 - 1 ∧ operational g ∧ g.frameFits 139 = true)
    (fun u q x _ =>
      ((noted (State.settle { u with sec := { u.sec with sealHash := none, sealItems := [], tSeal := 0 } }) q 4 x.role x.key 0).signRecord q x 2 0
        u.now u.tb.dtc [] [] false).1)
    0x00 (fun _ _ _ _ => List.replicate 12 0) ∧
  InSessionDoes rSecAuditRead 6 true false
    (fun g q _ _ => (q.w 2).toNat ≤ g.sec.auditWr ∧ g.sec.rctr < 2 ^ 32 - 1 ∧ operational g ∧
      g.frameFits (8 * (auditFrom g q).length + 139) = true)
    (fun u q x _ => (u.signRecord q x 3 0 u.now u.tb.dtc ((auditFrom u q).flatMap AuditEntry.words) ((auditFrom u q).flatMap AuditEntry.words) false).1)
    0x00 (fun u q _ _ => [BitVec.ofNat 32 ((auditFrom u q).head?.elim 0 AuditEntry.seq), BitVec.ofNat 32 (auditFrom u q).length,
      BitVec.ofNat 32 u.sec.auditWr]) ∧
  (∀ (u : State) (q : SecReq) (x : Session) (type mask : Nat) (since : Int) (start : Nat) (data before : List W32) (embed : Bool),
    (u.signRecord q x type mask since start data before embed).1.sec.rctr = u.sec.rctr + 1 ∧
    Same [.sec, .qp] u (u.signRecord q x type mask since start data before embed).1))

/-- Tamper, firmware, debug and certificates (R407, R422, R423, R426 to R428): ZEROIZE destroys keys, sessions and the seal and ends with
ZEROIZED; TAMPER_CFG sets the external inputs; BEGIN empties the spare slot, DATA appends, COMMIT makes a valid image the next to run, ABORT drops
it; a valid token opens debug access; a certificate goes out in a frame. -/
def Obligations.ModuleCommandsDo : Prop :=
  InSessionDoes rSecZeroize 7 false false (fun g q _ _ => only (q.w 2) 3 ∧ q.w 3 = 0x5A5A0F04 ∧ operational g)
    (fun u q _ _ => u.zeroise 0 q.mb) 0x13 (fun _ _ _ _ => []) ∧
  (∀ (u : State) (cause mb : Nat),
    let v := u.zeroise cause mb
    v.sec.state = .zeroized ∧ v.sec.keys = false ∧ v.sec.coKey = none ∧ v.sec.userKeys = Vector.replicate 7 none ∧
    v.sec.sess = Vector.replicate 2 none ∧ v.sec.sealHash = none ∧ v.tamper.latched = u.tamper.latched ||| cause) ∧
  InSessionDoes rTamperCfg 7 false false (fun g q _ _ => only (q.w 2) 0x1FF03 ∧ operational g)
    (fun u q x _ =>
      let ack := bit (q.w 2) 16
      noted (State.lines { u with tamper := { u.tamper with
        extEn := bits (q.w 2) 11 8, extResp := bits (q.w 2) 15 12
        latched := if ack then 0 else u.tamper.latched, time0 := if ack then 0 else u.tamper.time0, time1 := if ack then 0 else u.tamper.time1
        active := u.tamper.active &&& (0xF0 ||| bits (q.w 2) 11 8) } }) q 8 x.role x.key 0)
    0x00 (fun u q _ _ =>
      let ack := bit (q.w 2) 16
      [({ u.tamper with extEn := bits (q.w 2) 11 8, extResp := bits (q.w 2) 15 12, latched := if ack then 0 else u.tamper.latched } : Tamper).word]) ∧
  InSessionDoes rSecFwUpdateBegin 7 false false (fun g q _ _ => only (q.w 2) 3 ∧ (q.w 3).toNat ≤ 4194304 ∧ operational g)
    (fun u q _ _ => (u.setSpare FwSlot.empty).modSec fun x =>
      { x with update := some { len := (q.w 3).toNat, words := [] }, updatePending := false, activeB := x.slotB }) 0x00 (fun _ _ _ _ => []) ∧
  (∀ up, InSessionDoes rSecFwUpdateData 7 false true
    (fun g q _ d => only (q.w 2) 3 ∧ operational g ∧ g.sec.update = some up ∧ (q.w 3).toNat = 4 * up.words.length ∧
      4 * (up.words.length + d.length) < up.len + 4)
    (fun u _ _ d => u.modSec fun x => { x with update := some { up with words := up.words ++ d } }) 0x00 (fun _ _ _ _ => [])) ∧
  (∀ up, InSessionDoes rSecFwUpdateCommit 7 false false
    (fun g q _ _ => only (q.w 2) 3 ∧ operational g ∧ g.sec.update = some up ∧ Config.imageOk up.words = true ∧ g.sec.svnMin ≤ Config.imageSvn up.words)
    (fun u q x _ =>
      let v := u.setSpare { valid := true, svn := Config.imageSvn up.words % 64, hash := imageHash up.words, version := Config.imageVersion up.words }
      noted (v.modSec fun y => { y with update := none, updatePending := true, activeB := !y.slotB }) q 5 x.role x.key 0)
    0x00 (fun _ _ _ _ => words384 (imageHash up.words))) ∧
  (∀ up, InSessionDoes rSecFwUpdateCommit 7 false false
    (fun g q _ _ => only (q.w 2) 3 ∧ operational g ∧ g.sec.update = some up ∧ (Config.imageOk up.words = false ∨ Config.imageSvn up.words < g.sec.svnMin))
    (fun u q x _ => noted (((u.setSpare FwSlot.empty).modSec fun y => { y with update := none }).secReport 6 q.mb) q 5 x.role x.key
      (if Config.imageOk up.words then 0x12 else 0x0B))
    (if Config.imageOk up.words then 0x12 else 0x0B) (fun _ _ _ _ => [])) ∧
  InSessionDoes rSecFwUpdateAbort 7 false false (fun g q _ _ => only (q.w 2) 3 ∧ operational g ∧ g.sec.update ≠ none)
    (fun u _ _ _ => (u.setSpare FwSlot.empty).modSec fun y => { y with update := none }) 0x00 (fun _ _ _ _ => []) ∧
  InSessionDoes rSecDebugUnlock 6 false true
    (fun g q _ d => only (q.w 2) 3 ∧ bits (q.w 2) 1 0 = 1 ∧ operational g ∧ tokenFine g q d)
    (fun u q x _ => State.settle (((noted u q 6 x.role x.key 0).modSec fun y => { y with debug := 1 }).secReport 7 q.mb))
    0x00 (fun u q x _ => [((noted u q 6 x.role x.key 0).modSec fun y => { y with debug := 1 }).sec.status]) ∧
  InSessionDoes rSecDebugUnlock 6 false true
    (fun g q _ d => only (q.w 2) 3 ∧ bits (q.w 2) 1 0 = 2 ∧ operational g ∧ tokenFine g q d)
    (fun u q x _ => (((noted u q 6 x.role x.key 0).zeroise 0 q.mb).modSec fun y => { y with debug := 2 }).secReport 7 q.mb)
    0x13 (fun _ _ _ _ => []) ∧
  SecDoes rSecExportCert 1
    (fun g q => only (q.w 1) 3 ∧ bits (q.w 1) 1 0 ≤ 1 ∧ (g.sec.state = .unowned ∨ operational g) ∧
      g.frameFits (((Config.cert (bits (q.w 1) 1 0 = 1)).length + 3) / 4) = true)
    (fun g q =>
      let l := Config.cert (bits (q.w 1) 1 0 = 1)
      g.replyFrame q ((List.range ((l.length + 3) / 4)).map fun i => BitVec.ofNat 32 (bytesNat ((l.drop (4 * i)).take 4))))
    0x00 (fun _ q => [BitVec.ofNat 32 (Config.cert (bits (q.w 1) 1 0 = 1)).length])

/-! Microwords (chapter 9). Each row issues the microword at the PC of a cluster's microengine when that microword is the row's. -/
namespace Sys2Proof.Claims

/-- The microword at the PC, and the instant at which it can issue (R252). -/
def atPc (s : State) (c : Nat) : BitVec 128 := (s.me c).word (s.me c).pc
def issueTime (s : State) (c : Nat) : Nat := s.issueAt c

/-- The microengine issues it: it runs, waits for nothing, is not gated, and neither the guard band, nor the budget of an ENFORCE task,
nor the limit of a handler is reached (R242, R264, R281). -/
abbrev Issues (s : State) (c : Nat) : Prop := s.canIssue c (issueTime s c) = true

/-- The state in which the microword acts: time stands at its issue, its task is charged for the cycles so far, and it is counted (R401);
ME_PC shows its address (R275). -/
def issued (s : State) (c : Nat) : State :=
  (((s.runTo (issueTime s c)).charge c (issueTime s c)).pcAdd (12 + 2 * c) 1).modMe c fun m => { m with shownPc := m.pc }

/-- G[SRA] before the datapath acts: what DISPATCH adds to TARGET (R245). -/
def srcA (s : State) (c : Nat) : W64 := ((issued s c).me c).gr (mwSra (atPc s c))

/-- A microword row of a class: its constructor, CLASS and OP. -/
structure Word128 where
  make : Fin 4 → Bool → Instr
  cls : Nat
  op : Nat

def wNop : Word128 := ⟨.uNop, 0, 0⟩
def wReti : Word128 := ⟨.uReti, 0, 1⟩
def wEi : Word128 := ⟨.uEi, 0, 2⟩
def wDi : Word128 := ⟨.uDi, 0, 3⟩
def wLdlc : Word128 := ⟨.uLdlc, 0, 4⟩
def wSetf : Word128 := ⟨.uSetf, 0, 5⟩
def wFault : Word128 := ⟨.uFault, 0, 6⟩
def wAdd : Word128 := ⟨.uAdd, 1, 0⟩
def wAdc : Word128 := ⟨.uAdc, 1, 1⟩
def wSub : Word128 := ⟨.uSub, 1, 2⟩
def wSbc : Word128 := ⟨.uSbc, 1, 3⟩
def wAnd : Word128 := ⟨.uAnd, 1, 4⟩
def wOr : Word128 := ⟨.uOr, 1, 5⟩
def wXor : Word128 := ⟨.uXor, 1, 6⟩
def wAndn : Word128 := ⟨.uAndn, 1, 7⟩
def wMin : Word128 := ⟨.uMin, 1, 8⟩
def wMax : Word128 := ⟨.uMax, 1, 9⟩
def wMinu : Word128 := ⟨.uMinu, 1, 10⟩
def wMaxu : Word128 := ⟨.uMaxu, 1, 11⟩
def wAddsat : Word128 := ⟨.uAddsat, 1, 12⟩
def wSubsat : Word128 := ⟨.uSubsat, 1, 13⟩
def wCmp : Word128 := ⟨.uCmp, 1, 14⟩
def wTst : Word128 := ⟨.uTst, 1, 15⟩
def wShl : Word128 := ⟨.uShl, 2, 0⟩
def wShr : Word128 := ⟨.uShr, 2, 1⟩
def wSar : Word128 := ⟨.uSar, 2, 2⟩
def wRol : Word128 := ⟨.uRol, 2, 3⟩
def wExt : Word128 := ⟨.uExt, 2, 4⟩
def wIns : Word128 := ⟨.uIns, 2, 5⟩
def wClz : Word128 := ⟨.uClz, 2, 6⟩
def wPopc : Word128 := ⟨.uPopc, 2, 7⟩
def wMull : Word128 := ⟨.uMull, 3, 0⟩
def wMulhu : Word128 := ⟨.uMulhu, 3, 1⟩
def wMulhs : Word128 := ⟨.uMulhs, 3, 2⟩
def wTadd : Word128 := ⟨.uTadd, 4, 0⟩
def wTsub : Word128 := ⟨.uTsub, 4, 1⟩
def wTaddi : Word128 := ⟨.uTaddi, 4, 2⟩
def wTdiff : Word128 := ⟨.uTdiff, 4, 3⟩
def wTcmp : Word128 := ⟨.uTcmp, 4, 4⟩
def wTld : Word128 := ⟨.uTld, 4, 5⟩
def wTset : Word128 := ⟨.uTset, 4, 6⟩
def wTlow : Word128 := ⟨.uTlow, 4, 7⟩
def wThigh : Word128 := ⟨.uThigh, 4, 8⟩
def wTmov : Word128 := ⟨.uTmov, 4, 9⟩
def wMovi : Word128 := ⟨.uMovi, 5, 0⟩
def wMov : Word128 := ⟨.uMov, 5, 1⟩
def wRdspec : Word128 := ⟨.uRdspec, 5, 2⟩
def wWrspec : Word128 := ⟨.uWrspec, 5, 3⟩
def wTagPop : Word128 := ⟨.uTagPop, 6, 0⟩
def wTagPeek : Word128 := ⟨.uTagPeek, 6, 1⟩
def wTagLevel : Word128 := ⟨.uTagLevel, 6, 2⟩
def wTagClrloss : Word128 := ⟨.uTagClrloss, 6, 3⟩
def wEdgePush : Word128 := ⟨.uEdgePush, 7, 0⟩
def wEdgeQlevel : Word128 := ⟨.uEdgeQlevel, 7, 1⟩
def wIoRd : Word128 := ⟨.uIoRd, 8, 0⟩
def wIoWr : Word128 := ⟨.uIoWr, 8, 1⟩
def wBankLd (e : Ecc) : Word128 := ⟨fun c ue => .uBankLd c ue e, 9, 0⟩
def wBankSt (e : Ecc) : Word128 := ⟨fun c ue => .uBankSt c ue e, 9, 1⟩
def wBankAdd (e : Ecc) : Word128 := ⟨fun c ue => .uBankAdd c ue e, 9, 2⟩
def wBankSwap (e : Ecc) : Word128 := ⟨fun c ue => .uBankSwap c ue e, 9, 3⟩
def wSig : Word128 := ⟨.uSig, 10, 0⟩
def wEvclr : Word128 := ⟨.uEvclr, 10, 1⟩
def wEvclrm : Word128 := ⟨.uEvclrm, 10, 2⟩
def wWait : Word128 := ⟨.uWait, 11, 0⟩

/-- The rows that write general or time registers and flags only, or nothing. -/
def dataWords : List Word128 :=
  [wNop, wEi, wDi, wLdlc, wSetf, wAdd, wAdc, wSub, wSbc, wAnd, wOr, wXor, wAndn, wMin, wMax, wMinu, wMaxu, wAddsat, wSubsat, wCmp, wTst,
   wShl, wShr, wSar, wRol, wExt, wIns, wClz, wPopc, wMull, wMulhu, wMulhs, wTadd, wTsub, wTaddi, wTdiff, wTcmp, wTld, wTset, wTlow,
   wThigh, wTmov, wMovi, wMov, wRdspec, wWrspec, wTagPop, wTagPeek, wTagLevel, wTagClrloss, wEdgeQlevel, wEvclr, wEvclrm]

/-- Every row of a class. -/
def allWords (e : Ecc) : List Word128 :=
  dataWords ++ [wReti, wFault, wEdgePush, wIoRd, wIoWr, wBankLd e, wBankSt e, wBankAdd e, wBankSwap e, wSig, wWait]

/-- The row's microword is at the PC and issues. -/
def Ready (r : Word128) (c : Fin 4) (s : State) : Prop := Issues s c ∧ mwClass (atPc s c) = r.cls ∧ mwOp (atPc s c) = r.op

/-- A row acts on the state, and SEQ then chooses the next address (R245). -/
def Runs (r : Word128) (effect : Fin 4 → State → BitVec 128 → Nat → State) : Prop :=
  ∀ (c : Fin 4) (s : State), Ready r c s →
    exec (r.make c false) s = .next ((effect c (issued s c) (atPc s c) (issueTime s c)).nextAddr c (atPc s c) (issueTime s c) (srcA s c))

/-- A row acts on the microengine alone. -/
def RunsOnMe (r : Word128) (effect : State → Microengine → BitVec 128 → Nat → Microengine) : Prop :=
  Runs r fun c u w t => u.modMe c fun m => effect u m w t

/-- A 64-bit result in G[DST], none in G0, and with FLG the flags from it: Z, N, and C and V as given (R243, R246). -/
def wrote (m : Microengine) (w : BitVec 128) (v : W64) (c o : Bool) : Microengine :=
  let m := if mwDst w = 0 then m else { m with g := vset m.g (mwDst w) v }
  if mwFlg w then { m with flags := { m.flags with z := decide (v = 0), n := v.msb, c := c, v := o } } else m

/-- An 80-bit result in TM[DST], and with FLG the flags from it. -/
def wroteTime (m : Microengine) (w : BitVec 128) (v : BitVec 80) (c : Bool) : Microengine :=
  let m := { m with tm := vset m.tm (mwDst w) v }
  if mwFlg w then { m with flags := { m.flags with z := decide (v = 0), n := v.msb, c := c, v := false } } else m

/-- Operand A in a general register; G0 reads as 0. -/
def opA (m : Microengine) (w : BitVec 128) : W64 := if mwSra w = 0 then 0 else vget m.g (mwSra w)

/-- Operand B: IMM with BIMM, G[SRB] otherwise. -/
def opB (m : Microengine) (w : BitVec 128) : W64 :=
  if mwBimm w then mwImm w else if mwSrb w = 0 then 0 else vget m.g (mwSrb w)

/-- G[SRB] and G[DST] as operands. -/
def opS (m : Microengine) (w : BitVec 128) : W64 := if mwSrb w = 0 then 0 else vget m.g (mwSrb w)
def opD (m : Microengine) (w : BitVec 128) : W64 := if mwDst w = 0 then 0 else vget m.g (mwDst w)

/-- A signed number clamped to 64 bits, and whether it does not fit. -/
def clamped (z : Int) : W64 := BitVec.ofInt 64 (max (-(2 ^ 63)) (min (2 ^ 63 - 1) z))
def outside (z : Int) : Bool := decide (z < -(2 ^ 63) ∨ 2 ^ 63 - 1 < z)

/-- A row whose result is a function of A, B and the carry flag. -/
def Computes (r : Word128) (val : W64 → W64 → Bool → W64) (c v : W64 → W64 → Bool → Bool) : Prop :=
  RunsOnMe r fun _ m w _ => wrote m w (val (opA m w) (opB m w) m.flags.c) (c (opA m w) (opB m w) m.flags.c) (v (opA m w) (opB m w) m.flags.c)

/-- No flag given: C and V are 0. -/
def no (_ _ : W64) (_ : Bool) : Bool := false

/-- Available n cycles after issue: a later microword that reads the register waits for it. -/
def after (m : Microengine) (r t n : Nat) (mul : Bool) : Microengine :=
  { m with ready := { reg := r, at_ := t + n * 12800, mul := mul } :: m.ready.filter fun x => decide (t < x.at_ ∧ x.reg ≠ r) }

/-- The full time of a tag against the DTC: the time congruent to its 54 bits nearest to it (R97). -/
def tagTime (dtc time : Nat) : BitVec 80 :=
  BitVec.ofInt 80 ((dtc : Int) + signed 54 (((time : Int) - (dtc : Int)) % 2 ^ 54).toNat)

end Sys2Proof.Claims

/-- ALU microwords (Table 9-4): sums and differences with carry or borrow in C and signed overflow in V, logic, minima and maxima, and
saturating sums; CMP and TST write no register and set the flags whatever FLG says. SHIFT and MUL microwords (Tables 9-4 and 9-7): shifts by B[5:0] with the last bit out in C, rotation, fields from IMM[5:0] for IMM[12:6]
bits (a length of 0 or above 64 has no stated result, log 52), leading zeros and set bits; products arrive 4 cycles after issue. -/
def Obligations.ArithmeticWordsCompute : Prop :=
  (
  Computes wAdd (fun a b _ => a + b) (fun a b _ => decide (2 ^ 64 ≤ a.toNat + b.toNat)) (fun a b _ => outside (a.toInt + b.toInt)) ∧
  Computes wAdc (fun a b c => a + b + if c then 1 else 0) (fun a b c => decide (2 ^ 64 ≤ a.toNat + b.toNat + if c then 1 else 0))
    (fun a b c => outside (a.toInt + b.toInt + if c then 1 else 0)) ∧
  Computes wSub (fun a b _ => a - b) (fun a b _ => decide (a.toNat < b.toNat)) (fun a b _ => outside (a.toInt - b.toInt)) ∧
  Computes wSbc (fun a b c => a - b - if c then 1 else 0) (fun a b c => decide (a.toNat < b.toNat + if c then 1 else 0))
    (fun a b c => outside (a.toInt - b.toInt - if c then 1 else 0)) ∧
  Computes wAnd (fun a b _ => a &&& b) no no ∧ Computes wOr (fun a b _ => a ||| b) no no ∧ Computes wXor (fun a b _ => a ^^^ b) no no ∧
  Computes wAndn (fun a b _ => a &&& ~~~b) no no ∧
  Computes wMin (fun a b _ => if a.slt b then a else b) no no ∧ Computes wMax (fun a b _ => if a.slt b then b else a) no no ∧
  Computes wMinu (fun a b _ => if a < b then a else b) no no ∧ Computes wMaxu (fun a b _ => if a < b then b else a) no no ∧
  Computes wAddsat (fun a b _ => clamped (a.toInt + b.toInt)) no (fun a b _ => outside (a.toInt + b.toInt)) ∧
  Computes wSubsat (fun a b _ => clamped (a.toInt - b.toInt)) no (fun a b _ => outside (a.toInt - b.toInt)) ∧
  RunsOnMe wCmp (fun _ m w _ =>
    let v := opA m w - opB m w
    { m with flags := { m.flags with
      z := decide (v = 0), n := v.msb, c := decide ((opA m w).toNat < (opB m w).toNat), v := outside ((opA m w).toInt - (opB m w).toInt) } }) ∧
  RunsOnMe wTst (fun _ m w _ =>
    { m with flags := { m.flags with z := decide (opA m w &&& opB m w = 0), n := (opA m w &&& opB m w).msb, c := false, v := false } })) ∧ (
  Computes wShl (fun a b _ => a <<< (b.toNat % 64)) (fun a b _ => decide (b.toNat % 64 ≠ 0) && a.getLsbD (64 - b.toNat % 64)) no ∧
  Computes wShr (fun a b _ => a >>> (b.toNat % 64)) (fun a b _ => decide (b.toNat % 64 ≠ 0) && a.getLsbD (b.toNat % 64 - 1)) no ∧
  Computes wSar (fun a b _ => a.sshiftRight (b.toNat % 64)) (fun a b _ => decide (b.toNat % 64 ≠ 0) && a.getLsbD (b.toNat % 64 - 1)) no ∧
  Computes wRol (fun a b _ => a.rotateLeft (b.toNat % 64)) no no ∧
  RunsOnMe wExt (fun _ m w _ =>
    let lo := (mwImm w).toNat % 64
    let len := (mwImm w).toNat / 64 % 128
    wrote m w (if 1 ≤ len ∧ len ≤ 64 then BitVec.ofNat 64 ((opA m w).toNat / 2 ^ lo % 2 ^ len) else Config.fieldOpen (opA m w) lo len) false false) ∧
  RunsOnMe wIns (fun _ m w _ =>
    let lo := (mwImm w).toNat % 64
    let len := (mwImm w).toNat / 64 % 128
    let mask := BitVec.ofNat 64 ((2 ^ len - 1) * 2 ^ lo)
    wrote m w (if 1 ≤ len ∧ len ≤ 64 then (opD m w &&& ~~~mask) ||| (opS m w <<< lo &&& mask) else Config.fieldOpen (opD m w) lo len) false false) ∧
  Computes wClz (fun a _ _ => BitVec.ofNat 64 ((List.range 64).takeWhile fun i => !a.getLsbD (63 - i)).length) no no ∧
  Computes wPopc (fun a _ _ => BitVec.ofNat 64 ((List.range 64).filter fun i => a.getLsbD i).length) no no ∧
  RunsOnMe wMull (fun _ m w t => after (wrote m w (opA m w * opB m w) false false) (mwDst w) t 4 true) ∧
  RunsOnMe wMulhu (fun _ m w t => after (wrote m w (BitVec.ofNat 64 ((opA m w).toNat * (opB m w).toNat / 2 ^ 64)) false false) (mwDst w) t 4 true) ∧
  RunsOnMe wMulhs (fun _ m w t => after (wrote m w (BitVec.ofInt 64 ((opA m w).toInt * (opB m w).toInt / 2 ^ 64)) false false) (mwDst w) t 4 true))

/-- TIME microwords (Table 9-4): 80-bit sums and differences of time registers, the difference clamped to 64 bits, a comparison, the DTC at the
issue edge, and moves between general and time registers. TCMP writes no register
and leaves C 0, as Table 9-4 gives C for TADD, TADDI and TSUB only. -/
def Obligations.TimeWordsCompute : Prop :=
  RunsOnMe wTadd (fun _ m w _ =>
    let a := vget m.tm (mwSra w)
    let b := vget m.tm (mwSrb w)
    wroteTime m w (a + b) (decide (2 ^ 80 ≤ a.toNat + b.toNat))) ∧
  RunsOnMe wTsub (fun _ m w _ =>
    let a := vget m.tm (mwSra w)
    let b := vget m.tm (mwSrb w)
    wroteTime m w (a - b) (decide (a.toNat < b.toNat))) ∧
  RunsOnMe wTaddi (fun _ m w _ =>
    let a := vget m.tm (mwSra w)
    let b := (opB m w).signExtend 80
    wroteTime m w (a + b) (decide (2 ^ 80 ≤ a.toNat + b.toNat))) ∧
  RunsOnMe wTdiff (fun _ m w _ =>
    let d := (vget m.tm (mwSra w) - vget m.tm (mwSrb w)).toInt
    wrote m w (clamped d) false (outside d)) ∧
  RunsOnMe wTcmp (fun _ m w _ =>
    let a := vget m.tm (mwSra w)
    let b := vget m.tm (mwSrb w)
    { m with flags := { m.flags with z := decide (a - b = 0), n := (a - b).msb, c := false, v := false } }) ∧
  RunsOnMe wTld (fun u m w t => wroteTime m w (BitVec.ofNat 80 (u.dtcAt t)) false) ∧
  RunsOnMe wTset (fun _ m w _ => wroteTime m w ((opS m w).setWidth 16 ++ opA m w) false) ∧
  RunsOnMe wTlow (fun _ m w _ => wrote m w ((vget m.tm (mwSra w)).setWidth 64) false false) ∧
  RunsOnMe wThigh (fun _ m w _ => wrote m w (BitVec.ofNat 64 ((vget m.tm (mwSra w)).toNat / 2 ^ 64)) false false) ∧
  RunsOnMe wTmov (fun _ m w _ => wroteTime m w (vget m.tm (mwSra w)) false)

/-- CTRL and MOVE microwords (Tables 9-2 and 9-4): NOP does nothing; EI and DI write IE; LDLC loads the loop counter; SETF clears and sets user
flags; RETI ends a handler and FAULT raises fault SOFT; moves of IMM, general and special registers. -/
def Obligations.ControlAndMoveWordsAct : Prop :=
  RunsOnMe wNop (fun _ m _ _ => m) ∧
  RunsOnMe wEi (fun _ m _ _ => { m with flags := { m.flags with ie := true } }) ∧
  RunsOnMe wDi (fun _ m _ _ => { m with flags := { m.flags with ie := false } }) ∧
  RunsOnMe wLdlc (fun _ m w _ => { m with lc := (opB m w).setWidth 32 }) ∧
  RunsOnMe wSetf (fun _ m w _ => { m with flags := { m.flags with
    uf := (m.flags.uf &&& ~~~(BitVec.ofNat 8 ((mwImm w).toNat / 256))) ||| BitVec.ofNat 8 (mwImm w).toNat } }) ∧
  RunsOnMe wMovi (fun _ m w _ => wrote m w (mwImm w) false false) ∧
  RunsOnMe wMov (fun _ m w _ => wrote m w (opA m w) false false) ∧
  Runs wRdspec (fun c u w t => u.modMe c fun m => wrote m w (BitVec.ofNat 64 (u.special c (mwSel w % 16) t)) false false) ∧
  RunsOnMe wWrspec (fun _ m w _ =>
    let v := opA m w
    let m := if mwFlg w then { m with flags := { m.flags with z := decide (v = 0), n := v.msb, c := false, v := false } } else m
    if mwSel w % 16 = 5 then { m with lc := v.setWidth 32 }
    else if mwSel w % 16 = 6 then { m with flags := { m.flags with
      z := v.getLsbD 0, n := v.getLsbD 1, c := v.getLsbD 2, v := v.getLsbD 3, uf := BitVec.ofNat 8 (v.toNat / 16) } }
    else m) ∧
  (∀ (c : Fin 4) (s : State), Ready wFault c s →
    exec (.uFault c false) s = .next ((issued s c).meFault c 8 ((mwImm (atPc s c)).toNat % 256) (issueTime s c))) ∧
  (∀ (c : Fin 4) (s : State), Ready wReti c s →
    ((s.me c).state = .fast → exec (.uReti c false) s = .next ((issued s c).leaveHandler c (issueTime s c + 12800) true)) ∧
    ((s.me c).state = .normal → (∃ e l f, (s.me c).stack = e :: l ∧ e.saved = some f) →
      exec (.uReti c false) s = .next ((issued s c).leaveHandler c (issueTime s c + 12800) false)) ∧
    ((s.me c).state = .normal → (∀ e l, (s.me c).stack = e :: l → e.saved = none) →
      exec (.uReti c false) s = .next ((issued s c).meFault c 3 0 (issueTime s c))) ∧
    ((s.me c).state = .task → exec (.uReti c false) s = .next ((issued s c).meFault c 3 0 (issueTime s c)))) ∧
  (∀ (c : Fin 4) (u : State) (h : MeHandler) (l : List MeHandler) (t : Nat) (keep : Bool), (u.me c).handlers = h :: l →
    let m := (u.leaveHandler c t keep).me c
    m.state = h.before ∧ m.pc = h.pc ∧ m.flags = h.flags ∧ m.wait = h.wait ∧ m.handlers.length = l.length ∧ m.nextAt = t ∧
    m.stack = (if keep then (u.me c).stack else h.stack) ∧
    m.lc = (if h.fast then h.lc else (u.me c).lc) ∧ m.tm = (u.me c).tm ∧ ((u.leaveHandler c t keep).srcAt h.src).active = false)

/-- TAG, EDGE and EVENT microwords (R254, R255, R260): POP and PEEK read the oldest word and a tag's full time; PUSH gives a descriptor to the
channel's edge queue and sets C when it is refused; SIG raises a software source; EVCLR and EVCLRM clear latches, but for one raised on the same edge. -/
def Obligations.TagEdgeAndEventWordsAct : Prop :=
  (∀ r ∈ [wTagPop, wTagPeek], Runs r fun c u w t => u.modMe c fun m =>
    match m.tagq with
    | [] =>
      let m := if mwDst w = 0 then m else { m with g := vset m.g (mwDst w) 0 }
      { m with flags := { m.flags with z := true, n := false, c := false, v := false } }
    | x :: l =>
      let m := if mwDst w = 0 then m else { m with g := vset m.g (mwDst w) x.word.encode }
      let m := match x.word with
        | .tag _ time _ _ => { m with tm := vset m.tm (mwSra w) (tagTime (u.dtcAt t) time) }
        | _ => m
      let m := { m with flags := { m.flags with z := false, n := x.word.encode.msb, c := false, v := false } }
      if r.op = 0 then { m with tagq := l } else m) ∧
  RunsOnMe wTagLevel (fun _ m w _ => wrote m w (BitVec.ofNat 64 m.tagq.length) false false) ∧
  RunsOnMe wTagClrloss (fun _ m _ _ => { m with tagOvf := false }) ∧
  Runs wEdgeQlevel (fun c u w _ => u.modMe c fun m =>
    wrote m w (BitVec.ofNat 64 (u.chan (32 * c + mwSel w % 32)).out.queue.length) false false) ∧
  (∀ (c : Fin 4) (s : State), Ready wEdgePush c s →
    let w := atPc s c
    let u := issued s c
    let n := 32 * c.val + mwSel w % 32
    let d := dtcWords (vget (u.me c).tm (mwSra w)).toNat
    let x := (vget (u.me c).tm (mwSra w)).toNat + u.tb.wraps * 2 ^ 80
    let pushed := (u.eqPush n (d.getD 0 0) (d.getD 1 0) (d.getD 2 0) (BitVec.ofNat 32 ((mwImm w).toNat % 4))).1
    let full := decide (256 ≤ (u.chan n).out.queue.length)
    let late := decide (x < (u.extAt (issueTime s c)).toNat + 1600000)
    let behind := match (u.chan n).out.lastPush with
      | some p => decide (x ≤ p)
      | none => false
    exec (.uEdgePush c false) s = .next ((pushed.modMe c fun m =>
      { m with
        flags := { m.flags with c := full, n := !full && late, z := !full && behind, v := false }
        wrAt := some (issueTime s c) }).nextAddr c w (issueTime s c) (srcA s c))) ∧
  Runs wSig (fun c u w t => (u.raise (196 + 4 * c + mwSel w % 4)).notice 3
    (BitVec.ofNat 32 ((u.me c).task % 256 * 2 ^ 16 + mwSel w % 4 * 2 ^ 8 + c) :: dtcWords (u.dtcAt t))) ∧
  (∀ r ∈ [wEvclr, wEvclrm], RunsOnMe r fun _ m w t =>
    let mask : BitVec 32 := if r.op = 1 then BitVec.ofNat 32 (2 ^ (mwSel w % 32)) else (opS m w).setWidth 32
    let keep : BitVec 32 := if m.evlAt = t / 12800 then m.evlRaised else 0
    { m with evl := m.evl &&& ~~~(mask &&& ~~~keep), evlPrev := m.evlPrev &&& ~~~mask })

namespace Sys2Proof.Claims

/-- The bank word of a BANK microword: G[SRA] + IMM modulo 2^23 words. -/
def bankAddr (m : Microengine) (w : BitVec 128) : Nat := ((opA m w).toNat + (mwImm w).toNat) % 2 ^ 23

/-- Where an access is served: once a drain and a clear of the bank have ended (R326, R338). -/
def served (k : Bank) (t : Nat) : Nat :=
  let t := if k.handover then max t k.drainAt else t
  match k.clearAt with
  | some e => max t e
  | none => t

/-- A BANK access counted (R401) and outstanding until its result arrives; an atomic is remembered for the next one. -/
def accessed (u : State) (c : Fin 4) (w : BitVec 128) (t : Nat) : State :=
  let b := bankAddr (u.me c) w / 131072
  (u.pcAdd (36 + c) 1).modMe c fun m =>
    { m with
      bankOut := (served (u.bankAt b) t + (if mwOp w = 0 then 6 else 8) * 12800, b) :: m.bankOut.filter fun x => decide (t < x.1)
      lastAtomic := if 2 ≤ mwOp w then some (b, t) else m.lastAtomic }

/-- The microengine goes on at an address in the next cycle. -/
def goes (u : State) (c a t : Nat) : State := (u.charge c (t + 12800)).modMe c fun m => { m with pc := a % 8192 }

/-- A handler of the microengine is running. -/
def inHandler (m : Microengine) : Bool := m.state == .normal || m.state == .fast

/-- What an END leaves: the task's RESUME is its TARGET, and the scheduler goes on. -/
def ended (u : State) (c target t : Nat) : State :=
  let u := if (u.me c).stack = [] then u else u.report 6 2 c (u.me c).faultReg (BitVec.ofNat 32 (u.me c).task)
  (((u.charge c (t + 12800)).modTask c (u.me c).task fun k => { k with resume := target, cut := false }).taskOver c (t + 12800)).dispatchNext c
    (t + 12800)

/-- A microword may occupy the microengine from `t` up to `e`: neither the guard band nor the limit of a handler begins before, and the
budget of an ENFORCE task lasts (R264, R268, R281). -/
abbrev runsOn (u : State) (c t e : Nat) : Prop :=
  e ≤ u.guardAt c ∧ ((u.me c).state = .task → (u.taskAt c (u.me c).task).enforce = true → (e - t) / 12800 ≤ (u.me c).budget) ∧
  ∀ l, (u.me c).handlerLimit = some l → e ≤ l

/-- The rows of a next-address form, with its code of Table 9-6. -/
def seqWords : List Word128 :=
  [⟨.uJump, 0, 1⟩, ⟨.uCall, 0, 2⟩, ⟨.uRet, 0, 3⟩, ⟨.uLoop, 0, 4⟩, ⟨.uDispatch, 0, 5⟩, ⟨.uEnd, 0, 6⟩]

end Sys2Proof.Claims

/-- IO microwords (R256, R257, Table 9-7): RD reads the register that SEL names with the effects of a host read and stalls 6 cycles, or 12 for a
timer; a stall that the guard band, the budget of an ENFORCE task or the limit of a handler cuts short chooses no next address. WR acts on the registers of R257, a timer's on the fourth edge, and raises IO_DENIED for all others. -/
def Obligations.IoWordsAct : Prop :=
  (∀ (c : Fin 4) (s : State), Ready wIoRd c s →
    let w := atPc s c
    let t := issueTime s c
    let n := if mwSel w / 32768 = 2 then 12 else 6
    let r := (issued s c).ioRead c (mwSel w)
    let u := r.1.modMe c fun m => { wrote m w (r.2.setWidth 64) false false with stallTo := t + n * 12800 }
    (runsOn (issued s c) c t (t + n * 12800) → exec (.uIoRd c false) s = .next (u.nextAddr c w (t + (n - 1) * 12800) (srcA s c))) ∧
    (¬ runsOn (issued s c) c t (t + n * 12800) → exec (.uIoRd c false) s = .next (u.charge c (t + 12800)))) ∧
  (∀ (c : Fin 4) (s : State), Ready wIoWr c s →
    let w := atPc s c
    let u := issued s c
    let sel := mwSel w
    let v : W32 := (opS (u.me c) w).setWidth 32
    let n := 32 * c.val + sel / 128 % 32
    let off := 4 * (sel % 128)
    let goOn (x : State) : Host.Outcome State Fault Refusal := .next (x.nextAddr c w (issueTime s c) (srcA s c))
    let next (x : State) : Host.Outcome State Fault Refusal := goOn (x.modMe c fun m => { m with wrAt := some (issueTime s c) })
    let channel := sel / 32768 = 1 ∧ sel % 32768 / 4096 = 0
    (channel → off = 0x10C → exec (.uIoWr c false) s = next (u.modOut n fun x => { x with push0 := v })) ∧
    (channel → off = 0x110 → exec (.uIoWr c false) s = next (u.modOut n fun x => { x with push1 := v })) ∧
    (channel → off = 0x114 → exec (.uIoWr c false) s = next (u.modOut n fun x => { x with push2 := v })) ∧
    (channel → off = 0x118 → exec (.uIoWr c false) s = next (u.eqPush n (u.chan n).out.push0 (u.chan n).out.push1 (u.chan n).out.push2 v).1) ∧
    (channel → off = 0x140 → exec (.uIoWr c false) s = next (u.puCtrl n v)) ∧
    (channel → off = 0x148 ∨ off = 0x150 → exec (.uIoWr c false) s = next (u.puWrite n .per v)) ∧
    (channel → off = 0x14C ∨ off = 0x154 → exec (.uIoWr c false) s = next (u.puWrite n .cmp v)) ∧
    (channel → off = 0x158 → exec (.uIoWr c false) s = next (u.puWrite n .npulse v)) ∧
    (channel → off = 0x15C → exec (.uIoWr c false) s = next (u.puWrite n .bper v)) ∧
    (channel → off = 0x160 → exec (.uIoWr c false) s = next (u.puWrite n .nburst v)) ∧
    (sel / 32768 = 2 → sel % 32768 / 16 < 32 → (u.timAt (sel % 32768 / 16)).owner = c.val + 1 → 4 * (sel % 16) ∈ [0x04, 0x08, 0x24] →
      exec (.uIoWr c false) s = goOn { u with
        timWr := u.timWr ++ [{ at_ := issueTime s c + 4 * 12800, timer := sel % 32768 / 16, reg := 4 * (sel % 16), value := v }] }) ∧
    (¬ (channel ∧ off ∈ [0x10C, 0x110, 0x114, 0x118, 0x140, 0x148, 0x14C, 0x150, 0x154, 0x158, 0x15C, 0x160]) →
      ¬ (sel / 32768 = 2 ∧ sel % 32768 / 16 < 32 ∧ (u.timAt (sel % 32768 / 16)).owner = c.val + 1 ∧ 4 * (sel % 16) ∈ [0x04, 0x08, 0x24]) →
      exec (.uIoWr c false) s = .next (u.meFault c 6 0 (issueTime s c))))

/-- BANK microwords (R259, R329, R332): in a bank that the microengine owns LD reads a word, ST writes G[SRB], ADD adds it in the bank's mode and
SWAP exchanges it, the old word arriving 6 or 8 cycles after the access is served; an uncorrectable word raises BANK_ECC and leaves G[DST]; in any
other bank the access is refused and recorded, with BANK_DENIED. Writing a word changes no byte outside it, in every
memory of canonical form. -/
def Obligations.BankWordsAct : Prop :=
  (∀ (e : Ecc), ∀ r ∈ [wBankLd e, wBankSt e, wBankAdd e, wBankSwap e], ∀ (c : Fin 4) (s : State), Ready r c s →
    let w := atPc s c
    let t := issueTime s c
    let u := issued s c
    let a := bankAddr (u.me c) w
    let k := u.bankAt (a / 131072)
    let v := accessed u c w t
    let old := Mem.word u.mem a
    let new := if r.op = 2 then (if k.addMode then BitVec.ofInt 64 (max 0 (min (2 ^ 64 - 1) ((old.toNat : Int) + (opS (u.me c) w).toInt)))
      else old + opS (u.me c) w) else opS (u.me c) w
    let lag := if r.op = 0 then 6 else 8
    (k.owner ≠ 8 + c.val →
      exec (r.make c false) s = .next ((u.deny (a / 131072) (8 + c) (a % 131072) (decide (r.op ≠ 0))).meFault c 4 0 t)) ∧
    (k.owner = 8 + c.val → r.op = 1 → exec (r.make c false) s = .next ((v.writeWord a (opS (u.me c) w)).nextAddr c w t (srcA s c))) ∧
    (k.owner = 8 + c.val → r.op ≠ 1 → e ≠ .bad → a ∉ u.ue →
      let x := if e = .corrected then v.correctedWord (a / 131072) else v
      let x := if r.op = 0 then x else x.writeWord a new
      exec (r.make c false) s = .next ((x.modMe c fun m => after (wrote m w old false false) (mwDst w) (served k t) lag false).nextAddr c w t
        (srcA s c))) ∧
    (k.owner = 8 + c.val → r.op ≠ 1 → e = .bad ∨ a ∈ u.ue →
      exec (r.make c false) s = .next (((v.markBad a).badWord (a / 131072) (8 + c) (a % 131072)).meFault c 5 0 t))) ∧
  (∀ (u : State) (a : Nat) (x : W64), Mem.wf u.mem = true →
    Mem.word (u.writeWord a x).mem a = x ∧ (∀ i, i < 8 * a ∨ 8 * a + 8 ≤ i → Mem.read (u.writeWord a x).mem i = Mem.read u.mem i) ∧
    a ∉ (u.writeWord a x).ue)

/-- Next addresses (R248 to R250, Table 9-6): JUMP, CALL, RET, LOOP, DISPATCH and END act when their condition holds, and PC + 1 follows when it does
not; a CALL with 16 entries held, a RET from an empty stack and a RET of an INT entry fault, and so does an END in a handler. Said of a microword of
class CTRL with operation NOP, and of what every microword does after its datapath. -/
def Obligations.NextAddressesAreChosen : Prop :=
  (∀ r ∈ seqWords, ∀ (c : Fin 4) (s : State), Issues s c → mwSeq (atPc s c) = r.op → mwClass (atPc s c) = 0 → mwOp (atPc s c) = 0 →
    exec (r.make c false) s = .next ((issued s c).nextAddr c (atPc s c) (issueTime s c) (srcA s c))) ∧
  (∀ (e : Ecc), ∀ r ∈ allWords e, ∀ (q : Nat) (make : Fin 4 → Bool → Instr), (⟨make, 0, q⟩ : Word128) ∈ seqWords → ∀ (c : Fin 4) (s : State), Ready r c s →
    mwSeq (atPc s c) = q → (r.cls = 9 → e = .ok) → exec (make c false) s = exec (r.make c false) s) ∧
  (∀ (c : Fin 4) (u : State) (w : BitVec 128) (t : Nat) (a : W64),
    let m := u.me c
    let next := u.nextAddr c w t a
    (mwSeq w = 0 ∨ mwSeq w = 7 ∨ (u.holds c w t = false ∧ mwSeq w ≠ 0) → next = goes u c (m.pc + 1) t) ∧
    (u.holds c w t = true →
      (mwSeq w = 1 → next = goes u c (mwTarget w) t) ∧
      (mwSeq w = 2 → m.stack.length < 16 →
        next = goes (u.modMe c fun m => { m with stack := { ret := (m.pc + 1) % 8192, saved := none } :: m.stack }) c (mwTarget w) t) ∧
      (mwSeq w = 2 → 16 ≤ m.stack.length → next = u.meFault c 1 0 t) ∧
      (mwSeq w = 3 → m.stack = [] → next = u.meFault c 2 0 t) ∧
      (mwSeq w = 3 → ∀ x l, m.stack = x :: l → x.saved = none → next = goes (u.modMe c fun m => { m with stack := l }) c x.ret t) ∧
      (mwSeq w = 3 → ∀ x l f, m.stack = x :: l → x.saved = some f → next = u.meFault c 3 0 t) ∧
      (mwSeq w = 4 → m.lc.toNat ≤ 1 → next = goes (u.modMe c fun m => { m with lc := 0 }) c (m.pc + 1) t) ∧
      (mwSeq w = 4 → 1 < m.lc.toNat → next = goes (u.modMe c fun m => { m with lc := m.lc - 1 }) c (mwTarget w) t) ∧
      (mwSeq w = 5 → next = goes u c (mwTarget w + a.toNat % 16) t) ∧
      (mwSeq w = 6 → inHandler m = true → next = u.meFault c 10 0 t) ∧
      (mwSeq w = 6 → inHandler m = false → next = ended u c (mwTarget w) t)))

/-- Faults (R265 to R267, Table 9-9): an uncorrectable control-store word raises CS_ECC in place of its microword; a fault is kept in ME_FAULT and
counted; in a task it marks the task FAULTED and the scheduler goes on; in a handler the interrupted context returns,
with the micro-stack it had at entry. -/
def Obligations.FaultsAreRecorded : Prop :=
  (∀ (e : Ecc), ∀ r ∈ allWords e, ∀ (c : Fin 4) (s : State), Ready r c s →
    exec (r.make c true) s = .next ((issued s c).meFault c 7 0 (issueTime s c))) ∧
  (∀ r ∈ seqWords, ∀ (c : Fin 4) (s : State), Issues s c → mwSeq (atPc s c) = r.op →
    exec (r.make c true) s = .next ((issued s c).meFault c 7 0 (issueTime s c))) ∧
  (∀ (u : State) (c : Fin 4) (cause soft t : Nat),
    let m := u.me c
    let v := u.meFault c cause soft t
    let x := v.me c
    x.fltCause = cause ∧ x.fltAddr = m.pc ∧ x.fltTask = m.task ∧ x.fltHandler = inHandler m ∧ x.faultCnt = m.faultCnt + 1 ∧
    (inHandler m = false → (vget (v.clus c).sch.tasks m.task).faulted = true ∧ (x.state = .idle ∨ x.state = .task) ∧ x.stack = []) ∧
    (∀ h l, inHandler m = true → m.handlers = h :: l → x.state = h.before ∧ x.pc = h.pc ∧ x.flags = h.flags ∧ x.stack = h.stack))

/-! The cadence scheduler and interrupt entry (R261 to R264, R277 to R283). -/
namespace Sys2Proof.Claims

/-- The cycle of decision about a pending source: the next CCLK edge at which the microengine is free, or one in which an IO.RD stalls it. -/
def decision (s : State) (c : Fin 4) : Nat := if s.edge < (s.me c).stallTo then s.edge else max s.edge (s.me c).nextAt

/-- A microengine that considers sources: with an image in force, and not gated. -/
abbrev interruptible (s : State) (c : Fin 4) : Prop :=
  (s.me c).state ≠ .halted ∧ (s.me c).state ≠ .loading ∧ s.pwr.gated.testBit c = false

/-- The cycles of the longest handler of a class in the image (R280). -/
def longest (m : Microengine) (fast : Bool) : Nat := if fast then m.image.fastMax else m.image.normMax

/-- R261 and R280 at a cycle of decision: no fast handler runs, IE and a free stack entry for the normal class, not in cycle 0, the longest handler of
the class ends before the guard band and fits the interrupt reserve, and no interlock on a product and no stalled IO.RD is in progress. -/
abbrev Enters (u : State) (c : Fin 4) (fast : Bool) (d : Nat) : Prop :=
  (((u.me c).state = .idle ∨ (u.me c).state = .task ∨ (u.me c).state = .normal) ∧ (u.me c).stallTo ≤ d) ∧
  (fast = true ∨ ((u.me c).flags.ie = true ∧ (u.me c).stack.length < 16)) ∧ 1 ≤ u.tickCycle d ∧
  u.tickCycle d + longest (u.me c) fast < u.guardCycle c ∧ longest (u.me c) fast ≤ u.irqLeft c d ∧ u.mulStall c d = false

/-- The source is taken from the controller and counted. -/
def delivered (u : State) (c : Fin 4) (fast : Bool) (k : Nat) : State :=
  let u := (u.modSrc k fun x => { x with pending := false, active := true }).pcAdd (40 + c) 1
  { u with ic := if fast then { u.ic with fastSrc := vset u.ic.fastSrc c k, fastAct := vset u.ic.fastAct c true }
      else { u.ic with lastN := vset u.ic.lastN c k } }

/-- The handler's record: what the interrupted context needs to come back. -/
def saved (m : Microengine) (k d : Nat) (fast : Bool) : MeHandler :=
  { src := k, fast := fast, since := d, before := m.state, stack := m.stack, wait := m.wait, pc := m.pc, flags := m.flags, lc := m.lc, inner := 0,
    from_ := d }

end Sys2Proof.Claims

/-- WAIT (R251): a condition that holds at issue lets the next microword follow; otherwise the microengine waits, until the condition holds on an
edge not later than the timeout, or goes on at TARGET when the timeout expires first; DTC_GE and BUDGET_LOW come true with time alone, on a computed edge. No event of a wait acts in the guard band. Interrupt entry (R261 to R263): the chosen source becomes active, and its handler starts at its address after 2 cycles with the fast bank in G24 to
G31, or after 3 cycles with an INT entry on the micro-stack and IE = 0; a source that R261 holds stays pending and is counted. A fast source goes first. -/
def Obligations.WaitsAndInterruptsAreServed : Prop :=
  (
  (∀ (c : Fin 4) (s : State), Ready wWait c s →
    let w := atPc s c
    let u := issued s c
    let t := issueTime s c
    let n := (mwImm w).toNat % 2 ^ 32
    (u.holds c w t = true → exec (.uWait c false) s = .next (u.nextAddr c w t (srcA s c))) ∧
    (u.holds c w t = false → exec (.uWait c false) s = .next ((u.charge c (t + 12800)).modMe c fun m =>
      { m with wait := some { since := t, limit := if n = 0 then none else some (t + n * 12800) } }))) ∧
  (∀ (c : Fin 4) (s : State) (x : MeWait), (s.me c).wait = some x →
    let k := s.condEdge c (atPc s c) (max s.edge (s.me c).nextAt)
    let u := s.runTo k
    k < s.guardAt c → (∀ l, x.limit = some l → k ≤ l) → u.holds c ((s.me c).word (s.me c).pc) k = true →
    exec (.waitConditionMet c) s = .next (goes (u.modMe c fun m => { m with wait := none }) c ((s.me c).pc + 1) k)) ∧
  (∀ (c : Fin 4) (s : State) (w : BitVec 128) (k : Nat),
    let e := s.condEdge c w k
    (mwCinv w = true ∨ s.cond c w k = true ∨ (mwCond w ≠ 12 ∧ mwCond w ≠ 17) → e = k) ∧
    (mwCinv w = false → s.cond c w k = false → mwCond w = 12 →
      e = k + ((vget (s.me c).tm (mwSra w) - BitVec.ofNat 80 (s.dtcAt k)).toNat + 12799) / 12800 * 12800) ∧
    (mwCinv w = false → s.cond c w k = false → mwCond w = 17 → (s.me c).state = .task →
      e = k + ((s.me c).budgetLeft k + 1 - (mwImm w).toNat / 2 ^ 32 % 65536) * 12800)) ∧
  (∀ (c : Fin 4) (s : State) (since l : Nat), (s.me c).wait = some { since := since, limit := some l } →
    let k := max l (max s.edge (s.me c).nextAt)
    let u := s.runTo k
    let w := (s.me c).word (s.me c).pc
    (k < s.guardAt c →
      exec (.waitTimeout c) s = .next (goes (u.modMe c fun m => { m with wait := none }) c
        (if u.holds c w k then (s.me c).pc + 1 else mwTarget w) k)) ∧
    (s.guardAt c ≤ k → exec (.waitTimeout c) s = .next s))) ∧ (
  (∀ (c : Fin 4) (s : State) (k : Nat), interruptible s c → s.cicChoice c true = some k →
    let d := decision s c
    let u := s.runTo d
    (Enters u c true d → exec (.fastEntry c) s = .next ((delivered ((u.countIdle c d).charge c d) c true k).modMe c fun m =>
      { ({ m with handlers := saved m k d true :: m.handlers, wait := none, pc := (u.srcAt k).addr } : Microengine).swapFast with
        state := .fast, nextAt := d + 2 * 12800 })) ∧
    (¬ Enters u c true d → exec (.fastEntry c) s = .next (u.modMe c fun m => { m with irqHeld := m.irqHeld + 1 }))) ∧
  (∀ (c : Fin 4) (s : State) (k : Nat), interruptible s c → s.cicChoice c false = some k →
    let d := decision s c
    let u := s.runTo d
    (s.cicChoice c true = none ∨ ¬ Enters s c true d →
      (Enters u c false d → exec (.normalEntry c) s = .next ((delivered ((u.countIdle c d).charge c d) c false k).modMe c fun m =>
        { m with
          handlers := saved m k d false :: m.handlers, wait := none, pc := (u.srcAt k).addr, state := .normal, nextAt := d + 3 * 12800
          flags := { m.flags with ie := false }, stack := { ret := m.pc, saved := some m.flags } :: m.stack })) ∧
      (¬ Enters u c false d → exec (.normalEntry c) s = .next (u.modMe c fun m => { m with irqHeld := m.irqHeld + 1 }))) ∧
    ((s.cicChoice c true).isSome = true → Enters s c true d → exec (.normalEntry c) s = .next s)) ∧
  (∀ (m : Microengine) (i : Fin 8), vget m.swapFast.g (24 + i) = vget m.fastBank i ∧ vget m.swapFast.fastBank i = vget m.g (24 + i)) ∧
  (∀ (c : Fin 4) (s : State) (fast : Bool) (k : Nat), s.cicChoice c fast = some k →
    k < 256 ∧ (s.srcAt k).pending = true ∧ (s.srcAt k).active = false ∧ (s.srcAt k).fast = fast ∧ (s.srcAt k).target = .me c ∧
    ∀ j, j < k → ¬ ((s.srcAt j).pending = true ∧ (s.srcAt j).active = false ∧ (s.srcAt j).fast = fast ∧ (s.srcAt j).target = .me c)))

/-- Limits of tasks and handlers (R264, R268, R281 to R283): a handler that reaches FAST_MAX or NORM_MAX cycles faults with HANDLER_LONG; an ENFORCE
task whose budget is spent is cut and counted; in the first guard cycle of a tick a task that runs is cut off, counted in OVR_CNT and carried (or cut, where its budget ends there), due tasks
not dispatched are skipped and carried, the slack is recorded and the lists of the next tick are built. The order of dispatch (R278, R279): the tasks due in tick k are those enabled, not FAULTED, with PHASE = k modulo 2^PEXP; a list holds them by
descending PRIO, then by ascending number; the head of the due list is dispatched at its RESUME with cleared flags, IE = 1 and an empty micro-stack. -/
def Obligations.TasksAreDispatchedAndLimited : Prop :=
  (
  (∀ (c : Fin 4) (s : State) (h : MeHandler) (l : List MeHandler), (s.me c).handlers = h :: l →
    let limit := max (h.since + (if h.fast then (s.me c).image.fastMax else (s.me c).image.normMax) * 12800) h.from_
    let late : Prop := ((s.me c).wait = none ∧ limit ≤ s.issueAt c) ∨ ∃ w, (s.me c).wait = some w ∧ ∀ l, w.limit = some l → limit ≤ l
    (late → exec (.handlerLong c) s = .next ((s.runTo limit).meFault c 9 0 limit)) ∧
    (¬ late → exec (.handlerLong c) s = .next s)) ∧
  (∀ (c : Fin 4) (s : State), (s.me c).state = .task → (s.taskAt c (s.me c).task).enforce = true →
    let t := (s.me c).nextAt + (s.me c).budget * 12800
    ((s.me c).wait = none ∧ t ≤ s.issueAt c ∨ ∃ w, (s.me c).wait = some w ∧ ∀ l, w.limit = some l → t ≤ l) → t ≤ s.guardAt c →
    exec (.budgetCut c) s = .next ((((((s.runTo t).charge c t).modSch c fun h => { h with cut := h.cut + 1 }).modTask c (s.me c).task fun k =>
      { k with cut := true }).taskOver c t).dispatchNext c t)) ∧
  (∀ (c : Fin 4) (s : State), (s.clus c).sch.guardTick = some s.tb.tickIdx → exec (.guardBand c) s = .next s) ∧
  (∀ (c : Fin 4) (s : State), (s.clus c).sch.guardTick ≠ some s.tb.tickIdx → s.pwr.gated.testBit c = false →
    let g := s.guardAt c
    let u := (s.runTo g).countIdle c g
    let h := (u.clus c).sch
    let task := (s.me c).task
    Answers (.guardBand c) s fun t =>
      let n := (t.clus c).sch
      n.slackLast = h.idle ∧ n.slackMin = min h.slackMin h.idle ∧ n.guardTick = some s.tb.tickIdx ∧ n.due = [] ∧ n.carry = [] ∧
      n.skip = h.skip + BitVec.ofNat 32 (h.due.length + h.carry.length) ∧
      (∀ i ∈ h.due, (vget n.tasks i).carry = true) ∧
      n.dueNext = orderTasks n.tasks.toList (fun k => k.due (s.tb.tickIdx + 1)) ∧
      n.carryNext = orderTasks n.tasks.toList (fun k => k.carry && k.en && !k.due (s.tb.tickIdx + 1)) ∧
      ((s.me c).state = .task → (s.taskAt c task).enforce = true ∧ (s.me c).nextAt + (s.me c).budget * 12800 ≤ g →
        (t.me c).state = .idle ∧ (t.me c).stack = [] ∧ n.ovr = h.ovr ∧ n.cut = h.cut + 1 ∧ (vget n.tasks task).cut = true) ∧
      ((s.me c).state = .task → ¬ ((s.taskAt c task).enforce = true ∧ (s.me c).nextAt + (s.me c).budget * 12800 ≤ g) →
        (t.me c).state = .idle ∧ (t.me c).stack = [] ∧ n.ovr = h.ovr + 1 ∧ (vget n.tasks task).carry = true ∧
        (vget n.tasks task).ovrCnt = min 63 ((vget h.tasks task).ovrCnt + 1) ∧ (vget n.tasks task).resume = (vget h.tasks task).resume) ∧
      ((s.me c).state ≠ .task → t.me c = s.me c ∧ n.ovr = h.ovr) ∧
      (∀ k : Fin 4, k ≠ c → t.clus k = s.clus k) ∧ Same [.tb, .cl, .ic, .err, .perf, .pwr] s t)) ∧ (
  (∀ (l : List Task) (p : Task → Bool) (i : Nat), i ∈ orderTasks l p ↔ i < l.length ∧ p (l.getD i Task.empty) = true) ∧
  (∀ (l : List Task) (p : Task → Bool), List.Pairwise (fun i j => (l.getD j Task.empty).prio < (l.getD i Task.empty).prio ∨
    ((l.getD j Task.empty).prio = (l.getD i Task.empty).prio ∧ i < j)) (orderTasks l p)) ∧
  (∀ (t : Task) (k : Nat), t.due k = true ↔ t.en = true ∧ t.faulted = false ∧ k % 2 ^ t.pexp = t.phase) ∧
  (∀ (u : State) (c : Fin 4) (i t : Nat) (l : List Nat), u.pwr.gated.testBit c = false → t < u.guardAt c → (u.clus c).sch.due = i :: l →
    let v := u.dispatchNext c t
    let m := v.me c
    m.state = .task ∧ m.task = i ∧ m.pc = (u.taskAt c i).resume ∧ m.budget = (u.taskAt c i).budget ∧ m.stack = [] ∧ m.nextAt = t ∧
    m.flags = { (u.me c).flags with z := false, n := false, c := false, v := false, ie := true } ∧
    m.g = (u.me c).g ∧ m.tm = (u.me c).tm ∧ m.lc = (u.me c).lc ∧ (v.clus c).sch.due = l ∧ Same [.cl] u v))


/-! Input channels and the merge (R80 to R102, R19 to R21). -/
namespace Sys2Proof.Claims

/-- An interpolator of a channel may take an edge now (R18, R86, R91). -/
abbrev interpFree (u : State) (n : Nat) (i : Bool) : Prop :=
  vget (u.chan n).inp.busy (b2n i) ≤ u.now ∧ (u.chan n).inp.withheld ≠ some i

/-- The channel's input is at work: its cluster is clocked, no measurement holds it, and it is enabled (R107, R127, R305). -/
abbrev inputWorks (u : State) (n : Nat) : Prop :=
  u.pwr.gated.testBit (n / 32) = false ∧ u.inputTaken n = false ∧ u.inputOpen n = true

/-- The comparator of a configured input changes to a level it did not show. -/
abbrev changes (s : State) (n : Nat) (rising : Bool) : Prop := (s.chan n).inp.configured = true ∧ (s.chan n).inp.level ≠ some rising

end Sys2Proof.Claims

/-- Transitions and tags (R18, R80, R85 to R88, R98, R106): a transition of an input at work is lost to blanking, is lost when no interpolator is free, or
is latched with the TCLK edge before it and its eighth of a TCLK cycle, by the interpolator that did not take the edge before; a code gives the tag the time of edge and
phase plus the fine time less the 184 tq and lin, and at least one tq after the tag before; a code at an end of the table sets RANGE_HIT. With a full FIFO a pick-up of the
same cycle comes first (R100). -/
def Obligations.TransitionsBecomeTags : Prop :=
  (∀ (n : Fin 128) (r : Bool) (d : Nat) (s : State), changes s n r →
    let u := s.advance d
    let x := (u.chan n).inp
    (¬ inputWorks u n → exec (.inputTransition n r d) s = .next (u.modIn n fun x => { x with level := some r })) ∧
    (inputWorks u n → u.now < x.blankUntil →
      exec (.inputTransition n r d) s = .next (u.modIn n fun x =>
        { x with level := some r, lossBlank := x.lossBlank + 1, pendBlank := x.pendBlank + 1 })) ∧
    (inputWorks u n → x.blankUntil ≤ u.now → ¬ interpFree u n false → ¬ interpFree u n true →
      exec (.inputTransition n r d) s = .next (u.modIn n fun x =>
        { x with level := some r, lossDead := x.lossDead + 1, deadMiss := true, pendDead := x.pendDead + 1 })) ∧
    (∀ i, inputWorks u n → x.blankUntil ≤ u.now → interpFree u n i →
      (interpFree u n (!i) → x.lastInterp ≠ some i ∧ (x.lastInterp = none → i = false)) →
      exec (.inputTransition n r d) s = .next (u.modIn n fun x =>
        { x with
          level := some r, busy := vset x.busy (b2n i) (u.now + 25600), lastInterp := some i
          convs := x.convs ++ [{ interp1 := i, tclk := u.ext / 3200 * 3200, phase := u.ext % 3200 / 400, rising := r, phys := u.now, off := u.off, dead := x.lossDead, blank := x.lossBlank }] }))) ∧
  (∀ (n : Fin 128) (code : Fin 160) (s : State) (l : Latch) (k : List Latch), (s.chan n).inp.convs = l :: k →
    let u := (s.runTo l.edge).roomFor n
    let x := (u.chan n).inp
    let tag := u.formTag n l code
    Answers (.conversionComplete n code) s fun t =>
      (t.chan n).inp = (if x.inWindow tag.phys then ChIn.qualify u.now { x with convs := k, lastTag := some tag } tag else { x with convs := k }) ∧
      ((code : Nat) = 0 ∨ (code : Nat) = 159 → (if l.interp1 then (t.chan n).cal.int1 else (t.chan n).cal.int0).rangeHit = true) ∧
      (∀ m : Fin 128, m ≠ n → (t.chan m).inp = (s.chan m).inp) ∧ Same [.tb, .ch, .cl, .env, .st, .qp, .ic, .perf, .pwr] s t) ∧
  (∀ (u : State) (n code : Nat) (l : Latch),
    let k := (u.chan n).cal
    let tag := u.formTag n l code
    let raw := (l.tclk + l.phase * 400 : Nat) + k.fine l.interp1 code - 184 - k.lin
    tag.rising = l.rising ∧ tag.dead = l.dead ∧ tag.blank = l.blank ∧ (tag.q = true ↔ k.confAt u.now ≠ .nominal ∨ u.traceNow ≠ 2) ∧
    (∀ b, (u.chan n).inp.lastTag = some b → b.phys < tag.phys ∧ (raw - l.off ≤ b.phys → tag.phys = b.phys + 1 ∧ tag.time = (b.time + 1) % 2 ^ 80)) ∧
    ((∀ b, (u.chan n).inp.lastTag = some b → b.phys < raw - l.off) → tag.phys = raw - l.off ∧ (tag.time : Int) = raw % 2 ^ 80))

namespace Sys2Proof.Claims

/-- The released word's part in the counters of the merge (R401, Table 15-6): tags and records, lost edges, late tags. -/
def counted (u : State) (c : Nat) (w : PWord) : State :=
  let u := u.pcAdd (2 * c) 1
  let u := match w.word with | .loss _ _ n => u.pcAdd (24 + c) n | _ => u
  if w.late = true ∧ w.word.isTag = true then u.pcAdd (28 + c) 1 else u

end Sys2Proof.Claims

/-- From the qualifier to the consumers (R19 to R21, R81 to R84, R89, R99 to R102, R253): a leading edge is held when MINPW is set, a pulse shorter than
MINPW with no edge lost in it vanishes and is counted, any other edge behind a held one waits, and any edge else goes to the edge selection; the FIFO holds 512 tags, each after the LOSS records that precede it, and drops and counts
the next; a lane takes one item a cycle, round its eight channels; the merge releases the first word in stream order once nothing that sorts before it can come, and a
late one at once, with Q; the tag queue of a microengine holds 64 words; an imported word takes a cycle of the lane that is free first. -/
def Obligations.TagsReachTheirConsumers : Prop :=
  (∀ (n : Fin 128) (s : State) (h : Held), (s.chan n).inp.hold = some h →
    let e := h.tag.phys + (h.minpw : Int)
    ((∀ l ∈ (s.chan n).inp.convs, e ≤ s.latchBound n l) →
      let u := (s.runTo (max (e + 1) (e + s.lin n + 585)).toNat).roomFor n
      exec (.qualifierRelease n) s = .next (u.modIn n (ChIn.release u.now))) ∧
    ((∃ l ∈ (s.chan n).inp.convs, s.latchBound n l < e) → exec (.qualifierRelease n) s = .next s)) ∧
  (∀ (now : Int) (x : ChIn) (h : Held), x.hold = some h → x.waiting = [] →
    ChIn.release now x = ({ x with hold := none, heldTo := now } : ChIn).select h.tag) ∧
  (∀ (now : Int) (x : ChIn) (t : Tag), x.hold = none →
    (x.minpw = 0 ∨ t.rising = x.qualPol → ChIn.qualify now x t = x.select t) ∧
    (x.minpw ≠ 0 → t.rising ≠ x.qualPol → ChIn.qualify now x t = { x with hold := some { tag := t, minpw := x.minpw } })) ∧
  (∀ (now : Int) (x : ChIn) (t : Tag) (h : Held), x.hold = some h → x.waiting = [] → t.dead = h.tag.dead → t.blank = h.tag.blank →
    t.rising ≠ h.tag.rising → t.phys - h.tag.phys < h.minpw →
    ChIn.qualify now x t = { x with hold := none, heldTo := now, qualCnt := x.qualCnt + 1 }) ∧
  (∀ (now : Int) (x : ChIn) (t : Tag) (h : Held), x.hold = some h →
    (x.waiting ≠ [] ∨ t.dead ≠ h.tag.dead ∨ t.blank ≠ h.tag.blank ∨ t.rising = h.tag.rising ∨ (h.minpw : Int) ≤ t.phys - h.tag.phys) →
    ChIn.qualify now x t = { x with waiting := x.waiting ++ [t] }) ∧
  (∀ (x : ChIn) (t : Tag),
    (x.edge = 2 ∨ (x.edge = 0 ∧ t.rising = true) ∨ (x.edge = 1 ∧ t.rising = false) → x.select t = x.accept t) ∧
    ((x.edge = 0 ∧ t.rising = false) ∨ (x.edge = 1 ∧ t.rising = true) → x.select t = x)) ∧
  (∀ (x : ChIn) (t : Tag),
    (fifoTags x.fifo < 512 →
      let d := x.pendDead - (x.lossDead - t.dead).toNat
      let b := x.pendBlank - (x.lossBlank - t.blank).toNat
      (x.accept t).fifo = x.fifo ++ lossItems x.pendFifo d b t.phys t.time ++ [.tag { t with q := t.q || x.afterDrop }] ∧ (x.accept t).tagCnt = x.tagCnt + 1 ∧
      fifoTags (x.accept t).fifo ≤ 512 ∧ (x.accept t).pendFifo = 0 ∧ (x.accept t).pendDead = x.pendDead - d ∧ (x.accept t).pendBlank = x.pendBlank - b) ∧
    (512 ≤ fifoTags x.fifo →
      fifoTags (x.accept t).fifo = fifoTags x.fifo ∧ (x.accept t).tagCnt = x.tagCnt ∧ (x.accept t).lossFifo = x.lossFifo + 1 ∧
      (x.accept t).fifoOvf = true ∧ (x.accept t).afterDrop = true ∧ (x.accept t).pendFifo = x.pendFifo + 1)) ∧
  (∀ (c l : Fin 4) (s : State) (n : Nat) (i : FifoItem) (r : List FifoItem), s.laneNext c l = some n → (s.chan n).inp.fifo = i :: r →
    let cyc := max (cycleOf s.now) (vget (s.clus c).laneFree l)
    let u := s.runTo (cyc * 12800)
    exec (.lanePickup c l) s = .next ((u.modIn n fun x => { x with fifo := r, hwm := x.hwmAt u.now }).modCl c fun k =>
      { k.enter (i.word n) with laneLast := vset k.laneLast l (some (n % 8)), laneFree := vset k.laneFree l (cyc + 1) })) ∧
  (∀ (c l : Fin 4) (s : State) (n : Nat), s.laneNext c l = some n → n / 32 = c ∧ n / 8 % 4 = l ∧ (s.chan n).inp.fifo ≠ []) ∧
  (∀ (c : Fin 4) (s : State) (w : PWord), (s.clus c).nextWord = some w → s.mergeWaits c w = false →
    let u := if w.late then s else s.runTo (s.boundPast c w.sort)
    let u := u.modCl c fun k =>
      { k with
        pool := k.pool.erase w
        releasedTo := if w.late then k.releasedTo else some (match k.releasedTo with | some r => max r w.sort | none => w.sort) }
    let v := if w.late then { w with word := w.word.withQ } else w
    exec (.mergeRelease c) s = .next ((counted u c v).distribute c v)) ∧
  (∀ (k : Cluster) (w : PWord), k.nextWord = some w →
    w ∈ k.pool ∧ (w.late = false → ∀ v ∈ k.pool, v.late = false ∧ (v = w ∨ v.before w = false))) ∧
  (∀ (m : Microengine) (w : PWord) (n cyc : Nat), w.word.channel = some n → (w.word.isTag = true ∨ ∃ a b, w.word = .loss n a b) →
    (m.image.tagsel.testBit n = false → m.tagIn w cyc = m) ∧
    (m.image.tagsel.testBit n = true → m.tagq.length < 64 → m.tagIn w cyc = { m with tagq := m.tagq ++ [w] }) ∧
    (m.image.tagsel.testBit n = true → 64 ≤ m.tagq.length → 
      m.tagIn w cyc = { m with tagOvf := true, ovfAt := if m.tagOvf then m.ovfAt else cyc, tagLoss := m.tagLoss + 1 })) ∧
  (∀ (c : Fin 4) (s : State) (d : Nat) (w : PWord), s.offered c = some (d, w) → s.pwr.gated.testBit c = false →
    exec (.tagImport c) s = .next (((s.modCl d fun k => { k with exchange := k.exchange.erase (c.val, w) }).takeLane c).modCl c fun k => k.enter w)) ∧
  (∀ (c : Fin 4) (u : State), ∃ l : Fin 4, (∀ k : Fin 4, vget (u.clus c).laneFree l ≤ vget (u.clus c).laneFree k) ∧
    let cyc := max (cycleOf u.now) (vget (u.clus c).laneFree l)
    u.takeLane c = (u.runTo (cyc * 12800)).modCl c fun k => { k with laneFree := vset k.laneFree l (cyc + 1) })

/-! Measurement slots, histograms and quadrature decoders (chapters 5 and 8). -/
namespace Sys2Proof.Claims

/-- What an issued histogram increment of v to bin b leaves, before the slot is looked at for its end (R167, R329, R332). -/
def binned (s : State) (n : Nat) (h : Hist) (b v : Nat) (q : List (Nat × Nat)) (e : Ecc) : State :=
  let w := h.bank * 131072 + h.offset + b
  let u := ((s.runTo s.edge).pcAdd (36 + n / 128) 1).modSlot n fun k => { k with histq := q }
  if e = .bad ∨ w ∈ u.ue then
    ((u.markBad w).badWord (w / 131072) (4 + n / 128) (w % 131072)).modSlot n fun k => { k with drop := min (2 ^ 32 - 1) (k.drop + v) }.modLive fun a => { a with hdrop := true }
  else
    let u := if e = .corrected then u.correctedWord (w / 131072) else u
    u.writeWord w (addWord (s.bankAt h.bank).addMode (Mem.word u.mem w) (BitVec.ofNat 64 v))

/-- The turn count times CPR plus the position (R224). -/
def Turns (q : Decoder) : Int := q.rev.toInt * (q.cprM1 + 1 : Nat) + q.pos

end Sys2Proof.Claims

/-- Slots (R148, R151, R153, R164, R167, R169): a sample within the limits is counted and added to the sum and to the sum of squares of the gate that contains its
tag; in the guard band the oldest closed gate is published in the 30 words of Table 5-5 with the next SEQ; a queued increment is one atomic add to its bin. -/
def Obligations.SlotsCountAndPublish : Prop :=
  (∀ (k : Slot) (sort x : Int) (q : Bool) (a : Acc), k.hist = none → k.closing = [] → k.acc = some a → -(2 ^ 63) ≤ x → x < 2 ^ 63 →
    k.ivlMax = 0 ∨ x ≤ (k.ivlMax * 12800 : Nat) →
    (k.sample sort x q true).acc = some { a with
      cnt := a.cnt + 1, sum := a.sum + x, ssq := a.ssq + (x * x).toNat, q := a.q || q, qcnt := if q then min (2 ^ 32 - 1) (a.qcnt + 1) else a.qcnt
      min := some (a.min.elim x (min x)), max := some (a.max.elim x (max x)) }) ∧
  (∀ (n : Fin 512) (s : State) (a : Acc) (l : List Acc), (s.slotAt n).closing = a :: l →
    let k := s.slotAt n
    let c := n.val / 128
    let g := s.guardInstant c
    let u := s.runTo g
    let ready := a.stopAt.getD 0 + 1164800 + (s.maxMinpw c : Nat)
    (g < ready → exec (.msPublish n) s = .next s) ∧
    (ready ≤ g → k.state = .stopping ∧ l = [] ∧ k.histq ≠ [] → exec (.msPublish n) s = .next s) ∧
    (ready ≤ g → ¬ (k.state = .stopping ∧ l = [] ∧ k.histq ≠ []) →
      Answers (.msPublish n) s fun t =>
        let m := t.slotAt n
        m.closing = l ∧ m.seq = k.seq + 1 ∧ m.seqEnd = k.seq + 1 ∧ m.published = true ∧ m.pubTo = a.stopAt ∧
        m.res = k.block n a (k.seq + 1) (u.minTrace a.startAt) (confCode (u.slotConf k a.startAt)) ∧
        m.gatesDone = (if k.gatesDone < 2 ^ 24 - 1 then k.gatesDone + 1 else 2 ^ 24 - 1) ∧
        (m.state = .stopped ↔ k.state = .stopped ∨ (k.state = .stopping ∧ l = [])) ∧ m.acc = k.acc ∧ m.histq = k.histq ∧
        (∀ j : Fin 512, j ≠ n → t.slotAt j = s.slotAt j) ∧ Same [.tb, .cl, .slot, .tim, .bank, .ic, .perf, .pwr] s t)) ∧
  (∀ (k : Slot) (n : Nat) (a : Acc) (seq : W32) (trace conf : Nat),
    let l := k.block n a seq trace conf
    l.length = 30 ∧ l.getD 1 0 = seq ∧ l.getD 2 0 = a.flags k.type trace conf ∧ (l.drop 3).take 3 = dtcWords a.start ∧ (l.drop 6).take 3 = dtcWords a.stop ∧
    (l.drop 9).take 2 = [BitVec.ofNat 32 a.cnt, BitVec.ofNat 32 (a.cnt / 2 ^ 32)] ∧ l.getD 27 0 = BitVec.ofNat 32 a.lost ∧
    l.getD 28 0 = BitVec.ofNat 32 a.skip ∧ l.getD 29 0 = BitVec.ofNat 32 a.qcnt) ∧
  (∀ (n : Fin 512) (e : Ecc) (s : State) (b v : Nat) (q : List (Nat × Nat)) (h : Hist), (s.slotAt n).histq = (b, v) :: q → (s.slotAt n).hist = some h →
    exec (.histAdd n e) s = .next ((binned s n h b v q e).modSlot n Slot.finish).refreshUse)

/-- Decoders (R220 to R225, R230, R232, R236): the head of the delayed view is handled once everything that could belong to it has come; two A or two B tags closer
than GLT are a glitch and vanish; an A and a B tag closer than QWIN are an illegal transition, which counts nothing; any other A or B tag in RUN moves the position
by one, modulo CPR with the turn carried; a loss makes its level unknown; a snapshot is published in the guard band. -/
def Obligations.DecodersFollowTheirTags : Prop :=
  (∀ (d : Fin 32) (s : State) (i : QdItem) (l : List QdItem), (s.decAt d).held = i :: l →
    let x := (s.decAt d).settledAt i l
    (s.releasedBelow d x = true → exec (.qdTagHandle d) s = .next ((s.runTo (s.boundPast (d / 8) x)).qdHandle d i l)) ∧
    (s.releasedBelow d x = false → exec (.qdTagHandle d) s = .next s)) ∧
  (∀ (u : State) (d : Fin 32) (r : Nat) (p : Int) (t : Nat) (up fl : Bool) (l : List QdItem), (u.decAt d).state ≠ .off → (u.decAt d).since ≤ p →
    let i : QdItem := .tag r p t up fl
    let q := u.decAt d
    (∀ m, glitchMate q.glt i l = some m →
      u.qdHandle d i l = u.modDec d fun q => { q with held := l.erase m, glitch := q.glitch + 1 }) ∧
    (∀ p' t' up' fl', r < 2 → glitchMate q.glt i l = none → windowMate q.glt q.qwin (1 - r) p none l = some (.tag (1 - r) p' t' up' fl') →
      let v := (u.qdHandle d i l).decAt d
      v.held = l.erase (.tag (1 - r) p' t' up' fl') ∧ v.qerr = q.qerr + 1 ∧ v.pos = q.pos ∧ v.rev = q.rev ∧ v.spdValid = false ∧
      v.lvlA = (if r = 0 then up else up') ∧ v.lvlB = (if r = 0 then up' else up) ∧ v.logWr = (q.logWr + 1) % 2 ^ 32) ∧
    (r < 2 → glitchMate q.glt i l = none → windowMate q.glt q.qwin (1 - r) p none l = none →
      (u.qdHandle d i l).decAt d = ({ q with held := l } : Decoder).transition r p t up fl)) ∧
  (∀ (q : Decoder) (r : Nat) (p : Int) (t : Nat) (up fl : Bool), r < 2 → q.state = .run → q.knowA = true → q.knowB = true → q.pos ≤ q.cprM1 → q.cprM1 < 2 ^ 32 →
    let other := if r = 0 then q.lvlB else q.lvlA
    let forward := (if r = 0 then up != other else up == other) != q.sense
    let v := q.transition r p t up fl
    ((if r = 0 then q.lvlA else q.lvlB) ≠ up →
      v.pos = (if forward then (q.pos + 1) % (q.cprM1 + 1) else (q.pos + q.cprM1) % (q.cprM1 + 1)) ∧
      (-(2 ^ 31) < q.rev.toInt → q.rev.toInt < 2 ^ 31 - 1 → Turns v = Turns q + if forward then 1 else -1) ∧ v.tlast = t) ∧
    ((if r = 0 then q.lvlA else q.lvlB) = up → v.pos = q.pos ∧ v.rev = q.rev) ∧
    v.lvlA = (if r = 0 then up else q.lvlA) ∧ v.lvlB = (if r = 0 then q.lvlB else up) ∧ v.qerr = q.qerr ∧ v.loss = q.loss) ∧
  (∀ (u : State) (d : Fin 32) (r n t : Nat) (fl : Bool), r < 2 →
    let v := (u.qdLoss d r n t fl).decAt d
    v.loss = (u.decAt d).loss + BitVec.ofNat 32 n ∧ v.unsync = true ∧ v.spdValid = false ∧ v.pos = (u.decAt d).pos ∧ v.rev = (u.decAt d).rev ∧
    (r = 0 → v.knowA = false) ∧ (r = 1 → v.knowB = false)) ∧
  (∀ (d : Fin 32) (s : State) (x : QdSnap) (l : List QdSnap), (s.decAt d).snaps = x :: l →
    let g := s.guardInstant (d / 8)
    let ready := x.phys + 1164800 + ((s.decAt d).hold : Nat) + (s.maxMinpw (d / 8) : Nat)
    (ready ≤ g → exec (.qdSnapshotPublish d) s = .next ((s.runTo g).modDec d fun q =>
      { q with snaps := l, snap := x, snapSeq := q.snapSeq + 1, snapQ := x.q, stall := x.stall, snapNew := true })) ∧
    (g < ready → exec (.qdSnapshotPublish d) s = .next s))

/-! Outputs: the edge queue, the edge sequencer, pairs and pattern units (chapters 6 and 7). -/
namespace Sys2Proof.Claims

/-- An output with an edge kept: its launch on the 2 tq grid lout before its time, lengthened by R178, on the fine-delay unit that did not take the edge before. -/
def withEdge (u : State) (n : Nat) (t : Int) (level : Bool) (o : ChOut) : ChOut :=
  let c := match o.lastKept with
    | some (p, _) => widthShift n (u.clus (n / 32)).minpwGuard (t - p)
    | none => 0
  { o with
    computed := o.computed ++ [{ t := t, level := level, launch := (t - u.lout n + 1) / 2 * 2 + c, unit1 := !o.lastUnit1 }]
    tracked := level, lastUnit1 := !o.lastUnit1 }

/-- What the sequencer makes of an edge (R174 to R177): one that changes nothing vanishes; one within 3,200 tq of the edge kept before it makes a short pulse, which is
counted and vanishes whole, or, where its start has been launched or SHORT_POL asks for it, ends 3,200 tq after its start. -/
def sequenced (u : State) (n : Nat) (t : Int) (level : Bool) (o : ChOut) : ChOut :=
  if o.tracked = level then o
  else
    match o.lastKept with
    | none => withEdge u n t level o
    | some (p, launched) =>
      if p + 3200 ≤ t then withEdge u n t level o
      else if launched = false ∧ o.shortPol = false then { o with shortCnt := o.shortCnt + 1, computed := o.computed.dropLast, tracked := level }
      else withEdge u n (p + 3200) level { o with shortCnt := o.shortCnt + 1 }

/-- What the queue presents after an edge of it at `t` (R193): the level of a kept edge; of one that vanished with the edge before it, the level
before both, where a kept edge of the queue gave one. -/
def queueSees (before : Bool) (t : Int) (level : Bool) (o : ChOut) : ChOut :=
  if before = level then o
  else if o.computed.getLast?.any fun e => decide (t ≤ e.t) then { o with qKept := o.qKept + 1, qLevel := some level }
  else { o with qKept := o.qKept - 1, qLevel := if o.qKept ≤ 1 then none else some level }

/-- The edge on which a firmware push acts: the next one, where the microengine of the channel's cluster writes on the present one (R258). -/
def afterMe (s : State) (n : Nat) : State := if (s.me (n / 32)).wrAt = some s.edge then s.runTo (s.edge + 12800) else s

/-- The CCLK edge at which an edge is computed (R173). -/
def computeAt (s : State) (t : Int) : Nat := (((t - 1433600 - s.off).toNat + 12799) / 12800) * 12800

/-- A push of four words (R179 to R181): reserved bits refuse it, a full queue counts it, a time less than 1,600,000 tq ahead makes it late: dropped, or kept with LATE_ASAP. -/
def pushed (u : State) (n : Nat) (w0 w1 w2 w3 : W32) : State :=
  let o := (u.chan n).out
  let t := dtcOf w0 w1 w2 + u.tb.wraps * 2 ^ 80
  let late : Bool := t < u.ext + 1600000
  let counted (o : ChOut) : ChOut := if late then { o with lateCnt := o.lateCnt + 1, lateSeen := true } else o
  if reserved w2 0x7F00FFFF ∨ reserved w3 3 then (u.runTo u.edge).report 2 3 n w2 0
  else if 256 ≤ o.queue.length then u.modOut n fun o => { o with fullCnt := o.fullCnt + 1 }
  else if late ∧ o.lateAsap = false then u.modOut n counted
  else u.modOut n fun o => { counted o with
    queue := o.queue ++ [
      { t := t, level := bit w3 0, event := bit w3 1, late := late, disorder := o.lastPush.elim false fun p => decide (t ≤ p)
        dt := 2 * (if bit w3 0 then (u.chan (n / 2 * 2)).pr.dtA else (u.chan (n / 2 * 2)).pr.dtB)
        sp := (u.chan (n / 2 * 2 + if bit w3 0 then 0 else 1)).out.shortPol }]
    lastPush := some t, hwm := max o.hwm (o.queue.length + 1) }

end Sys2Proof.Claims

/-- Edge queues and the sequencer (R173 to R183, R194, R204): a push and a forwarded descriptor, the edge computed from the queue, from the pattern unit or at a change of source, a pair's X edge
with its dead time, the launch and the event. -/
def Obligations.OutputsPlaceEdges : Prop :=
  (∀ (n : Fin 128) (w0 w1 w2 w3 : W32) (s : State),
    exec (.chEqPush n w0 w1 w2 w3) s = .next (pushed ((afterMe s n).modOut n fun o => { o with push0 := w0, push1 := w1, push2 := w2 }) n w0 w1 w2 w3)) ∧
  (∀ (q : Fin 4) (s : State) (w0 w1 w2 w3 : W32) (l : List W32), (s.qpAt q).h2d = w0 :: w1 :: w2 :: w3 :: l →
    let n := bits w2 30 24
    let bound := (s.chan n).out.qpBind = true ∧ (s.chan n).out.qp = q
    let taken (u : State) : State := u.modQp q fun k => { k with h2d := l, h2dCons := k.h2dCons + 4 }
    ((q : Nat) ≠ 3 → s.pwr.mcUp = true → bound → (s.chan n).out.queue.length < 256 ∨ reserved w2 0x7F00FFFF = true ∨ reserved w3 3 = true →
      exec (.qpDescriptorForward q) s = .next (pushed (taken (afterMe s n)) n w0 w1 w2 w3).lines) ∧
    ((q : Nat) ≠ 3 → s.pwr.mcUp = true → ¬ bound → exec (.qpDescriptorForward q) s = .next ((taken s).report 2 2 q w2 0).lines) ∧
    ((q : Nat) ≠ 3 → s.pwr.mcUp = true → bound → reserved w2 0x7F00FFFF = false → reserved w3 3 = false → 256 ≤ (s.chan n).out.queue.length →
      exec (.qpDescriptorForward q) s = .next ((afterMe s n).modOut n fun o => { o with fullCnt := o.fullCnt + 1 }))) ∧
  (∀ (n : Fin 128) (s : State), s.paired n = false → s.srcChangeAt n = none →
    (∀ (d : Desc) (l : List Desc), (s.chan n).out.srcPu = false → (s.chan n).out.entered = [] → (s.chan n).out.queue = d :: l → d.disorder = false →
      let u := s.runTo (if d.late then s.edge else computeAt s d.t)
      let x : Int := if d.late then ((u.ext + 409600 + 3199) / 3200 * 3200 : Nat) + u.lout n else d.t
      Answers (.edgeCompute n) s fun t =>
        (t.chan n).out = queueSees (u.chan n).out.tracked x d.level (sequenced u n x d.level { (u.chan n).out with
          queue := l, events := if d.event then insertEvent x .queue (u.chan n).out.events else (u.chan n).out.events }) ∧
        (∀ m : Fin 128, m ≠ n → t.chan m = s.chan m) ∧ Same [.tb, .ch, .ic, .perf, .pwr] s t) ∧
    (∀ (d : Desc) (l : List Desc), (s.chan n).out.srcPu = false → (s.chan n).out.entered = [] → (s.chan n).out.queue = d :: l → d.disorder = true →
      exec (.edgeCompute n) s = .next ((s.runTo s.edge).modOut n fun o => { o with queue := l, orderCnt := o.orderCnt + 1 })) ∧
    (∀ (e : Entry) (l : List Entry), (s.chan n).out.srcPu = true → (s.chan n).out.entered = e :: l →
      let u := s.runTo (computeAt s e.t)
      exec (.edgeCompute n) s = .next (u.modOut n fun o => sequenced u n e.t e.level { o with entered := l }))) ∧
  (∀ (n : Fin 128) (s : State) (b : Nat) (v : Bool), s.paired n = false → s.nextEdge n = some (.change b v) →
    let u := s.runTo (computeAt s b)
    Answers (.edgeCompute n) s fun t =>
      (t.chan n).out = sequenced u n b v { (u.chan n).out with chgDone := true } ∧
      (∀ m : Fin 128, m ≠ n → t.chan m = s.chan m) ∧ Same [.tb, .ch, .ic, .perf, .pwr] s t) ∧
  (∀ (n : Fin 128) (s : State) (e : NextEdge) (x : Int), s.paired n = true → s.nextEdge (n / 2 * 2) = some e → e.time = some x →
    (s.chan (n / 2 * 2)).out.onReq = none → (s.chan (n / 2 * 2 + 1)).out.onReq = none → (s.chan (n / 2 * 2)).pr.resumeAt = none →
    exec (.edgeCompute n) s = .next (((s.runTo (computeAt s x)).takeEdge (n / 2 * 2) e).runNext (n / 2 * 2) e)) ∧
  (∀ (u : State) (k : Fin 64) (x : Int) (on : Bool) (dt : Nat) (sp : Bool), let a := 2 * k.val
    let o := if on then a else a + 1
    let p := if on then a + 1 else a
    (u.chan a).pr.xOn ≠ on → (u.chan p).out.onReq = none → (u.chan p).out.pairOn = false →
    ((u.xEdge a x on (some (dt, sp))).chan o).out = { (u.chan o).out with onReq := some ((u.chan p).out.lastOff.elim x (max x) + (dt : Int)), onPol := sp } ∧
    ((u.xEdge a x on (some (dt, sp))).chan p).out = (u.chan p).out ∧ ((u.xEdge a x on (some (dt, sp))).chan a).pr.xOn = on) ∧
  (∀ (n : Fin 128) (s : State) (e : OutEdge) (l : List OutEdge), (s.chan n).out.computed = e :: l →
    exec (.edgeLaunch n) s = .next (((s.runTo (e.launch - s.off).toNat).modOut n fun o =>
      { o with computed := l, lastT := some e.t, driven := e.level, edgeCnt := o.edgeCnt + 1 }).pcAdd (32 + n / 32) 1)) ∧
  (∀ (n : Fin 128) (s : State) (x : Int) (e : OutEvent) (l : List (Int × OutEvent)), (s.chan n).out.events = (x, e) :: l →
    let u := (s.runTo ((((x - s.off).toNat + 12799) / 12800) * 12800)).modOut n fun o => { o with events := l }
    exec (.outputEvent n) s = .next ((u.raise n).event (n / 32) 1 (n % 32 * 4 + match e with | .zero => 0 | .period => 1 | .compare => 2 | .queue => 3)))

/-- The launch of an edge whose width asks for no correction (R174): whole TCLK periods and a fine delay from 0 to 3,198 tq, which is (T - Lout) mod 3,200 rounded to the nearest
multiple of 2 tq with an odd value upward; 3,200 is 0 on the next period; the edge reaches the reference plane at T or 1 tq later. -/
def Obligations.LaunchTimesAreSplit : Prop :=
  ∀ (u : State) (n : Fin 128) (t : Int) (level : Bool),
    (∀ p l, (u.chan n).out.lastKept = some (p, l) → t - p < 3200 ∨ 3200 + ((u.clus (n / 32)).minpwGuard : Int) ≤ t - p) →
    let x := t - u.lout n
    let r := x % 3200 + x % 3200 % 2
    ∃ (e : OutEdge) (periods fine : Int), ((u.place n t level).chan n).out.computed = (u.chan n).out.computed ++ [e] ∧
      e.t = t ∧ e.level = level ∧ e.launch = 3200 * periods + fine ∧ 0 ≤ fine ∧ fine ≤ 3198 ∧ fine % 2 = 0 ∧
      (r < 3200 → fine = r ∧ periods = x / 3200) ∧ (3200 ≤ r → fine = 0 ∧ periods = x / 3200 + 1) ∧
      0 ≤ e.launch + u.lout n - t ∧ e.launch + u.lout n - t ≤ 1

namespace Sys2Proof.Claims

/-- A write of a pattern unit refused (R186): WR_REJ and a report. -/
def writeRefused (u : State) (n : Nat) (v : W32) : State := (u.modPu n fun x => { x with wrRej := true }).report 5 1 n v 0

/-- PER and CMP fit each other in a mode (R186). -/
def Fits (mode per cmp : Nat) : Prop := if 0xFFFFFFFE ≤ cmp then mode = 3 else cmp < per

/-- The active values with the written shadows, and the check of R184 and R192 on them. -/
def MergedFits (x : PatUnit) : Prop := Fits x.mode x.merged.per x.merged.cmp ∧ (x.run = true → 6400 ≤ x.merged.per * 2 ^ (x.pre + 1))

/-- A period that a unit's active CMP allows (R186), long enough for a unit that runs (R184). -/
def PerFits (x : PatUnit) (v : Nat) : Prop := (0xFFFFFFFE ≤ x.act.cmp ∨ x.act.cmp < v) ∧ (x.run = true → 6400 ≤ v * 2 ^ (x.pre + 1))

/-- The active values with one of the burst values written. -/
def burstSet (a : PuVals) (r : PuReg) (v : Nat) : PuVals :=
  match r with
  | .npulse => { a with npulse := v }
  | .bper => { a with bper := v }
  | .nburst => { a with nburst := v }
  | _ => a

/-- A unit whose shadows have been handed over. -/
def handed (x : PatUnit) (old : Option (PuVals × Nat)) : PatUnit :=
  { x with act := x.merged, written := PuWritten.none, shadowLate := false, cmdPend := false, old := old }

/-- An edge of the unit entered, if it changes the unit's state (R187). -/
def unitEdge (u : State) (n : Nat) (t : Int) (on : Bool) : State :=
  if (u.chan n).pu.asserted = on then u
  else (u.modPu n fun x => { x with asserted := on }).modOut n fun o =>
    { o with entered := o.entered ++ [
        { t := t, level := u.unitLevel n on, dt := u.deadTime (n / 2 * 2 + if on then 0 else 1)
          sp := (u.chan (n / 2 * 2 + if on then 0 else 1)).out.shortPol }] }

end Sys2Proof.Claims

/-- Pattern units (R184 to R193): a write in IMMEDIATE mode without LOCK acts at once if PER and CMP fit, and any write goes to the shadow; a hand-over moves every written shadow
if the result fits, and refuses all of it otherwise; clearing LOCK in IMMEDIATE mode acts at once; a period starts with an assertion, its compare ends the assertion, and the
next period follows or the unit stops; a unit whose channel turns to its queue stops at that boundary. -/
def Obligations.PatternUnitsRun : Prop :=
  (∀ (n : Fin 128) (v : W32) (s : State),
    let u := (afterMe s n).snapShadows n
    let x := (u.chan n).pu
    let atOnce := x.upd = 0 ∧ x.lock = false
    (atOnce → Fits x.mode x.act.per v.toNat → exec (.puCmpWrite n v) s = .next (u.modPu n fun x =>
      { x.immCmp (x.count u.ext) v.toNat with shadow := { x.shadow with cmp := v.toNat } })) ∧
    (atOnce → ¬ Fits x.mode x.act.per v.toNat → exec (.puCmpWrite n v) s = .next (writeRefused u n v)) ∧
    (¬ atOnce → 0xFFFFFFFE ≤ v.toNat → x.mode ≠ 3 → exec (.puCmpWrite n v) s = .next (writeRefused u n v)) ∧
    (¬ atOnce → v.toNat < 0xFFFFFFFE ∨ x.mode = 3 → exec (.puCmpWrite n v) s = .next ((u.modPu n fun x => x.store .cmp v.toNat).noteLate n)) ∧
    (atOnce → PerFits x v.toNat → exec (.puPerWrite n v) s = .next (u.modPu n fun x =>
      { x.immPer (x.count u.ext) v.toNat with shadow := { x.shadow with per := v.toNat } })) ∧
    (atOnce → ¬ PerFits x v.toNat → exec (.puPerWrite n v) s = .next (writeRefused u n v)) ∧
    (¬ atOnce → exec (.puPerWrite n v) s = .next ((u.modPu n fun x => x.store .per v.toNat).noteLate n)) ∧
    exec (.puShadowWrite n .cmp v) s = exec (.puCmpWrite n v) s ∧ exec (.puShadowWrite n .per v) s = exec (.puPerWrite n v) s ∧
    (∀ r ∈ [PuReg.npulse, PuReg.bper, PuReg.nburst],
      (atOnce → exec (.puShadowWrite n r v) s = .next (u.modPu n fun x =>
        { x with act := burstSet x.act r v.toNat, shadow := burstSet x.shadow r v.toNat })) ∧
      (¬ atOnce → exec (.puShadowWrite n r v) s = .next ((u.modPu n fun x => x.store r v.toNat).noteLate n)))) ∧
  (∀ (x : PatUnit) (c v : Nat), x.started = true → v < 0xFFFFFFFE →
    (c < v → x.immCmp c v = { x with act := { x.act with cmp := v }, cmpN := v, matched := false, quiet := false }) ∧
    (v ≤ c → x.immCmp c v = { x with act := { x.act with cmp := v }, matched := true })) ∧
  (∀ (x : PatUnit) (c v : Nat), x.started = true → x.immPer c v = { x with act := { x.act with per := v }, perN := if c < v then v else c + 1 }) ∧
  (∀ (n : Fin 128) (s : State),
    let u := (afterMe s n).snapShadows n
    let x := (u.chan n).pu
    let v := u.modPu n fun x => { x with lock := false }
    (x.lock = false ∨ x.written.any = false → exec (.puLockClear n) s = .next v) ∧
    (x.lock = true → x.written.any = true → x.upd ≠ 0 → exec (.puLockClear n) s = .next (v.noteLate n)) ∧
    (x.lock = true → x.written.any = true → x.upd = 0 → MergedFits x →
      Answers (.puLockClear n) s fun t =>
        let y := (t.chan n).pu
        y.act = x.merged ∧ y.written = PuWritten.none ∧ y.lock = false ∧ y.shadow = x.shadow ∧
        (x.started = false → y.perN = x.perN ∧ y.cmpN = x.cmpN ∧ y.matched = x.matched) ∧
        (x.started = true → y.perN = (if x.written.per then (if x.count u.ext < x.shadow.per then x.shadow.per else x.count u.ext + 1) else x.perN)) ∧
        (∀ m : Fin 128, m ≠ n → t.chan m = u.chan m)) ∧
    (x.lock = true → x.written.any = true → x.upd = 0 → ¬ MergedFits x →
      exec (.puLockClear n) s = .next ((v.modPu n fun x => { x with hoRej := true }).report 5 2 n (BitVec.ofNat 32 x.merged.cmp) 0))) ∧
  (∀ (n : Fin 128) (s : State) (cyc : Nat), s.handoverCycle n = some cyc → (s.chan n).pu.hoCycle ≠ some cyc →
    let u := (s.runTo (cyc * 12800)).modPu n fun x => { x with hoCycle := some cyc }
    let x := (s.chan n).pu
    (x.lock = true ∨ x.written.any = false → exec (.puHandover n) s = .next u) ∧
    (x.lock = false → x.written.any = true → ¬ MergedFits x →
      exec (.puHandover n) s = .next ((u.modPu n fun x => { x with hoRej := true }).report 5 2 n (BitVec.ofNat 32 x.merged.cmp) 0)) ∧
    (x.lock = false → x.written.any = true → MergedFits x →
      exec (.puHandover n) s = .next (u.modPu n fun x => handed x (if x.upd = 2 then some (x.valsAt (u.ext + 1600000), u.tb.tickEnd) else none)))) ∧
  (∀ (n : Fin 128) (s : State), (s.chan n).pu.run = true → s.paired n = false ∨ (n : Nat) % 2 = 0 →
    let x := (s.chan n).pu
    let at_ (t : Int) := s.runTo (t - 1600000 - s.off).toNat
    let start := if x.started then x.s + (x.perN * 2 ^ (x.pre + 1) : Nat) else (x.t0 : Int)
    let compare := x.s + (x.cmpN * 2 ^ (x.pre + 1) : Nat)
    let sel (t : Int) : Prop := ∀ b, s.srcChangeAt n = some b → t < (b : Int)
    (∀ b, s.srcChangeAt n = some b → (b : Int) ≤ x.next.1 →
      let v := (at_ b).puStop n b
      exec (.puGenerate n) s = .next (if x.started then v.puEvent n b .period x.pidx else v)) ∧
    (sel compare → x.started = true → x.matched = false → x.cmpN < x.perN →
      let v := unitEdge ((at_ compare).modPu n fun x => { x with matched := true }) n compare false
      exec (.puGenerate n) s = .next (if x.quiet then v else v.puEvent n compare .compare x.pidx)) ∧
    (sel start → x.started = false → exec (.puGenerate n) s = .next (((at_ start).snapShadows n).puBegin n start 0 0 0)) ∧
    (sel start → x.started = true → x.matched = true ∨ x.perN ≤ x.cmpN → exec (.puGenerate n) s = .next (((at_ start).snapShadows n).puEnd n start))) ∧
  (∀ (u : State) (n : Fin 128) (t : Int) (idx pos grp : Nat),
    let x := (u.chan n).pu
    let v := x.valsAt t
    let pulse : Bool := x.mode ≠ 2 || decide (pos < v.npulse)
    let w := unitEdge (u.modPu n fun x =>
      { x with
        started := true, s := t, perN := v.per, cmpN := v.cmp, pidx := idx % 2 ^ 64, grpPos := pos, grpNo := grp, pulsing := x.mode = 2 && pulse
        matched := decide (0xFFFFFFFE ≤ v.cmp), quiet := false }) n t (if v.cmp = 0xFFFFFFFF then false else pulse)
    u.puBegin n t idx pos grp = (w.puEvent n t .zero idx).puResume n t) ∧
  (∀ (u : State) (n : Fin 128) (t : Int),
    let x := (u.chan n).pu
    let bper := (x.valsAt t).bper
    (x.lastPeriod t = true → ((u.puEnd n t).chan n).pu.run = false ∧ ((u.puEnd n t).chan n).pu.done = true ∧ ((u.puEnd n t).chan n).pu.asserted = false) ∧
    (x.lastPeriod t = false → x.grpPos + 1 < bper → u.puEnd n t = (u.puBegin n t (x.pidx + 1) (x.grpPos + 1) x.grpNo).puEvent n t .period x.pidx) ∧
    (x.lastPeriod t = false → bper ≤ x.grpPos + 1 → u.puEnd n t = (u.puBegin n t (x.pidx + 1) 0 (x.grpNo + 1)).puEvent n t .period x.pidx))

/-! Brakes and timers (R209 to R215, R291 to R299). -/
namespace Sys2Proof.Claims

/-- The first TCLK sample at or after an instant (R210). -/
def sampleAt (p : Nat) : Nat := (p + 3199) / 3200 * 3200

/-- No raw level of the brake has lasted DEB samples without its change being counted yet. -/
def Settled (k : Brake) (now : Nat) : Prop := k.en = false ∨ k.raw = k.active ∨ now ≤ k.debAt

/-- A brake input with its last change of level seen by a sample, if one has passed since. -/
def seenBy (k : Brake) (now : Nat) : Brake := if k.ballAt < now then k.sample else k

/-- The channels that a brake guards. -/
def guarded (u : State) (b : Nat) : List Nat := (List.range 128).filter fun n => (u.guardOf n).testBit b

/-- What a trip tells: a report with its time, its source and event, a notice, and the count of trips (R211, R383, R389, R401). -/
def tripTold (u : State) (b : Nat) : State :=
  let t := u.dtcAt u.now
  ((((u.report 5 3 b 0 (BitVec.ofNat 32 t)).raise (224 + b)).event 4 6 b).notice 5 (BitVec.ofNat 32 (2 ^ b) :: dtcWords t)).pcAdd 59 1

end Sys2Proof.Claims

/-- Brake inputs (R209 to R214): a change of level that a sample sees starts the debouncer there, one that no sample sees leaves no trace; DEB samples of the active level trip the brake, which holds every channel that it
guards; the inactive level ends the debounced state after DEB samples and meets the quiet time after its length; a held channel resumes at S. -/
def Obligations.BrakesHoldTheirChannels : Prop :=
  (∀ (b : Fin 8) (d : Nat) (s : State),
    let u := s.advance d
    Settled (seenBy (u.brkAt b) u.now) u.now →
      exec (.brakeInputChange b d) s = .next (u.modBrk b fun k => { seenBy k u.now with ball := !k.ball, ballAt := sampleAt u.now })) ∧
  (∀ k : Brake,
    let glitch := k.active = false ∧ (k.ballAt - k.rawAt) / 3200 < k.deb
    (k.seen = k.ball → k.sample = k) ∧
    (k.seen ≠ k.ball → k.raw = false → k.sample = { k with seen := k.ball, rawAt := k.ballAt, quietOk := false }) ∧
    (k.seen ≠ k.ball → k.raw = true → ¬ glitch → k.sample = { k with seen := k.ball, rawAt := k.ballAt, quietFrom := k.ballAt }) ∧
    (k.seen ≠ k.ball → k.raw = true → glitch → k.sample = { k with
      seen := k.ball, rawAt := k.ballAt, quietFrom := k.ballAt, glitchCnt := if k.glitchCnt < 65535 then k.glitchCnt + 1 else 65535 })) ∧
  (∀ (b : Fin 8) (s : State), s.pwr.startup ≠ .held →
    let k := (s.brkAt b).sample
    k.en = true → k.raw = true → k.active = false →
    let u := (s.runTo (k.rawAt + (k.deb - 1) * 3200)).modBrk b fun k =>
      { k.sample with active := true, tripped := true, tripCnt := if k.tripCnt < 65535 then k.tripCnt + 1 else 65535 }
    exec (.brakeTrip b) s = .next (tripTold ((guarded u b).foldl State.hold u) b)) ∧
  (∀ (u : State) (b : Nat), let v := (guarded u b).foldl State.hold u
    ∀ n : Fin 128,
      ((u.guardOf n).testBit b = true →
        (v.chan n).pr.held = true ∧ (v.chan n).pr.resumePend = false ∧ (v.chan n).pr.resumeAt = none ∧
        (v.chan n).pr.holds = (if (u.chan n).pr.held = true ∧ (u.chan n).pr.resumePend = false then (u.chan n).pr.holds else (u.chan n).pr.holds + 1)) ∧
      ((u.guardOf n).testBit b = false → (v.chan n).pr = (u.chan n).pr) ∧ (v.chan n).out = (u.chan n).out ∧ (v.chan n).pu = (u.chan n).pu) ∧
  (∀ (b : Fin 8) (s : State),
    let k := (s.brkAt b).sample
    (k.raw = false → k.active = true →
      exec (.debouncedInactive b) s = .next ((s.runTo (k.rawAt + (k.deb - 1) * 3200)).modBrk b fun k => { k.sample with active := false })) ∧
    (k.en = true → k.raw = false → k.quietOk = false →
      exec (.quietTimeMet b) s = .next ((s.runTo (k.quietFrom + k.quietUs * 8000000)).modBrk b fun k => { k.sample with quietOk := true }))) ∧
  (∀ (n : Fin 128) (s : State) (r : Int), (s.chan n).pr.resumePend = true → (s.chan n).pr.resumeAt = some r →
    exec (.brakeResume n) s = .next ((s.runTo (r - s.off).toNat).modPr n fun p => { p with held := false, resumePend := false, resumeAt := none, forced := false }))

namespace Sys2Proof.Claims

/-- No timer is linked to timer n (R291, R294). -/
def Alone (u : State) (n : Nat) : Prop := ∀ k : Fin 32, ¬ ((u.timAt k).linked = true ∧ (u.timAt k).master = n)

end Sys2Proof.Claims

/-- Timers (R291 to R295, R298, R299): START loads PHASE, clears DONE and runs the timer and its START slaves; STOP stops them; SYNC loads PHASE; CLR_FLAGS clears the three
flags but for those set on its edge; a count at TOP starts again at 0 with OVF, or ends a ONESHOT run; a count that reaches CMP gives its event; TRIGB captures CNT as it stood before
the edge, and TRIGA starts, or counts for, the timer. Microengine writes of an edge act after firmware's. -/
def Obligations.TimersCount : Prop :=
  (∀ (n : Fin 32) (s : State), Alone s.onEdge n →
    let u := s.onEdge.timSyncAllTo s.onEdge.now
    let e := s.onEdge.now
    exec (.gptStart n) s = .next (u.modTim n fun t => { t.rest e with cnt := t.phase, pre := 0, at_ := e, run := true, done := false }).timSettle ∧
    exec (.gptSync n) s = .next (u.modTim n fun t => { t.rest e with cnt := t.phase, pre := 0, at_ := e }).timSettle ∧
    (u.timCounts n = false ∨ e < (u.timAt n).dueAt →
      exec (.gptStop n) s = .next ((u.timSyncTo n e).modTim n fun t => { t with run := false }).timSettle)) ∧
  (∀ (n k : Fin 32) (s : State), (s.onEdge.timAt k).slave = 1 → (s.onEdge.timAt k).master = n → (∀ w ∈ s.onEdge.timWr, s.onEdge.now < w.at_) →
    Answers (.gptStart n) s (fun t => ∀ i ∈ [n, k], (t.timAt i).run = true ∧ (t.timAt i).done = false ∧ (t.timAt i).cnt = (s.onEdge.timAt i).phase) ∧
    Answers (.gptSync n) s (fun t => ∀ i ∈ [n, k], (t.timAt i).cnt = (s.onEdge.timAt i).phase) ∧
    Answers (.gptStop n) s (fun t => ∀ i ∈ [n, k], (t.timAt i).run = false)) ∧
  (∀ (n : Fin 32) (s : State), exec (.gptClrFlags n) s = .next (s.onEdge.modTim n fun t =>
    { t with ovf := t.ovf && decide (t.ovfAt = s.onEdge.now), capf := t.capf && decide (t.capAt = s.onEdge.now), capOvr := false }).timSettle) ∧
  (∀ (n : Fin 32) (s : State), Alone (s.timLead n) n → (s.timLead n).timCounts n = true →
    ((s.timLead n).timAt n).pre < 2 ^ ((s.timLead n).timAt n).psc →
    let k := (s.timLead n).timAt n
    let u := ((s.timLead n).runTo k.dueAt).timSyncTo n k.dueAt
    (¬ (k.cnt < k.cmp ∧ k.cmp ≤ k.top) →
      let v := (u.modTim n fun t =>
        if t.oneshot then { t.rest k.dueAt with run := false, done := true, pre := 0, at_ := k.dueAt }
        else { t.rest k.dueAt with cnt := 0, ovf := true, ovfAt := k.dueAt, pre := 0, at_ := k.dueAt }).timOutput n 0
      exec (.gptTopEvent n) s = .next (if k.oneshot = false ∧ k.cmp = 0 then v.timOutput n 1 else v) ∧ max k.cnt k.top = (u.timAt n).cnt) ∧
    (k.cnt < k.cmp → k.cmp ≤ k.top →
      exec (.gptCmpEvent n) s = .next ((u.modTim n fun t => { t.rest k.dueAt with cnt := t.cmp, pre := 0, at_ := k.dueAt }).timOutput n 1))) ∧
  (∀ (n : Fin 32) (s : State) (x : Nat),
    let a := (s.timAt n).pendA.head?
    let b := (s.timAt n).pendB.head?
    let u := ((s.runTo x).timSettleBy x).timSyncTo n x
    let k := u.timAt n
    let v := u.modTim n fun t => { t with pendA := t.pendA.tail }
    let got := (u.modTim n fun t => { t with
      pendB := t.pendB.tail, cap := if t.at_ = x then t.before else t.cnt, capOvr := t.capOvr || t.capf, capf := true, capAt := x }).timOutput n 2
    (a = none → b = some x → k.capEn = true → exec (.gptTrigger n) s = .next got) ∧
    (a = none → b = some x → k.capEn = false → exec (.gptTrigger n) s = .next (u.modTim n fun t => { t with pendB := t.pendB.tail })) ∧
    (a = some x → b = none → k.run = false → k.trigStart = true → exec (.gptTrigger n) s = .next (v.timStart n x)) ∧
    (a = some x → b = some x → k.capEn = true → (got.timAt n).run = false → (got.timAt n).trigStart = true →
      exec (.gptTrigger n) s = .next ((got.modTim n fun t => { t with pendA := t.pendA.tail }).timStart n x)) ∧
    (a = some x → b = none → k.run = true → k.src = 1 → k.slave ≠ 4 → v.frozen n = true ∨ v.gateOpen n = false →
      exec (.gptTrigger n) s = .next v) ∧
    (a = some x → b = none → k.run = true → k.src = 1 → k.slave ≠ 4 → v.frozen n = false → v.gateOpen n = true → k.pre + 1 < 2 ^ k.psc →
      exec (.gptTrigger n) s = .next (v.modTim n fun t => { t.rest x with pre := t.pre + 1 })) ∧
    (a = some x → b = none → k.run = true → k.src = 1 → k.slave ≠ 4 → v.frozen n = false → v.gateOpen n = true → 2 ^ k.psc ≤ k.pre + 1 →
      exec (.gptTrigger n) s = .next (v.count n x)) ∧
    (a = some x → b = none → (k.run = true → k.src ≠ 1 ∨ k.slave = 4) → (k.run = false → k.trigStart = false) →
      exec (.gptTrigger n) s = .next v))

/-! Time scale, calendar and reference (chapter 2, R447 to R453). -/
namespace Sys2Proof.Claims

/-- The state on the CCLK edge at or after now. -/
def atEdge (s : State) : State := s.runTo ((s.now + 12799) / 12800 * 12800)

/-- A counter that stops at a top value. -/
def upTo (top n : Nat) : Nat := if n < top then n + 1 else top

/-- What an armed AT_PPS step becomes at a qualified edge with stamp c (R49, R50): a multiple of 12,800 tq and a residual. -/
def stamped (u : State) (c : Int) : Option StepPend :=
  match u.tb.step with
  | some (.atPps v) =>
    let exact := ((v + u.tb.wraps * 2 ^ 80 : Nat) : Int) - (c - u.pps.comp)
    let grid := (2 * exact + 12800) / 25600 * 12800
    some (.stamped grid (exact - grid))
  | x => x

/-- The frame that carries a step stamped by an edge of stamp c goes to the followers of a leader (R71). -/
def stampCarried (u : State) (c : Int) : Basxus :=
  match stamped u c, u.tb.step with
  | some (.stamped grid _), some (.atPps _) => if u.bx.leader = true ∧ u.bx.dn.link = .up then { u.bx with ctlSent := .step grid :: u.bx.ctlSent } else u.bx
  | _, _ => u.bx

/-- An edge in its window steers the internal oscillator in STEER, outside LOCKED, within 20 ppm (R46); the loop's law is free (log 128). -/
def steered (u : State) (off : Int) : Reference :=
  if u.pps.mode = 2 ∧ u.ref.state ≠ .locked then
    let z := Config.steerLoop off u.ref.osc.steer u.ref.osc.steerInt
    { u.ref with osc := { u.ref.osc with steer := max (-20000) (min 20000 z.1), steerInt := z.2 } }
  else u.ref

/-- A calendar setting applied at a second mark (R453). -/
def rtcSetAt (u : State) (a : RtcArmed) (mark : Int) : Rtc :=
  let back := u.rtc.xtalRuns || Config.xclkRuns u.now
  { u.rtc with
    slaved := some (a.sec, mark), anchor := unsigned 80 mark, slavedAt := u.now, set := true, bkpLost := false, xtalFail := u.rtc.xtalFail && !back
    xtalRuns := back, offset := if a.setOffset then a.offset else u.rtc.offset, armed := none }

end Sys2Proof.Claims

/-- Events of the time scale (R42, R43, R45 to R51, R58): a capture takes the DTC of its edge, with a step that falls due on it; the DTC wraps to 0 with EPOCH_WRAP; the phase
shifter ends a residual at 100 tq in a millisecond; a PPSIN edge is qualified when its level stays and 0.9 s have passed, is stamped, compared with the nearest second mark, steers the oscillator in
STEER and stamps a step that waits for it; 1.1 s without one is a loss; PPSOUT rises at its second mark plus the offset. Events of the calendar clock (R447 to R453): second marks and the settings that wait for one; the latch of RTC_SUB; the trim, the pending offset, XCLK's failure, the change to
VBAT and the loss of the domain, which clears the volatile keys. -/
def Obligations.TimeEventsDo : Prop :=
  (
  (∀ s : State,
    let u := atEdge s
    let got (c : Nat) := exec .tsCapture s = .next { u with tb := { u.tb with cap := c } }
    (u.ext ≠ u.tb.tickEnd ∨ u.stepAllowed = false ∨ u.stepDue u.tb.tickEnd = none → got u.tb.dtc) ∧
    (∀ d r b, u.ext = u.tb.tickEnd → u.stepAllowed = true → u.stepDue u.tb.tickEnd = some (d, r, b) → got (((u.tb.dtc : Int) + d) % 2 ^ 80).toNat)) ∧
  (∀ s : State, s.pwr.startup ≠ .held → s.tb.dtc < 2 ^ 80 →
    Answers .dtcWrap s fun t => t.tb.dtc = 0 ∧ t.tb.wraps = s.tb.wraps + 1 ∧ t.tb.epochWrap = true ∧ t.now = s.now + (2 ^ 80 - s.tb.dtc) ∧
      t.ext = (s.tb.wraps + 1) * 2 ^ 80 ∧ Same [.tb, .ic, .perf, .pwr] s t) ∧
  (∀ s : State, s.pwr.startup = .held → exec .dtcWrap s = .next s) ∧
  (∀ (s : State) (m : PhaseMove), s.tb.slew = some m →
    let u := s.runTo (m.since + m.tq.natAbs * 80000000)
    exec .phaseSlewDone s = .next { u with tb := { u.tb with phase := u.tb.phase + m.tq, slew := none } }) ∧
  (∀ s : State, s.tb.slew = none → exec .phaseSlewDone s = .next s) ∧
  (∀ (d : Nat) (high : Bool) (s : State), s.pwr.startup ≠ .held →
    let u := s.advance d
    let qualified := high = true ∧ ∀ l, u.pps.lastAt = some l → l + 7200000000000 ≤ u.now
    let c := u.ext / 400 * 400
    let off := (c : Int) - u.pps.comp - nearestSecond (c - u.pps.comp)
    let inside := off.natAbs ≤ u.pps.window * 8000
    (¬ qualified → exec (.ppsEdge d high) s = .next { u with pps := { u.pps with glitch := upTo 255 u.pps.glitch } }) ∧
    (qualified → u.pps.mode = 0 →
      exec (.ppsEdge d high) s = .next ({ u with pps := { u.pps with cap := c % 2 ^ 80, lastAt := some u.now } }.raise 236)) ∧
    (qualified → u.pps.mode ≠ 0 →
      Answers (.ppsEdge d high) s fun t =>
        t.pps = { u.pps with
          cap := c % 2 ^ 80, lastAt := some u.now, offset := offsetWord off, state := if inside then 1 else 2
          outWin := if inside then u.pps.outWin else upTo 255 u.pps.outWin } ∧
        t.tb = { u.tb with step := stamped u c } ∧ t.bx = stampCarried u c ∧ t.ref = (if inside then steered u off else u.ref) ∧
        (inside → ∀ a : RtcArmed, u.rtc.armed = some a → a.wait = .pps → t.rtc = rtcSetAt u a (nearestSecond (c - u.pps.comp))) ∧
        ((∀ a : RtcArmed, u.rtc.armed = some a → a.wait ≠ .pps) ∨ ¬ inside → t.rtc = u.rtc) ∧
        Same [.tb, .ref, .pps, .bx, .ic, .perf, .pwr, .rtc] s t)) ∧
  (∀ (x : Int), nearestSecond x % 8000000000000 = 0 ∧ 2 * (nearestSecond x - x) ≤ 8000000000000 ∧ -8000000000000 < 2 * (nearestSecond x - x)) ∧
  (∀ (s : State) (l : Nat), s.pps.lastAt = some l → s.pps.mode ≠ 0 → s.pps.state ≠ 0 →
    let u := s.runTo (l + 8800000000000)
    let v := { u with pps := { u.pps with state := 0, lossCnt := upTo 255 u.pps.lossCnt } }
    exec .ppsLoss s = .next (((v.report 3 2 0 v.ref.word v.pps.word).raise 236).wakeBy 5)) ∧
  (∀ s : State, s.ref.ppsoutMode = 1 ∨ (s.ref.ppsoutMode = 2 ∧ s.ref.state = .locked) →
    let m := s.ppsoutNext
    let u := s.runTo ((m : Int) + s.ref.ppsoutOfs * 3200 - s.off).toNat
    exec .ppsoutPulse s = .next { u with ref := { u.ref with ppsoutMark := some m, ppsoutLow := u.now + u.ref.ppsoutWidth * 8000000 } })) ∧ (
  (∀ s : State, s.pwr.startup ≠ .held →
    let mark (x : Nat) := s.runTo ((x : Int) - s.off).toNat
    ((∀ a : RtcArmed, s.rtc.armed = some a → a.wait = .pps) → exec .secondMark s = .next (mark ((s.ext + 1 + 7999999999999) / 8000000000000 * 8000000000000))) ∧
    (∀ (a : RtcArmed) (x : Nat), s.rtc.armed = some a → a.wait = .mark x →
      let m := if s.ext ≤ x then x else s.ext / 8000000000000 * 8000000000000
      exec .secondMark s = .next { mark m with rtc := rtcSetAt (mark m) a m })) ∧
  (∀ s : State, let t := s.rtcNow
    exec .rtcSubRead s = .next { s with
      rtc := { s.rtc with secLat := BitVec.ofNat 32 t.1 }, lastRead := { bytes := natBytes 4 (BitVec.ofNat 32 t.2).toNat, poisoned := false } }) ∧
  (∀ (n : Int) (s : State), s.rtc.slaved ≠ none → s.pwr.mcUp = true →
    let u := s.runTo (s.rtc.slavedAt + 8000000000000000)
    exec (.rtcTrimMeasure n) s = .next { u with rtc := { u.rtc with trim := BitVec.ofInt 8 (max (-127) (min 127 n)), trimValid := true } }) ∧
  (∀ s : State, s.rtc.ofsPend = true →
    let go (u : State) : Host.Outcome State Fault Refusal := .next { u with rtc := { u.rtc with offset := u.rtc.ofsNext, ofsPend := false } }
    (s.rtc.slaved = none → exec .rtcOffsetApply s = go s) ∧
    (∀ sec d, s.rtc.slaved = some (sec, d) →
      exec .rtcOffsetApply s = go (s.runTo (d + ((s.rtc.ofsAt.toNat : Int) - sec) % 2 ^ 32 * 8000000000000 - s.off).toNat))) ∧
  (∀ s : State, s.rtc.dead = false → s.rtc.vbatNow = false → s.rtc.xtalRuns = true →
    (s.rtc.slaved ≠ none → exec .xtalFail s = .next { s with rtc := { s.rtc with xtalFail := true, xtalRuns := false } }) ∧
    (s.rtc.slaved = none → exec .xtalFail s = .next { s with rtc := { s.rtc with
      xtalFail := true, xtalRuns := false, freeCount := s.rtcNow.1 * 32768 + s.rtcNow.2, freeAt := s.now } })) ∧
  (∀ (b : Bool) (s : State), exec (.backupSwitch b) s = .next { s with rtc := { s.rtc with vbatNow := b, onVbat := s.rtc.onVbat || b } }) ∧
  (∀ s : State, Answers .backupDomainLost s fun t =>
    t.rtc = { Rtc.reset with vbatNow := s.rtc.vbatNow, dead := true } ∧ t.tamper = Tamper.reset ∧
    t.sec = { s.sec with keys := false, coKey := none, userKeys := Vector.replicate 7 none, sealHash := none } ∧
    Same [.ch, .cl, .env, .st, .qp, .ic, .sec, .tamper, .pwr, .rtc] s t))

namespace Sys2Proof.Claims

/-- The mean of the offsets that the valid windows of the last 100 ms showed. -/
def meanShown (r : Reference) : Int :=
  let l := r.osc.recent.filterMap id
  if l = [] then 0 else divNearest l.sum l.length

/-- A slew of the oscillator from the frequency it has now to another (R38): at 1 ppm/s from READY on, at full rate before. -/
def movedTo (u : State) (r : Reference) (target : Int) : Osc :=
  let present := r.osc.held - if r.slew = .none then 0 else r.osc.left u.now
  { r.osc with held := target, diff := target - present, since := u.now, slow := decide (u.pwr.startup = .ready) }

/-- The reference r of a state after its loss (R36, R37, R483): the oscillator keeps the offset of the last 100 ms in HOLDOVER, and returns to what it held from a
failed attempt. -/
def lost (u : State) (r : Reference) : Reference :=
  let c := { r with source := none, nominal := 0, badRun := 0, validRun := 0, runKey := 0 }
  let z := if r.source = some .bxUp then Config.bxOffset u.now else meanShown r
  match r.state with
  | .locked => { c with state := .holdover, lossCnt := upTo 255 r.lossCnt, osc := { r.osc with held := z, corr := z } }
  | .locking => { c with state := if r.fromHoldover then .holdover else .absent, slew := .returning, osc := movedTo u r r.osc.corr }
  | .detecting => { c with state := if r.fromHoldover then .holdover else .absent }
  | _ => r

/-- The offset from its nominal frequency that a valid window shows, in 0.001 ppm. -/
def shown (w : RefWin) (c : WinClass) : Option Int :=
  match c with
  | .valid n => some (divNearest (((w.freq : Int) - nominalHz n) * 1000000000) (nominalHz n))
  | _ => none

/-- The reference registers after a window of class c (R34, R37, R486). -/
def seen (r : Reference) (w : RefWin) (c : WinClass) : Reference :=
  let n := nominalOf w.freq
  { r with
    freqErr := decide (c = WinClass.freqError), levelLow := decide (c = WinClass.levelLow), levelHigh := decide (c = WinClass.levelHigh), missing := false
    lastValid := decide (c.nom ≠ 0), lastNom := c.nom
    level := if w.present then unsigned 16 w.level else 0x8000
    freq := if w.present ∧ n ≠ 0 then BitVec.ofNat 32 (unsigned 32 (divNearest (((w.freq : Int) - nominalHz n) * 1000000000) (nominalHz n))) else r.freq
    osc := { r.osc with
      recent := (shown w c :: r.osc.recent).take 100
      held := if r.state = .locked ∧ r.source = some .refin then (shown w c).getD r.osc.held else r.osc.held } }

/-- A window counted towards the consecutive valid ones (Table 2-1, R39): of one source, and in ABSENT of one nominal frequency. -/
def runOf (r : Reference) (k : Nat) : Reference :=
  let together := k = r.runKey ∨ (r.state = .holdover ∧ r.runKey ≠ 0 ∧ (k = 4 ↔ r.runKey = 4))
  { r with validRun := if k = 0 then 0 else if together then r.validRun + 1 else 1, runKey := k }

/-- DETECTING entered after four of them, once any return has ended (Table 2-1, R483). -/
def detects (r : Reference) : Reference :=
  if 4 ≤ r.validRun ∧ r.slew ≠ .returning then
    { r with
      state := .detecting, fromHoldover := decide (r.state = .holdover), source := some (if r.runKey = 4 then .bxUp else .refin)
      nominal := if r.runKey = 4 then 0 else r.runKey, badRun := 0 }
  else r

/-- What a loss and a change of reference may change beside the reference itself. -/
def refKinds : List Kind := [.tb, .ref, .ch, .cl, .env, .st, .qp, .ic, .err, .perf, .pwr]

end Sys2Proof.Claims

/-- The reference input (R34 to R39, R483, R486, Table 2-1): the class of a window; DETECTING after four valid windows in a row; a source lost by two windows in a row that are not valid, by one
of another frequency, by a missing pulse, and LOCKED by a phase error; the slew of LOCKING, locking 1 ms after its end, and its time-out after 10 ms. A loss of LOCKED goes to HOLDOVER, is
counted, and corrects the oscillator by the offset it showed over the last 100 ms. The rate of a slew before READY is the model's choice (log 122). -/
def Obligations.ReferenceFollowsItsWindows : Prop :=
  (∀ (w : RefWin) (missing : Bool) (expect : Nat),
    let n := nominalOf w.freq
    (∀ k, classOf w missing expect = .valid k ↔
      w.complete = true ∧ missing = false ∧ n = k ∧ k ≠ 0 ∧ -20 ≤ w.level ∧ w.level ≤ 150 ∧ (expect = 0 ∨ k = expect)) ∧
    (classOf w missing expect = .incomplete ↔ w.complete = false ∨ missing = true) ∧
    (n = 1 ↔ 4999000000 ≤ w.freq ∧ w.freq ≤ 5001000000) ∧ (n = 2 ↔ 9998000000 ≤ w.freq ∧ w.freq ≤ 10002000000) ∧
    (n = 3 ↔ 99980000000 ≤ w.freq ∧ w.freq ≤ 100020000000) ∧ n ≤ 3) ∧
  (∀ (w : RefWin) (s : State),
    let u := s.advance w.dt
    let c := classOf w s.ref.missing s.ref.expect
    let r := seen s.ref w c
    let key := s.winKey c.nom
    let busy := s.ref.state = .detecting ∨ s.ref.state = .locking ∨ s.ref.state = .locked
    Answers (.refWindow w) s fun t =>
      (¬ busy → t.ref = detects (runOf r key)) ∧
      (busy → s.ref.source = some .refin → c = .valid s.ref.nominal → t.ref = { r with badRun := 0 }) ∧
      (busy → s.ref.source = some .refin → (∀ k, c ≠ .valid k) → s.ref.badRun = 0 → t.ref = { r with badRun := 1 }) ∧
      (busy → s.ref.source = some .refin → ((∀ k, c ≠ .valid k) ∧ s.ref.badRun ≠ 0) ∨ (∃ k, c = .valid k ∧ k ≠ s.ref.nominal) →
        t.ref = runOf (lost u r) key) ∧
      (busy → s.ref.source = some .bxUp → s.ref.srcSel = 0 → c.nom ≠ 0 → t.ref = runOf (lost u r) key) ∧
      (busy → s.ref.source = some .bxUp → s.ref.srcSel ≠ 0 ∨ c.nom = 0 → t.ref = r) ∧ t.now = u.now ∧ Same refKinds s t) ∧
  (∀ s : State,
    let r := { s.ref with missing := true, level := 0x8000 }
    let busy := s.ref.state = .detecting ∨ s.ref.state = .locking ∨ s.ref.state = .locked
    Answers .refMissingPulse s fun t =>
      (busy → s.ref.source = some .refin → t.ref = lost s r) ∧ (¬ (busy ∧ s.ref.source = some .refin) → t.ref = r) ∧
      Same [.ref, .ch, .cl, .env, .st, .qp, .ic, .err, .perf, .pwr] s t) ∧
  (∀ s : State,
    (s.ref.state = .locked → Answers .refPhaseError s fun t => t.ref = lost s s.ref ∧ Same [.ref, .ch, .cl, .env, .st, .qp, .ic, .err, .perf, .pwr] s t) ∧
    (s.ref.state ≠ .locked → exec .refPhaseError s = .next s) ∧
    (s.ref.state = .detecting →
      let z := if s.ref.source = some .bxUp then Config.bxOffset s.now else (s.ref.osc.recent.filterMap id).headD 0
      Answers .pllAcquireStart s fun t =>
        t.ref = { s.ref with state := .locking, slew := .locking, osc := movedTo s s.ref z } ∧ Same [.ref, .ch, .cl, .env, .st, .qp, .ic, .pwr] s t) ∧
    (s.ref.state ≠ .detecting → exec .pllAcquireStart s = .next s)) ∧
  (∀ s : State,
    (s.ref.slew = .none → exec .pllSlewDone s = .next s) ∧
    (s.ref.slew ≠ .none →
      let o := s.ref.osc
      let u := s.runTo (o.since + if o.diff = 0 then 0 else if o.slow then o.diff.natAbs * 8000000000 else 16000000000)
      let r := { s.ref with slew := .none, lockFrom := u.now, osc := { o with diff := 0 } }
      Answers .pllSlewDone s fun t =>
        t.ref = (if s.ref.state = .absent ∨ s.ref.state = .holdover then detects r else r) ∧ t.now = u.now ∧ Same refKinds s t)) ∧
  (∀ s : State,
    let settled := s.ref.state = .locking ∧ s.ref.slew = .none
    (settled → s.now ≤ s.ref.lockFrom + 80000000000 →
      Answers .refLocked s fun t => t.ref = { s.ref with state := .locked } ∧ t.now = max s.now (s.ref.lockFrom + 8000000000) ∧ Same refKinds s t) ∧
    (settled → s.ref.lockFrom + 80000000000 < s.now → exec .refLocked s = .next s) ∧
    (settled →
      let u := s.runTo (s.ref.lockFrom + 80000000000)
      Answers .refLockTimeout s fun t => t.ref = lost u s.ref ∧ t.now = u.now ∧ Same refKinds s t) ∧
    (¬ settled → exec .refLocked s = .next s ∧ exec .refLockTimeout s = .next s))

/-! The Basxus link (R63 to R72, R317). -/
namespace Sys2Proof.Claims

/-- A port that has gone down or back to training: nothing is known of its partner. -/
def gone (p : BxPort) (x : LinkState) : BxPort := { p with laneLock := 0, partner := none, pairs := 0, sumTheta := 0, sumRtt := 0, link := x }

/-- The port of a state with blocks that have failed their checks (R64, R73). -/
def failing (s : State) (up : Bool) (n : Nat) : BxPort := { s.port up with errCnt := min 255 ((s.port up).errCnt + n) }

/-- The port with what its receiver shows: failed blocks, and the lanes locked in training (R63). -/
def received (s : State) (up : Bool) (rx : BxRx) : BxPort :=
  let p := failing s up rx.bad
  if p.link = .training then { p with laneLock := rx.lanes.toNat } else p

/-- A reference that is taken from a port is lost with it (R39). -/
def refWithout (s : State) (away : Prop) [Decidable away] : Reference := if s.ref.source = some .bxUp ∧ away then lost s s.ref else s.ref

/-- Alignment holds when BX_UP goes (R67, R69). -/
def held (a : AlignState) : AlignState := if a = .acquire ∨ a = .track then .hold else a

/-- The device number that a partner of BX_UP gives: its own plus 1, at most 15 (R63). -/
def numbered (partner : Option Nat) : Option Nat :=
  match partner with
  | some k => if k = 15 then none else some (k + 1)
  | none => none

/-- Alignment meets a partner with another tick period (R67). -/
def aligned (u : State) (a : AlignState) (b : Basxus) : AlignState :=
  if (a = .acquire ∨ a = .track) ∧ b.up.link = .up ∧ bits64 b.up.pcap 54 32 ≠ u.tb.tickP then .fault else a

/-- A capability word of this kind of device (R65). -/
def goodCap (cap : W64) : Prop := bits64 cap 15 0 = 0x4128 ∧ bits64 cap 63 56 = 1

/-- The correction of TRACK ends (R67). -/
def untracked (u : State) : State := { u with tb := { u.tb with phase := u.tb.phase + u.tb.tracked, track := none } }

/-- Alignment in FAULT with its cause (R67). -/
def faulted (u : State) (cause : Nat) (judged : Bool) : State :=
  untracked (State.raise { u with bx := { u.bx with faultCause := cause, stepWait := none, align := .fault, judged := judged } } 237)

/-- A follower's own conditions for what its leader carries (R50, R53 to R55, R71): as for a command of its own host, but for STATE. -/
def frameFits (u : State) (f : BxCtl) : Prop :=
  match f with
  | .step _ => (∀ k : Fin 512, (u.slotAt k).armed = false) ∧ u.tb.step = none
  | .tick n => u.tickOk n = true ∧ u.tb.tickPend = none ∧ u.tickFits n = true
  | .discipline m w _ => u.disciplineRange m w = false
  | .cancel => ∀ k : Fin 512, (u.slotAt k).armed = false
  | .anchor _ => u.bx.align = .acquire

/-- What a follower makes of a frame (R70, R71). -/
def followed (u : State) (f : BxCtl) : State :=
  match f with
  | .step d => { u with tb := { u.tb with step := some (.leader d), stepDone := false, stepAbandoned := false } }
  | .tick n => { u with tb := { u.tb with tickPend := some n } }
  | .discipline m w c => u.setDiscipline m w c
  | .cancel => { u with tb := { u.tb with step := none } }
  | .anchor a => { u with bx := { u.bx with anchorPend := some (a : Int) } }

/-- A command's frame goes on along the chain; an anchor does not (R70, R71). -/
def onward (s : State) (f : BxCtl) : State :=
  match f with
  | .anchor _ => s
  | _ => if s.bx.dn.link = .up then { s with bx := { s.bx with ctlSent := f :: s.bx.ctlSent } } else s

end Sys2Proof.Claims

/-- Basxus (R63 to R72, R317): a port comes up, finds its partner's number, or is refused; BX_UP without a partner makes a leader; a lost port trains again, is counted and
recorded, and takes reference and alignment with it; time frames are averaged and steer the alignment, in TRACK by at most 2 tq in a second; control and tag frames act when the
port is UP. What the receiver shows of lanes and blocks is the row's operand (log 26). -/
def Obligations.LinkFollowsItsPartner : Prop :=
  (∀ (bad : Nat) (rx : BxRx) (s : State),
    (s.bx.dn.en = true → s.bx.dn.link = .training →
      Answers (.bxPortUp false bad) s fun t =>
        t.bx = { s.bx with
          dn := { failing s false bad with laneLock := 3, link := .up }, ctlSent := .anchor (s.tb.anchor % 2 ^ 80).toNat :: s.bx.ctlSent } ∧
        Same [.bx, .ch, .cl, .env, .st, .qp, .ic, .pwr] s t) ∧
    (s.bx.up.en = true → s.bx.up.link = .training →
      Answers (.bxPortUp true bad) s fun t =>
        let refused := s.bx.up.partner = some 15
        let a := if refused then .off else if s.bx.align = .hold then .acquire else s.bx.align
        t.bx.leader = false ∧ t.bx.devnum = numbered s.bx.up.partner ∧
        t.bx.up = { failing s true bad with laneLock := 3, link := if refused then .refused else .up } ∧
        t.bx.align = aligned s a t.bx ∧ t.bx.dn = s.bx.dn ∧ Same [.tb, .bx, .ch, .cl, .env, .st, .qp, .ic, .pwr] s t) ∧
    (s.bx.up.en = true → s.bx.up.link = .training → s.bx.align = .hold →
      exec (.bxLeaderTimeout rx) s = .next { s with bx := { s.bx with up := received s true rx } }) ∧
    (s.bx.up.en = true → s.bx.up.link = .training → s.bx.align ≠ .hold →
      Answers (.bxLeaderTimeout rx) s fun t =>
        t.bx = { s.bx with
          up := received s true rx, leader := true, devnum := some 0, stepWait := none, faultCause := 0, align := .off
          judged := s.bx.judged && decide (s.bx.align = .off) } ∧
        t.tb = (if s.bx.align = .off then s.tb else (untracked s).tb) ∧ Same [.tb, .bx, .ch, .cl, .env, .st, .qp, .ic, .pwr] s t)) ∧
  (∀ (up : Bool) (n : Nat) (s : State),
    let p := failing s up n
    (p.link ≠ .up → exec (.bxPortLost up n) s = .next (s.modPort up fun _ => p)) ∧
    (p.link = .up →
      Answers (.bxPortLost up n) s fun t =>
        t.port up = gone p .training ∧ t.port (!up) = s.port (!up) ∧ t.ref = refWithout s (up = true) ∧
        t.bx.align = (if up then held s.bx.align else s.bx.align) ∧ t.bx.leader = s.bx.leader ∧ t.bx.devnum = s.bx.devnum ∧
        t.bx.stepWait = (if up = true ∧ (s.bx.align = .acquire ∨ s.bx.align = .track) then none else s.bx.stepWait) ∧
        Same [.tb, .ref, .bx, .ch, .cl, .env, .st, .qp, .ic, .err, .perf, .pwr] s t)) ∧
  (∀ (up : Bool) (cap : W64) (rx : BxRx) (s : State), (s.port up).en = true →
    let p := { received s up rx with pcap := cap, partner := partnerOf cap }
    let p' := if p.link = .refused ∧ (s.port up).pcap ≠ cap then { p with link := .training } else p
    let full := p'.link = .up ∧ p.partner = some 15
    Answers (.bxCapReceived up cap rx) s fun t =>
      t.port (!up) = s.port (!up) ∧ Same [.tb, .ref, .bx, .ch, .cl, .env, .st, .qp, .ic, .err, .perf, .pwr] s t ∧
      (¬ goodCap cap → t.port up = gone p .refused ∧ t.ref = refWithout s (up = true) ∧ t.bx.align = (if up then held s.bx.align else s.bx.align)) ∧
      (goodCap cap → up = false → t.port up = p' ∧ t.ref = s.ref ∧ t.bx.align = s.bx.align ∧ t.bx.devnum = s.bx.devnum) ∧
      (goodCap cap → up = true →
        t.port up = (if full then { p' with link := .refused } else p') ∧
        t.bx.devnum = (if p'.link = .up then numbered p.partner else s.bx.devnum) ∧
        t.ref = refWithout s (¬ ((t.port up).link = .up ∧ bit64 cap 25 = true)) ∧
        t.bx.align = aligned s (if full then .off else s.bx.align) t.bx)) ∧
  (∀ (up : Bool) (cap : W64) (rx : BxRx) (s : State), (s.port up).en = false → exec (.bxCapReceived up cap rx) s = .next s) ∧
  (∀ (up : Bool) (x : BxTimes) (bad : Nat) (s : State),
    let p := failing s up bad
    ((s.port up).link ≠ .up → exec (.bxTimeFrame up x bad) s = .next (s.modPort up fun _ => p)) ∧
    ((s.port up).link = .up → exec (.bxTimeFrame up x bad) s = .next (s.modPort up fun _ => { p with
      sumTheta := p.sumTheta + ((x.t2 - x.t1) - (x.t4 - x.t3) - if up then s.bx.asym else 0), sumRtt := p.sumRtt + (x.t2 - x.t1) + (x.t4 - x.t3), pairs := p.pairs + 1 }))) ∧
  (∀ (up : Bool) (s : State), (s.port up).link = .up → (s.port up).pairs ≠ 0 →
    let p := s.port up
    let θ := divNearest p.sumTheta (2 * p.pairs)
    let u := s.modPort up fun p => { p with offset := θ, rtt := (divNearest p.sumRtt p.pairs).toNat, sumTheta := 0, sumRtt := 0, pairs := 0 }
    let v := { u with bx := { u.bx with judged := true } }
    let grid := (2 * -θ + 12800) / 25600 * 12800
    let move := max (-2) (min 2 (-θ))
    let steers := up = true ∧ (s.bx.align = .acquire ∨ s.bx.align = .track) ∧ bits64 p.pcap 54 32 = s.tb.tickP
    let waits := s.bx.stepWait ≠ none ∨ s.tb.slew ≠ none
    (up = false ∨ (s.bx.align ≠ .acquire ∧ s.bx.align ≠ .track) → exec (.bxOffsetUpdate up) s = .next u) ∧
    (up = true → s.bx.align = .acquire ∨ s.bx.align = .track → bits64 p.pcap 54 32 ≠ s.tb.tickP →
      exec (.bxOffsetUpdate up) s = .next (faulted u 1 false)) ∧
    (steers → 2 ^ 40 ≤ θ.natAbs → exec (.bxOffsetUpdate up) s = .next (faulted u 2 (decide (s.bx.align = .acquire)))) ∧
    (steers → θ.natAbs < 2 ^ 40 → s.bx.align = .track →
      exec (.bxOffsetUpdate up) s = .next { u with tb := { u.tb with
        phase := u.tb.phase + u.tb.tracked, track := if move = 0 then none else some { tq := move, since := s.now }, moved := u.tb.moved || decide (move ≠ 0) } }) ∧
    (steers → θ.natAbs < 2 ^ 40 → s.bx.align = .acquire → waits → exec (.bxOffsetUpdate up) s = .next v) ∧
    (steers → s.bx.align = .acquire → ¬ waits → θ.natAbs ≤ 8 → exec (.bxOffsetUpdate up) s = .next ({ v with bx := { v.bx with align := .track } }.raise 237)) ∧
    (steers → s.bx.align = .acquire → ¬ waits → 8 < θ.natAbs → θ.natAbs < 2 ^ 40 → grid ≠ 0 →
      exec (.bxOffsetUpdate up) s = .next { v with bx := { v.bx with stepWait := some (grid, -θ - grid) } }) ∧
    (steers → s.bx.align = .acquire → ¬ waits → 8 < θ.natAbs → grid = 0 →
      exec (.bxOffsetUpdate up) s = .next { v with tb := { v.tb with slew := some { tq := -θ, since := s.now }, moved := true } })) ∧
  (∀ (f : BxCtl) (s : State),
    (s.bx.up.link ≠ .up → exec (.bxControlFrame f) s = .next s) ∧
    (s.bx.up.link = .up → s.bx.align ≠ .off → frameFits (onward s f) f → exec (.bxControlFrame f) s = .next (followed (onward s f) f)) ∧
    (s.bx.up.link = .up → s.bx.align = .off ∨ ¬ frameFits (onward s f) f → exec (.bxControlFrame f) s = .next (onward s f))) ∧
  (∀ (up : Bool) (src : Fin 16) (l : List W64) (s : State),
    ((s.port up).link ≠ .up → exec (.bxTagFrame up src l) s = .next s) ∧
    ((s.port up).link = .up → up = true ∨ s.bx.relay = false → exec (.bxTagFrame up src l) s = .next (l.foldl (fun u v => u.remoteWord src v) s)) ∧
    ((s.port up).link = .up → up = false → s.bx.relay = true →
      exec (.bxTagFrame up src l) s = .next (l.foldl (fun u v => (u.remoteWord src v).relayWord src v) s))) ∧
  (∀ (u : State) (dev : Nat) (v : W64),
    (u.remoteOf dev = none → u.remoteWord dev v = { u with noStream := u.noStream + 1 }) ∧
    (∀ k, u.remoteOf dev = some k →
      let w := u.takeLane (u.dmaAt k).cluster
      ((u.dmaAt k).gateAt ≠ none → u.remoteWord dev v = w) ∧
      ((u.dmaAt k).gateAt = none → (u.dmaAt k).dropping = true → u.remoteWord dev v = w.modDma k fun d => d.dropWord v) ∧
      ((u.dmaAt k).gateAt = none → (u.dmaAt k).dropping = false → u.remoteWord dev v = w.ringPut k v)))

/-! DMA channels (R351, R357 to R363). -/
namespace Sys2Proof.Claims

/-- WAIT or RUN as a channel's descriptors stand (Table 13-10). -/
def runs? (d : Dma) : Dma :=
  if d.state = .closing ∨ d.state = .idle ∨ d.state = .halted then d
  else { d with state := if d.desc = none ∧ d.head % 2 ^ d.sizeL = d.tail % 2 ^ d.sizeL ∧ d.kind ≠ 2 then .wait else .run }

/-- A channel halts (R362): its cause, a report and source 238. -/
def halted (u : State) (k cause : Nat) : State :=
  let v := u.modDma k fun d => { d with state := .halted, cause := cause }
  (v.report 9 1 k (v.dmaAt k).statusWord 0).raise 238

/-- The descriptor that a fetch of eight words brings. -/
def fetched (l : List W32) : DmaDesc := { words := Vector.ofFn fun i : Fin 8 => l.getD i.val 0, moved := 0, age := none, flushTo := none }

/-- Words moved by the current descriptor. -/
def moved (u : State) (k bytes : Nat) : State :=
  u.modDma k fun d => { d with desc := d.desc.map fun x =>
    { x with moved := x.moved + bytes, age := if bytes = 0 then x.age else some (x.age.getD 0) } }

/-- The state in which a capture channel takes its words (R351): a move takes what is held as it begins, at 32 words or when the oldest has waited 256 CCLK
cycles; a move under way goes on. -/
def moveBegun (s : State) (k : Nat) (x : DmaDesc) (n : Nat) : State :=
  let d := s.dmaAt k
  if x.room (min n 32) = 0 ∨ d.begunTo ≠ d.r ∨ d.fill = 0 then s
  else (if 32 ≤ d.fill then s else s.runTo (d.heldFrom + 256 * 12800)).modDma k fun d => { d with begunTo := d.w }

/-- The ring words that a request of at most n words moves (R351). -/
def ringPart (d : Dma) (x : DmaDesc) (n : Nat) : List Nat :=
  let held := (d.begunTo - d.r).toNat
  let left := match x.flushTo with | some f => min held (f - d.r).toNat | none => held
  (List.range (min (x.room (min n 32)) left)).map fun i => d.place (d.r + BitVec.ofNat 64 i)

/-- No read of these words finds an uncorrectable error, nor corrects one. -/
def Clean (u : State) (e : List (Nat × Ecc)) (l : List Nat) : Prop := ∀ w ∈ l, eccAt e w = .ok ∧ w ∉ u.ue

/-- 64-bit words as the 32-bit words of a posted write. -/
def lanes (u : State) (l : List Nat) : List W32 := l.flatMap fun w => [BitVec.ofNat 32 (Mem.word u.mem w).toNat, BitVec.ofNat 32 ((Mem.word u.mem w).toNat / 2 ^ 32)]

end Sys2Proof.Claims

/-- Descriptors (R357 to R362): TAIL offers them and HEAD resumes a halted channel; a fetch reads the one at HEAD, and halts on a completer error, on OWN = 0, on a chain beyond
HOPMAX and without bus mastering; one with a format error completes BAD; a completion writes STATUS, then clears OWN, and advances HEAD; a flush and FLUSH_T complete
a part. Transfers (R351, R358, R359, R363): a request of a CAPTURE channel moves the ring words held when its move began to host memory, one of a BLOCK channel bank words out or host words in, within the buffer
and a 4 KiB block; a bank that DMA does not own refuses it; a COPY moves one word, and ends its channel with the last. -/
def Obligations.DescriptorsMoveWords : Prop :=
  (
  (∀ (k : Fin 16) (v : W32) (s : State), exec (.dmaRingTailWrite k v) s = .next (s.modDma k fun d => runs? { d with tail := bits v 15 0 })) ∧
  (∀ (k : Fin 16) (v : W32) (s : State),
    ((s.dmaAt k).state ≠ .halted → exec (.dmaRingHeadWrite k v) s = .next (s.report 1 3 (0x60018 + 0x100 * k) v 0)) ∧
    ((s.dmaAt k).state = .halted →
      exec (.dmaRingHeadWrite k v) s = .next ((s.modDma k fun d => runs? { d with
        head := bits v 15 0, cause := 0, desc := none, chain := 0
        state := if (s.dmaAt k).closeAt.isSome || s.dmaBusyWith k 0x0901 then .closing else .run }).closeCheck k))) ∧
  (∀ (k : Fin 16) (f : Fetch) (s : State), (s.dmaAt k).state = .wait ∨ (s.dmaAt k).state = .run ∨ ((s.dmaAt k).state = .closing ∧ (s.dmaAt k).kind = 0) →
    (s.dmaAt k).kind < 2 → (s.dmaAt k).desc = none → (s.dmaAt k).head % 2 ^ (s.dmaAt k).sizeL ≠ (s.dmaAt k).tail % 2 ^ (s.dmaAt k).sizeL →
    let d := s.dmaAt k
    let u := s.pcAdd 50 1
    (s.pcie.bme = false → exec (.dmaDescriptorFetch k f) s = .next (halted s k 4)) ∧
    (s.pcie.bme = true → f = .err → exec (.dmaDescriptorFetch k f) s = .next (halted u k 1)) ∧
    (∀ l, s.pcie.bme = true → f = .ok l →
      let x := fetched l
      (bit (l.getD 0 0) 31 = false → exec (.dmaDescriptorFetch k f) s = .next (halted u k 2)) ∧
      (bit (l.getD 0 0) 31 = true → d.kind = 1 → d.hopmax ≤ d.chain → exec (.dmaDescriptorFetch k f) s = .next (halted u k 3)) ∧
      (bit (l.getD 0 0) 31 = true → d.kind = 0 ∨ d.chain < d.hopmax →
        let v := u.modDma k fun d => runs? { d with desc := some x }
        (x.badFormat d.kind = false → exec (.dmaDescriptorFetch k f) s = .next v) ∧
        (x.badFormat d.kind = true → exec (.dmaDescriptorFetch k f) s = .next (v.dmaComplete k 3 6))))) ∧
  (∀ (u : State) (k : Fin 16) (result cause : Nat) (x : DmaDesc), (u.dmaAt k).desc = some x → u.pcie.bme = true → (u.dmaAt k).state ≠ .closing →
    let d := u.dmaAt k
    let v := u.dmaComplete k result cause
    let at_ := d.baseHi.toNat * 2 ^ 32 + d.baseLo * 32 + 32 * (d.head % 2 ^ d.sizeL)
    v.posted = { addr := at_, words := [BitVec.ofNat 32 ((x.word 0).toNat &&& 0x7FFFFFFF)] } ::
      { addr := at_ + 4, words := [BitVec.ofNat 32 (result % 8 * 2 ^ 29 + cause % 8 * 2 ^ 26 + x.moved % 2 ^ 26)] } :: u.posted ∧
    (v.dmaAt k).head = (d.head + 1) % 2 ^ d.sizeL ∧ (v.dmaAt k).desc = none ∧ (v.dmaAt k).chain = (if x.more then d.chain + 1 else 0) ∧
    (v.dmaAt k).bad = (if result = 3 then d.bad + 1 else d.bad) ∧ (∀ j : Fin 16, j ≠ k → v.dmaAt j = u.dmaAt j)) ∧
  (∀ (k : Fin 16) (s : State),
    let u := atEdge s
    ((s.dmaAt k).desc = none → exec (.flush k) s = .next u) ∧
    (∀ x, (s.dmaAt k).desc = some x →
      ((s.dmaAt k).kind ≠ 0 ∨ (s.dmaAt k).state = .halted ∨ (x.moved = 0 ∧ (s.dmaAt k).fill = 0) → exec (.flush k) s = .next u) ∧
      ((s.dmaAt k).kind = 0 → (s.dmaAt k).state ≠ .halted → x.moved ≠ 0 ∨ (s.dmaAt k).fill ≠ 0 →
        exec (.flush k) s = .next ((u.modDma k fun d => { d with desc := some { x with flushTo := some d.w } }).dmaFinish k)))) ∧
  (∀ (k : Fin 16) (s : State) (x : DmaDesc) (a : Nat), (s.dmaAt k).desc = some x → x.age = some a → (s.dmaAt k).kind = 0 →
    (s.dmaAt k).state = .run ∨ (s.dmaAt k).state = .closing → 0 < (s.dmaAt k).flushT →
    ((s.dmaAt k).flushT ≤ a → exec (.flushTimeout k) s = .next (s.dmaComplete k 2 0)) ∧
    (a < (s.dmaAt k).flushT → exec (.flushTimeout k) s = .next s))) ∧ (
  (∀ (k : Fin 16) (n : Nat) (e : List (Nat × Ecc)) (h : HostRd) (s : State) (x : DmaDesc), (s.dmaAt k).desc = some x → (s.dmaAt k).kind = 0 →
    (s.dmaAt k).state = .run ∨ (s.dmaAt k).state = .closing →
    let b := moveBegun s k x n
    let d := b.dmaAt k
    let l := ringPart d x n
    (l = [] → exec (.dmaMove k n e h) s = .next b) ∧
    (l ≠ [] → s.pcie.bme = false → exec (.dmaMove k n e h) s = .next (halted b k 4)) ∧
    (l ≠ [] → s.pcie.bme = true → Clean s e l →
      let u := b.modDma k fun d => { d with r := d.r + BitVec.ofNat 64 l.length }
      exec (.dmaMove k n e h) s = .next ((moved ((u.post x.here.1 (lanes s l)).pcAdd 8 l.length) k (8 * l.length)).dmaFinish k)) ∧
    (l ≠ [] → s.pcie.bme = true → (∃ w ∈ l, eccAt e w = .bad ∨ w ∈ s.ue) →
      Answers (.dmaMove k n e h) s fun t =>
        t.mem = s.mem ∧ (∀ w ∈ l, eccAt e w = .bad → w ∈ t.ue) ∧ (t.dmaAt k).r = d.r + BitVec.ofNat 64 l.length ∧
        (t.dmaAt k).drop = d.drop + BitVec.ofNat 32 l.length ∧ (t.dmaAt k).desc = none)) ∧
  (∀ (k : Fin 16) (n : Nat) (e : List (Nat × Ecc)) (h : HostRd) (s : State) (x : DmaDesc), (s.dmaAt k).desc = some x → (s.dmaAt k).kind ≠ 0 →
    (s.dmaAt k).state = .run ∨ (s.dmaAt k).state = .closing → s.blockHeld x (min n 64) = false → s.pcie.bme = true →
    let out := x.bankWords (x.room (min n 32))
    let into := x.bankWords (x.room (min n 64))
    (x.dirIn = false → out ≠ [] → (∀ w ∈ out, (s.bankAt (w / 131072)).owner = 2) → Clean s e out →
      exec (.dmaMove k n e h) s = .next ((moved (s.post x.here.1 (lanes s out)) k (8 * out.length)).dmaFinish k)) ∧
    (x.dirIn = false → ∀ w, out.find? (fun w => decide ((s.bankAt (w / 131072)).owner ≠ 2)) = some w →
      exec (.dmaMove k n e h) s = .next ((s.deny (w / 131072) 2 (w % 131072) false).dmaComplete k 3 4)) ∧
    (∀ l, x.dirIn = true → h = .data l → l.length = into.length → into ≠ [] → (∀ w ∈ into, (s.bankAt (w / 131072)).owner = 2) →
      exec (.dmaMove k n e h) s = .next (((into.zip l).foldl (fun u a => moved (u.writeWord a.1 a.2) k 8) (s.pcAdd 50 1)).dmaFinish k)) ∧
    (∀ c, x.dirIn = true → h = .err c → into ≠ [] →
      exec (.dmaMove k n e h) s = .next ((s.pcAdd 50 1).dmaComplete k 3 (if c.val = 0 then 1 else c.val)))) ∧
  (∀ (x : DmaDesc) (n i : Nat), i < n → (x.bankWords n).getD i 0 = (x.bankAddr + x.moved / 8 + i) % 2 ^ 23) ∧
  (∀ (x : DmaDesc) (n : Nat), x.room n ≤ n ∧ 8 * x.room n ≤ x.here.2 ∧ x.here.1 % 4096 + 8 * x.room n ≤ 4096) ∧
  (∀ (k : Fin 16) (e : Ecc) (s : State), (s.dmaAt k).kind = 2 → (s.dmaAt k).state = .run ∨ (s.dmaAt k).state = .closing → (s.dmaAt k).cnt ≠ 0 →
    let d := s.dmaAt k
    let sb := d.src / 131072
    let db := d.dst / 131072
    let u := atEdge s
    ((s.bankAt sb).owner ≠ 2 → exec (.copyStep k e) s = .next (halted (s.deny sb 2 (d.src % 131072) false) k 1)) ∧
    ((s.bankAt sb).owner = 2 → s.holdsAccess sb = false → s.holdsAccess db = false → (s.bankAt db).owner ≠ 2 →
      exec (.copyStep k e) s = .next (halted (s.deny db 2 (d.dst % 131072) true) k 1)) ∧
    ((s.bankAt sb).owner = 2 → (s.bankAt db).owner = 2 → s.holdsAccess sb = false → s.holdsAccess db = false →
      (e = .bad ∨ d.src ∈ s.ue → exec (.copyStep k e) s = .next (halted ((u.markBad d.src).badWord sb 2 (d.src % 131072)) k 1)) ∧
      (e ≠ .bad → d.src ∉ s.ue →
        let v := if e = .corrected then u.correctedWord sb else u
        let v := (v.writeWord d.dst (Mem.word s.mem d.src)).modDma k fun d => { d with src := (d.src + 1) % 2 ^ 23, dst := (d.dst + 1) % 2 ^ 23, cnt := d.cnt - 1 }
        exec (.copyStep k e) s = .next (if d.cnt = 1 then (if d.state = .closing then v.closeCheck k else v.dmaIdle k) else v)))))

/-! Banks (chapter 12). -/
namespace Sys2Proof.Claims

/-- HOST owns the bank of a byte (R324). -/
def hosts (u : State) (a : Nat) : Prop := (u.bankAt (a / 1048576)).owner = 1

/-- No word of a host access reads uncorrectable. -/
def Readable (u : State) (e : List (Nat × Ecc)) (a len : Nat) : Prop := ∀ w, a / 8 ≤ w → w ≤ (a + len - 1) / 8 → eccAt e w ≠ .bad ∧ w ∉ u.ue

/-- A word read by a scrub (R329, R330, R335): an error that cannot be corrected stays. -/
def scrubbed (u : State) (w : Nat) (e : Ecc) : State :=
  if e = .bad ∨ w ∈ u.ue then (u.markBad w).badWord (w / 131072) 15 (w % 131072) else if e = .corrected then u.correctedWord (w / 131072) else u

/-- A bank that is being handed over is handed over (R326). -/
def drainedBank (s : State) (b : Nat) : State :=
  if (s.bankAt b).handover then
    (((s.runTo (s.bankAt b).drainAt).modBank b fun k => { k with handover := false }).serveHeld b).bankWaits
  else s

end Sys2Proof.Claims

/-- Banks (R324, R326, R329, R330, R334, R335, R338): the host reads and writes the bytes of its banks, byte by byte; the bytes of other banks read as 0, are not written, and the
access is recorded; an uncorrectable word poisons the completion; a drain and a clear hold accesses back and serve them in order when they end; the patrol scrub reads a
word in each period of 256 CCLK cycles, and the wake scrub every word of a bank. That a request of no bytes has no effect is the model's choice (log 151). -/
def Obligations.BanksServeTheirOwner : Prop :=
  (∀ (a len n : Nat) (e : List (Nat × Ecc)) (l : List Byte) (s : State), Mem.wf s.mem = true → len ≠ 0 → a + len ≤ 67108864 → l.length = len →
    let u := s.runTo s.pwr.banksAt
    Answers (.hostBankAccess a n (some l) e) s fun t =>
      t.lastRead = s.lastRead ∧
      (∀ i, i < a ∨ a + len ≤ i ∨ ¬ hosts u i ∨ u.holdsAccess (i / 1048576) = true → Mem.read t.mem i = Mem.read s.mem i) ∧
      (Readable u e a len → ∀ i, a ≤ i → i < a + len → hosts u i → u.holdsAccess (i / 1048576) = false → Mem.read t.mem i = l.getD (i - a) 0) ∧
      Same [.tb, .bank, .mem, .ue, .ic, .err, .perf, .pwr] s t) ∧
  (∀ (a len : Nat) (e : List (Nat × Ecc)) (s : State), len ≠ 0 → a + len ≤ 67108864 →
    let u := s.runTo s.pwr.banksAt
    Answers (.hostBankAccess a len none e) s fun t =>
      t.mem = s.mem ∧ Same [.tb, .bank, .ue, .ic, .err, .perf, .pwr, .lastRead] s t ∧
      ((∀ i, a ≤ i → i < a + len → hosts u i → u.holdsAccess (i / 1048576) = false) →
        (Readable u e a len → t.lastRead.poisoned = false ∧ t.lastRead.bytes.length = len ∧
          ∀ i, a ≤ i → i < a + len → (hosts u i → t.lastRead.bytes.getD (i - a) 0 = Mem.read s.mem i) ∧ (¬ hosts u i → t.lastRead.bytes.getD (i - a) 0 = 0)) ∧
        ((∃ w, a / 8 ≤ w ∧ w ≤ (a + len - 1) / 8 ∧ hosts u (8 * w) ∧ (eccAt e w = .bad ∨ w ∈ u.ue)) →
          t.lastRead = { bytes := List.replicate len 0xFF, poisoned := true }))) ∧
  (∀ (a len n : Nat) (e : List (Nat × Ecc)) (l : List Byte) (s : State), len ≠ 0 → l.length = len → a % 1048576 + len ≤ 1048576 → a < 67108864 →
    let u := s.runTo s.pwr.banksAt
    let b := a / 1048576
    (¬ hosts u a → exec (.hostBankAccess a n (some l) e) s = .next (u.deny b 1 (a / 8 % 131072) true)) ∧
    (hosts u a → u.holdsAccess b = true →
      exec (.hostBankAccess a n (some l) e) s = .next (u.modBank b fun k => { k with held := k.held ++ [{ addr := a, data := some l, len := len, ecc := e }] })) ∧
    (¬ hosts u a → exec (.hostBankAccess a len none e) s =
      .next { u.deny b 1 (a / 8 % 131072) false with lastRead := { bytes := List.replicate len 0, poisoned := false } }) ∧
    (hosts u a → u.holdsAccess b = true → exec (.hostBankAccess a len none e) s =
      .next { u.modBank b (fun k => { k with held := k.held ++ [{ addr := a, data := none, len := len, ecc := e }] }) with lastRead := { bytes := [], poisoned := false } })) ∧
  (∀ (a : Nat) (e : List (Nat × Ecc)) (s : State), a ≤ 67108864 →
    let u := s.runTo s.pwr.banksAt
    (∀ n, exec (.hostBankAccess a n (some []) e) s = .next u) ∧
    exec (.hostBankAccess a 0 none e) s = .next { u with lastRead := { bytes := [], poisoned := false } }) ∧
  (∀ (u : State) (b req word : Nat) (write : Bool),
    let v := u.deny b req word write
    (v.bankAt b).denyValid = true ∧ (v.bankAt b).denyWrite = write ∧ (v.bankAt b).denyReq = req ∧ (v.bankAt b).denyWord = word ∧ (v.bankAt b).denySeen = true ∧
    (v.bankAt b).denyCnt = upTo (2 ^ 32 - 1) (u.bankAt b).denyCnt ∧ (v.bankAt b).owner = (u.bankAt b).owner ∧ Same [.bank, .err, .ic, .perf, .pwr] u v) ∧
  (∀ (b : Fin 64) (s : State),
    exec (.handoverDrainEnd b) s = .next (drainedBank s b) ∧
    (∀ c, (s.bankAt b).clearAt = some c →
      exec (.bankClearDone b) s = .next (((((drainedBank s b).runTo c).modBank b fun k => { k with clearAt := none }).serveHeld b).bankWaits))) ∧
  (∀ (u : State) (b : Fin 64),
    (u.holdsAccess b = true → u.serveHeld b = u) ∧
    (∀ x, u.holdsAccess b = false → (u.bankAt b).held = [x] → x.data = none →
      u.serveHeld b = (let r := (u.modBank b fun k => { k with held := [] }).hostRead x.addr x.len x.ecc
        { r.1 with lastRead := r.2 })) ∧
    (∀ x l, u.holdsAccess b = false → (u.bankAt b).held = [x] → x.data = some l →
      u.serveHeld b = (u.modBank b fun k => { k with held := [] }).hostWrite x.addr l x.ecc)) ∧
  (∀ (u : State) (m : Fin 8) (l : List Nat) (reply : List W32), (u.mbAt m).wait = .banks l reply →
    ((∀ b ∈ l, (u.bankAt b).handover = false ∧ (u.bankAt b).clearAt = none) →
      (u.bankWaits.mbAt m).state = .done ∧ (u.bankWaits.mbAt m).ackCode = 0 ∧ (u.bankWaits.mbAt m).ackRlen = reply.length) ∧
    ((∃ b ∈ l, (u.bankAt b).handover = true ∨ (u.bankAt b).clearAt ≠ none) → u.bankWaits.mbAt m = u.mbAt m)) ∧
  (∀ (b : Fin 64) (e : Ecc) (s : State), (s.bankAt b).patrol = true → s.pwr.state ≠ .retain →
    let k := s.bankAt b
    let w := b * 131072 + k.patrolAt
    let u := atEdge (s.runTo k.patrolFrom)
    let next (v : State) : State := v.modBank b fun k => { k with patrolAt := (k.patrolAt + 1) % 131072, patrolFrom := (u.now / 3276800 + 1) * 3276800 }
    (e = .ok → w ∉ s.ue → exec (.patrolScrub b e) s = .next (next u)) ∧
    (e = .corrected → w ∉ s.ue → k.patrolAt < 131072 → exec (.patrolScrub b e) s = .next (next (u.correctedWord b))) ∧
    (e = .bad ∨ w ∈ s.ue → k.patrolAt < 131072 → exec (.patrolScrub b e) s = .next (next ((u.markBad w).badWord b 15 k.patrolAt)))) ∧
  (∀ (b : Fin 64) (e : List (Nat × Ecc)) (s : State),
    ((s.bankAt b).scrub = false → exec (.wakeScrubDone b e) s = .next s) ∧
    ((s.bankAt b).scrub = true →
      let u := s.runTo (s.pwr.banksAt + 131072 * 12800)
      exec (.wakeScrubDone b e) s = .next (((u.wrongWords b e).foldl (fun v w => scrubbed v w (eccAt e (w % 131072))) u).modBank b fun k => { k with scrub := false }))) ∧
  (∀ (u : State) (b : Fin 64) (e : List (Nat × Ecc)), (u.wrongWords b e).Pairwise (· < ·) ∧
    ∀ w, w ∈ u.wrongWords b e ↔ (w ∈ u.ue ∧ w / 131072 = b) ∨ ∃ p ∈ e, w = b * 131072 + p.1 % 131072)

/-! Interrupts, error log and counters (chapter 15). -/
namespace Sys2Proof.Claims

/-- The in-service stack of a core, and what it may take next (R394 to R396). -/
def inService (x : Ic) (sec : Bool) : List (Nat × Nat) := if sec then x.stackSec else x.stackMc

/-- A source that its core may take: pending, enabled, of its target and above the running priority, with DIS clear. -/
def Candidate (x : Ic) (sec : Bool) (k : Nat) : Prop :=
  k < 256 ∧ x.dis.testBit (if sec then 1 else 0) = false ∧ (vget x.src k).pending = true ∧ (vget x.src k).active = false ∧ (vget x.src k).en = true ∧
  (vget x.src k).target = (if sec then .sec else .mc) ∧ ∀ n p l, inService x sec = (n, p) :: l → p < (vget x.src k).prio

/-- The next SEQ of the error log (R400). -/
def nextErr (n : Nat) : Nat := if n = 2 ^ 32 - 1 then 1 else n + 1

/-- A report written into the log four edges after it is taken. -/
def logged (s : State) (r : Report) (take : Nat) : State :=
  let u := s.runTo ((take + 4) * 12800)
  State.raise { u with err := { u.err with
    nextTake := take + 4, wr := nextErr u.err.wr, entries := vset u.err.entries (nextErr u.err.wr - 1) { report := r, seq := nextErr u.err.wr } } } 240

end Sys2Proof.Claims

/-- Delivery, completion, coalescing, the log and the counters (R392, R394 to R396, R399 to R403): a core gets its highest source above the running priority, the lowest number
first; EOI completes the top of the stack or is spurious; held arrivals become pending when their time ends; a report is written with the next SEQ; a read of a snapshot latches; a
counter at its top wraps to 0, with its OVF bit and source 241. -/
def Obligations.InterruptsLogAndCountersAct : Prop :=
  (∀ (x : Ic) (sec : Bool) (k : Nat), k ∈ x.candidates sec ↔ Candidate x sec k) ∧
  (∀ (x : Ic) (l : List Nat) (k : Nat), l.Pairwise (· < ·) → x.best l = some k →
    k ∈ l ∧ ∀ j ∈ l, (vget x.src j).prio < (vget x.src k).prio ∨ ((vget x.src j).prio = (vget x.src k).prio ∧ k ≤ j)) ∧
  (∀ (sec : Bool) (s : State), (∀ j, ¬ Candidate s.ic sec j) → exec (.dicDelivery sec) s = .next { s with ic := s.ic.setTail sec none }) ∧
  (∀ (sec : Bool) (s : State) (k : Nat), Candidate s.ic sec k →
    let l := s.ic.candidates sec
    let t := s.ic.handover sec l ((s.st.readyAt + 25599) / 25600)
    let u := s.runTo (t * 25600)
    u.ic.best (l.filter fun k => decide ((vget u.ic.src k).dicCycle < max t ((u.now + 25599) / 25600))) = some k →
    Answers (.dicDelivery sec) s fun v =>
      (v.srcAt k).active = true ∧ (k ≠ 241 → (v.srcAt k).pending = false) ∧ inService v.ic sec = (k, (vget s.ic.src k).prio) :: inService s.ic sec ∧
      (if sec then v.ic.vectorSec else v.ic.vectorMc) = (if sec then s.ic.vbaseSec else s.ic.vbaseMc) + BitVec.ofNat 32 (8 * k) ∧
      (∀ j : Fin 256, (j : Nat) ≠ k → (j : Nat) ≠ 241 → v.srcAt j = s.srcAt j) ∧ u.now ≤ v.now ∧ Same [.tb, .ic, .perf, .pwr] s v) ∧
  (∀ (sec : Bool) (n : Fin 256) (s : State),
    let spurious := { s with ic := { s.ic with spurLast := n, spurSec := sec, spurCnt := upTo 65535 s.ic.spurCnt } }
    (inService s.ic sec = [] → exec (.icEoi sec n) s = .next spurious) ∧
    (∀ k p l, inService s.ic sec = (k, p) :: l →
      (k ≠ n ∨ (s.srcAt k).active = false → exec (.icEoi sec n) s = .next spurious) ∧
      (k = n → (s.srcAt k).active = true →
        Answers (.icEoi sec n) s fun t =>
          inService t.ic sec = l ∧ t.srcAt k = (s.srcAt k).complete s.now ∧ (∀ j : Fin 256, j ≠ n → t.srcAt j = s.srcAt j) ∧ Same [.ic] s t))) ∧
  (∀ (x : Source) (now : Nat),
    let y := x.complete now
    y.active = false ∧ y.later = none ∧ y.cnt = (if x.arrivesWith now then x.cntPrev else x.cnt) ∧
    (x.later = none → y.pending = if x.edge then x.pending else x.line && x.en) ∧
    (∀ l, x.later = some l → y.target = l.target ∧ y.fast = l.fast ∧ y.addr = l.addr ∧ y.en = l.en ∧
      y.pending = ((if x.edge then x.pending else x.line && x.en) && l.en))) ∧
  (∀ (k : Fin 256) (s : State), (s.srcAt k).held ≠ 0 → (s.srcAt k).coalTime ≠ 0 → (s.srcAt k).en = true →
    let u := s.runTo ((s.srcAt k).heldAt + (s.srcAt k).coalTime * 16 * 12800)
    Answers (.coalTimeout k) s fun t =>
      let x := t.srcAt k
      x.held = 0 ∧ x.active = (u.srcAt k).active ∧ x.cnt = (u.srcAt k).cnt ∧ t.now = u.now ∧
      x.pending = ((u.srcAt k).pending || (u.srcAt k).edge || ((u.srcAt k).line && !(u.srcAt k).active)) ∧ Same [.tb, .ic, .perf, .pwr] s t) ∧
  (∀ (s : State) (r : Report) (l : List Report), s.err.fifo = r :: l → s.err.merged = 0 →
    exec .errlogWrite s = .next (logged { s with err := { s.err with fifo := l } } r (max (r.acc + 1) s.err.nextTake))) ∧
  (∀ s : State, s.err.fifo = [] → s.err.merged ≠ 0 →
    let c := max s.err.freeFrom s.err.nextTake
    let r : Report := { cls := 0, code := 1, object := 0, arg0 := BitVec.ofNat 32 s.err.merged, arg1 := BitVec.ofNat 32 (s.err.mergedCls % 2 ^ 15)
                        time := s.dtcAt (c * 12800), acc := c }
    exec .errlogWrite s = .next (logged { s with err := { s.err with merged := 0, mergedCls := 0, freeFrom := c + 1 } } r (c + 1))) ∧
  (∀ s : State, s.err.fifo = [] → s.err.merged = 0 → exec .errlogWrite s = .next s) ∧
  (∀ (n : Fin 64) (s : State),
    let upper := (n : Nat) ≠ 0 ∧ chained (n - 1) = true ∧ chained n = false
    let snap (v : Vector W32 64) : Vector W32 64 := if chained n then vset (vset v n (vget s.perf.val n)) (n + 1) (vget s.perf.val (n + 1)) else vset v n (vget s.perf.val n)
    (¬ upper →
      exec (.pcSnapRead n true) s = .next { s with
        perf := { s.perf with snapHost := snap s.perf.snapHost }, lastRead := { bytes := natBytes 4 (vget s.perf.val n).toNat, poisoned := false } } ∧
      exec (.pcSnapRead n false) s = .next { s with perf := { s.perf with snapMc := snap s.perf.snapMc } }) ∧
    (upper →
      exec (.pcSnapRead n true) s = .next { s with lastRead := { bytes := natBytes 4 (vget s.perf.snapHost n).toNat, poisoned := false } } ∧
      exec (.pcSnapRead n false) s = .next s)) ∧
  (∀ (n : Fin 64) (s : State), s.perf.en = true → vget s.perf.val n = 0xFFFFFFFF → chained n = false →
    let wrapped (v : Vector W32 64) : State := State.raise { s with perf := { s.perf with val := v, ovf := s.perf.ovf ||| BitVec.ofNat 64 (2 ^ n.val) } } 241
    ((n : Nat) = 0 ∨ chained (n - 1) = false → exec (.counterWrap n) s = .next (wrapped (vset s.perf.val n 0))) ∧
    ((n : Nat) ≠ 0 → chained (n - 1) = true → vget s.perf.val (n - 1) = 0xFFFFFFFF →
      exec (.counterWrap n) s = .next (wrapped (vset (vset s.perf.val (n - 1) 0) n 0))))

/-! The host's registers, the mirror, the link to the host, doorbells and tamper (chapters 13, 16 and 19). -/
namespace Sys2Proof.Claims

/-- BAR0 offsets with a field that the host may write (R8, chapter 19). -/
def writable (o : Nat) : Bool :=
  o = 0x20 || o = 0x24 || o = 0x28 || o = 0x10010 || decide (0x50000 ≤ o ∧ o < 0x50400 ∧ (o % 0x80 < 0x40 ∨ o % 0x80 = 0x44 ∨ o % 0x80 = 0x48)) ||
  decide (0x50800 ≤ o ∧ o < 0x51000 ∧ (o % 0x200 < 0x100 ∨ o % 0x200 = 0x104)) ||
  decide (0x60000 ≤ o ∧ o < 0x61000 ∧ o % 0x100 ∈ [0x08, 0x0C, 0x10, 0x14, 0x18, 0x20]) || decide (0x90010 ≤ o ∧ o < 0x90020)

/-- A 32-bit read answered. -/
def answered (u : State) (v : W32) : State := { u with lastRead := { bytes := natBytes 4 v.toNat, poisoned := false } }

/-- The host writes one register. -/
def writes (o : Nat) (v : W32) (s : State) : Host.Outcome State Fault Refusal := exec (.hostRegisterWrite o v) s

end Sys2Proof.Claims

/-- Register accesses (R6 to R9, R357, R370, R429, Table 19-9): a write of a writable field acts; any other is recorded and ignored; another size or alignment is recorded
as SIZE; a read returns the register, or 0 where there is none, and clears what it reads to clear. -/
def Obligations.RegisterAccessesAct : Prop :=
  (∀ (o : Nat) (v : W32) (s : State),
    (o % 4 ≠ 0 → writes o v s = .next (s.report 1 1 o v 0)) ∧
    (o % 4 = 0 → writable o = false → s.regValue o = none → writes o v s = .next s) ∧
    (o % 4 = 0 → writable o = false → s.regValue o ≠ none → writes o v s = .next (s.report 1 2 o v 0))) ∧
  (∀ (m : Fin 8) (k : Fin 16) (v : W32) (s : State),
    let o := 0x50000 + 0x80 * m.val
    writes (o + 4 * k.val) v s = exec (.mbDataWrite m k v) s ∧ writes (o + 0x44) 1 s = exec (.go m) s ∧ writes (o + 0x44) 2 s = exec (.cancel m) s ∧
    writes (o + 0x44) 0 s = .next s ∧
    writes (o + 0x44) 3 s = .next ((s.modMb m fun x => { x with goRej := true }).report 2 1 m (vget (s.mbAt m).data 0) 0) ∧
    (∀ n : BitVec 14, 1 ≤ n.toNat → n.toNat ≤ 10000 → (s.mbAt m).state = .idle ∨ (s.mbAt m).state = .done →
      writes (o + 0x48) (n.setWidth 32) s = .next (s.modMb m fun x => { x with tmoMs := n.toNat }))) ∧
  (∀ (q : Fin 4) (k : Fin 64) (v : W32) (s : State),
    writes (0x50800 + 0x200 * q.val + 4 * k.val) v s = exec (.qpH2dPush q v) s ∧
    (v.toNat < 4 → writes (0x50800 + 0x200 * q.val + 0x104) v s = .next (s.modQp q fun x => ({ x with noteMask := 0, d2hEn := bit v 1, h2dEn := bit v 0 } : QueuePair).putLost)) ∧
    ((q : Nat) ≠ 3 → v.toNat ||| 0x1F03 = 0x1F03 →
      writes (0x50800 + 0x200 * q.val + 0x104) v s = .next (s.modQp q fun x => ({ x with noteMask := bits v 12 8, d2hEn := bit v 1, h2dEn := bit v 0 } : QueuePair).putLost))) ∧
  (∀ (k : Fin 16) (v : W32) (s : State),
    let o := 0x60000 + 0x100 * k.val
    (v.toNat < 65536 → writes (o + 0x14) v s = exec (.dmaRingTailWrite k v) s ∧ writes (o + 0x18) v s = exec (.dmaRingHeadWrite k v) s) ∧
    writes (o + 0x20) 1 s = exec (.flush k) s ∧
    ((s.dmaAt k).state = .idle →
      (v.toNat % 32 = 0 → writes (o + 0x08) v s = .next (s.modDma k fun d => { d with baseLo := v.toNat / 32 })) ∧
      writes (o + 0x0C) v s = .next (s.modDma k fun d => { d with baseHi := v }) ∧
      (v.toNat < 32 → writes (o + 0x10) v s = .next (s.modDma k fun d => { d with sizeL := v.toNat }))) ∧
    ((s.dmaAt k).state ≠ .idle → ∀ r ∈ [0x08, 0x0C, 0x10], writes (o + r) v s = .next (s.report 1 3 (o + r) v 0))) ∧
  (∀ (v : W32) (s : State),
    writes 0x10010 v s = exec .tsCapture s ∧
    (s.mir.en = true → ∀ o ∈ [0x20, 0x24], writes o v s = .next (s.report 1 4 o v 0)) ∧
    (s.mir.en = false →
      (v.toNat % 256 = 0 → s.mir.addrLo % 256 = 0 → s.mir.addrLo < 2 ^ 32 → writes 0x20 v s = .next { s with mir := { s.mir with addrLo := v.toNat } }) ∧
      writes 0x24 v s = .next { s with mir := { s.mir with addrHi := v } }) ∧
    (v.toNat ||| 1 = s.mir.ctrl.toNat ||| 1 → bit v 0 = false → writes 0x28 v s = exec .mirrorDisable s) ∧
    writes 0x90010 1 s = exec .doorbellFrame s ∧ writes 0x90018 1 s = exec .doorbellCloseSessions s ∧ writes 0x9001C 1 s = exec .doorbellLockDebug s ∧
    (s.sec.serves = false → ∀ p, writes 0x90014 1 s = exec (.doorbellSelfTest p) s)) ∧
  (∀ (o : Nat) (s : State), o % 4 = 0 →
    (s.readValue o = none → exec (.readClear o) s = .next (answered s 0)) ∧
    (∀ v, s.readValue o = some v →
      exec (.readClear o) s = .next (answered (s.readEffect o) v) ∧
      exec (.hostOddSizeAccess false o 4 none) s = exec (.readClear o) s ∧
      (∀ i n, i + n ≤ 4 → n ≠ 0 →
        exec (.hostOddSizeAccess false (o + i) n none) s = .next { s.readEffect o with lastRead := { bytes := ((natBytes 4 v.toNat).drop i).take n, poisoned := false } }) ∧
      (∀ w, (s.readEffect o).readValue (o + 4) = some w →
        exec (.hostOddSizeAccess false o 8 none) s = .next { (s.readEffect o).readEffect (o + 4) with
          lastRead := { bytes := natBytes 4 v.toNat ++ natBytes 4 w.toNat, poisoned := false } }))) ∧
  (∀ (o n : Nat) (v : W32) (s : State),
    exec (.hostOddSizeAccess false o n (some v)) s = .next (s.report 1 1 o v 0) ∧ exec (.hostOddSizeAccess true o n (some v)) s = .next s ∧
    (o % 4 = 0 → o < 0x100 → exec (.hostOddSizeAccess true o 4 none) s = .next (answered s (s.mir.copy.getD (o / 4) 0)))) ∧
  (∀ s : State,
    (∀ n : Fin 128,
      s.readEffect (0x200000 + 0x2000 * n.val) = s.modIn n (fun x => { x with deadMiss := false, fifoOvf := false }) ∧
      s.readEffect (0x200010 + 0x2000 * n.val) = s.modIn n (fun x => { x with hwm := 0, hwmFrom := s.now / 12800 * 12800 + 12800 }) ∧
      s.readEffect (0x200108 + 0x2000 * n.val) = s.modOut n (fun x => { x with lateSeen := false, hwm := x.queue.length }) ∧
      s.readEffect (0x200144 + 0x2000 * n.val) = s.modPu n (fun x => { x with wrRej := false, hoRej := false })) ∧
    (∀ m : Fin 8, s.readEffect (0x5004C + 0x80 * m.val) = s.modMb m fun x => { x with wrRej := false, goRej := false, cancelLate := false }) ∧
    (∀ k : Fin 16, s.readEffect (0x60004 + 0x100 * k.val) = s.modDma k fun d => { d with badSeen := false }) ∧
    (∀ b : Fin 64, s.readEffect (0x70008 + 0x20 * b.val) = s.modBank b fun k => { k with lost := false, denySeen := false, ueSeen := false }) ∧
    (∀ k : Fin 256, s.readEffect (0x30800 + 4 * k.val) = s.modSrc k fun x => { x with cnt := 0, cntPrev := 0 }))

/-- The mirror, the PCI Express link, doorbells, sessions and tamper sensors (R340 to R346, R413, R426, R429, R438): a snapshot goes out in three posted writes, its SEQ first and last and
never 0, or is skipped without bus mastering; training ends 10 ms or more after the release of the reset, and retraining is noted; a doorbell raises its source and is served by a module that is up; sessions and locks end in time;
a sensor that responds zeroises, and one that does not is noted in the audit trail. -/
def Obligations.HostLinkAndSecureEventsDo : Prop :=
  (∀ (s : State) (w : List W32), s.mir.snap = some w →
    let q : W32 := if s.mir.seq = 0xFFFFFFFF then 1 else s.mir.seq + 1
    let a := s.mir.addrLo + s.mir.addrHi.toNat * 2 ^ 32
    let u := { s with mir := { s.mir with seq := q, snap := none } }
    (s.pcie.bme = true → exec .mirrorWrite s = .next ((((u.post a [q]).post (a + 4) w).post (a + 252) [q]).pcAdd 52 1)) ∧
    (s.pcie.bme = false → exec .mirrorWrite s = .next { u with mir := { u.mir with skip := u.mir.skip + 1 } })) ∧
  (∀ s : State, exec .mirrorDisable s = .next { s with
    mir := { s.mir with en := false, left := none }, deferred := s.deferred.filter fun d => decide (d.op ≠ 0x0104) }) ∧
  (∀ (en : Bool) (s : State), exec (.busMasterEnable en) s = .next { s with pcie := { s.pcie with bme := en } }) ∧
  (∀ (w v : Nat) (s : State),
    (s.pcie.dlUp = true →
      let u := { s with pcie := { s.pcie with retrain := upTo 255 s.pcie.retrain, width := w % 16, speed := v % 16 } }
      exec (.pcieRetrain w v) s = .next (u.report 11 3 2 u.pcie.word 0) ∧ exec (.dataLinkUp w v) s = .next s) ∧
    (s.pcie.dlUp = false → exec (.pcieRetrain w v) s = .next s) ∧
    (s.pcie.dlUp = false → s.pwr.startup = .held → exec (.dataLinkUp w v) s = .next s) ∧
    (s.pcie.dlUp = false → s.pwr.startup ≠ .held →
      let u := s.runTo (s.pwr.porAt + 80000000000)
      exec (.dataLinkUp w v) s = .next ({ u with pcie := { u.pcie with dlUp := true, width := w % 16, speed := v % 16 } }.raise 239))) ∧
  (∀ s : State, exec .doorbellFrame s = .next (s.raise 249)) ∧
  (∀ s : State, s.sec.state = .unowned ∨ s.sec.state = .operational ∨ s.sec.state = .zeroized →
    exec (.doorbellSelfTest true) s = .next ((s.raise 250).audit 7 0 0 0 0 0) ∧
    (Answers (.doorbellSelfTest false) s fun t => t.sec.state = .error ∧ t.sec.sess = Vector.replicate 2 none ∧ t.sec.keys = s.sec.keys) ∧
    exec .doorbellCloseSessions s = .next (((s.raise 251).closeSess 0 0 0 0).closeSess 1 0 0 0) ∧
    (s.sec.debug = 0 → exec .doorbellLockDebug s = .next (s.raise 252)) ∧
    (s.sec.debug ≠ 0 → Answers .doorbellLockDebug s fun t => t.sec.debug = 0 ∧ t.sec.debugAt = some s.now ∧ t.sec.state = s.sec.state ∧ t.sec.keys = s.sec.keys ∧
      t.pwr.mcHalted = false)) ∧
  (∀ (s : State) (p : Bool), s.sec.state ≠ .unowned → s.sec.state ≠ .operational → s.sec.state ≠ .zeroized →
    exec (.doorbellSelfTest p) s = .next (s.raise 250) ∧ exec .doorbellCloseSessions s = .next (s.raise 251) ∧ exec .doorbellLockDebug s = .next (s.raise 252)) ∧
  (∀ (b : Bool) (s : State) (x : Session),
    let k := if b then 1 else 0
    vget s.sec.sess k = some x → exec (.sessionTimeout b) s = .next ((s.runTo (x.lastAt + 600 * 8000000000000)).closeSess k 0 0 0)) ∧
  (∀ (u : State) (k : Fin 2) (code : Nat) (a b : W32) (x : Session), vget u.sec.sess k = some x →
    u.closeSess k code a b = (u.modSec fun y => { y with sess := vset y.sess k none }).audit 1 x.role x.key code a b) ∧
  (∀ (u : State) (kind role key code : Nat) (a b : W32),
    (u.sec.keys = false → u.audit kind role key code a b = u) ∧
    (u.sec.keys = true →
      let e : AuditEntry := { seq := (u.sec.auditWr + 1) % 2 ^ 32, kind := kind, role := role, key := key, code := code, tai := u.rtcNow.1, sub := u.rtcNow.2
                              arg0 := a, arg1 := b, dtc := u.tb.dtc }
      u.audit kind role key code a b = u.modSec fun y => { y with auditWr := e.seq, audit := e :: y.audit.take 16383 })) ∧
  (∀ (i : Nat) (s : State) (x : Nat × Nat), s.sec.locks.find? (fun x => decide (x.1 = i)) = some x →
    exec (.lockoutExpire i) s = .next ((s.runTo x.2).modSec fun y => { y with locks := y.locks.filter fun z => decide (z.1 ≠ i) })) ∧
  (∀ (k : Fin 8) (s : State), s.rtc.dead = false → 4 ≤ k.val ∨ s.tamper.extEn.testBit k = true →
    let on := { s with tamper := { s.tamper with active := s.tamper.active ||| 2 ^ k.val } }
    let off := { s with tamper := { s.tamper with active := s.tamper.active &&& (0xFF - 2 ^ k.val) } }
    exec (.tamperDetect k false) s = .next off.lines ∧
    (k.val < 4 → s.tamper.extResp.testBit k = false → exec (.tamperDetect k true) s = .next (on.lines.audit 9 0 0 0 0 0)) ∧
    (4 ≤ k.val ∨ s.tamper.extResp.testBit k = true →
      Answers (.tamperDetect k true) s fun t =>
        t.sec.state = .zeroized ∧ t.sec.keys = false ∧ t.sec.coKey = none ∧ t.sec.userKeys = Vector.replicate 7 none ∧ t.sec.sess = Vector.replicate 2 none ∧
        t.sec.sealHash = none ∧ t.sec.queue = [] ∧ t.tamper.latched = s.tamper.latched ||| 2 ^ k.val ∧ t.tamper.active = on.tamper.active ∧
        (s.tamper.latched = 0 → t.tamper.time0 = BitVec.ofNat 32 s.rtcNow.1 ∧ t.tamper.time1 = s.rtcNow.2) ∧
        (s.tamper.latched ≠ 0 → t.tamper.time0 = s.tamper.time0 ∧ t.tamper.time1 = s.tamper.time1) ∧
        Same [.ch, .cl, .env, .st, .qp, .ic, .err, .perf, .sec, .tamper, .pwr] s t))

/-! Power states, reset scopes and start-up (chapter 17). -/
namespace Sys2Proof.Claims

/-- A taken message has ended with a code. -/
def Ended (m code : Nat) (t : State) : Prop :=
  (t.mbAt m).state = .done ∧ (t.mbAt m).ackDone = true ∧ (t.mbAt m).ackTaken = true ∧ (t.mbAt m).ackCode = code

/-- A sleep command that loses to a wake source (R443). -/
def SleepAborted (s : State) (m : Nat) (t : State) : Prop :=
  Ended m 0x0D t ∧ t.pwr = { s.pwr with retain := none, sleepAbort := true, wakeFired := 0 } ∧ Same [.tb, .mb, .ic, .perf, .pwr] s t

/-- No microengine of an ungated cluster runs a task or a handler. -/
def Quiet (u : State) : Prop :=
  ∀ c : Fin 4, u.pwr.gated.testBit c = false → (u.me c).state = .idle ∨ (u.me c).state = .halted

/-- The bytes of bank b. -/
def bankByte (b a : Nat) : Prop := a / 1048576 = b

/-- Internal power-on reset is asserted (Table 17-2, column 1): every register is at its power-on value, and what the backup domain, the flash
and the calendar clock hold stays. -/
def PowerOnReset (s : State) (cause jtag : Nat) (t : State) : Prop :=
  t.pwr = { Power.reset with cause := cause, jtag := jtag, porAt := s.now } ∧ t.tb = { TimeBase.reset with phys := s.tb.phys } ∧
  (t.ref = State.reset.ref ∧ t.pps = State.reset.pps ∧ t.bx = State.reset.bx ∧ t.slot = State.reset.slot ∧ t.dec = State.reset.dec ∧
    t.tim = State.reset.tim ∧ t.bank = State.reset.bank ∧ t.mem = [] ∧ t.dma = State.reset.dma ∧ t.mir = State.reset.mir ∧
    t.env = State.reset.env ∧ t.mb = State.reset.mb ∧ t.qp = State.reset.qp ∧ t.grp = State.reset.grp ∧ t.ic = State.reset.ic ∧
    t.err = State.reset.err ∧ t.perf = State.reset.perf ∧ t.deferred = []) ∧
  (∀ n : Fin 128, (t.chan n).inp = ChIn.reset ∧ (t.chan n).out = ChOut.reset ∧ (t.chan n).cal = ChCal.reset ∧ (t.chan n).pu = PatUnit.reset) ∧
  (∀ c : Fin 4, (t.me c).state = .halted ∧ (t.me c).loaded = false ∧ (t.clus c).sch = Sched.reset) ∧
  (∀ b : Fin 8, (t.brkAt b).tripped = false ∧ (t.brkAt b).active = false ∧ (t.brkAt b).tripCnt = 0 ∧ (t.brkAt b).ball = (s.brkAt b).ball) ∧
  (t.tamper = s.tamper ∧ t.sec.keys = s.sec.keys ∧ t.sec.coKey = s.sec.coKey ∧ t.sec.userKeys = s.sec.userKeys ∧ t.sec.sealHash = s.sec.sealHash ∧
    t.sec.auditWr = s.sec.auditWr ∧ t.sec.audit = s.sec.audit ∧ t.sec.svnMin = s.sec.svnMin ∧ t.sec.fwA = s.sec.fwA ∧ t.sec.fwB = s.sec.fwB ∧
    t.sec.sess = Vector.replicate 2 none) ∧
  (t.rtc.slaved = none ∧ t.rtc.set = s.rtc.set ∧ t.rtc.offset = s.rtc.offset ∧ t.rtc.trim = s.rtc.trim ∧ t.rtc.bkpLost = s.rtc.bkpLost) ∧
  t.st.cycles = s.st.cycles ∧ t.st.opHours = s.st.opHours ∧ t.posted = s.posted

/-- The firmware slot that start-up finds. -/
def programmed (f : FwSlot) (i : Option FwImg) : FwSlot :=
  match i with
  | none => f
  | some i => { valid := i.ok, svn := i.svn % 64, hash := i.hash, version := i.version }

/-- An image that the module starts (R422). -/
def Starts (x : Sec) (f : FwSlot) : Prop := f.valid = true ∧ x.svnMin ≤ f.svn

/-- The firmware of slot f runs. -/
def Booted (f : FwSlot) (b fallback : Bool) (t : State) : Prop :=
  t.pwr.startup = .running ∧ t.pwr.mcUp = true ∧ t.sec.slotB = b ∧ t.sec.fallback = fallback ∧ t.sec.fwHash = f.hash ∧ t.sec.fwVersion = f.version ∧
  t.sec.svnRun = f.svn ∧ t.st.fwRecorded = true

/-- The module's state at the start of a firmware. -/
def moduleState (x : Sec) : SecState := if x.keys = false then .zeroized else if x.coKey = none then .unowned else .operational

/-- Start-up up to the end of the calibration of step 4, which it waits for at most 60 ms (R140); without a hit it begins now. -/
def calibrated (s : State) (dt : Nat) : State :=
  let u := s.advance dt
  let u := if u.st.calFrom = none then u.beginCal else u
  if u.calDone then u else u.runTo (u.st.calFrom.getD 0 + 480000000000)

/-- Entry k of the table an interpolator starts with, in 1/256 tq (R140). -/
def firstEntry (n : Nat) (i1 : Bool) (k : Nat) : Int :=
  let lt := Config.leadTail n i1
  47104 + ((2 * (2 * k + 1) * (lt.1 + 102400 + lt.2) + 320) / 640 : Nat) - (lt.1 : Int)

end Sys2Proof.Claims

/-- RETAIN and the wake (R335, R441 to R446): the commit edge gates the ungated clusters, stops the management core, narrows VDDM's window and ends the
command with OK; a wake source that fires first ends it with ABORTED_WAKE, and after 1 ms it ends with BUSY. A wake scrubs retained banks and loses the
others, restores the state and brings the clusters back from the boundary 10 µs later. -/
def Obligations.RetainIsEnteredAndLeft : Prop :=
  (∀ (s : State) (r : RetainPend), s.pwr.retain = some r → r.mb < 8 →
    let u := atEdge s
    (s.pwr.wakeFired ≠ 0 → Answers .retainCommit s (SleepAborted s r.mb) ∧ Answers .wake s (SleepAborted s r.mb)) ∧
    (s.pwr.wakeFired = 0 → r.limit < u.now →
      Answers .retainCommit s fun t => Ended r.mb 0x01 t ∧ t.pwr = { s.pwr with retain := none } ∧ Same [.tb, .mb, .ic, .perf, .pwr] s t) ∧
    (s.pwr.wakeFired = 0 → u.now ≤ r.limit → ¬ Quiet u → exec .retainCommit s = .next u) ∧
    (s.pwr.wakeFired = 0 → u.now ≤ r.limit → Quiet u →
      Answers .retainCommit s fun t =>
        Ended r.mb 0x00 t ∧ (t.mbAt r.mb).applied = true ∧ (t.mbAt r.mb).ackRlen = 4 ∧
        (∀ k : Fin 4, vget (t.mbAt r.mb).data (k.val + 1) = (t.pwrStatus :: dtcWords u.tb.dtc).getD k 0) ∧
        t.pwr = { s.pwr with
          before := s.pwr.state, gatedBefore := s.pwr.gated, state := .retain, safeOff := r.backupOnly, retain := none, mcUp := false, gated := 15
          clCal := 0 } ∧
        (∀ c : Fin 4, s.pwr.gated.testBit c = false → (t.me c).state = .halted ∧ (t.me c).handlers = [] ∧
          ∀ j : Fin 32, (t.chan (32 * c.val + j.val)).inp.fifo = [] ∧ (t.chan (32 * c.val + j.val)).inp.convs = []) ∧
        (vget t.env.mon 2).low = 570 ∧ (vget t.env.mon 2).high = 630 ∧ t.now = u.now ∧
        t.st.opTq = s.st.opTq + (if s.pwr.state = .run then u.now - s.st.opFrom else 0) ∧
        Same [.tb, .bx, .ch, .cl, .slot, .dec, .bank, .env, .st, .mb, .ic, .perf, .pwr] s t)) ∧
  (∀ s : State, s.pwr.retain = none → exec .retainCommit s = .next s) ∧
  (∀ s : State, s.pwr.wakeFired = 0 ∨ s.pwr.retain = none ∧ s.pwr.state ≠ .retain → exec .wake s = .next s) ∧
  (∀ s : State, s.pwr.wakeFired ≠ 0 → s.pwr.retain = none → s.pwr.state = .retain → Mem.wf s.mem = true →
    Answers .wake s fun t =>
      t.pwr.wakeCause = s.pwr.wakeFired ∧ t.pwr.wakeFired = 0 ∧ t.pwr.state = s.pwr.before ∧ t.pwr.gated = s.pwr.gated ∧ t.pwr.safeOff = false ∧
      t.pwr.mcUp = true ∧ t.pwr.banksAt = s.now + 16000000 ∧ t.pwr.hostResetPend = false ∧
      t.deferred = s.deferred ++ [{ at_ := .phys (s.now + 80000000), op := 0x0A00, words := [BitVec.ofNat 32 (1 + s.pwr.gatedBefore * 256)] }] ∧
      (vget t.env.mon 2).low = s.env.vddmRun.1 ∧ (vget t.env.mon 2).high = s.env.vddmRun.2 ∧
      ∀ b : Fin 64,
        (s.pwr.safeOff = false → s.pwr.retainMask.testBit b = true →
          (t.bankAt b).scrub = true ∧ (t.bankAt b).owner = (s.bankAt b).owner ∧ ∀ a, bankByte b a → Mem.read t.mem a = Mem.read s.mem a) ∧
        (s.pwr.safeOff = true ∨ s.pwr.retainMask.testBit b = false →
          (t.bankAt b).owner = 0 ∧ (t.bankAt b).lost = true ∧ ∀ a, bankByte b a → Mem.read t.mem a = 0))

/-- Power-on reset and start-up (R131, R135, R139 to R141, R401, R422, R431 to R433, R437, R470): a rail out of its window, POR_N and JTAG's holding
instructions assert the reset, with their cause; its release starts the active image, or the other one, or none; the end of start-up enables counters and
interrupts, zeroes the banks, loads terms and provisional tables and sets READY. -/
def Obligations.TheDeviceStartsUp : Prop :=
  (∀ s : State, Answers .railExcursion s (PowerOnReset s 0 s.pwr.jtag) ∧ Answers .porN s (PowerOnReset s 1 1)) ∧
  (∀ (i : Nat) (s : State),
    (i % 256 ∈ [0, 4, 5] → Answers (.jtagInstruction i) s (PowerOnReset s s.pwr.cause (i % 256))) ∧
    (i % 256 ∉ [0, 4, 5] → i % 256 < 0x80 ∨ 0x8F < i % 256 ∨ s.sec.debug ≠ 1 ∨ s.pwr.jtag ∈ [0, 4, 5] →
      exec (.jtagInstruction i) s = .next { s with pwr := { s.pwr with jtag := i % 256, porAt := if s.pwr.jtag ∈ [0, 4, 5] then s.now else s.pwr.porAt } }) ∧
    (0x80 ≤ i % 256 → i % 256 ≤ 0x8F → s.sec.debug = 1 → s.pwr.jtag ∉ [0, 4, 5] →
      let u := s.timSyncAll
      exec (.jtagInstruction i) s = .next { u with pwr := { u.pwr with jtag := i % 256, mcHalted := Config.debugHalts (i % 256) u.now } })) ∧
  (∀ (dt : Nat) (b : Boot) (s : State),
    (s.pwr.startup ≠ .held ∨ s.pwr.jtag ∈ [0, 4, 5] → exec (.powerOnReset dt b) s = .next s) ∧
    (s.pwr.startup = .held → s.pwr.jtag ∉ [0, 4, 5] → s.sec.queue = [] → s.sec.answers = [] → s.pwr.hostResetPend = false →
      let fA := programmed s.sec.fwA b.imgA
      let fB := programmed s.sec.fwB b.imgB
      let active := if s.sec.activeB then fB else fA
      let other := if s.sec.activeB then fA else fB
      Answers (.powerOnReset dt b) s fun t =>
        t.now = (max (s.now + dt) (s.pwr.porAt + 16000000000) + 12799) / 12800 * 12800 ∧ t.pwr.porAt = t.now ∧ t.tb.dtc = s.tb.dtc ∧ t.sec.fwA = fA ∧ t.sec.fwB = fB ∧ t.sec.keys = s.sec.keys ∧
        (b.pass = false → t.pwr.startup = .noFirmware ∧ t.sec.state = .error) ∧
        (b.pass = true → Starts s.sec active → Booted active s.sec.activeB false t ∧ t.sec.state = moduleState s.sec) ∧
        (b.pass = true → ¬ Starts s.sec active → Starts s.sec other → Booted other (!s.sec.activeB) true t ∧ t.sec.state = moduleState s.sec) ∧
        (b.pass = true → ¬ Starts s.sec active → ¬ Starts s.sec other → t.pwr.startup = .noFirmware ∧ t.pwr.mcUp = s.pwr.mcUp) ∧
        (s.rtc.dead = false → t.rtc = s.rtc ∧ t.tamper = s.tamper) ∧
        (s.rtc.dead = true → t.rtc.dead = false ∧ t.rtc.freeCount = 0 ∧ t.rtc.xtalRuns = true ∧ t.tamper.keystoreLost = true))) ∧
  (∀ (dt : Nat) (cut : Option HistCut) (ok : Bool) (s : State),
    (s.pwr.startup ≠ .running → exec (.ready dt cut ok) s = .next s) ∧
    (s.pwr.startup = .running →
      let u := calibrated s dt
      let cycles := match cut with | none => s.st.cycles | some h => min h.cycles s.st.cycles
      let hours := match cut with | none => s.st.opHours | some h => min h.hours s.st.opHours
      let first : Prop := cycles < 8 ∨ hours < 24
      Answers (.ready dt cut ok) s fun t =>
        t.pwr.startup = .ready ∧ t.now = u.now ∧ t.perf.en = true ∧ t.ic.dis = 0 ∧ t.st.cycles = cycles ∧ t.st.opHours = hours ∧
        t.st.readyAt = t.now ∧ t.sec.svnMin = max s.sec.svnMin s.sec.svnRun ∧ t.sec.sealHash = (if ok then s.sec.sealHash else none) ∧
        (s.ref.slew ≠ .none → t.ref.osc.slow = true ∧ t.ref.osc.diff = s.ref.osc.left t.now) ∧
        (∀ a, a < 64 * 1048576 → Mem.read t.mem a = 0) ∧
        (first → t.st.baseline = true ∧ ∀ c : Fin 4, (t.clus c).sch.guard = min 128 (s.tb.tickP / 8) ∧ (t.clus c).minpwGuard = 1600 ∧ (t.clus c).overlap = 96) ∧
        (¬ first → t.st.baseline = false ∧ ∀ c : Fin 4,
          let k := s.degMax / 5000
          (t.clus c).sch.guard = min (64 + 16 * k) (min 1024 (s.tb.tickP / 8)) ∧ (t.clus c).minpwGuard = min 3200 (800 + 160 * k) ∧
            (t.clus c).overlap = min 96 (48 + 8 * k)) ∧
        (s.st.calFrom ≠ none → ∀ n : Fin 128, (t.chan n).cal.int0 = (s.chan n).cal.int0 ∧ (t.chan n).cal.int1 = (s.chan n).cal.int1 ∧
          (cut = none → (t.chan n).cal.inTerm = (s.chan n).cal.inTerm ∧ (t.chan n).cal.outTerm = (s.chan n).cal.outTerm) ∧
          (∀ h, cut = some h → (t.chan n).cal.hist = (s.chan n).cal.hist.filter fun r => decide (r.cycle ≤ cycles))) ∧
        (s.st.calFrom = none → ∀ n : Fin 128,
          (∀ k : Fin 160, (t.chan n).cal.int0.table.getD k 0 = firstEntry n false k ∧ (t.chan n).cal.int1.table.getD k 0 = firstEntry n true k) ∧
          (t.chan n).cal.int0.accepted = 0 ∧ (t.chan n).cal.int1.accepted = 0 ∧
          (∀ h, (s.chan n).kept = some h → (t.chan n).cal.failed = h.failed ∧ (t.chan n).cal.failCause = h.failCause ∧
            (cut = none → h.inAt ≠ none → (t.chan n).cal.inTerm = h.inTerm ∧ (t.chan n).cal.d1 = h.d1) ∧
            (cut = none → h.outAt ≠ none → (t.chan n).cal.outTerm = h.outTerm)) ∧
          ((s.chan n).kept = none → (t.chan n).cal.failed = false ∧ (t.chan n).cal.inAt = none ∧ (t.chan n).cal.outAt = none))))

/-- Restarts of the management core and host resets (R356, R364, R385, R386, R435, R436): a restart ends the taken messages with ABORTED and RESTARTED, copies
APPLIED into their reply and drops what groups prepared; a host reset stops the mirror, bus mastering and the host's streams, ends posted messages,
empties the word queues with a MARKER, and closes every session. -/
def Obligations.RestartsAndHostResetsDo : Prop :=
  (∀ s : State, s.pwr.mcUp = false → exec .mcWatchdog s = .next s) ∧
  (∀ s : State, s.pwr.mcUp = true →
    Answers .mcWatchdog s fun t =>
      t.pwr = { s.pwr with
        mcUp := false, restartBy := some (s.now + 400000000000), mcRestarts := upTo 255 s.pwr.mcRestarts, cause := 4, retain := none } ∧
      (∀ m : Fin 8, m.val < 6 → (s.mbAt m).state = .taken →
        Ended m 0x0C t ∧ (t.mbAt m).ackRestarted = true ∧ (t.mbAt m).ackRlen = 1 ∧ vget (t.mbAt m).data 1 = if (s.mbAt m).applied then 1 else 0) ∧
      (∀ m : Fin 8, 6 ≤ m.val ∨ (s.mbAt m).state ≠ .taken → t.mbAt m = s.mbAt m) ∧
      (∀ g : Fin 4, vget t.grp g = if (vget s.grp g).state = .committed then vget s.grp g else Group.reset) ∧
      Same [.mb, .grp, .ic, .err, .perf, .pwr] s t) ∧
  (∀ s : State, s.pwr.restartBy = none → exec .mcRestartComplete s = .next s) ∧
  (∀ s : State, s.pwr.restartBy ≠ none →
    (Answers .mcRestartComplete s fun t => t.pwr.mcUp = true ∧ t.pwr.restartBy = none ∧ t.pwr.hostResetPend = false) ∧
    (s.pwr.hostResetPend = false → s.sec.queue = [] → s.sec.answers = [] →
      Answers .mcRestartComplete s fun t => t.pwr = { s.pwr with mcUp := true, restartBy := none } ∧ Same [.ic, .pwr] s t)) ∧
  (∀ (down : Bool) (s : State), s.pwr.startup = .held → exec (.hostReset down) s = .next s) ∧
  (∀ (down : Bool) (s : State), s.pwr.startup ≠ .held →
    Answers (.hostReset down) s fun t =>
      t.mir = { s.mir with en := false, left := none, addrLo := 0, addrHi := 0, snap := none } ∧
      t.pcie = { s.pcie with bme := false, dlUp := s.pcie.dlUp && !down } ∧
      t.deferred = s.deferred.filter (fun d => decide (d.op ≠ 0x0104 ∧ d.op ≠ 0x0900 ∧ d.op ≠ 0x0901)) ∧
      (∀ k : Fin 16,
        ((s.dmaAt k).kind = 2 → t.dmaAt k = s.dmaAt k) ∧
        ((s.dmaAt k).kind ≠ 2 → (t.dmaAt k).state = .idle ∧ (t.dmaAt k).desc = none ∧ (t.dmaAt k).baseLo = 0 ∧ (t.dmaAt k).baseHi = 0 ∧
          (t.dmaAt k).sizeL = 0 ∧ (t.dmaAt k).tail = 0 ∧ (t.dmaAt k).head = 0)) ∧
      (s.pwr.mcUp = false → t.pwr.hostResetPend = true ∧ t.mb = s.mb ∧ t.qp = s.qp ∧ t.grp = s.grp ∧ t.sec = s.sec ∧ t.st = s.st) ∧
      (s.pwr.mcUp = true →
        t.pwr.hostResetPend = false ∧ t.st = { s.st with hostResets := s.st.hostResets + 1 } ∧ t.sec.sess = Vector.replicate 2 none ∧ t.sec.queue = [] ∧ t.sec.update = none ∧
        (∀ g : Fin 4, vget t.grp g = if (vget s.grp g).state = .committed then vget s.grp g else Group.reset) ∧
        (∀ m : Fin 8, (t.mbAt m).tmoMs = 10 ∧
          (6 ≤ m.val → (t.mbAt m).state = .idle ∧ (t.mbAt m).ackDone = false ∧ (t.mbAt m).ackTaken = false ∧ (t.mbAt m).ackCode = 0 ∧ (t.mbAt m).tmoAt = none) ∧
          (m.val < 6 → (s.mbAt m).state = .posted →
            (t.mbAt m).state = .done ∧ (t.mbAt m).ackDone = true ∧ (t.mbAt m).ackTaken = false ∧ (t.mbAt m).ackCode = 0x0E ∧ (t.mbAt m).ackRlen = 0) ∧
          (m.val < 6 → (s.mbAt m).state ≠ .posted → t.mbAt m = { s.mbAt m with tmoMs := 10 })) ∧
        (∀ k : Fin 4, (t.qpAt k).h2d = [] ∧ (t.qpAt k).h2dCons = (s.qpAt k).h2dWr ∧
          (k.val = 3 → (t.qpAt k).d2h = []) ∧
          (k.val ≠ 3 → (s.qpAt k).d2hEn = true → (s.qpAt k).lostSince = 0 → (s.qpAt k).d2h.length ≤ 1022 →
            (t.qpAt k).d2h = (s.qpAt k).d2h ++ [BitVec.ofNat 32 (0x01010000 + (s.qpAt k).noteSeq.toNat), s.st.hostResets + 1]) ∧
          (k.val ≠ 3 → (s.qpAt k).d2hEn = false → (t.qpAt k).d2h = (s.qpAt k).d2h))))

/-! Calibration and the environment (chapters 4 and 11). -/
namespace Sys2Proof.Claims

/-- A channel's interpolator changed, and nothing else of its channel but the confidence. -/
def IntSet (s : State) (n : Nat) (i1 : Bool) (x : Interp) (t : State) : Prop :=
  (t.chan n).cal.interp i1 = x ∧ (t.chan n).cal.interp (!i1) = (s.chan n).cal.interp (!i1) ∧ (t.chan n).inp = (s.chan n).inp ∧ (t.chan n).out = (s.chan n).out ∧
  ∀ m : Fin 128, m.val ≠ n → (t.chan m).cal.int0 = (s.chan m).cal.int0 ∧ (t.chan m).cal.int1 = (s.chan m).cal.int1

/-- Width of code k in units of 2⁻²⁰ tq, and what lies before it (R118). -/
def width (h : Hits) (k : Nat) : Nat := 1600 * (h.late.getD k 0 + h.early.getD k 0) + 800 * h.nom.getD k 0
def before (h : Hits) : Nat → Nat
  | 0 => 0
  | k + 1 => before h k + width h k

/-- tq of a millisecond and of an hour. -/
def ms : Nat := 8000000000
def hour : Nat := 28800000000000000

/-- The input of channel n can be measured now (R130). -/
def Measurable (s : State) (n : Nat) : Prop :=
  (s.chan n).inp.en = false ∧ s.pwr.gated.testBit (n / 32) = false ∧ (s.chan n).cal.meas = none ∧ ∀ r, vget s.env.tdr (n / 32) = some r → r.cur ≠ n

/-- δ of a cluster in ppm, at least 0 (R134). -/
def ringLoss (c : Nat) (a b : W32) : Nat :=
  let fs0 := (Config.ringRatio c).1
  let fu0 := (Config.ringRatio c).2
  if a.toNat * fu0 < b.toNat * fs0 then (b.toNat * fs0 - a.toNat * fu0) * 1000000 / (b.toNat * fs0) else 0

/-- A deferred measurement starts at the boundary that disables its input; one of an input that was disabled as the cycle started, as soon as it can (R130). -/
def Startable (s : State) (n : Nat) : Prop :=
  (s.chan n).cal.deferred = true ∧ Measurable s n ∧ ∀ b, (s.chan n).inp.enTo = some b → b = (s.now : Int) ∨ b < (s.st.cycleAt : Int)

/-- What 4,096 or 16,384 tags show, in 1/16 tq (R127, R128): their mean, and half the difference between the mean spacing from an even edge to the next odd one and the
mean spacing back. -/
def meanOf (l : List Int) : Int := divNearest (16 * l.sum) l.length
def tandemOf (l : List Int) : Int :=
  let up := (List.range 8192).map fun i => l.getD (2 * i + 1) 0 - l.getD (2 * i) 0
  let back := (List.range 8191).map fun i => l.getD (2 * i + 2) 0 - l.getD (2 * i + 1) 0
  divNearest (8 * (up.sum * 8191 - back.sum * 8192)) (8192 * 8191)

/-- |b| × Δδ + u of a term, in 10⁻⁶ fs (R136, R137): `out` names the output term, d is the change of δ in 0.001 ppm. -/
def skew (s : State) (n : Nat) (out : Bool) (d : Nat) : Nat :=
  let l := (s.chan n).cal.points out
  (Config.termFit l).2.natAbs * d + Config.termUnc l d * 1000000

/-- δ that the fit of a cluster gives at an operating hour. -/
def degAt (s : State) (n h : Nat) : Nat := Config.degFit (s.clus (n / 32)).degHist h

/-- A term of a channel is fitted: of a configured input or output. -/
def Fitted (s : State) (n : Nat) (out : Bool) : Prop := if out then (s.chan n).out.configured = true else (s.chan n).inp.configured = true

/-- The projection of a term (R137): from its last accepted measurement to the later of now and the next cycle. -/
def projected (s : State) (n : Nat) (out : Bool) : Nat :=
  let k := (s.chan n).cal
  let next := s.st.opHours + (s.st.cycleAt + s.st.intervalH * hour - s.now) / hour
  skew s n out (degAt s n next - degAt s n (if out then k.outHours else k.inHours))

/-- The projections of a state are those that the model gives (R137): the larger of a channel's two governs, and 300 fs of any makes SERVICE_DUE. -/
def Projected (t : State) : Prop :=
  (∀ (n : Fin 128) (o : Bool), Fitted t n o → (∀ o', Fitted t n o' → projected t n o' ≤ projected t n o) →
    (t.chan n).cal.proj = (projected t n o + 500000) / 1000000) ∧
  (t.st.serviceDue = true ↔ ∃ (n : Fin 128) (o : Bool), Fitted t n o ∧ 300000000 < projected t n o)

/-- The largest skew change over i hours stays within 0.15 ps (R136). -/
def WithinSkew (s : State) (i : Nat) : Prop :=
  ∀ (n : Fin 128) (o : Bool), Fitted s n o → skew s n o (degAt s n (s.st.opHours + i) - degAt s n s.st.opHours) ≤ 150000000

/-- The longest interval: 2,160 h, or the smallest CAP_H that is not 0 (R136). -/
def IsCap (s : State) (cap : Nat) : Prop :=
  ((∀ c : Fin 4, (s.clus c).capH = 0) ∧ cap = 2160) ∨
  ∃ c : Fin 4, (s.clus c).capH ≠ 0 ∧ (∀ d : Fin 4, (s.clus d).capH ≠ 0 → (s.clus c).capH ≤ (s.clus d).capH) ∧ cap = min 2160 (s.clus c).capH

/-- What a re-plan leaves (R136 to R138). -/
def Replanned (u t : State) : Prop :=
  t.st.planAt = u.now ∧ t.st.planDue = false ∧ Projected t ∧
  (∀ cap, IsCap u cap →
    (∃ i, 1 ≤ i ∧ i ≤ cap ∧ WithinSkew u i ∧ (∀ j, i < j → j ≤ cap → ¬ WithinSkew u j) ∧ t.st.intervalH = i) ∨
    ((∀ j, 1 ≤ j → j ≤ cap → ¬ WithinSkew u j) ∧ t.st.intervalH = 1)) ∧
  (∀ n : Fin 128, ((t.chan n).cal.inOld = true ↔
    (u.chan n).cal.inOld = true ∧ ∃ a, (u.chan n).cal.inAt = some a ∧ a + t.st.intervalH * hour < u.now)) ∧
  (∀ c d : Fin 4, (∀ e : Fin 4, (u.clus e).degPpm ≤ (u.clus d).degPpm) →
    let k := (u.clus d).degPpm / 5000
    let p := match u.tb.tickPend with | some q => min q u.tb.tickP | none => u.tb.tickP
    (t.clus c).planned = some (min (64 + 16 * k) (min 1024 (p / 8)), min 3200 (800 + 160 * k), min 96 (48 + 8 * k)))

/-- A reading is outside the window of its monitor. -/
def Outside (m : Monitor) (v : Int) (invalid : Bool) : Prop :=
  let x := max (-32768) (min 32767 v)
  invalid = true ∨ x < m.low ∨ m.high < x

/-- A monitor after a reading: its value and its runs. -/
def readOf (m : Monitor) (v : Int) (invalid out : Bool) : Monitor :=
  { m with value := if invalid then m.value else max (-32768) (min 32767 v), invalid := invalid
           outRun := if out then upTo 2 m.outRun else 0, inRun := if out then 0 else upTo 8 m.inRun }

/-- The state after a reading of monitor k. -/
def withReading (s : State) (k : Fin 52) (m : Monitor) (invalid : Bool) : State :=
  { s with env := { s.env with
    mon := vset s.env.mon k m, feLast := if 48 ≤ k.val ∧ invalid = false then vset s.env.feLast (k.val - 48) m.value else s.env.feLast } }

/-- The code that a search by successive approximation finds: most significant bit first, a trial bit stays where more than 8 of its 16 steps cross (R306). -/
def found : List Nat → Nat
  | [] => 0
  | k :: l => (if 8 < k then 2 ^ l.length else 0) + found l

/-- A threshold code as a voltage times 4,096 in µV: 65,536 codes from −1.5 V to 5.5 V; and the code nearest to half of a voltage. -/
def voltage (code : Nat) : Int := (code : Int) * 343750 - 6144000000
def nearestCode (twice : Int) : Nat := (divNearest (twice + 12288000000) 687500).toNat

/-- The spread of pass B is above 64 tq RMS (R308). -/
def Wide (l : List Int) : Prop := 4096 * (l.length : Int) * l.length < l.length * (l.map fun x => x * x).sum - l.sum * l.sum

/-- A monitor's fault or clear is told: class 10, source 232 or 233, notice 6. -/
def told (u : State) (k : Fin 52) (fault : Bool) : State :=
  let m := vget u.env.mon k
  ((u.report 10 (if fault then 1 else 2) k m.valWord m.winWord).raise (if k.val < 40 then 232 else 233)).notice 6
    [BitVec.ofNat 32 ((if fault then 256 else 0) + k.val), m.valWord]

end Sys2Proof.Claims

/-- Bin tables and starvation (R116 to R124, R132, R140): hits are counted per code and mode, 2²⁰ of them complete an update; one that passes Table 4-2, and as the third since start
the jump test against the second, waits for its swap; one that fails is rejected, and a second one in a row fails the channel, as do six without a table; a swap comes on an edge at which no code awaits correction; an interpolator starves CAL_STARVE after its last accepted update, and its channel is overdue after twice that. -/
def Obligations.BinTablesAreUpdated : Prop :=
  (∀ (h : Hits) (k : Fin 160), h.nom.length ≤ 160 → h.early.length ≤ 160 → h.late.length ≤ 160 →
    (hitsEntries h).getD k 0 = (184 * 2 ^ 20 + before h k + width h k / 2 - 1600 * (h.late.sum : Int) + 2048) / 4096) ∧
  (∀ (h : Hits) (overlap : Nat) (first : Bool) (active : List Int), hitsPasses h overlap first active = true →
    h.nom.sum = 2 ^ 19 ∧ (∀ k : Fin 160, width h k ≤ 16 * 2 ^ 20) ∧ overlap * 2 ^ 20 ≤ 1600 * h.late.sum ∧ overlap * 2 ^ 20 ≤ 1600 * h.early.sum ∧
    200 * 2 ^ 20 ≤ 1600 * h.late.sum + 1600 * h.early.sum ∧ 1600 * h.late.sum + 1600 * h.early.sum ≤ 600 * 2 ^ 20 ∧
    (∀ i j k : Fin 160, i ≤ j → j ≤ k → width h i ≠ 0 → width h k ≠ 0 → width h j ≠ 0) ∧
    (first = false → ∀ k : Fin 160,
      let a := active.getD k 0
      let b := (hitsEntries h).getD k 0
      47104 ≤ a → a < 149504 → 47104 ≤ b → b < 149504 → a - b ≤ 4096 ∧ b - a ≤ 4096)) ∧
  (∀ n : Nat, (modeHits n).1 + (modeHits n).2.1 + (modeHits n).2.2 = n ∧ modeHits (4 * n) = (2 * n, n, n)) ∧
  (∀ (a b : Hits) (k : Fin 160), (addHits a b).all = a.all + b.all ∧ (addHits a b).nom.getD k 0 = a.nom.getD k 0 + b.nom.getD k 0 ∧
    (addHits a b).early.getD k 0 = a.early.getD k 0 + b.early.getD k 0 ∧ (addHits a b).late.getD k 0 = a.late.getD k 0 + b.late.getD k 0) ∧
  (∀ (n : Fin 128) (i1 : Bool) (h : Hits) (s : State), s.pwr.startup = .running → s.st.calFrom = none →
    exec (.binTableUpdate n i1 h) s = exec (.binTableUpdate n i1 h) s.beginCal) ∧
  (∀ (n : Fin 128) (i1 : Bool) (h : Hits) (s : State), s.pwr.startup ≠ .running ∨ s.st.calFrom ≠ none →
    let x := (s.chan n).cal.interp i1
    (x.table = [] ∨ s.pwr.gated.testBit (n / 32) = true ∨ hitsLegal x.hits h = false → exec (.binTableUpdate n i1 h) s = .next s) ∧
    (s.pwr.gated.testBit (n / 32) = false → x.table ≠ [] → hitsLegal x.hits h = true →
      let sum := addHits x.hits h
      let active := match x.next with | some t => t.entries | none => x.table
      let good := hitsPasses sum (s.clus (n / 32)).overlap (decide (x.completed = 0)) active = true ∧ (x.completed = 2 → jumpOk x.last (hitsEntries sum) = true)
      let next : NewTable := { entries := hitsEntries sum, lead := (1600 * sum.late.sum + 524288) / 1048576, tail := (1600 * sum.early.sum + 524288) / 1048576 }
      let fails := x.rejRun ≠ 0 ∨ (x.completed = 5 ∧ x.accepted = 0 ∧ x.next = none)
      (sum.all ≠ 2 ^ 20 ∨ 2 ^ 20 ≤ x.hits.all → exec (.binTableUpdate n i1 h) s = .next (s.modInt n i1 fun x => { x with hits := sum })) ∧
      (sum.all = 2 ^ 20 → x.hits.all < 2 ^ 20 → good → Answers (.binTableUpdate n i1 h) s fun t =>
        IntSet s n i1 { x with hits := sum, next := some next, rejected := false, rejRun := 0, completed := x.completed + 1, last := hitsEntries sum } t ∧
        (t.chan n).cal.failed = (s.chan n).cal.failed ∧ Same [.ch, .ic, .perf, .pwr] s t) ∧
      (sum.all = 2 ^ 20 → x.hits.all < 2 ^ 20 → ¬ good → Answers (.binTableUpdate n i1 h) s fun t =>
        IntSet s n i1 { x with hits := noHits, rejected := true, rejRun := upTo 2 x.rejRun, completed := x.completed + 1, last := hitsEntries sum } t ∧
        (¬ fails → (t.chan n).cal.failed = (s.chan n).cal.failed) ∧
        (fails → x.rejRun ≤ 2 → (t.chan n).cal.failed = true ∧ (t.chan n).cal.failCause = 1)))) ∧
  (∀ (n : Fin 128) (i1 : Bool) (s : State),
    let x := (s.chan n).cal.interp i1
    (x.next = none → exec (.tableSwap n i1) s = .next s) ∧
    (∀ w, x.next = some w →
      ((∃ c ∈ (s.chan n).inp.convs, c.interp1 = i1) → exec (.tableSwap n i1) s = .next s) ∧
      ((∀ c ∈ (s.chan n).inp.convs, c.interp1 ≠ i1) → Answers (.tableSwap n i1) s fun t =>
        t.now = (atEdge s).now ∧
        IntSet s n i1 { x with
          table := w.entries, lead := w.lead, tail := w.tail, next := none, hits := noHits, updCnt := (x.updCnt + 1) % 256, activeBank := !x.activeBank, accepted := x.accepted + 1
          starved := false, rangeHit := false, rangeStale := false, since := t.now, tempAt := vget s.env.feLast (n / 32) } t ∧
        ((t.chan n).cal.failed = true ↔ (s.chan n).cal.failed = true ∧
          ¬ ((s.chan n).cal.cleared = true ∧ (i1 = false ∨ (s.chan n).cal.cleared0 = true) ∧ (i1 = true ∨ (s.chan n).cal.cleared1 = true)))))) ∧
  (∀ (n : Fin 128) (i1 : Bool) (s : State), ((s.chan n).cal.interp i1).starved = false → s.pwr.gated.testBit (n / 32) = false → ((s.chan n).cal.interp i1).table ≠ [] →
    let x := (s.chan n).cal.interp i1
    Answers (.calStarved n i1) s fun t =>
      t.now = max s.now (x.since + (s.clus (n / 32)).starveMs * ms) ∧ IntSet s n i1 { x with starved := true } t) ∧
  (∀ (n : Fin 128) (s : State),
    let k := (s.chan n).cal
    let late (since : Nat) : Prop := Answers (.stealOverdue n) s fun t =>
      t.now = max s.now (since + 2 * (s.clus (n / 32)).starveMs * ms + 1) ∧ (t.chan n).cal.overdue = true ∧ (t.chan n).cal.int0 = k.int0 ∧ (t.chan n).cal.int1 = k.int1
    (k.int0.starved = false → k.int1.starved = false → exec (.stealOverdue n) s = .next s) ∧
    (k.int0.starved = true → k.int1.starved = false → late k.int0.since) ∧ (k.int0.starved = false → k.int1.starved = true → late k.int1.since) ∧
    (k.int0.starved = true → k.int1.starved = true → late (min k.int0.since k.int1.since)))

/-- Cycles, measurements, ageing and margins (R127 to R141, R146): a cycle starts an interval after the last one, measures the inputs it can and defers the others, and is counted when every configured
input and output has been measured; the mean and the spacings of a measurement's tags are accepted within their limits, and otherwise fail its channel; temperature terms wait for the boundary; the
rings give δ, and a re-plan the interval, the ages and the margins; BASELINE ends at a boundary. The fits are free functions of the model's configuration (log 32). -/
def Obligations.CalibrationRuns : Prop :=
  (∀ s : State, s.pwr.startup ≠ .ready → exec .calCycleStart s = .next s) ∧
  (∀ s : State, s.pwr.startup = .ready →
    Answers .calCycleStart s fun t =>
      t.now = max s.now (s.st.cycleAt + s.st.intervalH * hour) ∧ t.st.cycleAt = t.now ∧
      (∀ n : Fin 128,
        (t.chan n).cal.inCycle = false ∧ (t.chan n).cal.outCycle = false ∧
        (Measurable s n → (t.chan n).cal.meas = some { run := false, since := t.now } ∧ (t.chan n).cal.deferred = (s.chan n).cal.deferred) ∧
        (¬ Measurable s n → (t.chan n).cal.meas = (s.chan n).cal.meas ∧ (t.chan n).cal.deferred = true)) ∧
      ((∃ n : Fin 128, (s.chan n).inp.configured = true ∨ (s.chan n).out.configured = true) → t.st.cycleOn = true ∧ t.st.cycles = s.st.cycles)) ∧
  (∀ (n : Fin 128) (s : State),
    (Startable s n → exec (.deferredCalMeasure n) s = .next (s.modCal n fun k => { k with meas := some { run := false, since := s.now } })) ∧
    (¬ Startable s n → exec (.deferredCalMeasure n) s = .next s)) ∧
  (∀ l : List Int, l.length = 16384 → tandem16 l = tandemOf l) ∧
  (∀ (u : State) (n : Fin 128),
    let k := (u.chan n).cal
    let fit := Config.termFit (k.points false)
    (u.st.baseline = true ∨ k.points false = [] → u.projectedIn n = k.inTerm) ∧
    (u.st.baseline = false → k.points false ≠ [] → u.projectedIn n = fit.1 + divNearest (fit.2 * (u.clus (n / 32)).degPpm * 16) 125000)) ∧
  (∀ (n : Fin 128) (l : List Int) (s : State) (m : CalMeas), (s.chan n).cal.meas = some m →
    let k := (s.chan n).cal
    let u := s.runTo (m.since + 131072000000)
    let term := meanOf l - Config.branch n
    let jump : Prop := 128 < (term - u.projectedIn n).natAbs
    (l.length ≠ 16384 → exec (.calMeasureDone n false l) s = .next s) ∧
    (l.length = 16384 → Answers (.calMeasureDone n false l) s fun t =>
      t.now = u.now ∧ (t.chan n).cal.meas = none ∧ (t.chan n).cal.deferred = false ∧
      (¬ jump → (tandemOf l).natAbs ≤ 640 →
        (t.chan n).cal.inTerm = term ∧ (t.chan n).cal.d1 = tandemOf l ∧ (t.chan n).cal.inAt = some t.now ∧ (t.chan n).cal.inHours = s.st.opHours ∧
        (t.chan n).cal.inOld = false ∧ (t.chan n).cal.inTemp = 0 ∧ (t.chan n).cal.inTempAt = vget s.env.feLast (n / 32) ∧ (t.chan n).cal.failed = k.failed ∧
        (t.chan n).cal.cleared = (k.cleared || (k.failed && m.run && k.runOk && k.measOut.isNone))) ∧
      (jump ∨ 640 < (tandemOf l).natAbs →
        (t.chan n).cal.failed = true ∧ (t.chan n).cal.failCause = (if 128 < (term - u.projectedIn n).natAbs then 2 else 3) ∧ (t.chan n).cal.cleared = false ∧
        (t.chan n).cal.runOk = false ∧ (t.chan n).cal.inTerm = k.inTerm ∧ (t.chan n).cal.d1 = k.d1 ∧ (t.chan n).cal.inAt = k.inAt))) ∧
  (∀ (n : Fin 128) (l : List Int) (s : State) (m : CalMeas), (s.chan n).cal.measOut = some m →
    let k := (s.chan n).cal
    let term := meanOf l - k.inTerm
    (l.length ≠ 4096 → exec (.calMeasureDone n true l) s = .next s) ∧
    (l.length = 4096 → Answers (.calMeasureDone n true l) s fun t =>
      t.now = s.now ∧ (t.chan n).cal.measOut = none ∧ (t.chan n).cal.inTerm = k.inTerm ∧
      ((term - k.outTerm).natAbs ≤ 256 →
        (t.chan n).cal.outTerm = term ∧ (t.chan n).cal.outAt = some s.now ∧ (t.chan n).cal.outHours = s.st.opHours ∧ (t.chan n).cal.outOld = false ∧
        (t.chan n).cal.outTemp = 0 ∧ (t.chan n).cal.failed = k.failed ∧
        (t.chan n).cal.cleared = (k.cleared || (k.failed && m.run && k.runOk && k.meas.isNone))) ∧
      (256 < (term - k.outTerm).natAbs →
        (t.chan n).cal.failed = true ∧ (t.chan n).cal.failCause = 2 ∧ (t.chan n).cal.cleared = false ∧ (t.chan n).cal.outTerm = k.outTerm ∧ (t.chan n).cal.outAt = k.outAt))) ∧
  (∀ u : State,
    let covered : Prop := ∀ n : Fin 128, ((u.chan n).inp.configured = true → (u.chan n).cal.inCycle = true) ∧ ((u.chan n).out.configured = true → (u.chan n).cal.outCycle = true)
    let runCovered : Prop := ∀ n : Fin 128, ((u.chan n).inp.configured = true → (u.chan n).cal.inRun = true) ∧ ((u.chan n).out.configured = true → (u.chan n).cal.outRun = true)
    (∀ ended : Bool, (u.st.cycleOn = true ∧ covered) ∨ (ended = true ∧ runCovered) →
      let v := u.completeCycle ended
      v.st = { u.st with cycles := upTo 255 u.st.cycles, cycleOn := false, planDue := true } ∧ Same [.st, .ch] u v ∧
      ∀ n : Fin 128,
        let k := (u.chan n).cal
        let here : CycleRec := { cycle := upTo 255 u.st.cycles, deg := (u.clus (n / 32)).degPpm, inT := k.recIn, outT := k.recOut }
        let all := k.hist ++ [here]
        (v.chan n).cal.hist = all.drop (all.length - 64) ∧ (v.chan n).cal.inCycle = false ∧ (v.chan n).cal.inRun = false) ∧
    (∀ ended : Bool, u.st.cycleOn = false ∨ ¬ covered → ended = false ∨ ¬ runCovered → u.completeCycle ended = u) ∧
    (∀ (n : Nat) (run : Bool), u.measureEnds n run = u.completeCycle (run && !u.calRunBusy (n / 32)))) ∧
  (∀ s : State,
    Answers .tempTermUpdate s fun t => Same [.ch] s t ∧ ∀ n : Fin 128,
      ((vget s.env.mon (48 + n / 32)).invalid = true → t.chan n = s.chan n) ∧
      ((vget s.env.mon (48 + n / 32)).invalid = false →
        let k := (s.chan n).cal
        let temp := vget s.env.feLast (n / 32)
        t.chan n = { s.chan n with
          cal := { k with inTempNext := some (k.inFsK * (temp - k.inTempAt)), outTempNext := some (k.outFsK * (temp - k.outTempAt)) } })) ∧
  (∀ (n : Fin 128) (s : State) (a : Nat),
    ((s.chan n).cal.inAt = some a → Answers (.inAgePassed n false) s fun t =>
      t.now = max s.now (a + s.st.intervalH * hour + 1) ∧ (t.chan n).cal.inOld = true ∧ (t.chan n).cal.outOld = (s.chan n).cal.outOld) ∧
    ((s.chan n).cal.outAt = some a → Answers (.inAgePassed n true) s fun t =>
      t.now = max s.now (a + s.st.intervalH * hour + 1) ∧ (t.chan n).cal.outOld = true ∧ (t.chan n).cal.inOld = (s.chan n).cal.inOld)) ∧
  (∀ (l : List (W32 × W32)) (s : State), s.pwr.startup ≠ .ready → exec (.ageingMeasure l) s = .next s) ∧
  (∀ (l : List (W32 × W32)) (s : State), s.pwr.startup = .ready →
    Answers (.ageingMeasure l) s fun t =>
      t.now = max s.now (s.st.ageAt + hour) ∧ t.st.ageAt = t.now ∧ t.st.opTq = s.st.opTq + (if s.pwr.state = .run then t.now - s.st.opFrom else 0) ∧
      t.st.opHours = min (2 ^ 24 - 1) (t.st.opTq / hour) ∧
      (∀ (c : Fin 4) (a b : W32), l[c.val]? = some (a, b) → s.pwr.gated.testBit c = false →
        let d := min (2 ^ 20 - 1) (ringLoss c a b)
        t.clus c = { s.clus c with ringS := a, ringU := b, degPpm := d, degHist := (s.clus c).degHist ++ [(t.st.opHours, d)] }) ∧
      (∀ c : Fin 4, s.pwr.gated.testBit c = true ∨ l[c.val]? = none → t.clus c = s.clus c) ∧
      (s.st.baseline = true → t.ch = s.ch) ∧ (s.st.baseline = false → Projected t)) ∧
  (∀ s : State,
    (s.st.baseline = true → exec .replan s = .next s) ∧
    (s.st.baseline = false →
      let u := if s.st.planDue then s else s.runTo (s.st.planAt + 24 * hour)
      Answers .replan s fun t => t.now = u.now ∧ Replanned u t) ∧
    (s.st.baseline = true → 8 ≤ s.st.cycles → 24 ≤ s.st.opHours → exec .baselineClear s = .next { s with st := { s.st with baseEnd := true } }) ∧
    (s.st.baseline = false ∨ s.st.cycles < 8 ∨ s.st.opHours < 24 → exec .baselineClear s = .next s) ∧
    (s.st.baseEnd = true → s.baseTick.st.baseline = false ∧ s.baseTick.st.baseEnd = false ∧ Replanned s s.baseTick) ∧ (s.st.baseEnd = false → s.baseTick = s))

/-- TDR, monitors and the thermal trip (R305 to R316, Tables 11-1 and 11-2): a measurement takes 8,704 steps; its end gives the outcome, the figures that the outcome
allows, and goes on to the next channel; meanwhile the termination is disconnected; two
readings in a row outside the window are a fault and eight inside clear it; a thermal trip disables every output. -/
def Obligations.EnvironmentFollowsItsSensors : Prop :=
  (∀ (n : Fin 128) (r : TdrResult) (s : State), (∀ run, vget s.env.tdr (n / 32) = some run → run.cur ≠ n.val) → exec (.tdrChannelDone n r) s = .next s) ∧
  (∀ (n : Fin 128) (r : TdrResult) (s : State) (run : TdrRun), vget s.env.tdr (n / 32) = some run → run.cur = n.val →
    let x := (s.chan n).cable
    let u := s.runTo (run.since + 278528000000)
    let swing := s.swing4096 n
    let vol := s.level4096 n (s.chan n).out.vol
    let v := voltage (found r.seen1) - vol
    let v2 := voltage (found r.seen2) - vol
    let rt := divNearest (r.tagsB.sum - r.tagsA.sum) 256
    let d := v2 - v
    let gamma := max (-32768) (min 32767 (divNearest (d * 16384) v.toNat))
    let codes (y : Cable) : Cable := { y with codeA := nearestCode (2 * vol + v), codeB := nearestCode (2 * vol + v + v2) }
    Answers (.tdrChannelDone n r) s fun t =>
      let y := (t.chan n).cable
      t.now = u.now ∧ t.env.runs = s.env.runs + 1 ∧ y.src = x.src ∧ Same [.tb, .ch, .env, .ic, .perf, .pwr, .deferred] s t ∧
      (10 * v < 3 * swing ∨ 7 * swing < 10 * v ∨ v ≤ 0 → y = codes { x with outcome := 4 }) ∧
      (¬ (10 * v < 3 * swing ∨ 7 * swing < 10 * v ∨ v ≤ 0) →
        (5 * d.natAbs < v → y.outcome = 2 ∧ y.gamma = gamma ∧ y.rt = x.rt) ∧
        (v ≤ 5 * d.natAbs → Wide r.tagsB ∨ 25600000 < rt → y = codes { x with outcome := 5 }) ∧
        (v ≤ 5 * d.natAbs → ¬ Wide r.tagsB → rt < 102400 → y.outcome = 3 ∧ y.gamma = gamma ∧ y.rt = x.rt) ∧
        (v ≤ 5 * d.natAbs → ¬ Wide r.tagsB → 102400 ≤ rt → rt ≤ 25600000 →
          y.outcome = (if run.unlocked then 8 else 1) ∧ y.rt = rt.toNat ∧ y.gamma = gamma ∧
          (8 * v ≤ 10 * d → y.cls = 0 ∧ y.zl = 0xFFFF) ∧ (10 * d ≤ -(8 * v) → y.cls = 1 ∧ y.zl = 0))) ∧
      ((run.auto = true ∧ y.usable = true ∧ s.loutFits n ((y.rt + 16) / 32) = true) →
        t.deferred = s.deferred ++ [{ at_ := .phys (u.now + 8000000), op := 0x0803, words := [BitVec.ofNat 32 (65536 + n.val * 256 + n.val)] }]) ∧
      (run.auto = false → t.deferred = s.deferred) ∧
      (run.last ≤ n.val → vget t.env.tdr (n / 32) = none) ∧
      (∀ m : Fin 128, n < m → m.val ≤ run.last → (s.chan m).pr.held = false → (s.chan m).inp.en = false → (s.chan m).out.en = false →
        (∀ j : Fin 128, n < j → j < m → (s.chan j).pr.held = true ∨ (s.chan j).inp.en = true ∨ (s.chan j).out.en = true) →
        t.env.cur = m.val ∧ vget t.env.tdr (n / 32) = some { run with cur := m.val, unlocked := decide (s.ref.state ≠ .locked), since := u.now } ∧
        ∀ j : Fin 128, n < j → j < m → (t.chan j).cable.outcome = if (s.chan j).pr.held then 7 else 6)) ∧
  (∀ (s : State) (n : Fin 128), (s.terminated n = true ↔ (s.chan n).inp.term = true ∧ ∀ run, vget s.env.tdr (n / 32) = some run → run.cur ≠ n.val)) ∧
  (∀ (k : Fin 52) (v : Int) (invalid : Bool) (s : State), s.pwr.startup ≠ .held →
    let m := vget s.env.mon k
    let out := withReading s k (readOf m v invalid true) invalid
    let inside := withReading s k (readOf m v invalid false) invalid
    (Outside m v invalid →
      (m.fault = true ∨ m.outRun = 0 → exec (.monitorReading k v invalid) s = .next out) ∧
      (m.fault = false → m.outRun ≠ 0 → m.outRun ≤ 2 →
        let u := { out with env := { out.env with mon := vset out.env.mon k { readOf m v invalid true with fault := true, fcnt := upTo 255 m.fcnt } } }
        exec (.monitorReading k v invalid) s = .next ((told u k true).wakeBy 7))) ∧
    (¬ Outside m v invalid →
      (m.fault = false ∨ m.inRun < 7 → exec (.monitorReading k v invalid) s = .next inside) ∧
      (m.fault = true → 7 ≤ m.inRun → m.inRun ≤ 8 →
        let u := { inside with env := { inside.env with mon := vset inside.env.mon k { readOf m v invalid false with fault := false } } }
        exec (.monitorReading k v invalid) s = .next (told u k false)))) ∧
  (∀ (k : Fin 12) (s : State),
    (s.pwr.startup = .held ∨ s.env.trip = true → exec (.thermalTrip k) s = .next s) ∧
    (s.pwr.startup ≠ .held → s.env.trip = false → Answers (.thermalTrip k) s fun t =>
      t.env.trip = true ∧ t.env.sensor = k.val ∧ (∀ n : Fin 128, (t.chan n).out = { (s.chan n).out with en := false } ∧ (t.chan n).inp.en = (s.chan n).inp.en) ∧
      ∀ n : Fin 128, t.drives n = false))

/-! Tick boundaries (R31, R41, R44, R50 to R56, R124, R148 to R151, R343, R381). -/
namespace Sys2Proof.Claims

/-- The state as the end of the tick in progress comes. -/
def atBoundary (s : State) : State := s.runTo ((s.tb.tickEnd : Int) - s.off).toNat

/-- No step is due, no new period and no anchor wait. -/
def PlainBoundary (s : State) : Prop := s.stepDue s.tb.tickEnd = none ∧ s.tb.tickPend = none ∧ s.bx.anchorPend = none

/-- No edge waits and no pattern unit runs, so that a step may be applied (R50). -/
def MayStep (s : State) : Prop := ∀ n : Fin 128, (s.chan n).out.queue = [] ∧ (s.chan n).pu.run = false

/-- The sequence number after q: never 0 (R344). -/
def following (q : W32) : W32 := if q = 0xFFFFFFFF then 1 else q + 1

/-- A waiting action whose boundary is the one at extended time b and instant at_. -/
def dueNow (d : Deferred) (b : Nat) (at_ : Int) : Prop :=
  match d.at_ with
  | .phys p => (p : Int) ≤ at_
  | .dtc x => x ≤ b

/-- A slot whose gate of one more tick is open, and no stop asked for. -/
def GateOpen (k : Slot) : Prop := k.state = .running ∧ k.stopAt = none ∧ k.acc ≠ none

end Sys2Proof.Claims

/-- A tick boundary (R50 to R56, R343, R381): time goes on to it, the tick index counts, the next boundary is the first of the grid at least P later, and a waiting period or step is
taken over there or abandoned; waiting actions whose boundary has come leave the queue; confidences and the traceability state follow their conditions; the BAR4 copy and a due
snapshot show the new tick. -/
def Obligations.TickBoundariesPass : Prop :=
  (∀ s : State, s.pwr.startup = .held → exec .tickBoundary s = .next s) ∧
  (∀ s : State, s.pwr.startup ≠ .held →
    let u := atBoundary s
    let x := s.tb.tickEnd
    let p := s.tb.tickP * 12800
    Answers .tickBoundary s fun t =>
      t.now = u.now ∧ t.tb.tickIdx = s.tb.tickIdx + 1 ∧ t.tb.cap = s.tb.cap ∧ t.pps = s.pps ∧ t.mb = s.mb ∧ t.sec = s.sec ∧ t.rtc.set = s.rtc.set ∧
      (PlainBoundary s → 0 < p →
        t.tb.dtc = u.tb.dtc ∧ t.tb.wraps = u.tb.wraps ∧ t.tb.tickP = s.tb.tickP ∧ t.tb.anchor = s.tb.anchor ∧ t.tb.tickStart = x ∧
        x + p ≤ t.tb.tickEnd ∧ t.tb.tickEnd < x + 2 * p ∧ ((t.tb.tickEnd : Int) - s.tb.anchor) % p = 0 ∧
        t.tb.stretchCnt = (if p < x - s.tb.tickStart then upTo 255 s.tb.stretchCnt else s.tb.stretchCnt) ∧
        (∀ d, d ∈ t.deferred ↔ d ∈ s.deferred ∧ ¬ dueNow d x ((x : Int) - s.off))) ∧
      (s.stepDue x = none → s.bx.anchorPend = none → s.pps.mode = 0 → ∀ q, s.tb.tickPend = some q →
        t.tb.tickP = q ∧ t.tb.anchor = x ∧ t.tb.tickPend = none ∧ t.tb.tickEnd = x + q * 12800) ∧
      (∀ v, s.tb.step = some (.atTick v) → v < 2 ^ 80 → s.tb.dtc < 2 ^ 80 → s.ext ≤ x →
        (MayStep s →
          t.tb.dtc = v ∧ t.tb.wraps = u.tb.wraps ∧ t.tb.step = none ∧ t.tb.stepDone = true ∧ t.tb.epochWrap = false ∧ (t.tb.tickStart : Int) = max 0 ((x : Int) + v - (x % 2 ^ 80 : Nat))) ∧
        (¬ MayStep s → t.tb.dtc = x % 2 ^ 80 ∧ t.tb.step = none ∧ t.tb.stepAbandoned = true ∧ t.tb.stepDone = s.tb.stepDone ∧ t.tb.tickStart = x)) ∧
      t.mir.copySeq = following s.mir.copySeq ∧ t.mir.copy = [following s.mir.copySeq] ++ t.mirrorWords ++ [following s.mir.copySeq] ∧
      ((∀ d ∈ s.deferred, d.op ≠ 0x0104) → s.mir.en = true → s.mir.left = some 0 → t.mir.snap = some t.mirrorWords ∧ t.mir.left = some (s.mir.n - 1)) ∧
      (∀ k, (∀ d ∈ s.deferred, d.op ≠ 0x0104) → s.mir.en = true → s.mir.left = some (k + 1) → t.mir.snap = none ∧ t.mir.left = some k)) ∧
  (∀ (u : State) (at_ : Int),
    let v := u.raiseAll at_
    (∀ n : Fin 128, (v.chan n).cal.conf = (u.confOf n).1 ∧ (v.chan n).inp = (u.chan n).inp ∧ (v.chan n).out = (u.chan n).out) ∧ v.st.trace = v.traceOf)

/-- What a boundary does to slots, steals, actions and groups (R75, R107, R124, R126, R148, R149, R151, R278, R290, R381, R441): an armed slot starts at its boundary and a gate ends after its ticks, at a step, or at
a stop; a starved channel steals its ticks under STEAL; the actions put off to the boundary act as their commands say; a committed group is released. -/
def Obligations.BoundaryActionsAct : Prop :=
  (∀ (k : Slot) (pre post x : Nat) (at_ : Int) (moved : Bool),
    (∀ stepped, k.state = .armed → k.b0 ≤ x → k.tick pre post x at_ stepped moved = { k with state := .running, acc := some (Acc.new post at_), left := k.g, gates := k.gates + 1 }) ∧
    (∀ stepped, k.state = .armed → x < k.b0 → k.acc = none → k.tick pre post x at_ stepped moved = k) ∧
    (∀ stepped, k.state ∉ [SlotState.armed, SlotState.running] → k.acc = none → k.tick pre post x at_ stepped moved = k) ∧
    (∀ a, GateOpen k → k.acc = some a →
      let ended (stepped : Bool) : Acc := { a with slew := a.slew || moved, stop := pre, stopAt := some at_, stepped := stepped }
      (2 ≤ k.left → k.tick pre post x at_ false moved = { k with left := k.left - 1, acc := some { a with slew := a.slew || moved } }) ∧
      (∀ stepped, k.left = 1 ∨ stepped = true → k.ngate = 0 ∨ k.gates < k.ngate →
        k.tick pre post x at_ stepped moved = { k with closing := k.closing ++ [ended stepped], acc := some (Acc.new post at_), left := k.g, gates := k.gates + 1 }) ∧
      (∀ stepped, k.left = 1 ∨ stepped = true → k.ngate ≠ 0 → k.ngate ≤ k.gates →
        k.tick pre post x at_ stepped moved = { k with closing := k.closing ++ [ended stepped], acc := none, state := .stopping })) ∧
    (∀ a b, k.state = .running → k.acc = some a → k.stopAt = some (true, b) → b ≤ at_ →
      k.tick pre post x at_ false moved = { k with
        closing := k.closing ++ [{ a with
          slew := a.slew || moved, stop := pre, stopAt := some at_, stepped := false, truncated := a.truncated || decide (k.left ≠ 0 ∧ k.left ≠ 1) }]
        acc := none, state := .stopping })) ∧
  (∀ (u : State) (sort : Int) (dtc : Nat) (n : Fin 128),
    let k := (u.chan n).cal
    let v := u.stealTick sort dtc
    let mine : Prop := (u.clus (n / 32)).monitor = false ∧ u.pwr.gated.testBit (n / 32) = false ∧ u.tb.tickIdx % 64 = n.val % 64
    (mine → k.int0.starved = true ∨ k.int1.starved = true →
      (v.chan n).cal.stealActive = true ∧ (v.chan n).cal.steals = k.steals + 1 ∧
      (v.chan n).inp.withheld = some (if k.int0.starved = true ∧ k.int1.starved = true then k.stealNext1 else k.int1.starved) ∧
      (k.int0.starved = true → k.int1.starved = true → (v.chan n).cal.stealNext1 = !k.stealNext1)) ∧
    (¬ mine ∨ (k.int0.starved = false ∧ k.int1.starved = false) →
      (v.chan n).cal.stealActive = false ∧ (v.chan n).cal.steals = k.steals ∧ (k.stealActive = true → (v.chan n).inp.withheld = none) ∧
      (k.stealActive = false → v.chan n = u.chan n))) ∧
  (∀ (u : State) (b : Nat) (at_ : Int), (∀ d ∈ u.deferred, ¬ dueNow d b at_) → u.deferTick b at_ = u.releaseGroups b) ∧
  (∀ (u : State) (b : Nat) (at_ : Int) (d : Deferred) (l : List Deferred), u.deferred = d :: l → dueNow d b at_ → (∀ e ∈ l, ¬ dueNow e b at_) →
    u.deferTick b at_ = (State.applyAt { u with deferred := l } d.op d.words b).releaseGroups b) ∧
  (∀ (u : State) (b : Nat) (g : Fin 4),
    ((vget u.grp g).dueAt b = true → vget (u.releaseGroups b).grp g = Group.reset) ∧ ((vget u.grp g).dueAt b = false → vget (u.releaseGroups b).grp g = vget u.grp g)) ∧
  (∀ (u : State) (p : List W32) (b : Nat) (n : Fin 128),
    let named : Prop := rangeFirst p ≤ n.val ∧ n.val ≤ rangeLast p
    let on := u.applyAt 0x0302 p b
    let off := u.applyAt 0x0303 p b
    ((on.chan n).inp.en = true ↔ (u.chan n).inp.en = true ∨ (named ∧ bit (pw p 1) 16 = true)) ∧
    ((on.chan n).out.en = true ↔ (u.chan n).out.en = true ∨ (named ∧ bit (pw p 1) 17 = true)) ∧
    ((off.chan n).inp.en = true ↔ (u.chan n).inp.en = true ∧ ¬ (named ∧ bit (pw p 1) 16 = true)) ∧
    ((off.chan n).out.en = true ↔ (u.chan n).out.en = true ∧ ¬ (named ∧ bit (pw p 1) 17 = true))) ∧
  (∀ (u : State) (p : List W32) (b : Nat),
    u.applyAt 0x0104 p b = { u with mir := { u.mir with left := some 0 } } ∧
    (∀ c : Fin 4,
      let k := (u.applyAt 0x0802 p b).clus c
      let mine : Prop := (bits (pw p 1) 3 0).testBit c = true
      (mine → k.monitor = bit (pw p 1) 8 ∧ k.starveMs = (pw p 2).toNat ∧ k.capH = (pw p 3).toNat) ∧
      (¬ mine → k.monitor = (u.clus c).monitor ∧ k.starveMs = (u.clus c).starveMs ∧ k.capH = (u.clus c).capH)) ∧
    (∀ (c : Fin 4) (i : Fin 256),
      let old := vget (u.clus c).sch.tasks i
      let there : Prop := bits (pw p 1) 1 0 = c.val
      vget ((u.applyAt 0x0701 p b).clus c).sch.tasks i = (if bits (pw p 1) 1 0 = c.val ∧ bits (pw p 1) 15 8 = i.val then taskOf p else old) ∧
      (there → bits (pw p 1) 15 8 ≤ i.val → i.val ≤ bits (pw p 1) 23 16 → vget ((u.applyAt 0x0702 p b).clus c).sch.tasks i = Task.empty) ∧
      (¬ (there ∧ bits (pw p 1) 15 8 ≤ i.val ∧ i.val ≤ bits (pw p 1) 23 16) → vget ((u.applyAt 0x0702 p b).clus c).sch.tasks i = old)) ∧
    (u.pwr.gated < 16 →
      let mask := if bits (pw p 1) 1 0 = 1 then bits (pw p 1) 11 8 else 0
      let t := u.applyAt 0x0A00 p b
      t.pwr.gated = mask ∧ t.pwr.state = (if mask = 0 then PwrState.run else PwrState.trim) ∧
      (∀ c : Fin 4, u.pwr.gated.testBit c = false → mask.testBit c = true → (t.me c).state = .halted) ∧
      (∀ c : Fin 4, u.pwr.gated.testBit c = true → mask.testBit c = false →
        (t.me c).state = (if (u.me c).loaded then .idle else .halted) ∧ t.pwr.clCal.testBit c = true ∧
        ∀ j : Fin 32, (t.chan (32 * c.val + j.val)).cal.int0.accepted = 0 ∧ (t.chan (32 * c.val + j.val)).cal.int1.accepted = 0)) ∧
    (∀ n : Fin 128,
      let t := u.applyAt 0x0803 p b
      let named : Prop := rangeFirst p ≤ n.val ∧ n.val ≤ rangeLast p
      (named → bits (pw p 1) 17 16 = 2 → (t.chan n).cal.cable = ((pw p 2).toNat : Int) ∧ (t.chan n).cable.src = .manual) ∧
      (named → bits (pw p 1) 17 16 = 3 → (t.chan n).cal.cable = 0 ∧ (t.chan n).cable.src = .none) ∧
      (named → bits (pw p 1) 17 16 = 1 → (u.chan n).cable.usable = true →
        (t.chan n).cal.cable = (((u.chan n).cable.rt + 16) / 32 : Nat) ∧ (t.chan n).cable.src = .tdr) ∧
      (¬ named ∨ (bits (pw p 1) 17 16 = 1 ∧ (u.chan n).cable.usable = false) → (t.chan n).cal.cable = (u.chan n).cal.cable ∧ (t.chan n).cable = (u.chan n).cable)) ∧
    (∀ k : Fin 16, bits (pw p 1) 3 0 = k.val →
      ((u.dmaAt k).state = .idle → u.applyAt 0x0900 p b = u) ∧
      ((u.dmaAt k).state ≠ .idle →
        u.applyAt 0x0900 p b = u.modDma k fun d => { d with startAt := some u.now, hi := u.tb.dtc / 2 ^ 54 % 2 ^ 26 })))
end

