-- ==== Sys2Proof/Laws/Mem.lean ====
section
/-! SUPPORT. Bank memory: every operation keeps the canonical form; a read after a write. -/
namespace Sys2Proof.Machine

theorem Mem.wfFrom_mono : ∀ (m : List Host.Cell) (lo lo' : Nat), lo' ≤ lo → Mem.wfFrom lo m = true → Mem.wfFrom lo' m = true
  | [], _, _, _, _ => rfl
  | (a, b) :: m, lo, lo', h, hw => by
    simp only [Mem.wfFrom, Bool.and_eq_true, decide_eq_true_eq] at hw ⊢
    exact ⟨⟨by omega, hw.1.2⟩, hw.2⟩

theorem Mem.write_wfFrom : ∀ (m : List Host.Cell) (lo x : Nat) (v : Byte), lo ≤ x → Mem.wfFrom lo m = true →
    Mem.wfFrom lo (Mem.write m x v) = true
  | [], lo, x, v, hx, _ => by
    unfold Mem.write
    by_cases hv : v = 0#8
    · simp [hv, Mem.wfFrom]
    · simp [hv, Mem.wfFrom, hx]
  | (a, b) :: m, lo, x, v, hx, hw => by
    simp only [Mem.wfFrom, Bool.and_eq_true, decide_eq_true_eq] at hw
    obtain ⟨⟨ha, hb⟩, hm⟩ := hw
    have hb : ¬ b = 0#8 := hb
    unfold Mem.write
    by_cases h1 : x = a
    · subst h1
      by_cases hv : v = 0#8
      · simp only [hv, if_true]
        refine show Mem.wfFrom lo m = true from ?_
        exact Mem.wfFrom_mono m (x + 1) lo (by omega) hm
      · simp [hv, Mem.wfFrom, hx, hm]
    · by_cases h2 : x < a
      · by_cases hv : v = 0#8
        · simp [h1, h2, hv, Mem.wfFrom, ha, hb, hm]
        · have h3 : x + 1 ≤ a := by omega
          simp [h1, h2, hv, Mem.wfFrom, hx, hb, hm, h3]
      · simp only [h1, h2, if_false, Mem.wfFrom, Bool.and_eq_true, decide_eq_true_eq]
        exact ⟨⟨ha, hb⟩, Mem.write_wfFrom m (a + 1) x v (by omega) hm⟩

/-- Writing one byte keeps the canonical form. -/
theorem Mem.write_wf (m : List Host.Cell) (x : Nat) (v : Byte) (h : Mem.wf m = true) : Mem.wf (Mem.write m x v) = true :=
  Mem.write_wfFrom m 0 x v (Nat.zero_le x) h

/-- Writing bytes keeps the canonical form. -/
theorem Mem.writeList_wf : ∀ (l : List Byte) (m : List Host.Cell) (a : Nat), Mem.wf m = true → Mem.wf (Mem.writeList m a l) = true
  | [], _, _, h => h
  | b :: l, m, a, h => Mem.writeList_wf l (Mem.write m a b) (a + 1) (Mem.write_wf m a b h)

/-- Writing a word keeps the canonical form. -/
theorem Mem.setWord_wf (m : List Host.Cell) (w : Nat) (v : W64) (h : Mem.wf m = true) : Mem.wf (Mem.setWord m w v) = true :=
  Mem.writeList_wf _ _ _ h

theorem Mem.clear_wfFrom : ∀ (m : List Host.Cell) (k lo hi : Nat), Mem.wfFrom k m = true → Mem.wfFrom k (Mem.clear m lo hi) = true
  | [], _, _, _, _ => rfl
  | (a, b) :: m, k, lo, hi, h => by
    simp only [Mem.wfFrom, Bool.and_eq_true, decide_eq_true_eq] at h
    unfold Mem.clear
    split
    · exact Mem.wfFrom_mono _ (a + 1) k (by omega) (Mem.clear_wfFrom m (a + 1) lo hi h.2)
    · simp only [Mem.wfFrom, Bool.and_eq_true, decide_eq_true_eq]
      exact ⟨h.1, Mem.clear_wfFrom m (a + 1) lo hi h.2⟩

/-- Zeroing a range keeps the canonical form. -/
theorem Mem.clear_wf (m : List Host.Cell) (lo hi : Nat) (h : Mem.wf m = true) : Mem.wf (Mem.clear m lo hi) = true :=
  Mem.clear_wfFrom m 0 lo hi h

theorem Mem.read_below : ∀ (m : List Host.Cell) (lo x : Nat), Mem.wfFrom lo m = true → x < lo → Mem.read m x = 0
  | [], _, _, _, _ => rfl
  | (a, b) :: m, lo, x, h, hx => by
    simp only [Mem.wfFrom, Bool.and_eq_true, decide_eq_true_eq] at h
    have h1 : x ≠ a := by omega
    have h2 : x < a := by omega
    simp [Mem.read, h1, h2]

/-- A read after a write of one byte: that byte, and every other byte as before. -/
theorem Mem.read_write : ∀ (m : List Host.Cell) (lo x y : Nat) (v : Byte), Mem.wfFrom lo m = true →
    Mem.read (Mem.write m x v) y = if y = x then v else Mem.read m y
  | [], lo, x, y, v, _ => by
    unfold Mem.write
    by_cases hv : v = 0#8 <;> by_cases hy : y = x <;> simp [hv, hy, Mem.read]
  | (a, b) :: m, lo, x, y, v, h => by
    simp only [Mem.wfFrom, Bool.and_eq_true, decide_eq_true_eq] at h
    have ih := Mem.read_write m (a + 1) x y v h.2
    have hb := Mem.read_below m (a + 1)
    unfold Mem.write
    by_cases h1 : x = a
    · subst h1
      by_cases hv : v = 0#8
      · by_cases hy : y = x
        · simp [hv, hy, hb x h.2 (by omega)]
        · by_cases hlt : y < x
          · simp [hv, hy, hlt, Mem.read, hb y h.2 (by omega)]
          · simp [hv, hy, hlt, Mem.read]
      · by_cases hy : y = x <;> simp [hv, hy, Mem.read]
    · by_cases h2 : x < a
      · by_cases hv : v = 0#8
        · by_cases hy : y = x
          · subst hy; simp [h1, h2, hv, Mem.read]
          · simp [h1, h2, hv, hy]
        · by_cases hy : y = x
          · subst hy; simp [h1, h2, hv, Mem.read]
          · by_cases hlt : y < x
            · have h3 : y ≠ a := by omega
              have h4 : y < a := by omega
              simp [h1, h2, hv, hy, Mem.read, hlt, h3, h4]
            · simp [h1, h2, hv, hy, Mem.read, hlt]
      · simp only [h1, h2, if_false, Mem.read]
        by_cases hy : y = a
        · have h5 : ¬ y = x := by omega
          simp [hy]; omega
        · by_cases hlt : y < a
          · have h5 : ¬ y = x := by omega
            simp [hy, hlt, h5]
          · simp [hy, hlt, ih]

end Sys2Proof.Machine
end

