-- ==== Sys2Proof/Laws/Keep.lean ====
section
/-! SUPPORT. What every operation of the block keeps: the queue of commands as it is, and the invariant. One rule per way to build a state. -/
namespace Sys2Proof.Machine

/-- `t` comes from `s` by operations that leave the queue of commands alone, keep each part of the invariant, and never
go back in time. -/
structure Keeps (s t : State) : Prop where
  queue : t.pending = s.pending
  mem : Mem.wf s.mem = true → Mem.wf t.mem = true
  dtc : s.tb.dtc < dtcMod → t.tb.dtc < dtcMod
  qp : (∀ k : Fin 4, (vget s.qp k).Bounded) → ∀ k : Fin 4, (vget t.qp k).Bounded
  phys : s.tb.phys ≤ t.tb.phys

theorem Keeps.refl (s : State) : Keeps s s := ⟨rfl, id, id, id, Nat.le_refl _⟩

theorem Keeps.trans {s t u : State} (h : Keeps s t) (k : Keeps t u) : Keeps s u :=
  ⟨k.queue.trans h.queue, k.mem ∘ h.mem, k.dtc ∘ h.dtc, k.qp ∘ h.qp, Nat.le_trans h.phys k.phys⟩

/-- A kept state is kept in the invariant. -/
theorem Keeps.inv {s t : State} (h : Keeps s t) (i : s.Inv) : t.Inv := ⟨h.mem i.1, h.dtc i.2.1, h.qp i.2.2⟩

/-- Other fields replaced; the DTC and the instant stay. -/
theorem Keeps.fields {s t : State} (h : Keeps s t) {tb} {ref} {pps} {bx} {ch} {cl} {slot} {dec} {tim} {timWr} {brk} {bank} {ue} {dma} {noStream} {posted} {mir} {pcie} {env} {st} {mb} {goNext} {grp} {ic} {err} {perf} {sec} {tamper} {pwr} {rtc} {deferred} {lastRead} {freeCnt} (e : tb.dtc = t.tb.dtc)
    (p : tb.phys = t.tb.phys) :
    Keeps s (State.mk t.pending tb ref pps bx ch cl slot dec tim timWr brk bank t.mem ue dma noStream posted mir pcie env st mb goNext t.qp grp ic err perf sec tamper pwr rtc deferred lastRead freeCnt) :=
  ⟨h.queue, h.mem, fun i => e ▸ h.dtc i, h.qp, p ▸ h.phys⟩

/-- As `Keeps.fields`, with bank memory cleared. -/
theorem Keeps.fieldsEmpty {s t : State} (h : Keeps s t) {tb} {ref} {pps} {bx} {ch} {cl} {slot} {dec} {tim} {timWr} {brk} {bank} {ue} {dma} {noStream} {posted} {mir} {pcie} {env} {st} {mb} {goNext} {grp} {ic} {err} {perf} {sec} {tamper} {pwr} {rtc} {deferred} {lastRead} {freeCnt} (e : tb.dtc = t.tb.dtc)
    (p : tb.phys = t.tb.phys) :
    Keeps s (State.mk t.pending tb ref pps bx ch cl slot dec tim timWr brk bank [] ue dma noStream posted mir pcie env st mb goNext t.qp grp ic err perf sec tamper pwr rtc deferred lastRead freeCnt) :=
  ⟨h.queue, fun _ => rfl, fun i => e ▸ h.dtc i, h.qp, p ▸ h.phys⟩

/-- What holds of every element of a vector holds after one of them is changed by a function that keeps it. -/
theorem vmod_all {α : Type} {P : α → Prop} (v : Vector α 4) (i : Nat) (f : α → α) (hf : ∀ x, P x → P (f x))
    (h : ∀ k : Fin 4, P (vget v k)) (k : Fin 4) : P (vget (vmod v i f) k) := by
  have hk : (k : Nat) % 4 = k := Nat.mod_eq_of_lt k.isLt
  have hi := h ⟨i % 4, Nat.mod_lt _ (by decide)⟩
  simp only [vget, vmod, vset, Vector.getElem_set, Nat.mod_mod] at hi ⊢
  split
  · exact hf _ hi
  · exact h k

theorem Keeps.ite {s a b : State} {c : Prop} [Decidable c] (h : Keeps s a) (k : Keeps s b) : Keeps s (if c then a else b) := by
  split <;> assumption

theorem Keeps.foldl {s : State} {α : Type} {f : State → α → State} (h : ∀ t a, Keeps s t → Keeps s (f t a)) :
    ∀ (l : List α) {t : State}, Keeps s t → Keeps s (l.foldl f t)
  | [], _, k => k
  | a :: l, _, k => Keeps.foldl h l (h _ a k)

theorem Keeps.each {s t : State} {l : List Nat} {f : State → Nat → State} (k : Keeps s t)
    (h : ∀ t n, Keeps s t → Keeps s (f t n)) : Keeps s (t.each l f) := Keeps.foldl h l k

/-- A fold whose state is the first of a pair. -/
theorem Keeps.foldlFst {s : State} {α β : Type} {f : State × β → α → State × β}
    (h : ∀ p a, Keeps s p.1 → Keeps s (f p a).1) : ∀ (l : List α) {p : State × β}, Keeps s p.1 → Keeps s (l.foldl f p).1
  | [], _, k => k
  | a :: l, _, k => Keeps.foldlFst h l (h _ a k)

theorem Keeps.iteFst {s : State} {β : Type} {a b : State × β} {c : Prop} [Decidable c] (h : Keeps s a.1) (k : Keeps s b.1) :
    Keeps s (if c then a else b).1 := by
  split <;> assumption

theorem Keeps.fst {s a : State} {β : Type} {b : β} (h : Keeps s a) : Keeps s (a, b).1 := h

/-- The state a handler leaves. -/
def Res.state : Res → State
  | .done s _ _ => s
  | .wait s _ => s

theorem Keeps.iteRes {s : State} {a b : Res} {c : Prop} [Decidable c] (h : Keeps s a.state) (k : Keeps s b.state) :
    Keeps s (if c then a else b).state := by
  split <;> assumption

theorem fail_keeps {s0 s : State} (h : Keeps s0 s) (c : Nat) : Keeps s0 (fail s c).state := h
theorem okay_keeps {s0 s : State} (h : Keeps s0 s) (r : List W32) : Keeps s0 (okay s r).state := h
theorem done_keeps {s0 s : State} (h : Keeps s0 s) (c : Nat) (r : List W32) : Keeps s0 (Res.done s c r).state := h
theorem wait_keeps {s0 s : State} (h : Keeps s0 s) (w : MbWait) : Keeps s0 (Res.wait s w).state := h

/-- What an outcome keeps: nothing is said of a fault or a refusal. -/
structure OKeeps (s : State) (o : Host.Outcome State Fault Refusal) : Prop where
  next_keeps : ∀ t, o = .next t → Keeps s t

theorem OKeeps.next {s t : State} (h : Keeps s t) : OKeeps s (.next t) := by
  constructor; intro u e; cases e; exact h

theorem OKeeps.fault {s : State} (r : Fault) : OKeeps s (.fault r) := by
  constructor; intro u e; cases e

theorem OKeeps.ite {s : State} {a b : Host.Outcome State Fault Refusal} {c : Prop} [Decidable c] (h : OKeeps s a) (k : OKeeps s b) :
    OKeeps s (if c then a else b) := by
  split <;> assumption

/-- The state a datapath operation leaves. -/
def Did.state : Did → State
  | .ok s => s
  | .fault s _ _ => s
  | .handled s => s

theorem didOk_keeps {s0 s : State} (h : Keeps s0 s) : Keeps s0 (Did.ok s).state := h
theorem didFault_keeps {s0 s : State} (h : Keeps s0 s) (k n : Nat) : Keeps s0 (Did.fault s k n).state := h
theorem didHandled_keeps {s0 s : State} (h : Keeps s0 s) : Keeps s0 (Did.handled s).state := h

theorem Keeps.iteDid {s : State} {a b : Did} {c : Prop} [Decidable c] (h : Keeps s a.state) (k : Keeps s b.state) :
    Keeps s (if c then a else b).state := by
  split <;> assumption

end Sys2Proof.Machine
end

