-- ==== Sys2Proof/Laws/KeepOps.lean ====
section
/-! SUPPORT. What the operations of Machine/Ops.lean keep. -/
namespace Sys2Proof.Machine

theorem State.modCh_keeps {s0 s : State} (h : Keeps s0 s) (n : Nat) (f : Channel → Channel) :
    Keeps s0 (State.modCh s n f) := by
  unfold State.modCh
  repeat' first
    | with_reducible assumption
    | intro _
    | with_reducible apply Keeps.ite
    | with_reducible apply Keeps.fields
    | rfl
    | split
    | dsimp only

theorem State.modIn_keeps {s0 s : State} (h : Keeps s0 s) (n : Nat) (f : ChIn → ChIn) :
    Keeps s0 (State.modIn s n f) := by
  unfold State.modIn
  repeat' first
    | with_reducible assumption
    | intro _
    | with_reducible apply State.modCh_keeps
    | with_reducible apply Keeps.ite
    | split
    | dsimp only

theorem State.modCal_keeps {s0 s : State} (h : Keeps s0 s) (n : Nat) (f : ChCal → ChCal) :
    Keeps s0 (State.modCal s n f) := by
  unfold State.modCal
  repeat' first
    | with_reducible assumption
    | intro _
    | with_reducible apply State.modCh_keeps
    | with_reducible apply Keeps.ite
    | split
    | dsimp only

theorem State.modOut_keeps {s0 s : State} (h : Keeps s0 s) (n : Nat) (f : ChOut → ChOut) :
    Keeps s0 (State.modOut s n f) := by
  unfold State.modOut
  repeat' first
    | with_reducible assumption
    | intro _
    | with_reducible apply State.modCh_keeps
    | with_reducible apply Keeps.ite
    | split
    | dsimp only

theorem State.modPu_keeps {s0 s : State} (h : Keeps s0 s) (n : Nat) (f : PatUnit → PatUnit) :
    Keeps s0 (State.modPu s n f) := by
  unfold State.modPu
  repeat' first
    | with_reducible assumption
    | intro _
    | with_reducible apply State.modCh_keeps
    | with_reducible apply Keeps.ite
    | split
    | dsimp only

theorem State.modPr_keeps {s0 s : State} (h : Keeps s0 s) (n : Nat) (f : ChPair → ChPair) :
    Keeps s0 (State.modPr s n f) := by
  unfold State.modPr
  repeat' first
    | with_reducible assumption
    | intro _
    | with_reducible apply State.modCh_keeps
    | with_reducible apply Keeps.ite
    | split
    | dsimp only

theorem State.modCl_keeps {s0 s : State} (h : Keeps s0 s) (c : Nat) (f : Cluster → Cluster) :
    Keeps s0 (State.modCl s c f) := by
  unfold State.modCl
  repeat' first
    | with_reducible assumption
    | intro _
    | with_reducible apply Keeps.ite
    | with_reducible apply Keeps.fields
    | rfl
    | split
    | dsimp only

theorem State.modMe_keeps {s0 s : State} (h : Keeps s0 s) (c : Nat) (f : Microengine → Microengine) :
    Keeps s0 (State.modMe s c f) := by
  unfold State.modMe
  repeat' first
    | with_reducible assumption
    | intro _
    | with_reducible apply State.modCl_keeps
    | with_reducible apply Keeps.ite
    | split
    | dsimp only

theorem State.modSch_keeps {s0 s : State} (h : Keeps s0 s) (c : Nat) (f : Sched → Sched) :
    Keeps s0 (State.modSch s c f) := by
  unfold State.modSch
  repeat' first
    | with_reducible assumption
    | intro _
    | with_reducible apply State.modCl_keeps
    | with_reducible apply Keeps.ite
    | split
    | dsimp only

theorem State.modTask_keeps {s0 s : State} (h : Keeps s0 s) (c t : Nat) (f : Task → Task) :
    Keeps s0 (State.modTask s c t f) := by
  unfold State.modTask
  repeat' first
    | with_reducible assumption
    | intro _
    | with_reducible apply State.modSch_keeps
    | with_reducible apply Keeps.ite
    | split
    | dsimp only

theorem State.modSlot_keeps {s0 s : State} (h : Keeps s0 s) (k : Nat) (f : Slot → Slot) :
    Keeps s0 (State.modSlot s k f) := by
  unfold State.modSlot
  repeat' first
    | with_reducible assumption
    | intro _
    | with_reducible apply Keeps.ite
    | with_reducible apply Keeps.fields
    | rfl
    | split
    | dsimp only

theorem State.modDec_keeps {s0 s : State} (h : Keeps s0 s) (d : Nat) (f : Decoder → Decoder) :
    Keeps s0 (State.modDec s d f) := by
  unfold State.modDec
  repeat' first
    | with_reducible assumption
    | intro _
    | with_reducible apply Keeps.ite
    | with_reducible apply Keeps.fields
    | rfl
    | split
    | dsimp only

theorem State.modTim_keeps {s0 s : State} (h : Keeps s0 s) (n : Nat) (f : Timer → Timer) :
    Keeps s0 (State.modTim s n f) := by
  unfold State.modTim
  repeat' first
    | with_reducible assumption
    | intro _
    | with_reducible apply Keeps.ite
    | with_reducible apply Keeps.fields
    | rfl
    | split
    | dsimp only

theorem State.modBrk_keeps {s0 s : State} (h : Keeps s0 s) (b : Nat) (f : Brake → Brake) :
    Keeps s0 (State.modBrk s b f) := by
  unfold State.modBrk
  repeat' first
    | with_reducible assumption
    | intro _
    | with_reducible apply Keeps.ite
    | with_reducible apply Keeps.fields
    | rfl
    | split
    | dsimp only

theorem State.modBank_keeps {s0 s : State} (h : Keeps s0 s) (b : Nat) (f : Bank → Bank) :
    Keeps s0 (State.modBank s b f) := by
  unfold State.modBank
  repeat' first
    | with_reducible assumption
    | intro _
    | with_reducible apply Keeps.ite
    | with_reducible apply Keeps.fields
    | rfl
    | split
    | dsimp only

theorem State.modDma_keeps {s0 s : State} (h : Keeps s0 s) (k : Nat) (f : Dma → Dma) :
    Keeps s0 (State.modDma s k f) := by
  unfold State.modDma
  repeat' first
    | with_reducible assumption
    | intro _
    | with_reducible apply Keeps.ite
    | with_reducible apply Keeps.fields
    | rfl
    | split
    | dsimp only

theorem State.modMb_keeps {s0 s : State} (h : Keeps s0 s) (m : Nat) (f : Mailbox → Mailbox) :
    Keeps s0 (State.modMb s m f) := by
  unfold State.modMb
  repeat' first
    | with_reducible assumption
    | intro _
    | with_reducible apply Keeps.ite
    | with_reducible apply Keeps.fields
    | rfl
    | split
    | dsimp only

theorem State.modQp_keeps {s0 s : State} (h : Keeps s0 s) (q : Nat) {f : QueuePair → QueuePair}
    (hf : ∀ x, x.Bounded → (f x).Bounded) : Keeps s0 (s.modQp q f) :=
  ⟨h.queue, h.mem, h.dtc, fun i k => vmod_all s.qp q f hf (h.qp i) k, h.phys⟩


theorem State.modSrc_keeps {s0 s : State} (h : Keeps s0 s) (k : Nat) (f : Source → Source) :
    Keeps s0 (State.modSrc s k f) := by
  unfold State.modSrc
  repeat' first
    | with_reducible assumption
    | intro _
    | with_reducible apply Keeps.ite
    | with_reducible apply Keeps.fields
    | rfl
    | split
    | dsimp only

theorem State.wakeBy_keeps {s0 s : State} (h : Keeps s0 s) (b : Nat) :
    Keeps s0 (State.wakeBy s b) := by
  unfold State.wakeBy
  repeat' first
    | with_reducible assumption
    | intro _
    | with_reducible apply Keeps.ite
    | with_reducible apply Keeps.fields
    | rfl
    | split
    | dsimp only

theorem State.wakeOf_keeps {s0 s : State} (h : Keeps s0 s) (k : Nat) :
    Keeps s0 (State.wakeOf s k) := by
  unfold State.wakeOf
  repeat' first
    | with_reducible assumption
    | intro _
    | with_reducible apply State.wakeBy_keeps
    | with_reducible apply Keeps.ite
    | split
    | dsimp only

theorem State.raise_keeps {s0 s : State} (h : Keeps s0 s) (k : Nat) :
    Keeps s0 (State.raise s k) := by
  unfold State.raise
  repeat' first
    | with_reducible assumption
    | intro _
    | with_reducible apply State.modSrc_keeps
    | with_reducible apply State.wakeOf_keeps
    | with_reducible apply Keeps.ite
    | split
    | dsimp only

theorem State.setLine_keeps {s0 s : State} (h : Keeps s0 s) (k : Nat) (v : Bool) :
    Keeps s0 (State.setLine s k v) := by
  unfold State.setLine
  repeat' first
    | with_reducible assumption
    | intro _
    | with_reducible apply State.modSrc_keeps
    | with_reducible apply Keeps.ite
    | split
    | dsimp only

theorem State.pcWrap_keeps {s0 s : State} (h : Keeps s0 s) (n : Nat) :
    Keeps s0 (State.pcWrap s n) := by
  unfold State.pcWrap
  repeat' first
    | with_reducible assumption
    | intro _
    | with_reducible apply State.raise_keeps
    | with_reducible apply Keeps.ite
    | with_reducible apply Keeps.fields
    | rfl
    | split
    | dsimp only

theorem State.pcRaw_keeps {s0 s : State} (h : Keeps s0 s) (n k : Nat) :
    Keeps s0 (State.pcRaw s n k) := by
  unfold State.pcRaw
  repeat' first
    | with_reducible assumption
    | intro _
    | with_reducible apply State.pcWrap_keeps
    | with_reducible apply Keeps.ite
    | with_reducible apply Keeps.fields
    | rfl
    | split
    | dsimp only

theorem State.pcAdd_keeps {s0 s : State} (h : Keeps s0 s) (n k : Nat) :
    Keeps s0 (State.pcAdd s n k) := by
  unfold State.pcAdd
  repeat' first
    | with_reducible assumption
    | intro _
    | with_reducible apply State.pcRaw_keeps
    | with_reducible apply Keeps.ite
    | with_reducible apply Keeps.fields
    | rfl
    | split
    | dsimp only

theorem TimeBase.count_bounded (t : TimeBase) (d : Nat) : (t.count d).dtc < dtcMod := by
  unfold TimeBase.count
  dsimp only
  split
  · assumption
  · exact Nat.mod_lt _ (by decide)

theorem TimeBase.count_phys (t : TimeBase) (d : Nat) : (t.count d).phys = t.phys + d := by
  unfold TimeBase.count
  dsimp only
  split <;> rfl

theorem State.advance_keeps {s0 s : State} (h : Keeps s0 s) (d : Nat) : Keeps s0 (s.advance d) := by
  unfold State.advance
  apply Keeps.ite
  · exact ⟨h.queue, h.mem, h.dtc, h.qp, Nat.le_trans h.phys (Nat.le_add_right _ _)⟩
  · apply State.pcAdd_keeps
    exact ⟨h.queue, h.mem, fun _ => TimeBase.count_bounded _ d, h.qp, Nat.le_trans h.phys (TimeBase.count_phys _ d ▸ Nat.le_add_right _ _)⟩


theorem State.runTo_keeps {s0 s : State} (h : Keeps s0 s) (p : Nat) :
    Keeps s0 (State.runTo s p) := by
  unfold State.runTo
  repeat' first
    | with_reducible assumption
    | intro _
    | with_reducible apply State.advance_keeps
    | with_reducible apply Keeps.ite
    | split
    | dsimp only

theorem State.defer_keeps {s0 s : State} (h : Keeps s0 s) (w : When) (op : Nat) (words : List W32) :
    Keeps s0 (State.defer s w op words) := by
  unfold State.defer
  repeat' first
    | with_reducible assumption
    | intro _
    | with_reducible apply Keeps.ite
    | with_reducible apply Keeps.fields
    | rfl
    | split
    | dsimp only

theorem State.report_keeps {s0 s : State} (h : Keeps s0 s) (cls code object : Nat) (arg0 arg1 : W32) :
    Keeps s0 (State.report s cls code object arg0 arg1) := by
  unfold State.report
  repeat' first
    | with_reducible assumption
    | intro _
    | with_reducible apply State.pcAdd_keeps
    | with_reducible apply Keeps.ite
    | split
    | with_reducible apply Keeps.fields
    | rfl
    | dsimp only

theorem State.event_keeps {s0 s : State} (h : Keeps s0 s) (c kind arg : Nat) :
    Keeps s0 (State.event s c kind arg) := by
  unfold State.event
  repeat' first
    | with_reducible assumption
    | intro _
    | with_reducible apply State.modMe_keeps
    | with_reducible apply State.wakeBy_keeps
    | with_reducible apply Keeps.ite
    | with_reducible apply Keeps.each
    | with_reducible apply Keeps.fields
    | rfl
    | split
    | dsimp only

theorem QueuePair.write_bounded {q : QueuePair} (h : q.Bounded) (t : Nat) (l : List W32) : (q.write t l).Bounded := by
  unfold QueuePair.write
  split
  · refine ⟨h.1, ?_⟩
    simp only [List.length_append, List.length_cons]
    omega
  · exact h

theorem QueuePair.putLost_bounded {q : QueuePair} (h : q.Bounded) : q.putLost.Bounded := by
  unfold QueuePair.putLost
  split
  · exact h
  · exact QueuePair.write_bounded h _ _

theorem State.notice_keeps {s0 s : State} (h : Keeps s0 s) (type : Nat) (data : List W32) : Keeps s0 (s.notice type data) := by
  unfold State.notice
  refine Keeps.each h fun t n k => State.modQp_keeps k n fun x hx => ?_
  split
  · exact QueuePair.write_bounded (QueuePair.putLost_bounded hx) _ _
  · exact hx


theorem State.deny_keeps {s0 s : State} (h : Keeps s0 s) (b req word : Nat) (write : Bool) :
    Keeps s0 (State.deny s b req word write) := by
  unfold State.deny
  repeat' first
    | with_reducible assumption
    | intro _
    | with_reducible apply State.modBank_keeps
    | with_reducible apply State.raise_keeps
    | with_reducible apply State.report_keeps
    | with_reducible apply Keeps.ite
    | split
    | dsimp only

theorem State.badWord_keeps {s0 s : State} (h : Keeps s0 s) (b req word : Nat) :
    Keeps s0 (State.badWord s b req word) := by
  unfold State.badWord
  repeat' first
    | with_reducible assumption
    | intro _
    | with_reducible apply State.modBank_keeps
    | with_reducible apply State.raise_keeps
    | with_reducible apply State.report_keeps
    | with_reducible apply Keeps.ite
    | split
    | dsimp only

theorem State.correctedWord_keeps {s0 s : State} (h : Keeps s0 s) (b : Nat) :
    Keeps s0 (State.correctedWord s b) := by
  unfold State.correctedWord
  repeat' first
    | with_reducible assumption
    | intro _
    | with_reducible apply State.modBank_keeps
    | with_reducible apply State.pcAdd_keeps
    | with_reducible apply Keeps.ite
    | split
    | dsimp only

theorem State.markBad_keeps {s0 s : State} (h : Keeps s0 s) (w : Nat) :
    Keeps s0 (State.markBad s w) := by
  unfold State.markBad
  repeat' first
    | with_reducible assumption
    | intro _
    | with_reducible apply Keeps.ite
    | with_reducible apply Keeps.fields
    | rfl
    | split
    | dsimp only

theorem State.readWord_keeps {s0 s : State} (h : Keeps s0 s) (w req : Nat) (e : Ecc) :
    Keeps s0 (State.readWord s w req e).1 := by
  unfold State.readWord
  repeat' first
    | with_reducible assumption
    | intro _
    | with_reducible apply Keeps.iteFst
    | with_reducible apply State.badWord_keeps
    | with_reducible apply State.correctedWord_keeps
    | with_reducible apply State.markBad_keeps
    | with_reducible apply Keeps.ite
    | split
    | dsimp only

theorem State.writeWord_keeps {s0 s : State} (h : Keeps s0 s) (w : Nat) (v : W64) : Keeps s0 (s.writeWord w v) :=
  ⟨h.queue, fun i => Mem.setWord_wf _ w v (h.mem i), h.dtc, h.qp, h.phys⟩


theorem State.zeroBank_keeps {s0 s : State} (h : Keeps s0 s) (b : Nat) : Keeps s0 (s.zeroBank b) :=
  ⟨h.queue, fun i => Mem.clear_wf _ _ _ (h.mem i), h.dtc, h.qp, h.phys⟩


theorem State.post_keeps {s0 s : State} (h : Keeps s0 s) (addr : Nat) (words : List W32) :
    Keeps s0 (State.post s addr words) := by
  unfold State.post
  repeat' first
    | with_reducible assumption
    | intro _
    | with_reducible apply State.pcAdd_keeps
    | with_reducible apply Keeps.ite
    | with_reducible apply Keeps.fields
    | rfl
    | split
    | dsimp only

theorem State.useFree_keeps {s0 s : State} (h : Keeps s0 s) :
    Keeps s0 (State.useFree s) := by
  unfold State.useFree
  repeat' first
    | with_reducible assumption
    | intro _
    | with_reducible apply Keeps.ite
    | with_reducible apply Keeps.fields
    | rfl
    | split
    | dsimp only

end Sys2Proof.Machine
end

