-- ==== Sys2Proof/Laws/KeepStream.lean ====
section
/-! SUPPORT. What the operations of Machine/Stream.lean keep. -/
namespace Sys2Proof.Machine

theorem State.emit_keeps {s0 s : State} (h : Keeps s0 s) (c : Nat) (sort : Int) (dtc : Nat) (w : Word) :
    Keeps s0 (State.emit s c sort dtc w) := by
  unfold State.emit
  repeat' first
    | with_reducible assumption
    | intro _
    | with_reducible apply State.modCl_keeps
    | with_reducible apply Keeps.ite
    | with_reducible apply Keeps.fields
    | rfl
    | split
    | dsimp only

theorem State.emitAll_keeps {s0 s : State} (h : Keeps s0 s) (sort : Int) (dtc : Nat) (w : Word) :
    Keeps s0 (State.emitAll s sort dtc w) := by
  unfold State.emitAll
  repeat' first
    | with_reducible assumption
    | intro _
    | with_reducible apply State.emit_keeps
    | with_reducible apply Keeps.ite
    | with_reducible apply Keeps.each
    | split
    | dsimp only

end Sys2Proof.Machine
end

