-- ==== Sys2Proof/Laws/KeepTrace.lean ====
section
/-! SUPPORT. What the operations of Machine/Trace.lean keep. -/
namespace Sys2Proof.Machine

theorem State.modInt_keeps {s0 s : State} (h : Keeps s0 s) (n : Nat) (i1 : Bool) (f : Interp → Interp) :
    Keeps s0 (State.modInt s n i1 f) := by
  unfold State.modInt
  repeat' first
    | with_reducible assumption
    | intro _
    | with_reducible apply State.modCal_keeps
    | with_reducible apply Keeps.ite
    | split
    | dsimp only

theorem State.setConf_keeps {s0 s : State} (h : Keeps s0 s) (n : Nat) (v : Conf) (at_ : Int) :
    Keeps s0 (State.setConf s n v at_) := by
  unfold State.setConf
  repeat' first
    | with_reducible assumption
    | intro _
    | with_reducible apply State.modCal_keeps
    | with_reducible apply State.emit_keeps
    | with_reducible apply Keeps.ite
    | with_reducible apply Keeps.fields
    | rfl
    | split
    | dsimp only

theorem State.setTrace_keeps {s0 s : State} (h : Keeps s0 s) (v : Nat) (at_ : Int) :
    Keeps s0 (State.setTrace s v at_) := by
  unfold State.setTrace
  repeat' first
    | with_reducible assumption
    | intro _
    | with_reducible apply State.raise_keeps
    | with_reducible apply State.notice_keeps
    | with_reducible apply State.emitAll_keeps
    | with_reducible apply Keeps.ite
    | with_reducible apply Keeps.fields
    | rfl
    | split
    | dsimp only

theorem State.lowerConf_keeps {s0 s : State} (h : Keeps s0 s) :
    Keeps s0 (State.lowerConf s) := by
  unfold State.lowerConf
  repeat' first
    | with_reducible assumption
    | intro _
    | with_reducible apply Keeps.iteFst
    | with_reducible apply State.setConf_keeps
    | with_reducible apply Keeps.ite
    | with_reducible apply Keeps.each
    | split
    | dsimp only

theorem State.lowerTrace_keeps {s0 s : State} (h : Keeps s0 s) :
    Keeps s0 (State.lowerTrace s) := by
  unfold State.lowerTrace
  repeat' first
    | with_reducible assumption
    | intro _
    | with_reducible apply State.setTrace_keeps
    | with_reducible apply Keeps.ite
    | split
    | dsimp only

theorem State.raiseAll_keeps {s0 s : State} (h : Keeps s0 s) (at_ : Int) :
    Keeps s0 (State.raiseAll s at_) := by
  unfold State.raiseAll
  repeat' first
    | with_reducible assumption
    | intro _
    | with_reducible apply Keeps.iteFst
    | with_reducible apply State.setConf_keeps
    | with_reducible apply State.setTrace_keeps
    | with_reducible apply Keeps.ite
    | with_reducible apply Keeps.each
    | split
    | dsimp only

theorem State.lines_keeps {s0 s : State} (h : Keeps s0 s) :
    Keeps s0 (State.lines s) := by
  unfold State.lines
  repeat' first
    | with_reducible assumption
    | intro _
    | with_reducible apply State.setLine_keeps
    | with_reducible apply Keeps.ite
    | with_reducible apply Keeps.each
    | split
    | dsimp only

theorem State.noteUnlocked_keeps {s0 s : State} (h : Keeps s0 s) :
    Keeps s0 (State.noteUnlocked s) := by
  unfold State.noteUnlocked
  repeat' first
    | with_reducible assumption
    | intro _
    | with_reducible apply Keeps.ite
    | with_reducible apply Keeps.fields
    | rfl
    | split
    | dsimp only

theorem State.noteLock_keeps {s0 s : State} (h : Keeps s0 s) :
    Keeps s0 (State.noteLock s) := by
  unfold State.noteLock
  repeat' first
    | with_reducible assumption
    | intro _
    | with_reducible apply Keeps.ite
    | split
    | with_reducible apply Keeps.fields
    | rfl
    | dsimp only

theorem State.noteConds_keeps {s0 s : State} (h : Keeps s0 s) :
    Keeps s0 (State.noteConds s) := by
  unfold State.noteConds
  repeat' first
    | with_reducible assumption
    | intro _
    | with_reducible apply Keeps.ite
    | with_reducible apply Keeps.fields
    | rfl
    | split
    | dsimp only

theorem State.noteRefout_keeps {s0 s : State} (h : Keeps s0 s) :
    Keeps s0 (State.noteRefout s) := by
  unfold State.noteRefout
  repeat' first
    | with_reducible assumption
    | intro _
    | with_reducible apply Keeps.ite
    | with_reducible apply Keeps.fields
    | rfl
    | split
    | dsimp only

theorem State.noteCap_keeps {s0 s : State} (h : Keeps s0 s) :
    Keeps s0 (State.noteCap s) := by
  unfold State.noteCap
  repeat' first
    | with_reducible assumption
    | intro _
    | with_reducible apply Keeps.ite
    | with_reducible apply Keeps.fields
    | rfl
    | split
    | dsimp only

theorem State.settle_keeps {s0 s : State} (h : Keeps s0 s) :
    Keeps s0 (State.settle s) := by
  unfold State.settle
  repeat' first
    | with_reducible assumption
    | intro _
    | with_reducible apply State.lowerConf_keeps
    | with_reducible apply State.lowerTrace_keeps
    | with_reducible apply State.lines_keeps
    | with_reducible apply State.noteUnlocked_keeps
    | with_reducible apply State.noteLock_keeps
    | with_reducible apply State.noteConds_keeps
    | with_reducible apply State.noteRefout_keeps
    | with_reducible apply State.noteCap_keeps
    | with_reducible apply Keeps.ite
    | split
    | dsimp only

end Sys2Proof.Machine
end

