-- ==== Sys2Proof/Laws/KeepTdr.lean ====
section
/-! SUPPORT. What the operations of Machine/Tdr.lean keep. -/
namespace Sys2Proof.Machine

theorem State.modCable_keeps {s0 s : State} (h : Keeps s0 s) (n : Nat) (f : Cable → Cable) :
    Keeps s0 (State.modCable s n f) := by
  unfold State.modCable
  repeat' first
    | with_reducible assumption
    | intro _
    | with_reducible apply State.modCh_keeps
    | with_reducible apply Keeps.ite
    | split
    | dsimp only

theorem State.setTdr_keeps {s0 s : State} (h : Keeps s0 s) (c : Nat) (r : Option TdrRun) :
    Keeps s0 (State.setTdr s c r) := by
  unfold State.setTdr
  repeat' first
    | with_reducible assumption
    | intro _
    | with_reducible apply Keeps.ite
    | with_reducible apply Keeps.fields
    | rfl
    | split
    | dsimp only

theorem State.tdrFrom_keeps {s0 : State} (c : Nat) (r : TdrRun) : ∀ (l : List Nat) {s : State} (_ : Keeps s0 s),
    Keeps s0 (s.tdrFrom c r l)
  | [], _, h => State.setTdr_keeps h c none
  | n :: l, s, h => by
    unfold State.tdrFrom
    apply Keeps.ite
    · exact State.tdrFrom_keeps c r l (State.modCable_keeps h _ _)
    apply Keeps.ite
    · exact State.tdrFrom_keeps c r l (State.modCable_keeps h _ _)
    exact State.setTdr_keeps (Keeps.fields h rfl rfl) _ _


theorem State.tdrStop_keeps {s0 s : State} (h : Keeps s0 s) (n outcome : Nat) :
    Keeps s0 (State.tdrStop s n outcome) := by
  unfold State.tdrStop
  repeat' first
    | with_reducible assumption
    | intro _
    | with_reducible apply State.modCable_keeps
    | with_reducible apply State.tdrFrom_keeps
    | with_reducible apply Keeps.ite
    | split
    | dsimp only

theorem State.tdrEnds_keeps {s0 s : State} (h : Keeps s0 s) (r : TdrRun) :
    Keeps s0 (State.tdrEnds s r) := by
  unfold State.tdrEnds
  repeat' first
    | with_reducible assumption
    | intro _
    | with_reducible apply State.runTo_keeps
    | with_reducible apply Keeps.ite
    | split
    | dsimp only

end Sys2Proof.Machine
end

