-- ==== Sys2Proof/Laws/KeepInput.lean ====
section
/-! SUPPORT. What the operations of Machine/Input.lean keep. -/
namespace Sys2Proof.Machine

theorem State.takeLane_keeps {s0 s : State} (h : Keeps s0 s) (c : Nat) :
    Keeps s0 (State.takeLane s c) := by
  unfold State.takeLane
  repeat' first
    | with_reducible assumption
    | intro _
    | with_reducible apply State.modCl_keeps
    | with_reducible apply State.runTo_keeps
    | with_reducible apply Keeps.ite
    | split
    | dsimp only

theorem State.pickUp_keeps {s0 s : State} (h : Keeps s0 s) (c l n : Nat) :
    Keeps s0 (State.pickUp s c l n) := by
  unfold State.pickUp
  repeat' first
    | with_reducible assumption
    | intro _
    | with_reducible apply State.modIn_keeps
    | with_reducible apply State.modCl_keeps
    | with_reducible apply State.runTo_keeps
    | with_reducible apply Keeps.ite
    | split
    | dsimp only

theorem execLanePickup_keeps {s0 s : State} (h : Keeps s0 s) (c : Fin 4) (l : Fin 4) :
    OKeeps s0 (execLanePickup c l s) := by
  unfold execLanePickup
  repeat' first
    | with_reducible assumption
    | intro _
    | with_reducible apply OKeeps.next
    | with_reducible apply OKeeps.fault
    | with_reducible apply OKeeps.ite
    | with_reducible apply State.pickUp_keeps
    | with_reducible apply Keeps.ite
    | split
    | dsimp only

theorem State.roomFor_keeps {s0 s : State} (h : Keeps s0 s) (n : Nat) :
    Keeps s0 (State.roomFor s n) := by
  unfold State.roomFor
  repeat' first
    | with_reducible assumption
    | intro _
    | with_reducible apply State.pickUp_keeps
    | with_reducible apply Keeps.ite
    | split
    | dsimp only

theorem State.transition_keeps {s0 s : State} (h : Keeps s0 s) (n : Nat) (rising : Bool) :
    Keeps s0 (State.transition s n rising) := by
  unfold State.transition
  repeat' first
    | with_reducible assumption
    | intro _
    | with_reducible apply State.modIn_keeps
    | with_reducible apply Keeps.ite
    | split
    | dsimp only

theorem execInputTransition_keeps {s0 s : State} (h : Keeps s0 s) (n : Fin 128) (rising : Bool) (dt : Nat) :
    OKeeps s0 (execInputTransition n rising dt s) := by
  unfold execInputTransition
  repeat' first
    | with_reducible assumption
    | intro _
    | with_reducible apply OKeeps.next
    | with_reducible apply OKeeps.fault
    | with_reducible apply OKeeps.ite
    | with_reducible apply State.advance_keeps
    | with_reducible apply State.transition_keeps
    | with_reducible apply Keeps.ite
    | split
    | dsimp only

theorem execConversionComplete_keeps {s0 s : State} (h : Keeps s0 s) (n : Fin 128) (code : Fin 160) :
    OKeeps s0 (execConversionComplete n code s) := by
  unfold execConversionComplete
  repeat' first
    | with_reducible assumption
    | intro _
    | with_reducible apply OKeeps.next
    | with_reducible apply OKeeps.fault
    | with_reducible apply OKeeps.ite
    | with_reducible apply State.modIn_keeps
    | with_reducible apply State.runTo_keeps
    | with_reducible apply State.modInt_keeps
    | with_reducible apply State.settle_keeps
    | with_reducible apply State.roomFor_keeps
    | with_reducible apply Keeps.ite
    | split
    | dsimp only

theorem execQualifierRelease_keeps {s0 s : State} (h : Keeps s0 s) (n : Fin 128) :
    OKeeps s0 (execQualifierRelease n s) := by
  unfold execQualifierRelease
  repeat' first
    | with_reducible assumption
    | intro _
    | with_reducible apply OKeeps.next
    | with_reducible apply OKeeps.fault
    | with_reducible apply OKeeps.ite
    | with_reducible apply State.modIn_keeps
    | with_reducible apply State.runTo_keeps
    | with_reducible apply State.roomFor_keeps
    | with_reducible apply Keeps.ite
    | split
    | dsimp only

theorem State.lossAtBoundary_keeps {s0 s : State} (h : Keeps s0 s) (sort : Int) (dtc : Nat) :
    Keeps s0 (State.lossAtBoundary s sort dtc) := by
  unfold State.lossAtBoundary
  repeat' first
    | with_reducible assumption
    | intro _
    | with_reducible apply State.modIn_keeps
    | with_reducible apply Keeps.ite
    | with_reducible apply Keeps.each
    | split
    | dsimp only

theorem applySetInput_keeps {s0 s : State} (h : Keeps s0 s) (p : List W32) :
    Keeps s0 (applySetInput s p) := by
  unfold applySetInput
  repeat' first
    | with_reducible assumption
    | intro _
    | with_reducible apply State.modIn_keeps
    | with_reducible apply State.settle_keeps
    | with_reducible apply Keeps.ite
    | with_reducible apply Keeps.each
    | split
    | dsimp only

theorem cmdChSetInput_keeps {s0 s : State} (h : Keeps s0 s) (p : List W32) :
    Keeps s0 (cmdChSetInput s p).state := by
  unfold cmdChSetInput
  repeat' first
    | with_reducible assumption
    | intro _
    | with_reducible apply fail_keeps
    | with_reducible apply okay_keeps
    | with_reducible apply done_keeps
    | with_reducible apply wait_keeps
    | with_reducible apply Keeps.iteRes
    | with_reducible apply State.defer_keeps
    | with_reducible apply applySetInput_keeps
    | with_reducible apply Keeps.ite
    | split
    | dsimp only

theorem State.enableInput_keeps {s0 s : State} (h : Keeps s0 s) (n : Nat) :
    Keeps s0 (State.enableInput s n) := by
  unfold State.enableInput
  repeat' first
    | with_reducible assumption
    | intro _
    | with_reducible apply State.modIn_keeps
    | with_reducible apply State.modCal_keeps
    | with_reducible apply Keeps.ite
    | split
    | dsimp only

theorem State.disableInput_keeps {s0 s : State} (h : Keeps s0 s) (n : Nat) :
    Keeps s0 (State.disableInput s n) := by
  unfold State.disableInput
  repeat' first
    | with_reducible assumption
    | intro _
    | with_reducible apply State.modIn_keeps
    | with_reducible apply Keeps.ite
    | split
    | dsimp only

end Sys2Proof.Machine
end

