-- ==== Sys2Proof/Laws/KeepTimers.lean ====
section
/-! SUPPORT. What the operations of Machine/Timers.lean keep. -/
namespace Sys2Proof.Machine

theorem State.timSyncTo_keeps {s0 s : State} (h : Keeps s0 s) (n e : Nat) :
    Keeps s0 (State.timSyncTo s n e) := by
  unfold State.timSyncTo
  repeat' first
    | with_reducible assumption
    | intro _
    | with_reducible apply State.modTim_keeps
    | with_reducible apply Keeps.ite
    | split
    | dsimp only

theorem State.timSync_keeps {s0 s : State} (h : Keeps s0 s) (n : Nat) :
    Keeps s0 (State.timSync s n) := by
  unfold State.timSync
  repeat' first
    | with_reducible assumption
    | intro _
    | with_reducible apply State.timSyncTo_keeps
    | with_reducible apply Keeps.ite
    | split
    | dsimp only

theorem State.timSyncAllTo_keeps {s0 s : State} (h : Keeps s0 s) (e : Nat) :
    Keeps s0 (State.timSyncAllTo s e) := by
  unfold State.timSyncAllTo
  repeat' first
    | with_reducible assumption
    | intro _
    | with_reducible apply State.timSyncTo_keeps
    | with_reducible apply Keeps.ite
    | with_reducible apply Keeps.each
    | split
    | dsimp only

theorem State.timSyncAll_keeps {s0 s : State} (h : Keeps s0 s) :
    Keeps s0 (State.timSyncAll s) := by
  unfold State.timSyncAll
  repeat' first
    | with_reducible assumption
    | intro _
    | with_reducible apply State.timSyncAllTo_keeps
    | with_reducible apply Keeps.ite
    | split
    | dsimp only

theorem State.timOutput_keeps {s0 s : State} (h : Keeps s0 s) (n cause : Nat) :
    Keeps s0 (State.timOutput s n cause) := by
  unfold State.timOutput
  repeat' first
    | with_reducible assumption
    | intro _
    | with_reducible apply State.raise_keeps
    | with_reducible apply State.event_keeps
    | with_reducible apply Keeps.ite
    | split
    | dsimp only

theorem State.syncTree_keeps {s0 : State} : ∀ (f : Nat) {s : State} (_ : Keeps s0 s) (n edge : Nat), Keeps s0 (State.syncTree f s n edge)
  | 0, _, h, _, _ => h
  | f + 1, _, h, _, _ => Keeps.each (State.modTim_keeps h _ _) fun _ _ k => State.syncTree_keeps f k _ _


theorem State.startTree_keeps {s0 : State} : ∀ (f : Nat) {s : State} (_ : Keeps s0 s) (n edge : Nat), Keeps s0 (State.startTree f s n edge)
  | 0, _, h, _, _ => h
  | f + 1, _, h, _, _ => Keeps.each (State.modTim_keeps h _ _) fun _ _ k => State.startTree_keeps f k _ _


theorem State.timAct_keeps {s0 : State} : ∀ (f : Nat) (b : Bool) {s : State} (_ : Keeps s0 s) (n edge : Nat), Keeps s0 (State.timAct f b s n edge)
  | 0, _, _, h, _, _ => h
  | f + 1, b, _, h, _, _ => by
    have ih := @State.timAct_keeps s0 f
    cases b <;> unfold State.timAct <;> dsimp only
    all_goals
      repeat' first
        | with_reducible assumption
        | intro _
        | with_reducible apply State.modTim_keeps
        | with_reducible apply State.timOutput_keeps
        | with_reducible apply State.timSyncTo_keeps
        | with_reducible apply State.syncTree_keeps
        | with_reducible apply ih
        | with_reducible apply Keeps.ite
        | with_reducible apply Keeps.each


theorem State.count_keeps {s0 s : State} (h : Keeps s0 s) (n edge : Nat) :
    Keeps s0 (State.count s n edge) := by
  unfold State.count
  repeat' first
    | with_reducible assumption
    | intro _
    | with_reducible apply State.timAct_keeps
    | with_reducible apply Keeps.ite
    | split
    | dsimp only

theorem State.srcTick_keeps {s0 s : State} (h : Keeps s0 s) (n edge : Nat) :
    Keeps s0 (State.srcTick s n edge) := by
  unfold State.srcTick
  repeat' first
    | with_reducible assumption
    | intro _
    | with_reducible apply State.modTim_keeps
    | with_reducible apply State.count_keeps
    | with_reducible apply Keeps.ite
    | split
    | dsimp only

theorem State.timStart_keeps {s0 s : State} (h : Keeps s0 s) (n edge : Nat) :
    Keeps s0 (State.timStart s n edge) := by
  unfold State.timStart
  repeat' first
    | with_reducible assumption
    | intro _
    | with_reducible apply State.timSyncAllTo_keeps
    | with_reducible apply State.startTree_keeps
    | with_reducible apply Keeps.ite
    | split
    | dsimp only

theorem State.timStop_keeps {s0 s : State} (h : Keeps s0 s) (n edge : Nat) :
    Keeps s0 (State.timStop s n edge) := by
  unfold State.timStop
  repeat' first
    | with_reducible assumption
    | intro _
    | with_reducible apply State.timSyncAllTo_keeps
    | with_reducible apply State.timAct_keeps
    | with_reducible apply Keeps.ite
    | split
    | dsimp only

theorem State.timSyncCmd_keeps {s0 s : State} (h : Keeps s0 s) (n edge : Nat) :
    Keeps s0 (State.timSyncCmd s n edge) := by
  unfold State.timSyncCmd
  repeat' first
    | with_reducible assumption
    | intro _
    | with_reducible apply State.timSyncAllTo_keeps
    | with_reducible apply State.syncTree_keeps
    | with_reducible apply Keeps.ite
    | split
    | dsimp only

theorem State.timClear_keeps {s0 s : State} (h : Keeps s0 s) (n edge : Nat) :
    Keeps s0 (State.timClear s n edge) := by
  unfold State.timClear
  repeat' first
    | with_reducible assumption
    | intro _
    | with_reducible apply State.modTim_keeps
    | with_reducible apply Keeps.ite
    | split
    | dsimp only

theorem State.timCatch_keeps {s0 s : State} (h : Keeps s0 s) (n edge : Nat) :
    Keeps s0 (State.timCatch s n edge) := by
  unfold State.timCatch
  repeat' first
    | with_reducible assumption
    | intro _
    | with_reducible apply State.timSyncTo_keeps
    | with_reducible apply State.count_keeps
    | with_reducible apply Keeps.ite
    | split
    | dsimp only

theorem State.timWrite_keeps {s0 s : State} (h : Keeps s0 s) (n reg : Nat) (v : W32) (edge : Nat) :
    Keeps s0 (State.timWrite s n reg v edge) := by
  unfold State.timWrite
  repeat' first
    | with_reducible assumption
    | intro _
    | with_reducible apply State.modTim_keeps
    | with_reducible apply State.timSyncAllTo_keeps
    | with_reducible apply State.timStart_keeps
    | with_reducible apply State.timStop_keeps
    | with_reducible apply State.timSyncCmd_keeps
    | with_reducible apply State.timClear_keeps
    | with_reducible apply State.timCatch_keeps
    | with_reducible apply Keeps.ite
    | split
    | dsimp only

theorem State.timSettleBy_keeps {s0 s : State} (h : Keeps s0 s) (x : Nat) :
    Keeps s0 (State.timSettleBy s x) := by
  unfold State.timSettleBy
  repeat' first
    | with_reducible assumption
    | intro _
    | with_reducible apply State.timWrite_keeps
    | with_reducible apply Keeps.ite
    | with_reducible apply Keeps.foldl
    | with_reducible apply Keeps.foldlFst
    | with_reducible apply Keeps.fields
    | rfl
    | split
    | dsimp only

theorem State.timSettle_keeps {s0 s : State} (h : Keeps s0 s) :
    Keeps s0 (State.timSettle s) := by
  unfold State.timSettle
  repeat' first
    | with_reducible assumption
    | intro _
    | with_reducible apply State.timSettleBy_keeps
    | with_reducible apply Keeps.ite
    | split
    | dsimp only

theorem State.onEdge_keeps {s0 s : State} (h : Keeps s0 s) :
    Keeps s0 (State.onEdge s) := by
  unfold State.onEdge
  repeat' first
    | with_reducible assumption
    | intro _
    | with_reducible apply State.runTo_keeps
    | with_reducible apply State.timSettleBy_keeps
    | with_reducible apply Keeps.ite
    | split
    | dsimp only

theorem State.timLead_keeps {s0 s : State} (h : Keeps s0 s) (n : Nat) :
    Keeps s0 (State.timLead s n) := by
  unfold State.timLead
  repeat' first
    | with_reducible assumption
    | intro _
    | with_reducible apply State.runTo_keeps
    | with_reducible apply State.timWrite_keeps
    | with_reducible apply Keeps.ite
    | with_reducible apply Keeps.foldl
    | with_reducible apply Keeps.foldlFst
    | with_reducible apply Keeps.fields
    | rfl
    | split
    | dsimp only

theorem execGptStart_keeps {s0 s : State} (h : Keeps s0 s) (n : Fin 32) :
    OKeeps s0 (execGptStart n s) := by
  unfold execGptStart
  repeat' first
    | with_reducible assumption
    | intro _
    | with_reducible apply OKeeps.next
    | with_reducible apply OKeeps.fault
    | with_reducible apply OKeeps.ite
    | with_reducible apply State.timStart_keeps
    | with_reducible apply State.timSettle_keeps
    | with_reducible apply State.onEdge_keeps
    | with_reducible apply Keeps.ite
    | split
    | dsimp only

theorem execGptStop_keeps {s0 s : State} (h : Keeps s0 s) (n : Fin 32) :
    OKeeps s0 (execGptStop n s) := by
  unfold execGptStop
  repeat' first
    | with_reducible assumption
    | intro _
    | with_reducible apply OKeeps.next
    | with_reducible apply OKeeps.fault
    | with_reducible apply OKeeps.ite
    | with_reducible apply State.timStop_keeps
    | with_reducible apply State.timSettle_keeps
    | with_reducible apply State.onEdge_keeps
    | with_reducible apply Keeps.ite
    | split
    | dsimp only

theorem execGptSync_keeps {s0 s : State} (h : Keeps s0 s) (n : Fin 32) :
    OKeeps s0 (execGptSync n s) := by
  unfold execGptSync
  repeat' first
    | with_reducible assumption
    | intro _
    | with_reducible apply OKeeps.next
    | with_reducible apply OKeeps.fault
    | with_reducible apply OKeeps.ite
    | with_reducible apply State.timSyncCmd_keeps
    | with_reducible apply State.timSettle_keeps
    | with_reducible apply State.onEdge_keeps
    | with_reducible apply Keeps.ite
    | split
    | dsimp only

theorem execGptClrFlags_keeps {s0 s : State} (h : Keeps s0 s) (n : Fin 32) :
    OKeeps s0 (execGptClrFlags n s) := by
  unfold execGptClrFlags
  repeat' first
    | with_reducible assumption
    | intro _
    | with_reducible apply OKeeps.next
    | with_reducible apply OKeeps.fault
    | with_reducible apply OKeeps.ite
    | with_reducible apply State.timClear_keeps
    | with_reducible apply State.timSettle_keeps
    | with_reducible apply State.onEdge_keeps
    | with_reducible apply Keeps.ite
    | split
    | dsimp only

theorem State.timEvent_keeps {s0 s : State} (h : Keeps s0 s) (n : Nat) (cmp : Bool) :
    Keeps s0 (State.timEvent s n cmp) := by
  unfold State.timEvent
  repeat' first
    | with_reducible assumption
    | intro _
    | with_reducible apply State.runTo_keeps
    | with_reducible apply State.timSyncTo_keeps
    | with_reducible apply State.count_keeps
    | with_reducible apply State.timLead_keeps
    | with_reducible apply Keeps.ite
    | split
    | dsimp only

theorem execGptTopEvent_keeps {s0 s : State} (h : Keeps s0 s) (n : Fin 32) :
    OKeeps s0 (execGptTopEvent n s) := by
  unfold execGptTopEvent
  repeat' first
    | with_reducible assumption
    | intro _
    | with_reducible apply OKeeps.next
    | with_reducible apply OKeeps.fault
    | with_reducible apply OKeeps.ite
    | with_reducible apply State.timEvent_keeps
    | with_reducible apply Keeps.ite
    | split
    | dsimp only

theorem execGptCmpEvent_keeps {s0 s : State} (h : Keeps s0 s) (n : Fin 32) :
    OKeeps s0 (execGptCmpEvent n s) := by
  unfold execGptCmpEvent
  repeat' first
    | with_reducible assumption
    | intro _
    | with_reducible apply OKeeps.next
    | with_reducible apply OKeeps.fault
    | with_reducible apply OKeeps.ite
    | with_reducible apply State.timEvent_keeps
    | with_reducible apply Keeps.ite
    | split
    | dsimp only

theorem State.capture_keeps {s0 s : State} (h : Keeps s0 s) (n edge : Nat) :
    Keeps s0 (State.capture s n edge) := by
  unfold State.capture
  repeat' first
    | with_reducible assumption
    | intro _
    | with_reducible apply State.modTim_keeps
    | with_reducible apply State.timOutput_keeps
    | with_reducible apply Keeps.ite
    | split
    | dsimp only

theorem execGptTrigger_keeps {s0 s : State} (h : Keeps s0 s) (n : Fin 32) :
    OKeeps s0 (execGptTrigger n s) := by
  unfold execGptTrigger
  repeat' first
    | with_reducible assumption
    | intro _
    | with_reducible apply OKeeps.next
    | with_reducible apply OKeeps.fault
    | with_reducible apply OKeeps.ite
    | with_reducible apply State.modTim_keeps
    | with_reducible apply State.runTo_keeps
    | with_reducible apply State.timSyncTo_keeps
    | with_reducible apply State.srcTick_keeps
    | with_reducible apply State.timStart_keeps
    | with_reducible apply State.timSettleBy_keeps
    | with_reducible apply State.capture_keeps
    | with_reducible apply Keeps.ite
    | split
    | dsimp only

theorem cmdTimerSet_keeps {s0 s : State} (h : Keeps s0 s) (p : List W32) :
    Keeps s0 (cmdTimerSet s p).state := by
  unfold cmdTimerSet
  repeat' first
    | with_reducible assumption
    | intro _
    | with_reducible apply fail_keeps
    | with_reducible apply okay_keeps
    | with_reducible apply done_keeps
    | with_reducible apply wait_keeps
    | with_reducible apply Keeps.iteRes
    | with_reducible apply State.modTim_keeps
    | with_reducible apply State.defer_keeps
    | with_reducible apply State.timSyncAllTo_keeps
    | with_reducible apply State.timStart_keeps
    | with_reducible apply State.timStop_keeps
    | with_reducible apply State.timClear_keeps
    | with_reducible apply State.timCatch_keeps
    | with_reducible apply State.timSettle_keeps
    | with_reducible apply State.onEdge_keeps
    | with_reducible apply Keeps.ite
    | split
    | dsimp only

theorem applyTimerStart_keeps {s0 s : State} (h : Keeps s0 s) (p : List W32) :
    Keeps s0 (applyTimerStart s p) := by
  unfold applyTimerStart
  repeat' first
    | with_reducible assumption
    | intro _
    | with_reducible apply State.timStart_keeps
    | with_reducible apply State.timSettleBy_keeps
    | with_reducible apply State.timSettle_keeps
    | with_reducible apply Keeps.ite
    | split
    | dsimp only

end Sys2Proof.Machine
end

