-- ==== Sys2Proof/Laws/KeepMicroCore.lean ====
section
/-! SUPPORT. What the operations of Machine/MicroCore.lean keep. -/
namespace Sys2Proof.Machine

theorem State.countIdle_keeps {s0 s : State} (h : Keeps s0 s) (c upto : Nat) :
    Keeps s0 (State.countIdle s c upto) := by
  unfold State.countIdle
  repeat' first
    | with_reducible assumption
    | intro _
    | with_reducible apply State.modCl_keeps
    | with_reducible apply Keeps.ite
    | split
    | dsimp only

theorem State.charge_keeps {s0 s : State} (h : Keeps s0 s) (c upto : Nat) :
    Keeps s0 (State.charge s c upto) := by
  unfold State.charge
  repeat' first
    | with_reducible assumption
    | intro _
    | with_reducible apply State.modMe_keeps
    | with_reducible apply Keeps.ite
    | split
    | dsimp only

theorem State.chargeIrq_keeps {s0 s : State} (h : Keeps s0 s) (c n : Nat) :
    Keeps s0 (State.chargeIrq s c n) := by
  unfold State.chargeIrq
  repeat' first
    | with_reducible assumption
    | intro _
    | with_reducible apply State.modMe_keeps
    | with_reducible apply State.pcAdd_keeps
    | with_reducible apply Keeps.ite
    | split
    | dsimp only

theorem State.dispatch_keeps {s0 s : State} (h : Keeps s0 s) (c t at_ : Nat) :
    Keeps s0 (State.dispatch s c t at_) := by
  unfold State.dispatch
  repeat' first
    | with_reducible assumption
    | intro _
    | with_reducible apply State.modMe_keeps
    | with_reducible apply State.modTask_keeps
    | with_reducible apply State.countIdle_keeps
    | with_reducible apply Keeps.ite
    | split
    | dsimp only

theorem State.dispatchNext_keeps {s0 s : State} (h : Keeps s0 s) (c at_ : Nat) :
    Keeps s0 (State.dispatchNext s c at_) := by
  unfold State.dispatchNext
  repeat' first
    | with_reducible assumption
    | intro _
    | with_reducible apply State.modMe_keeps
    | with_reducible apply State.modSch_keeps
    | with_reducible apply State.dispatch_keeps
    | with_reducible apply Keeps.ite
    | split
    | dsimp only

theorem State.taskOver_keeps {s0 s : State} (h : Keeps s0 s) (c at_ : Nat) :
    Keeps s0 (State.taskOver s c at_) := by
  unfold State.taskOver
  repeat' first
    | with_reducible assumption
    | intro _
    | with_reducible apply State.modMe_keeps
    | with_reducible apply State.modSch_keeps
    | with_reducible apply State.modTask_keeps
    | with_reducible apply Keeps.ite
    | split
    | dsimp only

theorem State.leaveHandler_keeps {s0 s : State} (h : Keeps s0 s) (c at_ : Nat) (keepStack : Bool) :
    Keeps s0 (State.leaveHandler s c at_ keepStack) := by
  unfold State.leaveHandler
  repeat' first
    | with_reducible assumption
    | intro _
    | with_reducible apply State.modMe_keeps
    | with_reducible apply State.modSch_keeps
    | with_reducible apply State.modSrc_keeps
    | with_reducible apply State.chargeIrq_keeps
    | with_reducible apply Keeps.ite
    | split
    | with_reducible apply Keeps.fields
    | rfl
    | dsimp only

theorem State.meFault_keeps {s0 s : State} (h : Keeps s0 s) (c cause soft at_ : Nat) :
    Keeps s0 (State.meFault s c cause soft at_) := by
  unfold State.meFault
  repeat' first
    | with_reducible assumption
    | intro _
    | with_reducible apply State.modMe_keeps
    | with_reducible apply State.modTask_keeps
    | with_reducible apply State.raise_keeps
    | with_reducible apply State.report_keeps
    | with_reducible apply State.notice_keeps
    | with_reducible apply State.charge_keeps
    | with_reducible apply State.dispatchNext_keeps
    | with_reducible apply State.taskOver_keeps
    | with_reducible apply State.leaveHandler_keeps
    | with_reducible apply Keeps.ite
    | split
    | dsimp only

theorem State.goTo_keeps {s0 s : State} (h : Keeps s0 s) (c a at_ : Nat) :
    Keeps s0 (State.goTo s c a at_) := by
  unfold State.goTo
  repeat' first
    | with_reducible assumption
    | intro _
    | with_reducible apply State.modMe_keeps
    | with_reducible apply State.charge_keeps
    | with_reducible apply Keeps.ite
    | split
    | dsimp only

theorem State.endTask_keeps {s0 s : State} (h : Keeps s0 s) (c target at_ : Nat) :
    Keeps s0 (State.endTask s c target at_) := by
  unfold State.endTask
  repeat' first
    | with_reducible assumption
    | intro _
    | with_reducible apply State.modTask_keeps
    | with_reducible apply State.report_keeps
    | with_reducible apply State.charge_keeps
    | with_reducible apply State.dispatchNext_keeps
    | with_reducible apply State.taskOver_keeps
    | with_reducible apply State.meFault_keeps
    | with_reducible apply Keeps.ite
    | split
    | dsimp only

theorem State.nextAddr_keeps {s0 s : State} (h : Keeps s0 s) (c : Nat) (w : BitVec 128) (at_ : Nat) (a : W64) :
    Keeps s0 (State.nextAddr s c w at_ a) := by
  unfold State.nextAddr
  repeat' first
    | with_reducible assumption
    | intro _
    | with_reducible apply State.modMe_keeps
    | with_reducible apply State.meFault_keeps
    | with_reducible apply State.goTo_keeps
    | with_reducible apply State.endTask_keeps
    | with_reducible apply Keeps.ite
    | split
    | dsimp only

theorem State.issue_keeps {s0 s : State} (h : Keeps s0 s) (c : Nat) (ue : Bool) (p : BitVec 128 → Bool)
    {f : State → BitVec 128 → Nat → Did} (hf : ∀ t w a, Keeps s0 t → Keeps s0 (f t w a).state) : Keeps s0 (s.issue c ue p f) := by
  unfold State.issue
  extract_lets m w t s1 s2 a
  have k2 : Keeps s0 s2 := State.modMe_keeps (State.pcAdd_keeps (State.charge_keeps (State.runTo_keeps h _) _ _) _ _) _ _
  clear_value s2
  apply Keeps.ite h
  apply Keeps.ite (State.meFault_keeps k2 _ _ _ _)
  have k := hf s2 w t k2
  split
  · rename_i e; rw [e] at k; exact State.nextAddr_keeps k _ _ _ _
  · rename_i e; rw [e] at k; exact State.meFault_keeps k _ _ _ _
  · rename_i e; rw [e] at k; exact k


end Sys2Proof.Machine
end

