-- ==== Sys2Proof/Laws/KeepMicroAlu.lean ====
section
/-! SUPPORT. What the operations of Machine/MicroAlu.lean keep. -/
namespace Sys2Proof.Machine

theorem dpCtrl_keeps {s0 s : State} (h : Keeps s0 s) (c : Nat) (w : BitVec 128) (t : Nat) :
    Keeps s0 (dpCtrl c s w t).state := by
  unfold dpCtrl
  repeat' first
    | with_reducible assumption
    | intro _
    | with_reducible apply didOk_keeps
    | with_reducible apply didFault_keeps
    | with_reducible apply didHandled_keeps
    | with_reducible apply Keeps.iteDid
    | with_reducible apply State.modMe_keeps
    | with_reducible apply State.leaveHandler_keeps
    | with_reducible apply Keeps.ite
    | split
    | with_reducible apply Keeps.fields
    | rfl
    | dsimp only

theorem dpAlu_keeps {s0 s : State} (h : Keeps s0 s) (c : Nat) (w : BitVec 128) :
    Keeps s0 (dpAlu c s w).state := by
  unfold dpAlu
  repeat' first
    | with_reducible assumption
    | intro _
    | with_reducible apply didOk_keeps
    | with_reducible apply didFault_keeps
    | with_reducible apply didHandled_keeps
    | with_reducible apply Keeps.iteDid
    | with_reducible apply State.modMe_keeps
    | with_reducible apply Keeps.ite
    | split
    | dsimp only

theorem dpShift_keeps {s0 s : State} (h : Keeps s0 s) (c : Nat) (w : BitVec 128) :
    Keeps s0 (dpShift c s w).state := by
  unfold dpShift
  repeat' first
    | with_reducible assumption
    | intro _
    | with_reducible apply didOk_keeps
    | with_reducible apply didFault_keeps
    | with_reducible apply didHandled_keeps
    | with_reducible apply Keeps.iteDid
    | with_reducible apply State.modMe_keeps
    | with_reducible apply Keeps.ite
    | split
    | dsimp only

theorem dpMul_keeps {s0 s : State} (h : Keeps s0 s) (c : Nat) (w : BitVec 128) (t : Nat) :
    Keeps s0 (dpMul c s w t).state := by
  unfold dpMul
  repeat' first
    | with_reducible assumption
    | intro _
    | with_reducible apply didOk_keeps
    | with_reducible apply didFault_keeps
    | with_reducible apply didHandled_keeps
    | with_reducible apply Keeps.iteDid
    | with_reducible apply State.modMe_keeps
    | with_reducible apply Keeps.ite
    | split
    | dsimp only

theorem dpTime_keeps {s0 s : State} (h : Keeps s0 s) (c : Nat) (w : BitVec 128) (t : Nat) :
    Keeps s0 (dpTime c s w t).state := by
  unfold dpTime
  repeat' first
    | with_reducible assumption
    | intro _
    | with_reducible apply didOk_keeps
    | with_reducible apply didFault_keeps
    | with_reducible apply didHandled_keeps
    | with_reducible apply Keeps.iteDid
    | with_reducible apply Keeps.iteFst
    | with_reducible apply State.modMe_keeps
    | with_reducible apply Keeps.ite
    | split
    | dsimp only

theorem dpMove_keeps {s0 s : State} (h : Keeps s0 s) (c : Nat) (w : BitVec 128) (t : Nat) :
    Keeps s0 (dpMove c s w t).state := by
  unfold dpMove
  repeat' first
    | with_reducible assumption
    | intro _
    | with_reducible apply didOk_keeps
    | with_reducible apply didFault_keeps
    | with_reducible apply didHandled_keeps
    | with_reducible apply Keeps.iteDid
    | with_reducible apply State.modMe_keeps
    | with_reducible apply Keeps.ite
    | split
    | dsimp only

end Sys2Proof.Machine
end

