-- ==== Sys2Proof/Laws/KeepSched.lean ====
section
/-! SUPPORT. What the operations of Machine/Sched.lean keep. -/
namespace Sys2Proof.Machine

theorem State.schTick_keeps {s0 s : State} (h : Keeps s0 s) (c at_ : Nat) (rebuild : Bool) :
    Keeps s0 (State.schTick s c at_ rebuild) := by
  unfold State.schTick
  repeat' first
    | with_reducible assumption
    | intro _
    | with_reducible apply State.modCl_keeps
    | with_reducible apply State.dispatchNext_keeps
    | with_reducible apply Keeps.ite
    | split
    | dsimp only

theorem State.overrun_keeps {s0 s : State} (h : Keeps s0 s) (c at_ : Nat) :
    Keeps s0 (State.overrun s c at_) := by
  unfold State.overrun
  repeat' first
    | with_reducible assumption
    | intro _
    | with_reducible apply State.modMe_keeps
    | with_reducible apply State.modSch_keeps
    | with_reducible apply State.modTask_keeps
    | with_reducible apply State.report_keeps
    | with_reducible apply State.charge_keeps
    | with_reducible apply Keeps.ite
    | split
    | dsimp only

theorem State.skipTasks_keeps {s0 s : State} (h : Keeps s0 s) (c : Nat) :
    Keeps s0 (State.skipTasks s c) := by
  unfold State.skipTasks
  repeat' first
    | with_reducible assumption
    | intro _
    | with_reducible apply State.modSch_keeps
    | with_reducible apply State.modTask_keeps
    | with_reducible apply Keeps.ite
    | with_reducible apply Keeps.each
    | split
    | dsimp only

theorem State.cutTask_keeps {s0 s : State} (h : Keeps s0 s) (c t : Nat) :
    Keeps s0 (State.cutTask s c t) := by
  unfold State.cutTask
  repeat' first
    | with_reducible assumption
    | intro _
    | with_reducible apply State.modSch_keeps
    | with_reducible apply State.modTask_keeps
    | with_reducible apply State.charge_keeps
    | with_reducible apply State.dispatchNext_keeps
    | with_reducible apply State.taskOver_keeps
    | with_reducible apply Keeps.ite
    | split
    | dsimp only

theorem State.guardEnds_keeps {s0 s : State} (h : Keeps s0 s) (c g : Nat) :
    Keeps s0 (State.guardEnds s c g) := by
  unfold State.guardEnds
  repeat' first
    | with_reducible assumption
    | intro _
    | with_reducible apply State.overrun_keeps
    | with_reducible apply State.cutTask_keeps
    | with_reducible apply Keeps.ite
    | split
    | dsimp only

theorem execGuardBand_keeps {s0 s : State} (h : Keeps s0 s) (c : Fin 4) :
    OKeeps s0 (execGuardBand c s) := by
  unfold execGuardBand
  repeat' first
    | with_reducible assumption
    | intro _
    | with_reducible apply OKeeps.next
    | with_reducible apply OKeeps.fault
    | with_reducible apply OKeeps.ite
    | with_reducible apply State.modSch_keeps
    | with_reducible apply State.runTo_keeps
    | with_reducible apply State.countIdle_keeps
    | with_reducible apply State.skipTasks_keeps
    | with_reducible apply State.guardEnds_keeps
    | with_reducible apply Keeps.ite
    | split
    | dsimp only

theorem execBudgetCut_keeps {s0 s : State} (h : Keeps s0 s) (c : Fin 4) :
    OKeeps s0 (execBudgetCut c s) := by
  unfold execBudgetCut
  repeat' first
    | with_reducible assumption
    | intro _
    | with_reducible apply OKeeps.next
    | with_reducible apply OKeeps.fault
    | with_reducible apply OKeeps.ite
    | with_reducible apply State.runTo_keeps
    | with_reducible apply State.cutTask_keeps
    | with_reducible apply Keeps.ite
    | split
    | dsimp only

theorem dpWait_keeps {s0 s : State} (h : Keeps s0 s) (c : Nat) (w : BitVec 128) (t : Nat) :
    Keeps s0 (dpWait c s w t).state := by
  unfold dpWait
  repeat' first
    | with_reducible assumption
    | intro _
    | with_reducible apply didOk_keeps
    | with_reducible apply didFault_keeps
    | with_reducible apply didHandled_keeps
    | with_reducible apply Keeps.iteDid
    | with_reducible apply State.modMe_keeps
    | with_reducible apply State.charge_keeps
    | with_reducible apply Keeps.ite
    | with_reducible apply Keeps.fields
    | rfl
    | split
    | dsimp only

theorem execWaitConditionMet_keeps {s0 s : State} (h : Keeps s0 s) (c : Fin 4) :
    OKeeps s0 (execWaitConditionMet c s) := by
  unfold execWaitConditionMet
  repeat' first
    | with_reducible assumption
    | intro _
    | with_reducible apply OKeeps.next
    | with_reducible apply OKeeps.fault
    | with_reducible apply OKeeps.ite
    | with_reducible apply State.modMe_keeps
    | with_reducible apply State.runTo_keeps
    | with_reducible apply State.goTo_keeps
    | with_reducible apply Keeps.ite
    | split
    | dsimp only

theorem execWaitTimeout_keeps {s0 s : State} (h : Keeps s0 s) (c : Fin 4) :
    OKeeps s0 (execWaitTimeout c s) := by
  unfold execWaitTimeout
  repeat' first
    | with_reducible assumption
    | intro _
    | with_reducible apply OKeeps.next
    | with_reducible apply OKeeps.fault
    | with_reducible apply OKeeps.ite
    | with_reducible apply State.modMe_keeps
    | with_reducible apply State.runTo_keeps
    | with_reducible apply State.goTo_keeps
    | with_reducible apply Keeps.ite
    | split
    | dsimp only

theorem State.irqDecide_keeps {s0 s : State} (h : Keeps s0 s) (c : Fin 4) (fast : Bool) :
    Keeps s0 (State.irqDecide s c fast) := by
  unfold State.irqDecide
  repeat' first
    | with_reducible assumption
    | intro _
    | with_reducible apply State.modMe_keeps
    | with_reducible apply State.modSrc_keeps
    | with_reducible apply State.pcAdd_keeps
    | with_reducible apply State.runTo_keeps
    | with_reducible apply State.countIdle_keeps
    | with_reducible apply State.charge_keeps
    | with_reducible apply Keeps.ite
    | split
    | with_reducible apply Keeps.fields
    | rfl
    | dsimp only

theorem execFastEntry_keeps {s0 s : State} (h : Keeps s0 s) (c : Fin 4) :
    OKeeps s0 (execFastEntry c s) := by
  unfold execFastEntry
  repeat' first
    | with_reducible assumption
    | intro _
    | with_reducible apply OKeeps.next
    | with_reducible apply OKeeps.fault
    | with_reducible apply OKeeps.ite
    | with_reducible apply State.irqDecide_keeps
    | with_reducible apply Keeps.ite
    | split
    | dsimp only

theorem execNormalEntry_keeps {s0 s : State} (h : Keeps s0 s) (c : Fin 4) :
    OKeeps s0 (execNormalEntry c s) := by
  unfold execNormalEntry
  repeat' first
    | with_reducible assumption
    | intro _
    | with_reducible apply OKeeps.next
    | with_reducible apply OKeeps.fault
    | with_reducible apply OKeeps.ite
    | with_reducible apply State.irqDecide_keeps
    | with_reducible apply Keeps.ite
    | split
    | dsimp only

theorem execHandlerLong_keeps {s0 s : State} (h : Keeps s0 s) (c : Fin 4) :
    OKeeps s0 (execHandlerLong c s) := by
  unfold execHandlerLong
  repeat' first
    | with_reducible assumption
    | intro _
    | with_reducible apply OKeeps.next
    | with_reducible apply OKeeps.fault
    | with_reducible apply OKeeps.ite
    | with_reducible apply State.runTo_keeps
    | with_reducible apply State.meFault_keeps
    | with_reducible apply Keeps.ite
    | split
    | dsimp only

theorem applyTaskSet_keeps {s0 s : State} (h : Keeps s0 s) (p : List W32) :
    Keeps s0 (applyTaskSet s p) := by
  unfold applyTaskSet
  repeat' first
    | with_reducible assumption
    | intro _
    | with_reducible apply State.modTask_keeps
    | with_reducible apply Keeps.ite
    | split
    | dsimp only

theorem applyTaskRemove_keeps {s0 s : State} (h : Keeps s0 s) (p : List W32) :
    Keeps s0 (applyTaskRemove s p) := by
  unfold applyTaskRemove
  repeat' first
    | with_reducible assumption
    | intro _
    | with_reducible apply State.modTask_keeps
    | with_reducible apply Keeps.ite
    | with_reducible apply Keeps.each
    | split
    | dsimp only

theorem State.tasksBy_keeps {s0 s : State} (h : Keeps s0 s) (b : Nat) :
    Keeps s0 (State.tasksBy s b) := by
  unfold State.tasksBy
  repeat' first
    | with_reducible assumption
    | intro _
    | with_reducible apply applyTaskSet_keeps
    | with_reducible apply applyTaskRemove_keeps
    | with_reducible apply Keeps.ite
    | with_reducible apply Keeps.foldl
    | with_reducible apply Keeps.foldlFst
    | split
    | dsimp only

theorem State.taskPlan_keeps {s0 s : State} (h : Keeps s0 s) (p : List W32) :
    Keeps s0 (State.taskPlan s p).1 := by
  unfold State.taskPlan
  repeat' first
    | with_reducible assumption
    | intro _
    | with_reducible apply Keeps.iteFst
    | with_reducible apply State.tasksBy_keeps
    | with_reducible apply Keeps.ite
    | split
    | dsimp only

theorem cmdTaskSet_keeps {s0 s : State} (h : Keeps s0 s) (p : List W32) :
    Keeps s0 (cmdTaskSet s p).state := by
  unfold cmdTaskSet
  repeat' first
    | with_reducible assumption
    | intro _
    | with_reducible apply fail_keeps
    | with_reducible apply okay_keeps
    | with_reducible apply done_keeps
    | with_reducible apply wait_keeps
    | with_reducible apply Keeps.iteRes
    | with_reducible apply Keeps.iteFst
    | with_reducible apply State.defer_keeps
    | with_reducible apply applyTaskSet_keeps
    | with_reducible apply State.taskPlan_keeps
    | with_reducible apply Keeps.ite
    | split
    | dsimp only

theorem cmdTaskRemove_keeps {s0 s : State} (h : Keeps s0 s) (p : List W32) :
    Keeps s0 (cmdTaskRemove s p).state := by
  unfold cmdTaskRemove
  repeat' first
    | with_reducible assumption
    | intro _
    | with_reducible apply fail_keeps
    | with_reducible apply okay_keeps
    | with_reducible apply done_keeps
    | with_reducible apply wait_keeps
    | with_reducible apply Keeps.iteRes
    | with_reducible apply State.defer_keeps
    | with_reducible apply applyTaskRemove_keeps
    | with_reducible apply State.tasksBy_keeps
    | with_reducible apply Keeps.ite
    | split
    | dsimp only

theorem cmdSchedCheck_keeps {s0 s : State} (h : Keeps s0 s) (p : List W32) :
    Keeps s0 (cmdSchedCheck s p).state := by
  unfold cmdSchedCheck
  repeat' first
    | with_reducible assumption
    | intro _
    | with_reducible apply fail_keeps
    | with_reducible apply okay_keeps
    | with_reducible apply done_keeps
    | with_reducible apply wait_keeps
    | with_reducible apply Keeps.iteRes
    | with_reducible apply Keeps.ite
    | split
    | dsimp only

end Sys2Proof.Machine
end

