-- ==== Sys2Proof/Laws/KeepCalib.lean ====
section
/-! SUPPORT. What the operations of Machine/Calib.lean keep. -/
namespace Sys2Proof.Machine

theorem State.failCal_keeps {s0 s : State} (h : Keeps s0 s) (n cause : Nat) :
    Keeps s0 (State.failCal s n cause) := by
  unfold State.failCal
  repeat' first
    | with_reducible assumption
    | intro _
    | with_reducible apply State.modCal_keeps
    | with_reducible apply Keeps.ite
    | split
    | dsimp only

theorem execTableSwap_keeps {s0 s : State} (h : Keeps s0 s) (n : Fin 128) (i1 : Bool) :
    OKeeps s0 (execTableSwap n i1 s) := by
  unfold execTableSwap
  repeat' first
    | with_reducible assumption
    | intro _
    | with_reducible apply OKeeps.next
    | with_reducible apply OKeeps.fault
    | with_reducible apply OKeeps.ite
    | with_reducible apply State.modCal_keeps
    | with_reducible apply State.runTo_keeps
    | with_reducible apply State.settle_keeps
    | with_reducible apply Keeps.ite
    | split
    | dsimp only

theorem execCalStarved_keeps {s0 s : State} (h : Keeps s0 s) (n : Fin 128) (i1 : Bool) :
    OKeeps s0 (execCalStarved n i1 s) := by
  unfold execCalStarved
  repeat' first
    | with_reducible assumption
    | intro _
    | with_reducible apply OKeeps.next
    | with_reducible apply OKeeps.fault
    | with_reducible apply OKeeps.ite
    | with_reducible apply State.runTo_keeps
    | with_reducible apply State.modInt_keeps
    | with_reducible apply State.settle_keeps
    | with_reducible apply Keeps.ite
    | split
    | dsimp only

theorem execStealOverdue_keeps {s0 s : State} (h : Keeps s0 s) (n : Fin 128) :
    OKeeps s0 (execStealOverdue n s) := by
  unfold execStealOverdue
  repeat' first
    | with_reducible assumption
    | intro _
    | with_reducible apply OKeeps.next
    | with_reducible apply OKeeps.fault
    | with_reducible apply OKeeps.ite
    | with_reducible apply State.modCal_keeps
    | with_reducible apply State.runTo_keeps
    | with_reducible apply State.settle_keeps
    | with_reducible apply Keeps.ite
    | split
    | dsimp only

theorem State.stealTick_keeps {s0 s : State} (h : Keeps s0 s) (sort : Int) (dtc : Nat) :
    Keeps s0 (State.stealTick s sort dtc) := by
  unfold State.stealTick
  repeat' first
    | with_reducible assumption
    | intro _
    | with_reducible apply State.modIn_keeps
    | with_reducible apply State.modCal_keeps
    | with_reducible apply State.emit_keeps
    | with_reducible apply Keeps.ite
    | with_reducible apply Keeps.each
    | split
    | dsimp only

theorem State.completeCycle_keeps {s0 s : State} (h : Keeps s0 s) (ended : Bool) :
    Keeps s0 (State.completeCycle s ended) := by
  unfold State.completeCycle
  repeat' first
    | with_reducible assumption
    | intro _
    | with_reducible apply State.modCal_keeps
    | with_reducible apply Keeps.ite
    | with_reducible apply Keeps.each
    | with_reducible apply Keeps.fields
    | rfl
    | split
    | dsimp only

theorem State.startMeasure_keeps {s0 s : State} (h : Keeps s0 s) (n : Nat) (run : Bool) :
    Keeps s0 (State.startMeasure s n run) := by
  unfold State.startMeasure
  repeat' first
    | with_reducible assumption
    | intro _
    | with_reducible apply State.modCal_keeps
    | with_reducible apply Keeps.ite
    | split
    | dsimp only

theorem execCalCycleStart_keeps {s0 s : State} (h : Keeps s0 s) :
    OKeeps s0 (execCalCycleStart s) := by
  unfold execCalCycleStart
  repeat' first
    | with_reducible assumption
    | intro _
    | with_reducible apply OKeeps.next
    | with_reducible apply OKeeps.fault
    | with_reducible apply OKeeps.ite
    | with_reducible apply State.modCal_keeps
    | with_reducible apply State.runTo_keeps
    | with_reducible apply State.completeCycle_keeps
    | with_reducible apply State.startMeasure_keeps
    | with_reducible apply Keeps.ite
    | with_reducible apply Keeps.each
    | with_reducible apply Keeps.fields
    | rfl
    | split
    | dsimp only

theorem execDeferredCalMeasure_keeps {s0 s : State} (h : Keeps s0 s) (n : Fin 128) :
    OKeeps s0 (execDeferredCalMeasure n s) := by
  unfold execDeferredCalMeasure
  repeat' first
    | with_reducible assumption
    | intro _
    | with_reducible apply OKeeps.next
    | with_reducible apply OKeeps.fault
    | with_reducible apply OKeeps.ite
    | with_reducible apply State.startMeasure_keeps
    | with_reducible apply Keeps.ite
    | split
    | dsimp only

theorem State.measureEnds_keeps {s0 s : State} (h : Keeps s0 s) (n : Nat) (run : Bool) :
    Keeps s0 (State.measureEnds s n run) := by
  unfold State.measureEnds
  repeat' first
    | with_reducible assumption
    | intro _
    | with_reducible apply State.completeCycle_keeps
    | with_reducible apply Keeps.ite
    | split
    | dsimp only

theorem execCalMeasureDone_keeps {s0 s : State} (h : Keeps s0 s) (n : Fin 128) (out : Bool) (tags : List Int) :
    OKeeps s0 (execCalMeasureDone n out tags s) := by
  unfold execCalMeasureDone
  repeat' first
    | with_reducible assumption
    | intro _
    | with_reducible apply OKeeps.next
    | with_reducible apply OKeeps.fault
    | with_reducible apply OKeeps.ite
    | with_reducible apply State.modCal_keeps
    | with_reducible apply State.runTo_keeps
    | with_reducible apply State.settle_keeps
    | with_reducible apply State.measureEnds_keeps
    | with_reducible apply Keeps.ite
    | split
    | dsimp only

theorem execTempTermUpdate_keeps {s0 s : State} (h : Keeps s0 s) :
    OKeeps s0 (execTempTermUpdate s) := by
  unfold execTempTermUpdate
  repeat' first
    | with_reducible assumption
    | intro _
    | with_reducible apply OKeeps.next
    | with_reducible apply OKeeps.fault
    | with_reducible apply OKeeps.ite
    | with_reducible apply State.modCal_keeps
    | with_reducible apply Keeps.ite
    | with_reducible apply Keeps.each
    | split
    | dsimp only

theorem State.tempTick_keeps {s0 s : State} (h : Keeps s0 s) :
    Keeps s0 (State.tempTick s) := by
  unfold State.tempTick
  repeat' first
    | with_reducible assumption
    | intro _
    | with_reducible apply State.modCal_keeps
    | with_reducible apply Keeps.ite
    | with_reducible apply Keeps.each
    | split
    | dsimp only

theorem execInAgePassed_keeps {s0 s : State} (h : Keeps s0 s) (n : Fin 128) (out : Bool) :
    OKeeps s0 (execInAgePassed n out s) := by
  unfold execInAgePassed
  repeat' first
    | with_reducible assumption
    | intro _
    | with_reducible apply OKeeps.next
    | with_reducible apply OKeeps.fault
    | with_reducible apply OKeeps.ite
    | with_reducible apply State.modCal_keeps
    | with_reducible apply State.runTo_keeps
    | with_reducible apply State.settle_keeps
    | with_reducible apply Keeps.ite
    | split
    | dsimp only

theorem State.accrue_keeps {s0 s : State} (h : Keeps s0 s) :
    Keeps s0 (State.accrue s) := by
  unfold State.accrue
  repeat' first
    | with_reducible assumption
    | intro _
    | with_reducible apply Keeps.ite
    | with_reducible apply Keeps.fields
    | rfl
    | split
    | dsimp only

theorem State.setProj_keeps {s0 s : State} (h : Keeps s0 s) :
    Keeps s0 (State.setProj s) := by
  unfold State.setProj
  repeat' first
    | with_reducible assumption
    | intro _
    | with_reducible apply Keeps.iteFst
    | with_reducible apply State.modCal_keeps
    | with_reducible apply Keeps.ite
    | with_reducible apply Keeps.each
    | with_reducible apply Keeps.fields
    | rfl
    | split
    | dsimp only

theorem execAgeingMeasure_keeps {s0 s : State} (h : Keeps s0 s) (rings : List (W32 × W32)) :
    OKeeps s0 (execAgeingMeasure rings s) := by
  unfold execAgeingMeasure
  repeat' first
    | with_reducible assumption
    | intro _
    | with_reducible apply OKeeps.next
    | with_reducible apply OKeeps.fault
    | with_reducible apply OKeeps.ite
    | with_reducible apply Keeps.iteFst
    | with_reducible apply State.modCl_keeps
    | with_reducible apply State.runTo_keeps
    | with_reducible apply State.accrue_keeps
    | with_reducible apply State.setProj_keeps
    | with_reducible apply Keeps.ite
    | with_reducible apply Keeps.each
    | split
    | with_reducible apply Keeps.fields
    | rfl
    | dsimp only

theorem State.replan_keeps {s0 s : State} (h : Keeps s0 s) :
    Keeps s0 (State.replan s) := by
  unfold State.replan
  repeat' first
    | with_reducible assumption
    | intro _
    | with_reducible apply State.modCal_keeps
    | with_reducible apply State.modCl_keeps
    | with_reducible apply State.setProj_keeps
    | with_reducible apply Keeps.ite
    | with_reducible apply Keeps.each
    | with_reducible apply Keeps.fields
    | rfl
    | split
    | dsimp only

theorem execReplan_keeps {s0 s : State} (h : Keeps s0 s) :
    OKeeps s0 (execReplan s) := by
  unfold execReplan
  repeat' first
    | with_reducible assumption
    | intro _
    | with_reducible apply OKeeps.next
    | with_reducible apply OKeeps.fault
    | with_reducible apply OKeeps.ite
    | with_reducible apply State.runTo_keeps
    | with_reducible apply State.settle_keeps
    | with_reducible apply State.replan_keeps
    | with_reducible apply Keeps.ite
    | split
    | dsimp only

theorem execBaselineClear_keeps {s0 s : State} (h : Keeps s0 s) :
    OKeeps s0 (execBaselineClear s) := by
  unfold execBaselineClear
  repeat' first
    | with_reducible assumption
    | intro _
    | with_reducible apply OKeeps.next
    | with_reducible apply OKeeps.fault
    | with_reducible apply OKeeps.ite
    | with_reducible apply Keeps.ite
    | with_reducible apply Keeps.fields
    | rfl
    | split
    | dsimp only

theorem State.baseTick_keeps {s0 s : State} (h : Keeps s0 s) :
    Keeps s0 (State.baseTick s) := by
  unfold State.baseTick
  repeat' first
    | with_reducible assumption
    | intro _
    | with_reducible apply State.replan_keeps
    | with_reducible apply Keeps.ite
    | with_reducible apply Keeps.fields
    | rfl
    | split
    | dsimp only

theorem State.cutHistory_keeps {s0 s : State} (h : Keeps s0 s) (h : HistCut) :
    Keeps s0 (State.cutHistory s h) := by
  unfold State.cutHistory
  repeat' first
    | with_reducible assumption
    | intro _
    | with_reducible apply Keeps.iteFst
    | with_reducible apply State.modCal_keeps
    | with_reducible apply State.modCl_keeps
    | with_reducible apply State.report_keeps
    | with_reducible apply Keeps.ite
    | with_reducible apply Keeps.each
    | with_reducible apply Keeps.fields
    | rfl
    | split
    | dsimp only

theorem State.beginInts_keeps {s0 s : State} (h : Keeps s0 s) (n : Nat) :
    Keeps s0 (State.beginInts s n) := by
  unfold State.beginInts
  repeat' first
    | with_reducible assumption
    | intro _
    | with_reducible apply State.modCal_keeps
    | with_reducible apply Keeps.ite
    | split
    | dsimp only

theorem State.beginCal_keeps {s0 s : State} (h : Keeps s0 s) :
    Keeps s0 (State.beginCal s) := by
  unfold State.beginCal
  repeat' first
    | with_reducible assumption
    | intro _
    | with_reducible apply State.modCh_keeps
    | with_reducible apply State.beginInts_keeps
    | with_reducible apply Keeps.ite
    | with_reducible apply Keeps.each
    | with_reducible apply Keeps.fields
    | rfl
    | split
    | dsimp only

theorem State.updateEnds_keeps {s0 s : State} (h : Keeps s0 s) (n : Nat) (i1 : Bool) (h : Hits) :
    Keeps s0 (State.updateEnds s n i1 h) := by
  unfold State.updateEnds
  repeat' first
    | with_reducible assumption
    | intro _
    | with_reducible apply State.raise_keeps
    | with_reducible apply State.pcAdd_keeps
    | with_reducible apply State.report_keeps
    | with_reducible apply State.modInt_keeps
    | with_reducible apply State.settle_keeps
    | with_reducible apply State.failCal_keeps
    | with_reducible apply Keeps.ite
    | split
    | dsimp only

theorem execBinTableUpdate_keeps {s0 s : State} (h : Keeps s0 s) (n : Fin 128) (i1 : Bool) (hits : Hits) :
    OKeeps s0 (execBinTableUpdate n i1 hits s) := by
  unfold execBinTableUpdate
  repeat' first
    | with_reducible assumption
    | intro _
    | with_reducible apply OKeeps.next
    | with_reducible apply OKeeps.fault
    | with_reducible apply OKeeps.ite
    | with_reducible apply State.modInt_keeps
    | with_reducible apply State.beginCal_keeps
    | with_reducible apply State.updateEnds_keeps
    | with_reducible apply Keeps.ite
    | split
    | dsimp only

theorem State.applyPlan_keeps {s0 s : State} (h : Keeps s0 s) (c : Nat) :
    Keeps s0 (State.applyPlan s c) := by
  unfold State.applyPlan
  repeat' first
    | with_reducible assumption
    | intro _
    | with_reducible apply State.modCl_keeps
    | with_reducible apply State.report_keeps
    | with_reducible apply Keeps.ite
    | split
    | dsimp only

theorem cmdCalRun_keeps {s0 s : State} (h : Keeps s0 s) (p : List W32) :
    Keeps s0 (cmdCalRun s p).state := by
  unfold cmdCalRun
  repeat' first
    | with_reducible assumption
    | intro _
    | with_reducible apply fail_keeps
    | with_reducible apply okay_keeps
    | with_reducible apply done_keeps
    | with_reducible apply wait_keeps
    | with_reducible apply Keeps.iteRes
    | with_reducible apply State.modCal_keeps
    | with_reducible apply State.startMeasure_keeps
    | with_reducible apply Keeps.ite
    | with_reducible apply Keeps.each
    | split
    | dsimp only

theorem cmdCalStatus_keeps {s0 s : State} (h : Keeps s0 s) (p : List W32) :
    Keeps s0 (cmdCalStatus s p).state := by
  unfold cmdCalStatus
  repeat' first
    | with_reducible assumption
    | intro _
    | with_reducible apply fail_keeps
    | with_reducible apply okay_keeps
    | with_reducible apply done_keeps
    | with_reducible apply wait_keeps
    | with_reducible apply Keeps.iteRes
    | with_reducible apply Keeps.ite
    | split
    | dsimp only

theorem applyCalPolicy_keeps {s0 s : State} (h : Keeps s0 s) (p : List W32) :
    Keeps s0 (applyCalPolicy s p) := by
  unfold applyCalPolicy
  repeat' first
    | with_reducible assumption
    | intro _
    | with_reducible apply State.modCal_keeps
    | with_reducible apply State.modCl_keeps
    | with_reducible apply State.settle_keeps
    | with_reducible apply Keeps.ite
    | with_reducible apply Keeps.each
    | split
    | dsimp only

theorem cmdCalPolicy_keeps {s0 s : State} (h : Keeps s0 s) (p : List W32) :
    Keeps s0 (cmdCalPolicy s p).state := by
  unfold cmdCalPolicy
  repeat' first
    | with_reducible assumption
    | intro _
    | with_reducible apply fail_keeps
    | with_reducible apply okay_keeps
    | with_reducible apply done_keeps
    | with_reducible apply wait_keeps
    | with_reducible apply Keeps.iteRes
    | with_reducible apply State.defer_keeps
    | with_reducible apply Keeps.ite
    | split
    | dsimp only

end Sys2Proof.Machine
end

