-- ==== Sys2Proof/Laws/KeepEnvir.lean ====
section
/-! SUPPORT. What the operations of Machine/Envir.lean keep. -/
namespace Sys2Proof.Machine

theorem State.setTerm_keeps {s0 s : State} (h : Keeps s0 s) (n : Nat) (t : Nat) (src : CableSrc) :
    Keeps s0 (State.setTerm s n t src) := by
  unfold State.setTerm
  repeat' first
    | with_reducible assumption
    | intro _
    | with_reducible apply State.modCal_keeps
    | with_reducible apply State.modCable_keeps
    | with_reducible apply Keeps.ite
    | split
    | dsimp only

theorem State.applyTdr_keeps {s0 s : State} (h : Keeps s0 s) (p : List W32) :
    Keeps s0 (State.applyTdr s p) := by
  unfold State.applyTdr
  repeat' first
    | with_reducible assumption
    | intro _
    | with_reducible apply State.settle_keeps
    | with_reducible apply State.setTerm_keeps
    | with_reducible apply Keeps.ite
    | with_reducible apply Keeps.each
    | split
    | dsimp only

theorem cmdEnvTdr_keeps {s0 s : State} (h : Keeps s0 s) (p : List W32) :
    Keeps s0 (cmdEnvTdr s p).state := by
  unfold cmdEnvTdr
  repeat' first
    | with_reducible assumption
    | intro _
    | with_reducible apply fail_keeps
    | with_reducible apply okay_keeps
    | with_reducible apply done_keeps
    | with_reducible apply wait_keeps
    | with_reducible apply Keeps.iteRes
    | with_reducible apply State.defer_keeps
    | with_reducible apply State.tdrFrom_keeps
    | with_reducible apply Keeps.ite
    | split
    | dsimp only

theorem execTdrChannelDone_keeps {s0 s : State} (h : Keeps s0 s) (n : Fin 128) (r : TdrResult) :
    OKeeps s0 (execTdrChannelDone n r s) := by
  unfold execTdrChannelDone
  repeat' first
    | with_reducible assumption
    | intro _
    | with_reducible apply OKeeps.next
    | with_reducible apply OKeeps.fault
    | with_reducible apply OKeeps.ite
    | with_reducible apply State.defer_keeps
    | with_reducible apply State.modCable_keeps
    | with_reducible apply State.tdrFrom_keeps
    | with_reducible apply State.tdrEnds_keeps
    | with_reducible apply Keeps.ite
    | split
    | with_reducible apply Keeps.fields
    | rfl
    | dsimp only

theorem State.modMon_keeps {s0 s : State} (h : Keeps s0 s) (k : Nat) (f : Monitor → Monitor) :
    Keeps s0 (State.modMon s k f) := by
  unfold State.modMon
  repeat' first
    | with_reducible assumption
    | intro _
    | with_reducible apply Keeps.ite
    | with_reducible apply Keeps.fields
    | rfl
    | split
    | dsimp only

theorem State.monNotice_keeps {s0 s : State} (h : Keeps s0 s) (k : Nat) (fault : Bool) :
    Keeps s0 (State.monNotice s k fault) := by
  unfold State.monNotice
  repeat' first
    | with_reducible assumption
    | intro _
    | with_reducible apply State.wakeBy_keeps
    | with_reducible apply State.raise_keeps
    | with_reducible apply State.report_keeps
    | with_reducible apply State.notice_keeps
    | with_reducible apply Keeps.ite
    | split
    | dsimp only

theorem execMonitorReading_keeps {s0 s : State} (h : Keeps s0 s) (k : Fin 52) (v : Int) (invalid : Bool) :
    OKeeps s0 (execMonitorReading k v invalid s) := by
  unfold execMonitorReading
  repeat' first
    | with_reducible assumption
    | intro _
    | with_reducible apply OKeeps.next
    | with_reducible apply OKeeps.fault
    | with_reducible apply OKeeps.ite
    | with_reducible apply State.modMon_keeps
    | with_reducible apply State.monNotice_keeps
    | with_reducible apply Keeps.ite
    | with_reducible apply Keeps.fields
    | rfl
    | split
    | dsimp only

theorem execThermalTrip_keeps {s0 s : State} (h : Keeps s0 s) (k : Fin 12) :
    OKeeps s0 (execThermalTrip k s) := by
  unfold execThermalTrip
  repeat' first
    | with_reducible assumption
    | intro _
    | with_reducible apply OKeeps.next
    | with_reducible apply OKeeps.fault
    | with_reducible apply OKeeps.ite
    | with_reducible apply State.modOut_keeps
    | with_reducible apply State.wakeBy_keeps
    | with_reducible apply State.report_keeps
    | with_reducible apply State.settle_keeps
    | with_reducible apply Keeps.ite
    | with_reducible apply Keeps.each
    | with_reducible apply Keeps.fields
    | rfl
    | split
    | dsimp only

theorem cmdEnvMonitors_keeps {s0 s : State} (h : Keeps s0 s) (p : List W32) :
    Keeps s0 (cmdEnvMonitors s p).state := by
  unfold cmdEnvMonitors
  repeat' first
    | with_reducible assumption
    | intro _
    | with_reducible apply fail_keeps
    | with_reducible apply okay_keeps
    | with_reducible apply done_keeps
    | with_reducible apply wait_keeps
    | with_reducible apply Keeps.iteRes
    | with_reducible apply State.lines_keeps
    | with_reducible apply State.modMon_keeps
    | with_reducible apply Keeps.ite
    | with_reducible apply Keeps.fields
    | rfl
    | split
    | dsimp only

theorem State.vddmWindow_keeps {s0 s : State} (h : Keeps s0 s) (retained : Bool) :
    Keeps s0 (State.vddmWindow s retained) := by
  unfold State.vddmWindow
  repeat' first
    | with_reducible assumption
    | intro _
    | with_reducible apply Keeps.iteFst
    | with_reducible apply State.modMon_keeps
    | with_reducible apply Keeps.ite
    | split
    | dsimp only

end Sys2Proof.Machine
end

