-- ==== Sys2Proof/Laws/KeepSlots.lean ====
section
/-! SUPPORT. What the operations of Machine/Slots.lean keep. -/
namespace Sys2Proof.Machine

theorem State.slotsWord_keeps {s0 s : State} (h : Keeps s0 s) (c : Nat) (w : PWord) :
    Keeps s0 (State.slotsWord s c w) := by
  unfold State.slotsWord
  repeat' first
    | with_reducible assumption
    | intro _
    | with_reducible apply State.modSlot_keeps
    | with_reducible apply Keeps.ite
    | with_reducible apply Keeps.each
    | split
    | dsimp only

theorem State.refreshUse_keeps {s0 s : State} (h : Keeps s0 s) :
    Keeps s0 (State.refreshUse s) := by
  unfold State.refreshUse
  repeat' first
    | with_reducible assumption
    | intro _
    | with_reducible apply State.modBank_keeps
    | with_reducible apply Keeps.ite
    | with_reducible apply Keeps.each
    | split
    | dsimp only

theorem State.slotTick_keeps {s0 s : State} (h : Keeps s0 s) (pre post x : Nat) (at_ : Int) (stepped moved : Bool) :
    Keeps s0 (State.slotTick s pre post x at_ stepped moved) := by
  unfold State.slotTick
  repeat' first
    | with_reducible assumption
    | intro _
    | with_reducible apply State.post_keeps
    | with_reducible apply Keeps.ite
    | with_reducible apply Keeps.fields
    | rfl
    | split
    | dsimp only

theorem execMsPublish_keeps {s0 s : State} (h : Keeps s0 s) (n : Fin 512) :
    OKeeps s0 (execMsPublish n s) := by
  unfold execMsPublish
  repeat' first
    | with_reducible assumption
    | intro _
    | with_reducible apply OKeeps.next
    | with_reducible apply OKeeps.fault
    | with_reducible apply OKeeps.ite
    | with_reducible apply State.modSlot_keeps
    | with_reducible apply State.runTo_keeps
    | with_reducible apply State.event_keeps
    | with_reducible apply State.refreshUse_keeps
    | with_reducible apply Keeps.ite
    | split
    | dsimp only

theorem execHistAdd_keeps {s0 s : State} (h : Keeps s0 s) (n : Fin 512) (e : Ecc) :
    OKeeps s0 (execHistAdd n e s) := by
  unfold execHistAdd
  repeat' first
    | with_reducible assumption
    | intro _
    | with_reducible apply OKeeps.next
    | with_reducible apply OKeeps.fault
    | with_reducible apply OKeeps.ite
    | with_reducible apply Keeps.iteFst
    | with_reducible apply State.modSlot_keeps
    | with_reducible apply State.pcAdd_keeps
    | with_reducible apply State.runTo_keeps
    | with_reducible apply State.readWord_keeps
    | with_reducible apply State.writeWord_keeps
    | with_reducible apply State.refreshUse_keeps
    | with_reducible apply Keeps.ite
    | split
    | dsimp only

theorem State.importTick_keeps {s0 s : State} (h : Keeps s0 s) (c : Nat) :
    Keeps s0 (State.importTick s c) := by
  unfold State.importTick
  repeat' first
    | with_reducible assumption
    | intro _
    | with_reducible apply State.modCl_keeps
    | with_reducible apply Keeps.ite
    | split
    | dsimp only

theorem cmdMeasDefine_keeps {s0 s : State} (h : Keeps s0 s) (p : List W32) :
    Keeps s0 (cmdMeasDefine s p).state := by
  unfold cmdMeasDefine
  repeat' first
    | with_reducible assumption
    | intro _
    | with_reducible apply fail_keeps
    | with_reducible apply okay_keeps
    | with_reducible apply done_keeps
    | with_reducible apply wait_keeps
    | with_reducible apply Keeps.iteRes
    | with_reducible apply State.modSlot_keeps
    | with_reducible apply Keeps.ite
    | split
    | dsimp only

theorem armSlots_keeps {s0 s : State} (h : Keeps s0 s) (p : List W32) (b0 : Nat) :
    Keeps s0 (armSlots s p b0) := by
  unfold armSlots
  repeat' first
    | with_reducible assumption
    | intro _
    | with_reducible apply State.modSlot_keeps
    | with_reducible apply State.refreshUse_keeps
    | with_reducible apply Keeps.ite
    | with_reducible apply Keeps.each
    | split
    | dsimp only

theorem cmdMeasArm_keeps {s0 s : State} (h : Keeps s0 s) (p : List W32) :
    Keeps s0 (cmdMeasArm s p).state := by
  unfold cmdMeasArm
  repeat' first
    | with_reducible assumption
    | intro _
    | with_reducible apply fail_keeps
    | with_reducible apply okay_keeps
    | with_reducible apply done_keeps
    | with_reducible apply wait_keeps
    | with_reducible apply Keeps.iteRes
    | with_reducible apply armSlots_keeps
    | with_reducible apply Keeps.ite
    | split
    | dsimp only

theorem stopSlots_keeps {s0 s : State} (h : Keeps s0 s) (p : List W32) (at_ : Int) :
    Keeps s0 (stopSlots s p at_) := by
  unfold stopSlots
  repeat' first
    | with_reducible assumption
    | intro _
    | with_reducible apply State.modSlot_keeps
    | with_reducible apply State.refreshUse_keeps
    | with_reducible apply Keeps.ite
    | with_reducible apply Keeps.each
    | split
    | dsimp only

theorem cmdMeasStop_keeps {s0 s : State} (h : Keeps s0 s) (p : List W32) :
    Keeps s0 (cmdMeasStop s p).state := by
  unfold cmdMeasStop
  repeat' first
    | with_reducible assumption
    | intro _
    | with_reducible apply fail_keeps
    | with_reducible apply okay_keeps
    | with_reducible apply done_keeps
    | with_reducible apply wait_keeps
    | with_reducible apply Keeps.iteRes
    | with_reducible apply stopSlots_keeps
    | with_reducible apply Keeps.ite
    | with_reducible apply Keeps.foldl
    | with_reducible apply Keeps.foldlFst
    | split
    | dsimp only

theorem cmdMeasRead_keeps {s0 s : State} (h : Keeps s0 s) (p : List W32) :
    Keeps s0 (cmdMeasRead s p).state := by
  unfold cmdMeasRead
  repeat' first
    | with_reducible assumption
    | intro _
    | with_reducible apply fail_keeps
    | with_reducible apply okay_keeps
    | with_reducible apply done_keeps
    | with_reducible apply wait_keeps
    | with_reducible apply Keeps.iteRes
    | with_reducible apply State.useFree_keeps
    | with_reducible apply Keeps.ite
    | split
    | dsimp only

theorem State.zeroRegion_keeps {s0 s : State} (h : Keeps s0 s) (r : Nat × Nat) : Keeps s0 (s.zeroRegion r) :=
  ⟨h.queue, fun i => Mem.clear_wf _ _ _ (h.mem i), h.dtc, h.qp, h.phys⟩


theorem cmdHistDefine_keeps {s0 s : State} (h : Keeps s0 s) (p : List W32) :
    Keeps s0 (cmdHistDefine s p).state := by
  unfold cmdHistDefine
  repeat' first
    | with_reducible assumption
    | intro _
    | with_reducible apply fail_keeps
    | with_reducible apply okay_keeps
    | with_reducible apply done_keeps
    | with_reducible apply wait_keeps
    | with_reducible apply Keeps.iteRes
    | with_reducible apply State.modSlot_keeps
    | with_reducible apply State.zeroRegion_keeps
    | with_reducible apply Keeps.ite
    | split
    | dsimp only

end Sys2Proof.Machine
end

