-- ==== Sys2Proof/Laws/KeepOutput.lean ====
section
/-! SUPPORT. What the operations of Machine/Output.lean keep. -/
namespace Sys2Proof.Machine

theorem State.place_keeps {s0 s : State} (h : Keeps s0 s) (n : Nat) (t : Int) (level : Bool) :
    Keeps s0 (State.place s n t level) := by
  unfold State.place
  repeat' first
    | with_reducible assumption
    | intro _
    | with_reducible apply State.modOut_keeps
    | with_reducible apply Keeps.ite
    | split
    | dsimp only

theorem State.shortPulse_keeps {s0 s : State} (h : Keeps s0 s) (n : Nat) :
    Keeps s0 (State.shortPulse s n) := by
  unfold State.shortPulse
  repeat' first
    | with_reducible assumption
    | intro _
    | with_reducible apply State.modOut_keeps
    | with_reducible apply Keeps.ite
    | split
    | dsimp only

theorem State.dropLast_keeps {s0 s : State} (h : Keeps s0 s) (n : Nat) (p : Int) (level : Bool) :
    Keeps s0 (State.dropLast s n p level) := by
  unfold State.dropLast
  repeat' first
    | with_reducible assumption
    | intro _
    | with_reducible apply State.modOut_keeps
    | with_reducible apply State.modPr_keeps
    | with_reducible apply Keeps.ite
    | split
    | dsimp only

theorem State.shortEdge_keeps {s0 s : State} (h : Keeps s0 s) (n : Nat) (p : Int) (launched stretch : Bool) (level : Bool) :
    Keeps s0 (State.shortEdge s n p launched stretch level) := by
  unfold State.shortEdge
  repeat' first
    | with_reducible assumption
    | intro _
    | with_reducible apply State.place_keeps
    | with_reducible apply State.shortPulse_keeps
    | with_reducible apply State.dropLast_keeps
    | with_reducible apply Keeps.ite
    | split
    | dsimp only

theorem State.seqEdge_keeps {s0 s : State} (h : Keeps s0 s) (n : Nat) (t : Int) (level : Bool) :
    Keeps s0 (State.seqEdge s n t level) := by
  unfold State.seqEdge
  repeat' first
    | with_reducible assumption
    | intro _
    | with_reducible apply State.place_keeps
    | with_reducible apply State.shortEdge_keeps
    | with_reducible apply Keeps.ite
    | split
    | dsimp only

theorem State.addEvent_keeps {s0 s : State} (h : Keeps s0 s) (n : Nat) (t : Int) (e : OutEvent) :
    Keeps s0 (State.addEvent s n t e) := by
  unfold State.addEvent
  repeat' first
    | with_reducible assumption
    | intro _
    | with_reducible apply State.modOut_keeps
    | with_reducible apply Keeps.ite
    | split
    | dsimp only

theorem State.pairOn_keeps {s0 s : State} (h : Keeps s0 s) (o : Nat) (t : Int) :
    Keeps s0 (State.pairOn s o t) := by
  unfold State.pairOn
  repeat' first
    | with_reducible assumption
    | intro _
    | with_reducible apply State.modOut_keeps
    | with_reducible apply State.place_keeps
    | with_reducible apply Keeps.ite
    | split
    | dsimp only

theorem State.pairOff_keeps {s0 s : State} (h : Keeps s0 s) (p : Nat) (t : Int) :
    Keeps s0 (State.pairOff s p t) := by
  unfold State.pairOff
  repeat' first
    | with_reducible assumption
    | intro _
    | with_reducible apply State.modOut_keeps
    | with_reducible apply State.place_keeps
    | with_reducible apply State.dropLast_keeps
    | with_reducible apply State.shortEdge_keeps
    | with_reducible apply State.pairOn_keeps
    | with_reducible apply Keeps.ite
    | split
    | dsimp only

theorem State.pairEnd_keeps {s0 s : State} (h : Keeps s0 s) (p : Nat) (x : Int) :
    Keeps s0 (State.pairEnd s p x) := by
  unfold State.pairEnd
  repeat' first
    | with_reducible assumption
    | intro _
    | with_reducible apply State.modOut_keeps
    | with_reducible apply State.place_keeps
    | with_reducible apply State.shortPulse_keeps
    | with_reducible apply State.pairOn_keeps
    | with_reducible apply State.pairOff_keeps
    | with_reducible apply Keeps.ite
    | split
    | dsimp only

theorem State.xEdge_keeps {s0 s : State} (h : Keeps s0 s) (a : Nat) (x : Int) (on : Bool) (e : Option (Nat × Bool)) :
    Keeps s0 (State.xEdge s a x on e) := by
  unfold State.xEdge
  repeat' first
    | with_reducible assumption
    | intro _
    | with_reducible apply Keeps.iteFst
    | with_reducible apply State.modOut_keeps
    | with_reducible apply State.modPr_keeps
    | with_reducible apply State.pairEnd_keeps
    | with_reducible apply Keeps.ite
    | split
    | dsimp only

theorem State.pairResume_keeps {s0 s : State} (h : Keeps s0 s) (a : Nat) (t : Int) :
    Keeps s0 (State.pairResume s a t) := by
  unfold State.pairResume
  repeat' first
    | with_reducible assumption
    | intro _
    | with_reducible apply State.modOut_keeps
    | with_reducible apply State.modPr_keeps
    | with_reducible apply State.pairOn_keeps
    | with_reducible apply State.pairOff_keeps
    | with_reducible apply Keeps.ite
    | split
    | dsimp only

theorem State.takeEdge_keeps {s0 s : State} (h : Keeps s0 s) (n : Nat) (e : NextEdge) : Keeps s0 (s.takeEdge n e) := by
  cases e <;> (unfold State.takeEdge; exact State.modOut_keeps h _ _)


theorem State.queueResume_keeps {s0 s : State} (h : Keeps s0 s) (n : Nat) (t : Int) :
    Keeps s0 (State.queueResume s n t) := by
  unfold State.queueResume
  repeat' first
    | with_reducible assumption
    | intro _
    | with_reducible apply State.modPr_keeps
    | with_reducible apply Keeps.ite
    | split
    | dsimp only

theorem State.runEdge_keeps {s0 s : State} (h : Keeps s0 s) (n : Nat) (t : Int) (level : Bool) (e : Option (Nat × Bool)) (queue : Bool) :
    Keeps s0 (State.runEdge s n t level e queue) := by
  unfold State.runEdge
  repeat' first
    | with_reducible assumption
    | intro _
    | with_reducible apply State.seqEdge_keeps
    | with_reducible apply State.xEdge_keeps
    | with_reducible apply State.queueResume_keeps
    | with_reducible apply Keeps.ite
    | split
    | dsimp only

theorem State.runDesc_keeps {s0 s : State} (h : Keeps s0 s) (n : Nat) (d : Desc) :
    Keeps s0 (State.runDesc s n d) := by
  unfold State.runDesc
  repeat' first
    | with_reducible assumption
    | intro _
    | with_reducible apply State.modOut_keeps
    | with_reducible apply State.event_keeps
    | with_reducible apply State.addEvent_keeps
    | with_reducible apply State.runEdge_keeps
    | with_reducible apply Keeps.ite
    | split
    | dsimp only

theorem State.runNext_keeps {s0 s : State} (h : Keeps s0 s) (n : Nat) (e : NextEdge) : Keeps s0 (s.runNext n e) := by
  cases e
  · exact State.runEdge_keeps h _ _ _ _ _
  · exact State.runDesc_keeps h _ _
  · exact State.runEdge_keeps h _ _ _ _ _


theorem State.computeAlone_keeps {s0 s : State} (h : Keeps s0 s) (n : Nat) :
    Keeps s0 (State.computeAlone s n) := by
  unfold State.computeAlone
  repeat' first
    | with_reducible assumption
    | intro _
    | with_reducible apply State.runTo_keeps
    | with_reducible apply State.takeEdge_keeps
    | with_reducible apply State.runNext_keeps
    | with_reducible apply Keeps.ite
    | split
    | dsimp only

theorem State.toCompute_keeps {s0 s : State} (h : Keeps s0 s) (t : Int) :
    Keeps s0 (State.toCompute s t) := by
  unfold State.toCompute
  repeat' first
    | with_reducible assumption
    | intro _
    | with_reducible apply State.runTo_keeps
    | with_reducible apply Keeps.ite
    | split
    | dsimp only

theorem State.pairTurn_keeps {s0 s : State} (h : Keeps s0 s) (a : Nat) (x : Option NextEdge) (on : Option (Nat × Int)) :
    Keeps s0 (State.pairTurn s a x on) := by
  unfold State.pairTurn
  repeat' first
    | with_reducible assumption
    | intro _
    | with_reducible apply State.runTo_keeps
    | with_reducible apply State.pairOn_keeps
    | with_reducible apply State.takeEdge_keeps
    | with_reducible apply State.runNext_keeps
    | with_reducible apply State.toCompute_keeps
    | with_reducible apply Keeps.ite
    | split
    | dsimp only

theorem State.computePair_keeps {s0 s : State} (h : Keeps s0 s) (a : Nat) :
    Keeps s0 (State.computePair s a) := by
  unfold State.computePair
  repeat' first
    | with_reducible assumption
    | intro _
    | with_reducible apply State.pairResume_keeps
    | with_reducible apply State.toCompute_keeps
    | with_reducible apply State.pairTurn_keeps
    | with_reducible apply Keeps.ite
    | split
    | dsimp only

theorem execEdgeCompute_keeps {s0 s : State} (h : Keeps s0 s) (n : Fin 128) :
    OKeeps s0 (execEdgeCompute n s) := by
  unfold execEdgeCompute
  repeat' first
    | with_reducible assumption
    | intro _
    | with_reducible apply OKeeps.next
    | with_reducible apply OKeeps.fault
    | with_reducible apply OKeeps.ite
    | with_reducible apply State.computeAlone_keeps
    | with_reducible apply State.computePair_keeps
    | with_reducible apply Keeps.ite
    | split
    | dsimp only

theorem execEdgeLaunch_keeps {s0 s : State} (h : Keeps s0 s) (n : Fin 128) :
    OKeeps s0 (execEdgeLaunch n s) := by
  unfold execEdgeLaunch
  repeat' first
    | with_reducible assumption
    | intro _
    | with_reducible apply OKeeps.next
    | with_reducible apply OKeeps.fault
    | with_reducible apply OKeeps.ite
    | with_reducible apply State.modOut_keeps
    | with_reducible apply State.pcAdd_keeps
    | with_reducible apply State.runTo_keeps
    | with_reducible apply Keeps.ite
    | split
    | dsimp only

theorem execOutputEvent_keeps {s0 s : State} (h : Keeps s0 s) (n : Fin 128) :
    OKeeps s0 (execOutputEvent n s) := by
  unfold execOutputEvent
  repeat' first
    | with_reducible assumption
    | intro _
    | with_reducible apply OKeeps.next
    | with_reducible apply OKeeps.fault
    | with_reducible apply OKeeps.ite
    | with_reducible apply State.modOut_keeps
    | with_reducible apply State.raise_keeps
    | with_reducible apply State.runTo_keeps
    | with_reducible apply State.event_keeps
    | with_reducible apply Keeps.ite
    | split
    | dsimp only

theorem State.eqPush_keeps {s0 s : State} (h : Keeps s0 s) (n : Nat) (w0 w1 w2 w3 : W32) : Keeps s0 (s.eqPush n w0 w1 w2 w3).1 := by
  unfold State.eqPush
  lift_lets
  intro o t late s1 d
  apply Keeps.iteFst
  · exact State.report_keeps (State.runTo_keeps h _) _ _ _ _ _
  apply Keeps.iteFst
  · exact Keeps.fst (State.modOut_keeps h _ _)
  have k : Keeps s0 s1 := Keeps.ite (State.modOut_keeps h _ _) h
  apply Keeps.iteFst
  · exact k
  · exact Keeps.fst (State.modOut_keeps k _ _)


theorem State.fwEdge_keeps {s0 s : State} (h : Keeps s0 s) (n : Nat) :
    Keeps s0 (State.fwEdge s n) := by
  unfold State.fwEdge
  repeat' first
    | with_reducible assumption
    | intro _
    | with_reducible apply State.runTo_keeps
    | with_reducible apply Keeps.ite
    | split
    | dsimp only

theorem execChEqPush_keeps {s0 s : State} (h : Keeps s0 s) (n : Fin 128) (w0 w1 w2 w3 : W32) :
    OKeeps s0 (execChEqPush n w0 w1 w2 w3 s) := by
  unfold execChEqPush
  repeat' first
    | with_reducible assumption
    | intro _
    | with_reducible apply OKeeps.next
    | with_reducible apply OKeeps.fault
    | with_reducible apply OKeeps.ite
    | with_reducible apply Keeps.iteFst
    | with_reducible apply State.modOut_keeps
    | with_reducible apply State.eqPush_keeps
    | with_reducible apply State.fwEdge_keeps
    | with_reducible apply Keeps.ite
    | split
    | dsimp only

theorem execQpDescriptorForward_keeps {s0 s : State} (h : Keeps s0 s) (q : Fin 4) : OKeeps s0 (execQpDescriptorForward q s) := by
  unfold execQpDescriptorForward
  split
  · extract_lets n o bound
    have f : Keeps s0 (s.fwEdge n) := State.fwEdge_keeps h _
    refine OKeeps.ite (OKeeps.next h) (OKeeps.ite (OKeeps.next (State.eqPush_keeps f _ _ _ _ _)) (OKeeps.next (State.lines_keeps ?_)))
    have m : Keeps s0 ((if bound then s.fwEdge n else s).modQp q fun k => { k with h2d := k.h2d.drop 4, h2dCons := k.h2dCons + 4 }) :=
      State.modQp_keeps (Keeps.ite f h) _ fun x hx => ⟨Nat.le_trans (by simp only [List.length_drop]; omega) hx.1, hx.2⟩
    exact Keeps.ite (State.eqPush_keeps m _ _ _ _ _) (State.report_keeps m _ _ _ _ _)
  · exact OKeeps.next h


theorem State.puEvent_keeps {s0 s : State} (h : Keeps s0 s) (n : Nat) (t : Int) (e : OutEvent) (idx : Nat) :
    Keeps s0 (State.puEvent s n t e idx) := by
  unfold State.puEvent
  repeat' first
    | with_reducible assumption
    | intro _
    | with_reducible apply State.addEvent_keeps
    | with_reducible apply Keeps.ite
    | split
    | dsimp only

theorem State.unitCut_keeps {s0 s : State} (h : Keeps s0 s) (n : Nat) :
    Keeps s0 (State.unitCut s n) := by
  unfold State.unitCut
  repeat' first
    | with_reducible assumption
    | intro _
    | with_reducible apply State.modOut_keeps
    | with_reducible apply State.modPu_keeps
    | with_reducible apply State.puEvent_keeps
    | with_reducible apply Keeps.ite
    | split
    | dsimp only

theorem State.presentLevel_keeps {s0 s : State} (h : Keeps s0 s) (n : Nat) (edge : Bool) :
    Keeps s0 (State.presentLevel s n edge) := by
  unfold State.presentLevel
  repeat' first
    | with_reducible assumption
    | intro _
    | with_reducible apply State.modOut_keeps
    | with_reducible apply State.seqEdge_keeps
    | with_reducible apply State.xEdge_keeps
    | with_reducible apply Keeps.ite
    | split
    | dsimp only

theorem State.setOutput_keeps {s0 s : State} (h : Keeps s0 s) (n : Nat) (p : List W32) :
    Keeps s0 (State.setOutput s n p) := by
  unfold State.setOutput
  repeat' first
    | with_reducible assumption
    | intro _
    | with_reducible apply State.modOut_keeps
    | with_reducible apply State.unitCut_keeps
    | with_reducible apply State.presentLevel_keeps
    | with_reducible apply Keeps.ite
    | split
    | dsimp only

theorem applySetOutput_keeps {s0 s : State} (h : Keeps s0 s) (p : List W32) :
    Keeps s0 (applySetOutput s p) := by
  unfold applySetOutput
  repeat' first
    | with_reducible assumption
    | intro _
    | with_reducible apply State.settle_keeps
    | with_reducible apply State.setOutput_keeps
    | with_reducible apply Keeps.ite
    | with_reducible apply Keeps.each
    | split
    | dsimp only

theorem cmdChSetOutput_keeps {s0 s : State} (h : Keeps s0 s) (p : List W32) :
    Keeps s0 (cmdChSetOutput s p).state := by
  unfold cmdChSetOutput
  repeat' first
    | with_reducible assumption
    | intro _
    | with_reducible apply fail_keeps
    | with_reducible apply okay_keeps
    | with_reducible apply done_keeps
    | with_reducible apply wait_keeps
    | with_reducible apply Keeps.iteRes
    | with_reducible apply State.defer_keeps
    | with_reducible apply applySetOutput_keeps
    | with_reducible apply Keeps.ite
    | split
    | dsimp only

theorem applyEnable_keeps {s0 s : State} (h : Keeps s0 s) (p : List W32) :
    Keeps s0 (applyEnable s p) := by
  unfold applyEnable
  repeat' first
    | with_reducible assumption
    | intro _
    | with_reducible apply State.modOut_keeps
    | with_reducible apply State.tdrStop_keeps
    | with_reducible apply State.enableInput_keeps
    | with_reducible apply Keeps.ite
    | with_reducible apply Keeps.each
    | split
    | dsimp only

theorem applyDisable_keeps {s0 s : State} (h : Keeps s0 s) (p : List W32) :
    Keeps s0 (applyDisable s p) := by
  unfold applyDisable
  repeat' first
    | with_reducible assumption
    | intro _
    | with_reducible apply State.modOut_keeps
    | with_reducible apply State.disableInput_keeps
    | with_reducible apply Keeps.ite
    | with_reducible apply Keeps.each
    | split
    | dsimp only

theorem cmdChEnable_keeps {s0 s : State} (h : Keeps s0 s) (p : List W32) :
    Keeps s0 (cmdChEnable s p).state := by
  unfold cmdChEnable
  repeat' first
    | with_reducible assumption
    | intro _
    | with_reducible apply fail_keeps
    | with_reducible apply okay_keeps
    | with_reducible apply done_keeps
    | with_reducible apply wait_keeps
    | with_reducible apply Keeps.iteRes
    | with_reducible apply State.defer_keeps
    | with_reducible apply Keeps.ite
    | split
    | dsimp only

theorem cmdChDisable_keeps {s0 s : State} (h : Keeps s0 s) (p : List W32) :
    Keeps s0 (cmdChDisable s p).state := by
  unfold cmdChDisable
  repeat' first
    | with_reducible assumption
    | intro _
    | with_reducible apply fail_keeps
    | with_reducible apply okay_keeps
    | with_reducible apply done_keeps
    | with_reducible apply wait_keeps
    | with_reducible apply Keeps.iteRes
    | with_reducible apply State.defer_keeps
    | with_reducible apply Keeps.ite
    | split
    | dsimp only

end Sys2Proof.Machine
end

