-- ==== Sys2Proof/Laws/KeepPattern.lean ====
section
/-! SUPPORT. What the operations of Machine/Pattern.lean keep. -/
namespace Sys2Proof.Machine

theorem State.handoverRej_keeps {s0 s : State} (h : Keeps s0 s) (n : Nat) :
    Keeps s0 (State.handoverRej s n) := by
  unfold State.handoverRej
  repeat' first
    | with_reducible assumption
    | intro _
    | with_reducible apply State.modPu_keeps
    | with_reducible apply State.report_keeps
    | with_reducible apply Keeps.ite
    | split
    | dsimp only

theorem State.handover_keeps {s0 s : State} (h : Keeps s0 s) (n cyc : Nat) :
    Keeps s0 (State.handover s n cyc) := by
  unfold State.handover
  repeat' first
    | with_reducible assumption
    | intro _
    | with_reducible apply State.modPu_keeps
    | with_reducible apply State.handoverRej_keeps
    | with_reducible apply Keeps.ite
    | split
    | dsimp only

theorem State.snapShadows_keeps {s0 s : State} (h : Keeps s0 s) (n : Nat) :
    Keeps s0 (State.snapShadows s n) := by
  unfold State.snapShadows
  repeat' first
    | with_reducible assumption
    | intro _
    | with_reducible apply State.handover_keeps
    | with_reducible apply Keeps.ite
    | split
    | dsimp only

theorem execPuHandover_keeps {s0 s : State} (h : Keeps s0 s) (n : Fin 128) :
    OKeeps s0 (execPuHandover n s) := by
  unfold execPuHandover
  repeat' first
    | with_reducible assumption
    | intro _
    | with_reducible apply OKeeps.next
    | with_reducible apply OKeeps.fault
    | with_reducible apply OKeeps.ite
    | with_reducible apply State.runTo_keeps
    | with_reducible apply State.handover_keeps
    | with_reducible apply Keeps.ite
    | split
    | dsimp only

theorem State.noteLate_keeps {s0 s : State} (h : Keeps s0 s) (n : Nat) :
    Keeps s0 (State.noteLate s n) := by
  unfold State.noteLate
  repeat' first
    | with_reducible assumption
    | intro _
    | with_reducible apply State.modPu_keeps
    | with_reducible apply State.pcAdd_keeps
    | with_reducible apply Keeps.ite
    | split
    | dsimp only

theorem State.puWrite_keeps {s0 s : State} (h : Keeps s0 s) (n : Nat) (r : PuReg) (v : W32) :
    Keeps s0 (State.puWrite s n r v) := by
  unfold State.puWrite
  repeat' first
    | with_reducible assumption
    | intro _
    | with_reducible apply State.modPu_keeps
    | with_reducible apply State.report_keeps
    | with_reducible apply State.snapShadows_keeps
    | with_reducible apply State.noteLate_keeps
    | with_reducible apply Keeps.ite
    | split
    | dsimp only

theorem execPuCmpWrite_keeps {s0 s : State} (h : Keeps s0 s) (n : Fin 128) (v : W32) :
    OKeeps s0 (execPuCmpWrite n v s) := by
  unfold execPuCmpWrite
  repeat' first
    | with_reducible assumption
    | intro _
    | with_reducible apply OKeeps.next
    | with_reducible apply OKeeps.fault
    | with_reducible apply OKeeps.ite
    | with_reducible apply State.fwEdge_keeps
    | with_reducible apply State.puWrite_keeps
    | with_reducible apply Keeps.ite
    | split
    | dsimp only

theorem execPuPerWrite_keeps {s0 s : State} (h : Keeps s0 s) (n : Fin 128) (v : W32) :
    OKeeps s0 (execPuPerWrite n v s) := by
  unfold execPuPerWrite
  repeat' first
    | with_reducible assumption
    | intro _
    | with_reducible apply OKeeps.next
    | with_reducible apply OKeeps.fault
    | with_reducible apply OKeeps.ite
    | with_reducible apply State.fwEdge_keeps
    | with_reducible apply State.puWrite_keeps
    | with_reducible apply Keeps.ite
    | split
    | dsimp only

theorem execPuShadowWrite_keeps {s0 s : State} (h : Keeps s0 s) (n : Fin 128) (r : PuReg) (v : W32) :
    OKeeps s0 (execPuShadowWrite n r v s) := by
  unfold execPuShadowWrite
  repeat' first
    | with_reducible assumption
    | intro _
    | with_reducible apply OKeeps.next
    | with_reducible apply OKeeps.fault
    | with_reducible apply OKeeps.ite
    | with_reducible apply State.fwEdge_keeps
    | with_reducible apply State.puWrite_keeps
    | with_reducible apply Keeps.ite
    | split
    | dsimp only

theorem State.lockClear_keeps {s0 s : State} (h : Keeps s0 s) (n : Nat) :
    Keeps s0 (State.lockClear s n) := by
  unfold State.lockClear
  repeat' first
    | with_reducible assumption
    | intro _
    | with_reducible apply State.modPu_keeps
    | with_reducible apply State.count_keeps
    | with_reducible apply State.handoverRej_keeps
    | with_reducible apply State.snapShadows_keeps
    | with_reducible apply State.noteLate_keeps
    | with_reducible apply Keeps.ite
    | split
    | dsimp only

theorem execPuLockClear_keeps {s0 s : State} (h : Keeps s0 s) (n : Fin 128) :
    OKeeps s0 (execPuLockClear n s) := by
  unfold execPuLockClear
  repeat' first
    | with_reducible assumption
    | intro _
    | with_reducible apply OKeeps.next
    | with_reducible apply OKeeps.fault
    | with_reducible apply OKeeps.ite
    | with_reducible apply State.fwEdge_keeps
    | with_reducible apply State.lockClear_keeps
    | with_reducible apply Keeps.ite
    | split
    | dsimp only

theorem State.puCtrl_keeps {s0 s : State} (h : Keeps s0 s) (n : Nat) (w : W32) :
    Keeps s0 (State.puCtrl s n w) := by
  unfold State.puCtrl
  repeat' first
    | with_reducible assumption
    | intro _
    | with_reducible apply State.modPu_keeps
    | with_reducible apply State.snapShadows_keeps
    | with_reducible apply State.lockClear_keeps
    | with_reducible apply Keeps.ite
    | split
    | dsimp only

theorem State.puEdge_keeps {s0 s : State} (h : Keeps s0 s) (n : Nat) (t : Int) (on : Bool) :
    Keeps s0 (State.puEdge s n t on) := by
  unfold State.puEdge
  repeat' first
    | with_reducible assumption
    | intro _
    | with_reducible apply State.modOut_keeps
    | with_reducible apply State.modPu_keeps
    | with_reducible apply Keeps.ite
    | split
    | dsimp only

theorem State.puResume_keeps {s0 s : State} (h : Keeps s0 s) (n : Nat) (t : Int) :
    Keeps s0 (State.puResume s n t) := by
  unfold State.puResume
  repeat' first
    | with_reducible assumption
    | intro _
    | with_reducible apply State.modPr_keeps
    | with_reducible apply Keeps.ite
    | split
    | dsimp only

theorem State.puBegin_keeps {s0 s : State} (h : Keeps s0 s) (n : Nat) (t : Int) (idx pos grp : Nat) :
    Keeps s0 (State.puBegin s n t idx pos grp) := by
  unfold State.puBegin
  repeat' first
    | with_reducible assumption
    | intro _
    | with_reducible apply State.modPu_keeps
    | with_reducible apply State.puEvent_keeps
    | with_reducible apply State.puEdge_keeps
    | with_reducible apply State.puResume_keeps
    | with_reducible apply Keeps.ite
    | split
    | dsimp only

theorem State.puStop_keeps {s0 s : State} (h : Keeps s0 s) (n : Nat) (t : Int) :
    Keeps s0 (State.puStop s n t) := by
  unfold State.puStop
  repeat' first
    | with_reducible assumption
    | intro _
    | with_reducible apply State.modPu_keeps
    | with_reducible apply State.puEdge_keeps
    | with_reducible apply Keeps.ite
    | split
    | dsimp only

theorem State.puEnd_keeps {s0 s : State} (h : Keeps s0 s) (n : Nat) (t : Int) :
    Keeps s0 (State.puEnd s n t) := by
  unfold State.puEnd
  repeat' first
    | with_reducible assumption
    | intro _
    | with_reducible apply State.puEvent_keeps
    | with_reducible apply State.puBegin_keeps
    | with_reducible apply State.puStop_keeps
    | with_reducible apply Keeps.ite
    | split
    | dsimp only

theorem State.puMatch_keeps {s0 s : State} (h : Keeps s0 s) (n : Nat) (t : Int) :
    Keeps s0 (State.puMatch s n t) := by
  unfold State.puMatch
  repeat' first
    | with_reducible assumption
    | intro _
    | with_reducible apply State.modPu_keeps
    | with_reducible apply State.puEvent_keeps
    | with_reducible apply State.puEdge_keeps
    | with_reducible apply Keeps.ite
    | split
    | dsimp only

theorem execPuGenerate_keeps {s0 s : State} (h : Keeps s0 s) (n : Fin 128) :
    OKeeps s0 (execPuGenerate n s) := by
  unfold execPuGenerate
  repeat' first
    | with_reducible assumption
    | intro _
    | with_reducible apply OKeeps.next
    | with_reducible apply OKeeps.fault
    | with_reducible apply OKeeps.ite
    | with_reducible apply Keeps.iteFst
    | with_reducible apply State.runTo_keeps
    | with_reducible apply State.puEvent_keeps
    | with_reducible apply State.snapShadows_keeps
    | with_reducible apply State.puBegin_keeps
    | with_reducible apply State.puStop_keeps
    | with_reducible apply State.puEnd_keeps
    | with_reducible apply State.puMatch_keeps
    | with_reducible apply Keeps.ite
    | split
    | dsimp only

theorem State.patternOn_keeps {s0 s : State} (h : Keeps s0 s) (n : Nat) (p : List W32) (t0 : Nat) :
    Keeps s0 (State.patternOn s n p t0) := by
  unfold State.patternOn
  repeat' first
    | with_reducible assumption
    | intro _
    | with_reducible apply State.modPu_keeps
    | with_reducible apply State.presentLevel_keeps
    | with_reducible apply State.snapShadows_keeps
    | with_reducible apply State.lockClear_keeps
    | with_reducible apply State.puStop_keeps
    | with_reducible apply Keeps.ite
    | split
    | dsimp only

theorem applyPattern_keeps {s0 s : State} (h : Keeps s0 s) (p : List W32) (t0 : Nat) :
    Keeps s0 (applyPattern s p t0) := by
  unfold applyPattern
  repeat' first
    | with_reducible assumption
    | intro _
    | with_reducible apply State.settle_keeps
    | with_reducible apply State.patternOn_keeps
    | with_reducible apply Keeps.ite
    | with_reducible apply Keeps.each
    | split
    | dsimp only

theorem cmdSynPattern_keeps {s0 s : State} (h : Keeps s0 s) (p : List W32) :
    Keeps s0 (cmdSynPattern s p).state := by
  unfold cmdSynPattern
  repeat' first
    | with_reducible assumption
    | intro _
    | with_reducible apply fail_keeps
    | with_reducible apply okay_keeps
    | with_reducible apply done_keeps
    | with_reducible apply wait_keeps
    | with_reducible apply Keeps.iteRes
    | with_reducible apply applyPattern_keeps
    | with_reducible apply Keeps.ite
    | split
    | dsimp only

end Sys2Proof.Machine
end

