-- ==== Sys2Proof/Laws/KeepBrake.lean ====
section
/-! SUPPORT. What the operations of Machine/Brake.lean keep. -/
namespace Sys2Proof.Machine

theorem State.hold_keeps {s0 s : State} (h : Keeps s0 s) (n : Nat) :
    Keeps s0 (State.hold s n) := by
  unfold State.hold
  repeat' first
    | with_reducible assumption
    | intro _
    | with_reducible apply State.modPr_keeps
    | with_reducible apply State.tdrStop_keeps
    | with_reducible apply Keeps.ite
    | split
    | dsimp only

theorem State.trip_keeps {s0 s : State} (h : Keeps s0 s) (b : Nat) :
    Keeps s0 (State.trip s b) := by
  unfold State.trip
  repeat' first
    | with_reducible assumption
    | intro _
    | with_reducible apply State.modBrk_keeps
    | with_reducible apply State.raise_keeps
    | with_reducible apply State.pcAdd_keeps
    | with_reducible apply State.report_keeps
    | with_reducible apply State.event_keeps
    | with_reducible apply State.notice_keeps
    | with_reducible apply State.hold_keeps
    | with_reducible apply Keeps.ite
    | with_reducible apply Keeps.each
    | split
    | dsimp only

theorem State.debounce_keeps {s0 s : State} (h : Keeps s0 s) (b : Nat) :
    Keeps s0 (State.debounce s b) := by
  unfold State.debounce
  repeat' first
    | with_reducible assumption
    | intro _
    | with_reducible apply State.modBrk_keeps
    | with_reducible apply State.trip_keeps
    | with_reducible apply Keeps.ite
    | split
    | dsimp only

theorem State.brakeChange_keeps {s0 s : State} (h : Keeps s0 s) (b : Nat) :
    Keeps s0 (State.brakeChange s b) := by
  unfold State.brakeChange
  repeat' first
    | with_reducible assumption
    | intro _
    | with_reducible apply State.modBrk_keeps
    | with_reducible apply State.debounce_keeps
    | with_reducible apply Keeps.ite
    | split
    | dsimp only

theorem execBrakeInputChange_keeps {s0 s : State} (h : Keeps s0 s) (b : Fin 8) (dt : Nat) :
    OKeeps s0 (execBrakeInputChange b dt s) := by
  unfold execBrakeInputChange
  repeat' first
    | with_reducible assumption
    | intro _
    | with_reducible apply OKeeps.next
    | with_reducible apply OKeeps.fault
    | with_reducible apply OKeeps.ite
    | with_reducible apply State.advance_keeps
    | with_reducible apply State.brakeChange_keeps
    | with_reducible apply Keeps.ite
    | split
    | dsimp only

theorem execBrakeTrip_keeps {s0 s : State} (h : Keeps s0 s) (b : Fin 8) :
    OKeeps s0 (execBrakeTrip b s) := by
  unfold execBrakeTrip
  repeat' first
    | with_reducible assumption
    | intro _
    | with_reducible apply OKeeps.next
    | with_reducible apply OKeeps.fault
    | with_reducible apply OKeeps.ite
    | with_reducible apply State.modBrk_keeps
    | with_reducible apply State.runTo_keeps
    | with_reducible apply State.trip_keeps
    | with_reducible apply Keeps.ite
    | split
    | dsimp only

theorem execDebouncedInactive_keeps {s0 s : State} (h : Keeps s0 s) (b : Fin 8) :
    OKeeps s0 (execDebouncedInactive b s) := by
  unfold execDebouncedInactive
  repeat' first
    | with_reducible assumption
    | intro _
    | with_reducible apply OKeeps.next
    | with_reducible apply OKeeps.fault
    | with_reducible apply OKeeps.ite
    | with_reducible apply State.modBrk_keeps
    | with_reducible apply State.runTo_keeps
    | with_reducible apply Keeps.ite
    | split
    | dsimp only

theorem execQuietTimeMet_keeps {s0 s : State} (h : Keeps s0 s) (b : Fin 8) :
    OKeeps s0 (execQuietTimeMet b s) := by
  unfold execQuietTimeMet
  repeat' first
    | with_reducible assumption
    | intro _
    | with_reducible apply OKeeps.next
    | with_reducible apply OKeeps.fault
    | with_reducible apply OKeeps.ite
    | with_reducible apply State.modBrk_keeps
    | with_reducible apply State.runTo_keeps
    | with_reducible apply Keeps.ite
    | split
    | dsimp only

theorem execBrakeResume_keeps {s0 s : State} (h : Keeps s0 s) (n : Fin 128) :
    OKeeps s0 (execBrakeResume n s) := by
  unfold execBrakeResume
  repeat' first
    | with_reducible assumption
    | intro _
    | with_reducible apply OKeeps.next
    | with_reducible apply OKeeps.fault
    | with_reducible apply OKeeps.ite
    | with_reducible apply State.modPr_keeps
    | with_reducible apply State.runTo_keeps
    | with_reducible apply Keeps.ite
    | split
    | dsimp only

theorem State.holdAgain_keeps {s0 s : State} (h : Keeps s0 s) (n : Nat) :
    Keeps s0 (State.holdAgain s n) := by
  unfold State.holdAgain
  repeat' first
    | with_reducible assumption
    | intro _
    | with_reducible apply State.hold_keeps
    | with_reducible apply Keeps.ite
    | split
    | dsimp only

theorem applyBrakeGuard_keeps {s0 s : State} (h : Keeps s0 s) (p : List W32) :
    Keeps s0 (applyBrakeGuard s p) := by
  unfold applyBrakeGuard
  repeat' first
    | with_reducible assumption
    | intro _
    | with_reducible apply State.modPr_keeps
    | with_reducible apply State.holdAgain_keeps
    | with_reducible apply Keeps.ite
    | with_reducible apply Keeps.each
    | split
    | dsimp only

theorem cmdSynBrakeCfg_keeps {s0 s : State} (h : Keeps s0 s) (p : List W32) :
    Keeps s0 (cmdSynBrakeCfg s p).state := by
  unfold cmdSynBrakeCfg
  repeat' first
    | with_reducible assumption
    | intro _
    | with_reducible apply fail_keeps
    | with_reducible apply okay_keeps
    | with_reducible apply done_keeps
    | with_reducible apply wait_keeps
    | with_reducible apply Keeps.iteRes
    | with_reducible apply State.modBrk_keeps
    | with_reducible apply State.runTo_keeps
    | with_reducible apply State.defer_keeps
    | with_reducible apply Keeps.ite
    | with_reducible apply Keeps.each
    | split
    | dsimp only

theorem cmdSynBrakeClear_keeps {s0 s : State} (h : Keeps s0 s) (p : List W32) :
    Keeps s0 (cmdSynBrakeClear s p).state := by
  unfold cmdSynBrakeClear
  repeat' first
    | with_reducible assumption
    | intro _
    | with_reducible apply fail_keeps
    | with_reducible apply okay_keeps
    | with_reducible apply done_keeps
    | with_reducible apply wait_keeps
    | with_reducible apply Keeps.iteRes
    | with_reducible apply State.modPr_keeps
    | with_reducible apply State.modBrk_keeps
    | with_reducible apply State.runTo_keeps
    | with_reducible apply Keeps.ite
    | with_reducible apply Keeps.each
    | split
    | dsimp only

theorem State.pairLevels_keeps {s0 s : State} (h : Keeps s0 s) (a : Nat) :
    Keeps s0 (State.pairLevels s a) := by
  unfold State.pairLevels
  repeat' first
    | with_reducible assumption
    | intro _
    | with_reducible apply State.modOut_keeps
    | with_reducible apply State.modPr_keeps
    | with_reducible apply State.pairOn_keeps
    | with_reducible apply Keeps.ite
    | with_reducible apply Keeps.each
    | split
    | dsimp only

theorem State.convertEdges_keeps {s0 s : State} (h : Keeps s0 s) (n : Nat) :
    Keeps s0 (State.convertEdges s n) := by
  unfold State.convertEdges
  repeat' first
    | with_reducible assumption
    | intro _
    | with_reducible apply State.modOut_keeps
    | with_reducible apply Keeps.ite
    | split
    | dsimp only

theorem State.retime_keeps {s0 s : State} (h : Keeps s0 s) (a : Nat) :
    Keeps s0 (State.retime s a) := by
  unfold State.retime
  repeat' first
    | with_reducible assumption
    | intro _
    | with_reducible apply State.modOut_keeps
    | with_reducible apply Keeps.ite
    | split
    | dsimp only

theorem State.setPair_keeps {s0 s : State} (h : Keeps s0 s) (a : Nat) (p : List W32) :
    Keeps s0 (State.setPair s a p) := by
  unfold State.setPair
  repeat' first
    | with_reducible assumption
    | intro _
    | with_reducible apply State.modOut_keeps
    | with_reducible apply State.modPu_keeps
    | with_reducible apply State.modPr_keeps
    | with_reducible apply State.holdAgain_keeps
    | with_reducible apply State.pairLevels_keeps
    | with_reducible apply State.convertEdges_keeps
    | with_reducible apply State.retime_keeps
    | with_reducible apply Keeps.ite
    | with_reducible apply Keeps.each
    | split
    | dsimp only

theorem applySynPair_keeps {s0 s : State} (h : Keeps s0 s) (p : List W32) :
    Keeps s0 (applySynPair s p) := by
  unfold applySynPair
  repeat' first
    | with_reducible assumption
    | intro _
    | with_reducible apply State.setPair_keeps
    | with_reducible apply Keeps.ite
    | with_reducible apply Keeps.each
    | split
    | dsimp only

theorem cmdSynPair_keeps {s0 s : State} (h : Keeps s0 s) (p : List W32) :
    Keeps s0 (cmdSynPair s p).state := by
  unfold cmdSynPair
  repeat' first
    | with_reducible assumption
    | intro _
    | with_reducible apply fail_keeps
    | with_reducible apply okay_keeps
    | with_reducible apply done_keeps
    | with_reducible apply wait_keeps
    | with_reducible apply Keeps.iteRes
    | with_reducible apply State.defer_keeps
    | with_reducible apply State.setPair_keeps
    | with_reducible apply Keeps.ite
    | with_reducible apply Keeps.each
    | split
    | dsimp only

end Sys2Proof.Machine
end

