-- ==== Sys2Proof/Laws/KeepMbox.lean ====
section
/-! SUPPORT. What the operations of Machine/Mbox.lean keep. -/
namespace Sys2Proof.Machine

theorem State.mbReject_keeps {s0 s : State} (h : Keeps s0 s) (m : Nat) :
    Keeps s0 (State.mbReject s m) := by
  unfold State.mbReject
  repeat' first
    | with_reducible assumption
    | intro _
    | with_reducible apply State.report_keeps
    | with_reducible apply Keeps.ite
    | split
    | dsimp only

theorem State.mbWrite_keeps {s0 s : State} (h : Keeps s0 s) (m k : Nat) (v : W32) :
    Keeps s0 (State.mbWrite s m k v) := by
  unfold State.mbWrite
  repeat' first
    | with_reducible assumption
    | intro _
    | with_reducible apply State.modMb_keeps
    | with_reducible apply State.mbReject_keeps
    | with_reducible apply Keeps.ite
    | split
    | dsimp only

theorem State.mbTimeoutWrite_keeps {s0 s : State} (h : Keeps s0 s) (m : Nat) (v : W32) :
    Keeps s0 (State.mbTimeoutWrite s m v) := by
  unfold State.mbTimeoutWrite
  repeat' first
    | with_reducible assumption
    | intro _
    | with_reducible apply State.modMb_keeps
    | with_reducible apply State.mbReject_keeps
    | with_reducible apply Keeps.ite
    | split
    | dsimp only

theorem State.goReject_keeps {s0 s : State} (h : Keeps s0 s) (m : Nat) :
    Keeps s0 (State.goReject s m) := by
  unfold State.goReject
  repeat' first
    | with_reducible assumption
    | intro _
    | with_reducible apply State.modMb_keeps
    | with_reducible apply State.mbReject_keeps
    | with_reducible apply Keeps.ite
    | split
    | dsimp only

theorem State.mbGo_keeps {s0 s : State} (h : Keeps s0 s) (m : Nat) :
    Keeps s0 (State.mbGo s m) := by
  unfold State.mbGo
  repeat' first
    | with_reducible assumption
    | intro _
    | with_reducible apply State.modMb_keeps
    | with_reducible apply State.wakeBy_keeps
    | with_reducible apply State.lines_keeps
    | with_reducible apply State.goReject_keeps
    | with_reducible apply Keeps.ite
    | with_reducible apply Keeps.fields
    | rfl
    | split
    | dsimp only

theorem State.mbDone_keeps {s0 s : State} (h : Keeps s0 s) (m code : Nat) (reply : List W32) :
    Keeps s0 (State.mbDone s m code reply) := by
  unfold State.mbDone
  repeat' first
    | with_reducible assumption
    | intro _
    | with_reducible apply State.modMb_keeps
    | with_reducible apply State.pcAdd_keeps
    | with_reducible apply State.lines_keeps
    | with_reducible apply Keeps.ite
    | split
    | dsimp only

theorem State.mbUntaken_keeps {s0 s : State} (h : Keeps s0 s) (m code : Nat) :
    Keeps s0 (State.mbUntaken s m code) := by
  unfold State.mbUntaken
  repeat' first
    | with_reducible assumption
    | intro _
    | with_reducible apply State.modMb_keeps
    | with_reducible apply State.lines_keeps
    | with_reducible apply Keeps.ite
    | split
    | dsimp only

theorem State.mbCancel_keeps {s0 s : State} (h : Keeps s0 s) (m : Nat) :
    Keeps s0 (State.mbCancel s m) := by
  unfold State.mbCancel
  repeat' first
    | with_reducible assumption
    | intro _
    | with_reducible apply State.modMb_keeps
    | with_reducible apply State.report_keeps
    | with_reducible apply State.mbUntaken_keeps
    | with_reducible apply Keeps.ite
    | split
    | dsimp only

theorem State.mbCtrl_keeps {s0 s : State} (h : Keeps s0 s) (m : Nat) (v : W32) :
    Keeps s0 (State.mbCtrl s m v) := by
  unfold State.mbCtrl
  repeat' first
    | with_reducible assumption
    | intro _
    | with_reducible apply State.goReject_keeps
    | with_reducible apply State.mbGo_keeps
    | with_reducible apply State.mbCancel_keeps
    | with_reducible apply Keeps.ite
    | split
    | dsimp only

theorem State.mbTake_keeps {s0 s : State} (h : Keeps s0 s) (m : Nat) :
    Keeps s0 (State.mbTake s m) := by
  unfold State.mbTake
  repeat' first
    | with_reducible assumption
    | intro _
    | with_reducible apply State.modMb_keeps
    | with_reducible apply State.lines_keeps
    | with_reducible apply Keeps.ite
    | split
    | dsimp only

theorem execMbDataWrite_keeps {s0 s : State} (h : Keeps s0 s) (mb : Fin 8) (k : Fin 16) (v : W32) :
    OKeeps s0 (execMbDataWrite mb k v s) := by
  unfold execMbDataWrite
  repeat' first
    | with_reducible assumption
    | intro _
    | with_reducible apply OKeeps.next
    | with_reducible apply OKeeps.fault
    | with_reducible apply OKeeps.ite
    | with_reducible apply State.mbWrite_keeps
    | with_reducible apply Keeps.ite
    | split
    | dsimp only

theorem execCancel_keeps {s0 s : State} (h : Keeps s0 s) (mb : Fin 8) :
    OKeeps s0 (execCancel mb s) := by
  unfold execCancel
  repeat' first
    | with_reducible assumption
    | intro _
    | with_reducible apply OKeeps.next
    | with_reducible apply OKeeps.fault
    | with_reducible apply OKeeps.ite
    | with_reducible apply State.mbCancel_keeps
    | with_reducible apply Keeps.ite
    | split
    | dsimp only

theorem execMailboxTimeout_keeps {s0 s : State} (h : Keeps s0 s) (mb : Fin 8) :
    OKeeps s0 (execMailboxTimeout mb s) := by
  unfold execMailboxTimeout
  repeat' first
    | with_reducible assumption
    | intro _
    | with_reducible apply OKeeps.next
    | with_reducible apply OKeeps.fault
    | with_reducible apply OKeeps.ite
    | with_reducible apply State.modMb_keeps
    | with_reducible apply State.runTo_keeps
    | with_reducible apply Keeps.ite
    | split
    | dsimp only

/-- As `State.modQp_keeps`, with the value the function is applied to known. -/
theorem State.modQpAt_keeps {s0 s : State} (h : Keeps s0 s) (q : Nat) {f : QueuePair → QueuePair}
    (hf : (s.qpAt q).Bounded → (f (s.qpAt q)).Bounded) : Keeps s0 (s.modQp q f) :=
  ⟨h.queue, h.mem, h.dtc, fun i k => by
    have b := h.qp i ⟨q % 4, Nat.mod_lt _ (by decide)⟩
    simp only [vget, Nat.mod_mod] at b
    exact vmod_all s.qp q (fun _ => f (s.qpAt q)) (fun _ _ => hf b) (h.qp i) k, h.phys⟩

theorem State.h2dPush_keeps {s0 s : State} (h : Keeps s0 s) (q : Nat) (v : W32) : Keeps s0 (s.h2dPush q v) := by
  unfold State.h2dPush
  dsimp only
  split
  · rename_i c
    refine State.lines_keeps (State.modQpAt_keeps h _ fun x => ⟨?_, x.2⟩)
    simp only [List.length_append, List.length_cons, List.length_nil]
    omega
  · exact State.modQp_keeps h _ fun _ x => x


theorem State.d2hRead_keeps {s0 s : State} (h : Keeps s0 s) (q : Nat) : Keeps s0 (s.d2hRead q).1 := by
  unfold State.d2hRead
  split
  · exact h
  · rename_i e
    refine State.modQpAt_keeps h _ fun x => QueuePair.putLost_bounded ⟨x.1, ?_⟩
    have := x.2
    rw [e] at this
    exact Nat.le_of_succ_le this


theorem execQpH2dPush_keeps {s0 s : State} (h : Keeps s0 s) (q : Fin 4) (v : W32) :
    OKeeps s0 (execQpH2dPush q v s) := by
  unfold execQpH2dPush
  repeat' first
    | with_reducible assumption
    | intro _
    | with_reducible apply OKeeps.next
    | with_reducible apply OKeeps.fault
    | with_reducible apply OKeeps.ite
    | with_reducible apply State.h2dPush_keeps
    | with_reducible apply Keeps.ite
    | split
    | dsimp only

theorem State.readReturns_keeps {s0 s : State} (h : Keeps s0 s) (v : W32) :
    Keeps s0 (State.readReturns s v) := by
  unfold State.readReturns
  repeat' first
    | with_reducible assumption
    | intro _
    | with_reducible apply Keeps.ite
    | with_reducible apply Keeps.fields
    | rfl
    | split
    | dsimp only

theorem execQpD2hRead_keeps {s0 s : State} (h : Keeps s0 s) (q : Fin 4) :
    OKeeps s0 (execQpD2hRead q s) := by
  unfold execQpD2hRead
  repeat' first
    | with_reducible assumption
    | intro _
    | with_reducible apply OKeeps.next
    | with_reducible apply OKeeps.fault
    | with_reducible apply OKeeps.ite
    | with_reducible apply Keeps.iteFst
    | with_reducible apply State.d2hRead_keeps
    | with_reducible apply State.readReturns_keeps
    | with_reducible apply Keeps.ite
    | split
    | dsimp only

end Sys2Proof.Machine
end

