-- ==== Sys2Proof/Laws/KeepBanks.lean ====
section
/-! SUPPORT. What the operations of Machine/Banks.lean keep. -/
namespace Sys2Proof.Machine

theorem State.readWords_keeps {s0 s : State} (h : Keeps s0 s) (req : Nat) (e : List (Nat × Ecc)) (l : List Nat) :
    Keeps s0 (State.readWords s req e l).1 := by
  unfold State.readWords
  repeat' first
    | with_reducible assumption
    | intro _
    | with_reducible apply Keeps.iteFst
    | with_reducible apply State.readWord_keeps
    | with_reducible apply Keeps.ite
    | with_reducible apply Keeps.foldl
    | with_reducible apply Keeps.foldlFst
    | split
    | dsimp only

theorem State.hostRead_keeps {s0 s : State} (h : Keeps s0 s) (addr len : Nat) (e : List (Nat × Ecc)) :
    Keeps s0 (State.hostRead s addr len e).1 := by
  unfold State.hostRead
  repeat' first
    | with_reducible assumption
    | intro _
    | with_reducible apply Keeps.iteFst
    | with_reducible apply State.readWords_keeps
    | with_reducible apply Keeps.ite
    | split
    | dsimp only

theorem State.hostWriteWord_keeps {s0 s : State} (h : Keeps s0 s) (addr : Nat) (data : List Byte) (e : List (Nat × Ecc)) (w : Nat) :
    Keeps s0 (State.hostWriteWord s addr data e w) := by
  unfold State.hostWriteWord
  repeat' first
    | with_reducible assumption
    | intro _
    | with_reducible apply Keeps.iteFst
    | with_reducible apply State.readWord_keeps
    | with_reducible apply State.writeWord_keeps
    | with_reducible apply Keeps.ite
    | split
    | dsimp only

theorem State.hostWrite_keeps {s0 s : State} (h : Keeps s0 s) (addr : Nat) (data : List Byte) (e : List (Nat × Ecc)) :
    Keeps s0 (State.hostWrite s addr data e) := by
  unfold State.hostWrite
  repeat' first
    | with_reducible assumption
    | intro _
    | with_reducible apply State.hostWriteWord_keeps
    | with_reducible apply Keeps.ite
    | with_reducible apply Keeps.foldl
    | with_reducible apply Keeps.foldlFst
    | split
    | dsimp only

theorem State.hostServe_keeps {s0 s : State} (h : Keeps s0 s) (a : HeldAccess) :
    Keeps s0 (State.hostServe s a).1 := by
  unfold State.hostServe
  repeat' first
    | with_reducible assumption
    | intro _
    | with_reducible apply Keeps.iteFst
    | with_reducible apply State.hostRead_keeps
    | with_reducible apply State.hostWrite_keeps
    | with_reducible apply Keeps.ite
    | split
    | dsimp only

theorem State.hostAccess_keeps {s0 s : State} (h : Keeps s0 s) (a : HeldAccess) :
    Keeps s0 (State.hostAccess s a).1 := by
  unfold State.hostAccess
  repeat' first
    | with_reducible assumption
    | intro _
    | with_reducible apply Keeps.iteFst
    | with_reducible apply State.modBank_keeps
    | with_reducible apply State.deny_keeps
    | with_reducible apply State.hostServe_keeps
    | with_reducible apply Keeps.ite
    | split
    | dsimp only

theorem execHostBankAccess_keeps {s0 s : State} (h : Keeps s0 s) (addr len : Nat) (data : Option (List Byte)) (e : List (Nat × Ecc)) :
    OKeeps s0 (execHostBankAccess addr len data e s) := by
  unfold execHostBankAccess
  repeat' first
    | with_reducible assumption
    | intro _
    | with_reducible apply OKeeps.next
    | with_reducible apply OKeeps.fault
    | with_reducible apply OKeeps.ite
    | with_reducible apply Keeps.iteFst
    | with_reducible apply State.runTo_keeps
    | with_reducible apply State.hostAccess_keeps
    | with_reducible apply Keeps.ite
    | with_reducible apply Keeps.foldl
    | with_reducible apply Keeps.foldlFst
    | split
    | with_reducible apply Keeps.fields
    | rfl
    | dsimp only

theorem State.serveHeld_keeps {s0 s : State} (h : Keeps s0 s) (b : Nat) :
    Keeps s0 (State.serveHeld s b) := by
  unfold State.serveHeld
  repeat' first
    | with_reducible assumption
    | intro _
    | with_reducible apply Keeps.iteFst
    | with_reducible apply State.modBank_keeps
    | with_reducible apply State.hostServe_keeps
    | with_reducible apply Keeps.ite
    | with_reducible apply Keeps.foldl
    | with_reducible apply Keeps.foldlFst
    | with_reducible apply Keeps.fields
    | rfl
    | split
    | dsimp only

theorem State.bankWaits_keeps {s0 s : State} (h : Keeps s0 s) :
    Keeps s0 (State.bankWaits s) := by
  unfold State.bankWaits
  repeat' first
    | with_reducible assumption
    | intro _
    | with_reducible apply State.handover_keeps
    | with_reducible apply State.mbDone_keeps
    | with_reducible apply Keeps.ite
    | with_reducible apply Keeps.each
    | split
    | dsimp only

theorem State.giveBank_keeps {s0 s : State} (h : Keeps s0 s) (b owner : Nat) :
    Keeps s0 (State.giveBank s b owner) := by
  unfold State.giveBank
  repeat' first
    | with_reducible assumption
    | intro _
    | with_reducible apply State.modBank_keeps
    | with_reducible apply State.handover_keeps
    | with_reducible apply Keeps.ite
    | split
    | dsimp only

theorem State.clearBank_keeps {s0 s : State} (h : Keeps s0 s) (b : Nat) :
    Keeps s0 (State.clearBank s b) := by
  unfold State.clearBank
  repeat' first
    | with_reducible assumption
    | intro _
    | with_reducible apply State.modBank_keeps
    | with_reducible apply State.zeroBank_keeps
    | with_reducible apply State.handover_keeps
    | with_reducible apply Keeps.ite
    | split
    | dsimp only

theorem State.drained_keeps {s0 s : State} (h : Keeps s0 s) (b : Nat) :
    Keeps s0 (State.drained s b) := by
  unfold State.drained
  repeat' first
    | with_reducible assumption
    | intro _
    | with_reducible apply State.modBank_keeps
    | with_reducible apply State.runTo_keeps
    | with_reducible apply State.handover_keeps
    | with_reducible apply State.serveHeld_keeps
    | with_reducible apply State.bankWaits_keeps
    | with_reducible apply Keeps.ite
    | split
    | dsimp only

theorem execHandoverDrainEnd_keeps {s0 s : State} (h : Keeps s0 s) (b : Fin 64) :
    OKeeps s0 (execHandoverDrainEnd b s) := by
  unfold execHandoverDrainEnd
  repeat' first
    | with_reducible assumption
    | intro _
    | with_reducible apply OKeeps.next
    | with_reducible apply OKeeps.fault
    | with_reducible apply OKeeps.ite
    | with_reducible apply State.drained_keeps
    | with_reducible apply Keeps.ite
    | split
    | dsimp only

theorem execBankClearDone_keeps {s0 s : State} (h : Keeps s0 s) (b : Fin 64) :
    OKeeps s0 (execBankClearDone b s) := by
  unfold execBankClearDone
  repeat' first
    | with_reducible assumption
    | intro _
    | with_reducible apply OKeeps.next
    | with_reducible apply OKeeps.fault
    | with_reducible apply OKeeps.ite
    | with_reducible apply State.modBank_keeps
    | with_reducible apply State.runTo_keeps
    | with_reducible apply State.serveHeld_keeps
    | with_reducible apply State.bankWaits_keeps
    | with_reducible apply State.drained_keeps
    | with_reducible apply Keeps.ite
    | split
    | dsimp only

theorem execPatrolScrub_keeps {s0 s : State} (h : Keeps s0 s) (b : Fin 64) (e : Ecc) :
    OKeeps s0 (execPatrolScrub b e s) := by
  unfold execPatrolScrub
  repeat' first
    | with_reducible assumption
    | intro _
    | with_reducible apply OKeeps.next
    | with_reducible apply OKeeps.fault
    | with_reducible apply OKeeps.ite
    | with_reducible apply Keeps.iteFst
    | with_reducible apply State.modBank_keeps
    | with_reducible apply State.runTo_keeps
    | with_reducible apply State.readWord_keeps
    | with_reducible apply Keeps.ite
    | split
    | dsimp only

theorem execWakeScrubDone_keeps {s0 s : State} (h : Keeps s0 s) (b : Fin 64) (e : List (Nat × Ecc)) :
    OKeeps s0 (execWakeScrubDone b e s) := by
  unfold execWakeScrubDone
  repeat' first
    | with_reducible assumption
    | intro _
    | with_reducible apply OKeeps.next
    | with_reducible apply OKeeps.fault
    | with_reducible apply OKeeps.ite
    | with_reducible apply Keeps.iteFst
    | with_reducible apply State.modBank_keeps
    | with_reducible apply State.runTo_keeps
    | with_reducible apply State.readWord_keeps
    | with_reducible apply Keeps.ite
    | with_reducible apply Keeps.each
    | split
    | dsimp only

theorem cmdBankAssign_keeps {s0 s : State} (h : Keeps s0 s) (p : List W32) :
    Keeps s0 (cmdBankAssign s p).state := by
  unfold cmdBankAssign
  repeat' first
    | with_reducible assumption
    | intro _
    | with_reducible apply fail_keeps
    | with_reducible apply okay_keeps
    | with_reducible apply done_keeps
    | with_reducible apply wait_keeps
    | with_reducible apply Keeps.iteRes
    | with_reducible apply State.modBank_keeps
    | with_reducible apply State.runTo_keeps
    | with_reducible apply State.handover_keeps
    | with_reducible apply State.giveBank_keeps
    | with_reducible apply State.clearBank_keeps
    | with_reducible apply Keeps.ite
    | with_reducible apply Keeps.each
    | split
    | dsimp only

end Sys2Proof.Machine
end

