-- ==== Sys2Proof/Laws/KeepRing.lean ====
section
/-! SUPPORT. What the operations of Machine/Ring.lean keep. -/
namespace Sys2Proof.Machine

theorem State.ringPut_keeps {s0 s : State} (h : Keeps s0 s) (k : Nat) (v : W64) :
    Keeps s0 (State.ringPut s k v) := by
  unfold State.ringPut
  repeat' first
    | with_reducible assumption
    | intro _
    | with_reducible apply State.modDma_keeps
    | with_reducible apply State.pcAdd_keeps
    | with_reducible apply State.writeWord_keeps
    | with_reducible apply State.place_keeps
    | with_reducible apply Keeps.ite
    | split
    | dsimp only

theorem State.ringPutAll_keeps {s0 s : State} (h : Keeps s0 s) (k : Nat) (l : List W64) :
    Keeps s0 (State.ringPutAll s k l) := by
  unfold State.ringPutAll
  repeat' first
    | with_reducible assumption
    | intro _
    | with_reducible apply State.ringPut_keeps
    | with_reducible apply Keeps.ite
    | with_reducible apply Keeps.foldl
    | with_reducible apply Keeps.foldlFst
    | split
    | dsimp only

theorem State.ringPutHi_keeps {s0 s : State} (h : Keeps s0 s) (k : Nat) (v : W64) (hi : Nat) :
    Keeps s0 (State.ringPutHi s k v hi) := by
  unfold State.ringPutHi
  repeat' first
    | with_reducible assumption
    | intro _
    | with_reducible apply State.modDma_keeps
    | with_reducible apply State.ringPut_keeps
    | with_reducible apply Keeps.ite
    | split
    | dsimp only

theorem State.streamPut_keeps {s0 s : State} (h : Keeps s0 s) (k : Nat) (w : PWord) :
    Keeps s0 (State.streamPut s k w) := by
  unfold State.streamPut
  repeat' first
    | with_reducible assumption
    | intro _
    | with_reducible apply State.ringPut_keeps
    | with_reducible apply State.ringPutHi_keeps
    | with_reducible apply Keeps.ite
    | split
    | dsimp only

theorem State.putDrops_keeps {s0 s : State} (h : Keeps s0 s) (k : Nat) (sort : Int) (dtc : Nat) :
    Keeps s0 (State.putDrops s k sort dtc) := by
  unfold State.putDrops
  repeat' first
    | with_reducible assumption
    | intro _
    | with_reducible apply Keeps.iteFst
    | with_reducible apply State.modDma_keeps
    | with_reducible apply State.streamPut_keeps
    | with_reducible apply Keeps.ite
    | with_reducible apply Keeps.foldl
    | with_reducible apply Keeps.foldlFst
    | with_reducible apply Keeps.fields
    | rfl
    | split
    | dsimp only

theorem State.putRelease_keeps {s0 s : State} (h : Keeps s0 s) (k : Nat) (w : PWord) :
    Keeps s0 (State.putRelease s k w) := by
  unfold State.putRelease
  repeat' first
    | with_reducible assumption
    | intro _
    | with_reducible apply Keeps.iteFst
    | with_reducible apply State.modDma_keeps
    | with_reducible apply State.streamPut_keeps
    | with_reducible apply Keeps.ite
    | with_reducible apply Keeps.foldl
    | with_reducible apply Keeps.foldlFst
    | split
    | dsimp only

theorem State.streamWord_keeps {s0 s : State} (h : Keeps s0 s) (k : Nat) (w : PWord) :
    Keeps s0 (State.streamWord s k w) := by
  unfold State.streamWord
  repeat' first
    | with_reducible assumption
    | intro _
    | with_reducible apply State.modDma_keeps
    | with_reducible apply State.streamPut_keeps
    | with_reducible apply Keeps.ite
    | split
    | dsimp only

theorem State.gateWord_keeps {s0 s : State} (h : Keeps s0 s) (k : Nat) (w : PWord) (g : Int) :
    Keeps s0 (State.gateWord s k w g) := by
  unfold State.gateWord
  repeat' first
    | with_reducible assumption
    | intro _
    | with_reducible apply State.modDma_keeps
    | with_reducible apply State.streamPut_keeps
    | with_reducible apply Keeps.ite
    | split
    | dsimp only

theorem State.resumeWord_keeps {s0 s : State} (h : Keeps s0 s) (k : Nat) (w : PWord) (r : Int) (rDtc : Nat) :
    Keeps s0 (State.resumeWord s k w r rDtc) := by
  unfold State.resumeWord
  repeat' first
    | with_reducible assumption
    | intro _
    | with_reducible apply State.modDma_keeps
    | with_reducible apply State.streamPut_keeps
    | with_reducible apply State.putDrops_keeps
    | with_reducible apply State.putRelease_keeps
    | with_reducible apply Keeps.ite
    | split
    | dsimp only

theorem State.closeWord_keeps {s0 s : State} (h : Keeps s0 s) (k : Nat) (w : PWord) (e : Int) (eDtc : Nat) :
    Keeps s0 (State.closeWord s k w e eDtc) := by
  unfold State.closeWord
  repeat' first
    | with_reducible assumption
    | intro _
    | with_reducible apply State.modDma_keeps
    | with_reducible apply State.streamPut_keeps
    | with_reducible apply State.putDrops_keeps
    | with_reducible apply Keeps.ite
    | split
    | dsimp only

theorem State.ringWord_keeps {s0 s : State} (h : Keeps s0 s) (k : Nat) (w : PWord) :
    Keeps s0 (State.ringWord s k w) := by
  unfold State.ringWord
  repeat' first
    | with_reducible assumption
    | intro _
    | with_reducible apply State.modDma_keeps
    | with_reducible apply State.streamPut_keeps
    | with_reducible apply State.streamWord_keeps
    | with_reducible apply State.gateWord_keeps
    | with_reducible apply State.resumeWord_keeps
    | with_reducible apply State.closeWord_keeps
    | with_reducible apply Keeps.ite
    | split
    | dsimp only

theorem State.ringsWord_keeps {s0 s : State} (h : Keeps s0 s) (c : Nat) (w : PWord) :
    Keeps s0 (State.ringsWord s c w) := by
  unfold State.ringsWord
  repeat' first
    | with_reducible assumption
    | intro _
    | with_reducible apply State.ringWord_keeps
    | with_reducible apply Keeps.ite
    | with_reducible apply Keeps.each
    | split
    | dsimp only

theorem State.remoteWord_keeps {s0 s : State} (h : Keeps s0 s) (dev : Nat) (v : W64) :
    Keeps s0 (State.remoteWord s dev v) := by
  unfold State.remoteWord
  repeat' first
    | with_reducible assumption
    | intro _
    | with_reducible apply State.modDma_keeps
    | with_reducible apply State.takeLane_keeps
    | with_reducible apply State.ringPut_keeps
    | with_reducible apply Keeps.ite
    | split
    | with_reducible apply Keeps.fields
    | rfl
    | dsimp only

theorem State.remoteDrops_keeps {s0 s : State} (h : Keeps s0 s) (k : Nat) :
    Keeps s0 (State.remoteDrops s k) := by
  unfold State.remoteDrops
  repeat' first
    | with_reducible assumption
    | intro _
    | with_reducible apply Keeps.iteFst
    | with_reducible apply State.modDma_keeps
    | with_reducible apply State.ringPutAll_keeps
    | with_reducible apply Keeps.ite
    | split
    | dsimp only

theorem State.gateStream_keeps {s0 s : State} (h : Keeps s0 s) (k : Nat) (at_ : Int) :
    Keeps s0 (State.gateStream s k at_) := by
  unfold State.gateStream
  repeat' first
    | with_reducible assumption
    | intro _
    | with_reducible apply State.modDma_keeps
    | with_reducible apply State.ringPut_keeps
    | with_reducible apply Keeps.ite
    | split
    | dsimp only

theorem State.releaseStream_keeps {s0 s : State} (h : Keeps s0 s) (k : Nat) (at_ : Int) :
    Keeps s0 (State.releaseStream s k at_) := by
  unfold State.releaseStream
  repeat' first
    | with_reducible assumption
    | intro _
    | with_reducible apply State.modDma_keeps
    | with_reducible apply State.ringPutAll_keeps
    | with_reducible apply State.remoteDrops_keeps
    | with_reducible apply Keeps.ite
    | split
    | dsimp only

theorem State.streamTick_keeps {s0 s : State} (h : Keeps s0 s) (at_ : Int) :
    Keeps s0 (State.streamTick s at_) := by
  unfold State.streamTick
  repeat' first
    | with_reducible assumption
    | intro _
    | with_reducible apply State.gateStream_keeps
    | with_reducible apply State.releaseStream_keeps
    | with_reducible apply Keeps.ite
    | with_reducible apply Keeps.each
    | split
    | dsimp only

end Sys2Proof.Machine
end

