-- ==== Sys2Proof/Laws/KeepDma.lean ====
section
/-! SUPPORT. What the operations of Machine/Dma.lean keep. -/
namespace Sys2Proof.Machine

theorem State.refreshRings_keeps {s0 s : State} (h : Keeps s0 s) :
    Keeps s0 (State.refreshRings s) := by
  unfold State.refreshRings
  repeat' first
    | with_reducible assumption
    | intro _
    | with_reducible apply State.modBank_keeps
    | with_reducible apply Keeps.ite
    | with_reducible apply Keeps.each
    | split
    | dsimp only

theorem State.dmaIdle_keeps {s0 s : State} (h : Keeps s0 s) (k : Nat) :
    Keeps s0 (State.dmaIdle s k) := by
  unfold State.dmaIdle
  repeat' first
    | with_reducible assumption
    | intro _
    | with_reducible apply State.modDma_keeps
    | with_reducible apply State.refreshRings_keeps
    | with_reducible apply Keeps.ite
    | split
    | dsimp only

theorem State.dmaHalt_keeps {s0 s : State} (h : Keeps s0 s) (k cause : Nat) :
    Keeps s0 (State.dmaHalt s k cause) := by
  unfold State.dmaHalt
  repeat' first
    | with_reducible assumption
    | intro _
    | with_reducible apply State.modDma_keeps
    | with_reducible apply State.raise_keeps
    | with_reducible apply State.report_keeps
    | with_reducible apply Keeps.ite
    | split
    | dsimp only

theorem State.closeCheck_keeps {s0 s : State} (h : Keeps s0 s) (k : Nat) :
    Keeps s0 (State.closeCheck s k) := by
  unfold State.closeCheck
  repeat' first
    | with_reducible assumption
    | intro _
    | with_reducible apply State.raise_keeps
    | with_reducible apply State.dmaIdle_keeps
    | with_reducible apply Keeps.ite
    | split
    | dsimp only

theorem State.dmaComplete_keeps {s0 s : State} (h : Keeps s0 s) (k result cause : Nat) :
    Keeps s0 (State.dmaComplete s k result cause) := by
  unfold State.dmaComplete
  repeat' first
    | with_reducible assumption
    | intro _
    | with_reducible apply State.modDma_keeps
    | with_reducible apply State.raise_keeps
    | with_reducible apply State.pcAdd_keeps
    | with_reducible apply State.post_keeps
    | with_reducible apply State.settle_keeps
    | with_reducible apply State.dmaHalt_keeps
    | with_reducible apply State.closeCheck_keeps
    | with_reducible apply Keeps.ite
    | split
    | dsimp only

theorem State.dmaFinish_keeps {s0 s : State} (h : Keeps s0 s) (k : Nat) :
    Keeps s0 (State.dmaFinish s k) := by
  unfold State.dmaFinish
  repeat' first
    | with_reducible assumption
    | intro _
    | with_reducible apply State.closeCheck_keeps
    | with_reducible apply State.dmaComplete_keeps
    | with_reducible apply Keeps.ite
    | split
    | dsimp only

theorem execDmaDescriptorFetch_keeps {s0 s : State} (h : Keeps s0 s) (k : Fin 16) (f : Fetch) :
    OKeeps s0 (execDmaDescriptorFetch k f s) := by
  unfold execDmaDescriptorFetch
  repeat' first
    | with_reducible assumption
    | intro _
    | with_reducible apply OKeeps.next
    | with_reducible apply OKeeps.fault
    | with_reducible apply OKeeps.ite
    | with_reducible apply State.modDma_keeps
    | with_reducible apply State.pcAdd_keeps
    | with_reducible apply State.settle_keeps
    | with_reducible apply State.dmaHalt_keeps
    | with_reducible apply State.dmaComplete_keeps
    | with_reducible apply Keeps.ite
    | split
    | dsimp only

theorem State.beginMove_keeps {s0 s : State} (h : Keeps s0 s) (k : Nat) :
    Keeps s0 (State.beginMove s k) := by
  unfold State.beginMove
  repeat' first
    | with_reducible assumption
    | intro _
    | with_reducible apply State.modDma_keeps
    | with_reducible apply State.runTo_keeps
    | with_reducible apply Keeps.ite
    | split
    | dsimp only

theorem State.moveRing_keeps {s0 s : State} (h : Keeps s0 s) (k n : Nat) (e : List (Nat × Ecc)) (x : DmaDesc) :
    Keeps s0 (State.moveRing s k n e x) := by
  unfold State.moveRing
  repeat' first
    | with_reducible assumption
    | intro _
    | with_reducible apply Keeps.iteFst
    | with_reducible apply State.modDma_keeps
    | with_reducible apply State.pcAdd_keeps
    | with_reducible apply State.post_keeps
    | with_reducible apply State.place_keeps
    | with_reducible apply State.readWords_keeps
    | with_reducible apply State.dmaHalt_keeps
    | with_reducible apply State.dmaComplete_keeps
    | with_reducible apply State.dmaFinish_keeps
    | with_reducible apply State.beginMove_keeps
    | with_reducible apply Keeps.ite
    | split
    | dsimp only

theorem State.moveOut_keeps {s0 s : State} (h : Keeps s0 s) (k n : Nat) (e : List (Nat × Ecc)) (x : DmaDesc) :
    Keeps s0 (State.moveOut s k n e x) := by
  unfold State.moveOut
  repeat' first
    | with_reducible assumption
    | intro _
    | with_reducible apply Keeps.iteFst
    | with_reducible apply State.modDma_keeps
    | with_reducible apply State.deny_keeps
    | with_reducible apply State.post_keeps
    | with_reducible apply State.readWords_keeps
    | with_reducible apply State.dmaHalt_keeps
    | with_reducible apply State.dmaComplete_keeps
    | with_reducible apply State.dmaFinish_keeps
    | with_reducible apply Keeps.ite
    | split
    | dsimp only

theorem State.putWords_keeps {s0 : State} (k : Nat) : ∀ (l : List (Nat × W64)) {s : State} (_ : Keeps s0 s), Keeps s0 (s.putWords k l).1
  | [], _, h => h
  | (w, v) :: l, s, h => by
    unfold State.putWords
    apply Keeps.iteFst
    · exact State.deny_keeps h _ _ _ _
    · exact State.putWords_keeps k l (State.modDma_keeps (State.writeWord_keeps h _ _) _ _)


theorem State.moveIn_keeps {s0 s : State} (h : Keeps s0 s) (k n : Nat) (h : HostRd) (x : DmaDesc) :
    Keeps s0 (State.moveIn s k n h x) := by
  unfold State.moveIn
  repeat' first
    | with_reducible assumption
    | intro _
    | with_reducible apply Keeps.iteFst
    | with_reducible apply State.pcAdd_keeps
    | with_reducible apply State.dmaHalt_keeps
    | with_reducible apply State.dmaComplete_keeps
    | with_reducible apply State.dmaFinish_keeps
    | with_reducible apply State.putWords_keeps
    | with_reducible apply Keeps.ite
    | split
    | dsimp only

theorem execDmaMove_keeps {s0 s : State} (h : Keeps s0 s) (k : Fin 16) (n : Nat) (e : List (Nat × Ecc)) (h : HostRd) :
    OKeeps s0 (execDmaMove k n e h s) := by
  unfold execDmaMove
  repeat' first
    | with_reducible assumption
    | intro _
    | with_reducible apply OKeeps.next
    | with_reducible apply OKeeps.fault
    | with_reducible apply OKeeps.ite
    | with_reducible apply State.moveRing_keeps
    | with_reducible apply State.moveOut_keeps
    | with_reducible apply State.moveIn_keeps
    | with_reducible apply Keeps.ite
    | split
    | dsimp only

theorem State.dmaFlush_keeps {s0 s : State} (h : Keeps s0 s) (k : Nat) :
    Keeps s0 (State.dmaFlush s k) := by
  unfold State.dmaFlush
  repeat' first
    | with_reducible assumption
    | intro _
    | with_reducible apply State.modDma_keeps
    | with_reducible apply State.dmaFinish_keeps
    | with_reducible apply Keeps.ite
    | split
    | dsimp only

theorem execFlush_keeps {s0 s : State} (h : Keeps s0 s) (k : Fin 16) :
    OKeeps s0 (execFlush k s) := by
  unfold execFlush
  repeat' first
    | with_reducible assumption
    | intro _
    | with_reducible apply OKeeps.next
    | with_reducible apply OKeeps.fault
    | with_reducible apply OKeeps.ite
    | with_reducible apply State.runTo_keeps
    | with_reducible apply State.dmaFlush_keeps
    | with_reducible apply Keeps.ite
    | split
    | dsimp only

theorem execFlushTimeout_keeps {s0 s : State} (h : Keeps s0 s) (k : Fin 16) :
    OKeeps s0 (execFlushTimeout k s) := by
  unfold execFlushTimeout
  repeat' first
    | with_reducible assumption
    | intro _
    | with_reducible apply OKeeps.next
    | with_reducible apply OKeeps.fault
    | with_reducible apply OKeeps.ite
    | with_reducible apply State.dmaComplete_keeps
    | with_reducible apply Keeps.ite
    | split
    | dsimp only

theorem State.dmaAge_keeps {s0 s : State} (h : Keeps s0 s) :
    Keeps s0 (State.dmaAge s) := by
  unfold State.dmaAge
  repeat' first
    | with_reducible assumption
    | intro _
    | with_reducible apply Keeps.ite
    | with_reducible apply Keeps.fields
    | rfl
    | split
    | dsimp only

theorem execCopyStep_keeps {s0 s : State} (h : Keeps s0 s) (k : Fin 16) (e : Ecc) :
    OKeeps s0 (execCopyStep k e s) := by
  unfold execCopyStep
  repeat' first
    | with_reducible assumption
    | intro _
    | with_reducible apply OKeeps.next
    | with_reducible apply OKeeps.fault
    | with_reducible apply OKeeps.ite
    | with_reducible apply Keeps.iteFst
    | with_reducible apply State.modDma_keeps
    | with_reducible apply State.runTo_keeps
    | with_reducible apply State.deny_keeps
    | with_reducible apply State.readWord_keeps
    | with_reducible apply State.writeWord_keeps
    | with_reducible apply State.dmaIdle_keeps
    | with_reducible apply State.dmaHalt_keeps
    | with_reducible apply State.closeCheck_keeps
    | with_reducible apply Keeps.ite
    | split
    | dsimp only

theorem State.ringRegReject_keeps {s0 s : State} (h : Keeps s0 s) (k r : Nat) (v : W32) :
    Keeps s0 (State.ringRegReject s k r v) := by
  unfold State.ringRegReject
  repeat' first
    | with_reducible assumption
    | intro _
    | with_reducible apply State.report_keeps
    | with_reducible apply Keeps.ite
    | split
    | dsimp only

theorem State.tailWrite_keeps {s0 s : State} (h : Keeps s0 s) (k : Nat) (v : W32) :
    Keeps s0 (State.tailWrite s k v) := by
  unfold State.tailWrite
  repeat' first
    | with_reducible assumption
    | intro _
    | with_reducible apply State.modDma_keeps
    | with_reducible apply State.settle_keeps
    | with_reducible apply Keeps.ite
    | split
    | dsimp only

theorem State.headWrite_keeps {s0 s : State} (h : Keeps s0 s) (k : Nat) (v : W32) :
    Keeps s0 (State.headWrite s k v) := by
  unfold State.headWrite
  repeat' first
    | with_reducible assumption
    | intro _
    | with_reducible apply State.modDma_keeps
    | with_reducible apply State.settle_keeps
    | with_reducible apply State.closeCheck_keeps
    | with_reducible apply State.ringRegReject_keeps
    | with_reducible apply Keeps.ite
    | split
    | dsimp only

theorem execDmaRingTailWrite_keeps {s0 s : State} (h : Keeps s0 s) (k : Fin 16) (v : W32) :
    OKeeps s0 (execDmaRingTailWrite k v s) := by
  unfold execDmaRingTailWrite
  repeat' first
    | with_reducible assumption
    | intro _
    | with_reducible apply OKeeps.next
    | with_reducible apply OKeeps.fault
    | with_reducible apply OKeeps.ite
    | with_reducible apply State.tailWrite_keeps
    | with_reducible apply Keeps.ite
    | split
    | dsimp only

theorem execDmaRingHeadWrite_keeps {s0 s : State} (h : Keeps s0 s) (k : Fin 16) (v : W32) :
    OKeeps s0 (execDmaRingHeadWrite k v s) := by
  unfold execDmaRingHeadWrite
  repeat' first
    | with_reducible assumption
    | intro _
    | with_reducible apply OKeeps.next
    | with_reducible apply OKeeps.fault
    | with_reducible apply OKeeps.ite
    | with_reducible apply State.headWrite_keeps
    | with_reducible apply Keeps.ite
    | split
    | dsimp only

theorem State.ringRegWrite_keeps {s0 s : State} (h : Keeps s0 s) (k r : Nat) (v : W32) :
    Keeps s0 (State.ringRegWrite s k r v) := by
  unfold State.ringRegWrite
  repeat' first
    | with_reducible assumption
    | intro _
    | with_reducible apply State.modDma_keeps
    | with_reducible apply State.ringRegReject_keeps
    | with_reducible apply Keeps.ite
    | split
    | dsimp only

theorem State.dmaHostReset_keeps {s0 s : State} (h : Keeps s0 s) :
    Keeps s0 (State.dmaHostReset s) := by
  unfold State.dmaHostReset
  repeat' first
    | with_reducible assumption
    | intro _
    | with_reducible apply State.modDma_keeps
    | with_reducible apply State.dmaIdle_keeps
    | with_reducible apply Keeps.ite
    | with_reducible apply Keeps.each
    | with_reducible apply Keeps.fields
    | rfl
    | split
    | dsimp only

theorem cmdStreamOpen_keeps {s0 s : State} (h : Keeps s0 s) (p : List W32) :
    Keeps s0 (cmdStreamOpen s p).state := by
  unfold cmdStreamOpen
  repeat' first
    | with_reducible assumption
    | intro _
    | with_reducible apply fail_keeps
    | with_reducible apply okay_keeps
    | with_reducible apply done_keeps
    | with_reducible apply wait_keeps
    | with_reducible apply Keeps.iteRes
    | with_reducible apply State.modDma_keeps
    | with_reducible apply State.defer_keeps
    | with_reducible apply State.settle_keeps
    | with_reducible apply State.refreshRings_keeps
    | with_reducible apply Keeps.ite
    | split
    | dsimp only

theorem applyStreamStart_keeps {s0 s : State} (h : Keeps s0 s) (p : List W32) :
    Keeps s0 (applyStreamStart s p) := by
  unfold applyStreamStart
  repeat' first
    | with_reducible assumption
    | intro _
    | with_reducible apply State.modDma_keeps
    | with_reducible apply Keeps.ite
    | split
    | dsimp only

theorem cmdStreamClose_keeps {s0 s : State} (h : Keeps s0 s) (p : List W32) :
    Keeps s0 (cmdStreamClose s p).state := by
  unfold cmdStreamClose
  repeat' first
    | with_reducible assumption
    | intro _
    | with_reducible apply fail_keeps
    | with_reducible apply okay_keeps
    | with_reducible apply done_keeps
    | with_reducible apply wait_keeps
    | with_reducible apply Keeps.iteRes
    | with_reducible apply State.modDma_keeps
    | with_reducible apply State.defer_keeps
    | with_reducible apply State.dmaIdle_keeps
    | with_reducible apply State.closeCheck_keeps
    | with_reducible apply Keeps.ite
    | split
    | dsimp only

theorem applyStreamClose_keeps {s0 s : State} (h : Keeps s0 s) (p : List W32) :
    Keeps s0 (applyStreamClose s p) := by
  unfold applyStreamClose
  repeat' first
    | with_reducible assumption
    | intro _
    | with_reducible apply State.modDma_keeps
    | with_reducible apply State.remoteDrops_keeps
    | with_reducible apply State.dmaFinish_keeps
    | with_reducible apply Keeps.ite
    | split
    | dsimp only

end Sys2Proof.Machine
end

