-- ==== Sys2Proof/Laws/KeepRefs.lean ====
section
/-! SUPPORT. What the operations of Machine/Refs.lean keep. -/
namespace Sys2Proof.Machine

theorem State.timeReport_keeps {s0 s : State} (h : Keeps s0 s) (code : Nat) :
    Keeps s0 (State.timeReport s code) := by
  unfold State.timeReport
  repeat' first
    | with_reducible assumption
    | intro _
    | with_reducible apply State.report_keeps
    | with_reducible apply Keeps.ite
    | split
    | dsimp only

theorem State.slowSlew_keeps {s0 s : State} (h : Keeps s0 s) :
    Keeps s0 (State.slowSlew s) := by
  unfold State.slowSlew
  repeat' first
    | with_reducible assumption
    | intro _
    | with_reducible apply Keeps.ite
    | with_reducible apply Keeps.fields
    | rfl
    | split
    | dsimp only

theorem State.refTo_keeps {s0 s : State} (h : Keeps s0 s) (x : RefState) (f : Reference → Reference) :
    Keeps s0 (State.refTo s x f) := by
  unfold State.refTo
  repeat' first
    | with_reducible assumption
    | intro _
    | with_reducible apply State.raise_keeps
    | with_reducible apply State.settle_keeps
    | with_reducible apply Keeps.ite
    | with_reducible apply Keeps.fields
    | rfl
    | split
    | dsimp only

theorem State.refLose_keeps {s0 s : State} (h : Keeps s0 s) :
    Keeps s0 (State.refLose s) := by
  unfold State.refLose
  repeat' first
    | with_reducible assumption
    | intro _
    | with_reducible apply State.timeReport_keeps
    | with_reducible apply State.refTo_keeps
    | with_reducible apply Keeps.ite
    | split
    | with_reducible apply Keeps.fields
    | rfl
    | dsimp only

theorem State.tryDetect_keeps {s0 s : State} (h : Keeps s0 s) :
    Keeps s0 (State.tryDetect s) := by
  unfold State.tryDetect
  repeat' first
    | with_reducible assumption
    | intro _
    | with_reducible apply State.refTo_keeps
    | with_reducible apply Keeps.ite
    | split
    | dsimp only

theorem State.refTest_keeps {s0 s : State} (h : Keeps s0 s) (c : WinClass) :
    Keeps s0 (State.refTest s c) := by
  unfold State.refTest
  repeat' first
    | with_reducible assumption
    | intro _
    | with_reducible apply State.refLose_keeps
    | with_reducible apply Keeps.ite
    | split
    | with_reducible apply Keeps.fields
    | rfl
    | dsimp only

theorem State.refCount_keeps {s0 s : State} (h : Keeps s0 s) (c : WinClass) :
    Keeps s0 (State.refCount s c) := by
  unfold State.refCount
  repeat' first
    | with_reducible assumption
    | intro _
    | with_reducible apply Keeps.ite
    | with_reducible apply Keeps.fields
    | rfl
    | split
    | dsimp only

theorem State.refWindow_keeps {s0 s : State} (h : Keeps s0 s) (w : RefWin) :
    Keeps s0 (State.refWindow s w) := by
  unfold State.refWindow
  repeat' first
    | with_reducible assumption
    | intro _
    | with_reducible apply State.tryDetect_keeps
    | with_reducible apply State.refTest_keeps
    | with_reducible apply State.refCount_keeps
    | with_reducible apply Keeps.ite
    | with_reducible apply Keeps.fields
    | rfl
    | split
    | dsimp only

theorem execRefWindow_keeps {s0 s : State} (h : Keeps s0 s) (w : RefWin) :
    OKeeps s0 (execRefWindow w s) := by
  unfold execRefWindow
  repeat' first
    | with_reducible assumption
    | intro _
    | with_reducible apply OKeeps.next
    | with_reducible apply OKeeps.fault
    | with_reducible apply OKeeps.ite
    | with_reducible apply State.advance_keeps
    | with_reducible apply State.refWindow_keeps
    | with_reducible apply Keeps.ite
    | split
    | dsimp only

theorem execRefMissingPulse_keeps {s0 s : State} (h : Keeps s0 s) :
    OKeeps s0 (execRefMissingPulse s) := by
  unfold execRefMissingPulse
  repeat' first
    | with_reducible assumption
    | intro _
    | with_reducible apply OKeeps.next
    | with_reducible apply OKeeps.fault
    | with_reducible apply OKeeps.ite
    | with_reducible apply State.refLose_keeps
    | with_reducible apply Keeps.ite
    | with_reducible apply Keeps.fields
    | rfl
    | split
    | dsimp only

theorem execRefPhaseError_keeps {s0 s : State} (h : Keeps s0 s) :
    OKeeps s0 (execRefPhaseError s) := by
  unfold execRefPhaseError
  repeat' first
    | with_reducible assumption
    | intro _
    | with_reducible apply OKeeps.next
    | with_reducible apply OKeeps.fault
    | with_reducible apply OKeeps.ite
    | with_reducible apply State.refLose_keeps
    | with_reducible apply Keeps.ite
    | split
    | dsimp only

theorem execPllAcquireStart_keeps {s0 s : State} (h : Keeps s0 s) :
    OKeeps s0 (execPllAcquireStart s) := by
  unfold execPllAcquireStart
  repeat' first
    | with_reducible assumption
    | intro _
    | with_reducible apply OKeeps.next
    | with_reducible apply OKeeps.fault
    | with_reducible apply OKeeps.ite
    | with_reducible apply State.refTo_keeps
    | with_reducible apply Keeps.ite
    | split
    | dsimp only

theorem execPllSlewDone_keeps {s0 s : State} (h : Keeps s0 s) :
    OKeeps s0 (execPllSlewDone s) := by
  unfold execPllSlewDone
  repeat' first
    | with_reducible assumption
    | intro _
    | with_reducible apply OKeeps.next
    | with_reducible apply OKeeps.fault
    | with_reducible apply OKeeps.ite
    | with_reducible apply State.runTo_keeps
    | with_reducible apply State.tryDetect_keeps
    | with_reducible apply Keeps.ite
    | with_reducible apply Keeps.fields
    | rfl
    | split
    | dsimp only

theorem execRefLocked_keeps {s0 s : State} (h : Keeps s0 s) :
    OKeeps s0 (execRefLocked s) := by
  unfold execRefLocked
  repeat' first
    | with_reducible assumption
    | intro _
    | with_reducible apply OKeeps.next
    | with_reducible apply OKeeps.fault
    | with_reducible apply OKeeps.ite
    | with_reducible apply State.runTo_keeps
    | with_reducible apply State.refTo_keeps
    | with_reducible apply Keeps.ite
    | split
    | dsimp only

theorem execRefLockTimeout_keeps {s0 s : State} (h : Keeps s0 s) :
    OKeeps s0 (execRefLockTimeout s) := by
  unfold execRefLockTimeout
  repeat' first
    | with_reducible assumption
    | intro _
    | with_reducible apply OKeeps.next
    | with_reducible apply OKeeps.fault
    | with_reducible apply OKeeps.ite
    | with_reducible apply State.runTo_keeps
    | with_reducible apply State.refLose_keeps
    | with_reducible apply Keeps.ite
    | split
    | dsimp only

theorem State.refInternal_keeps {s0 s : State} (h : Keeps s0 s) :
    Keeps s0 (State.refInternal s) := by
  unfold State.refInternal
  repeat' first
    | with_reducible assumption
    | intro _
    | with_reducible apply State.timeReport_keeps
    | with_reducible apply State.refTo_keeps
    | with_reducible apply Keeps.ite
    | with_reducible apply Keeps.fields
    | rfl
    | split
    | dsimp only

theorem cmdTsSetReference_keeps {s0 s : State} (h : Keeps s0 s) (p : List W32) :
    Keeps s0 (cmdTsSetReference s p).state := by
  unfold cmdTsSetReference
  repeat' first
    | with_reducible assumption
    | intro _
    | with_reducible apply fail_keeps
    | with_reducible apply okay_keeps
    | with_reducible apply done_keeps
    | with_reducible apply wait_keeps
    | with_reducible apply Keeps.iteRes
    | with_reducible apply State.settle_keeps
    | with_reducible apply State.refLose_keeps
    | with_reducible apply State.refInternal_keeps
    | with_reducible apply Keeps.ite
    | with_reducible apply Keeps.fields
    | rfl
    | split
    | dsimp only

theorem execPpsoutPulse_keeps {s0 s : State} (h : Keeps s0 s) :
    OKeeps s0 (execPpsoutPulse s) := by
  unfold execPpsoutPulse
  repeat' first
    | with_reducible assumption
    | intro _
    | with_reducible apply OKeeps.next
    | with_reducible apply OKeeps.fault
    | with_reducible apply OKeeps.ite
    | with_reducible apply State.runTo_keeps
    | with_reducible apply Keeps.ite
    | with_reducible apply Keeps.fields
    | rfl
    | split
    | dsimp only

end Sys2Proof.Machine
end

