-- ==== Sys2Proof/Laws/KeepTimeScale.lean ====
section
/-! SUPPORT. What the operations of Machine/TimeScale.lean keep. -/
namespace Sys2Proof.Machine

theorem State.capture3_keeps {s0 s : State} (h : Keeps s0 s) :
    Keeps s0 (State.capture3 s) := by
  unfold State.capture3
  repeat' first
    | with_reducible assumption
    | intro _
    | with_reducible apply State.runTo_keeps
    | with_reducible apply Keeps.ite
    | with_reducible apply Keeps.fields
    | rfl
    | split
    | dsimp only

theorem execTsCapture_keeps {s0 s : State} (h : Keeps s0 s) :
    OKeeps s0 (execTsCapture s) := by
  unfold execTsCapture
  repeat' first
    | with_reducible assumption
    | intro _
    | with_reducible apply OKeeps.next
    | with_reducible apply OKeeps.fault
    | with_reducible apply OKeeps.ite
    | with_reducible apply State.capture3_keeps
    | with_reducible apply Keeps.ite
    | split
    | dsimp only

theorem execDtcWrap_keeps {s0 s : State} (h : Keeps s0 s) :
    OKeeps s0 (execDtcWrap s) := by
  unfold execDtcWrap
  repeat' first
    | with_reducible assumption
    | intro _
    | with_reducible apply OKeeps.next
    | with_reducible apply OKeeps.fault
    | with_reducible apply OKeeps.ite
    | with_reducible apply State.advance_keeps
    | with_reducible apply Keeps.ite
    | split
    | dsimp only

theorem State.startSlew_keeps {s0 s : State} (h : Keeps s0 s) (r : Int) :
    Keeps s0 (State.startSlew s r) := by
  unfold State.startSlew
  repeat' first
    | with_reducible assumption
    | intro _
    | with_reducible apply Keeps.ite
    | with_reducible apply Keeps.fields
    | rfl
    | split
    | dsimp only

theorem State.startTrack_keeps {s0 s : State} (h : Keeps s0 s) (r : Int) :
    Keeps s0 (State.startTrack s r) := by
  unfold State.startTrack
  repeat' first
    | with_reducible assumption
    | intro _
    | with_reducible apply Keeps.ite
    | with_reducible apply Keeps.fields
    | rfl
    | split
    | dsimp only

theorem State.endSlew_keeps {s0 s : State} (h : Keeps s0 s) (tq : Int) :
    Keeps s0 (State.endSlew s tq) := by
  unfold State.endSlew
  repeat' first
    | with_reducible assumption
    | intro _
    | with_reducible apply Keeps.ite
    | with_reducible apply Keeps.fields
    | rfl
    | split
    | dsimp only

theorem execPhaseSlewDone_keeps {s0 s : State} (h : Keeps s0 s) :
    OKeeps s0 (execPhaseSlewDone s) := by
  unfold execPhaseSlewDone
  repeat' first
    | with_reducible assumption
    | intro _
    | with_reducible apply OKeeps.next
    | with_reducible apply OKeeps.fault
    | with_reducible apply OKeeps.ite
    | with_reducible apply State.runTo_keeps
    | with_reducible apply State.endSlew_keeps
    | with_reducible apply Keeps.ite
    | split
    | dsimp only

theorem State.ctl_keeps {s0 s : State} (h : Keeps s0 s) (f : BxCtl) :
    Keeps s0 (State.ctl s f) := by
  unfold State.ctl
  repeat' first
    | with_reducible assumption
    | intro _
    | with_reducible apply Keeps.ite
    | with_reducible apply Keeps.fields
    | rfl
    | split
    | dsimp only

theorem State.carry_keeps {s0 s : State} (h : Keeps s0 s) (f : BxCtl) :
    Keeps s0 (State.carry s f) := by
  unfold State.carry
  repeat' first
    | with_reducible assumption
    | intro _
    | with_reducible apply State.ctl_keeps
    | with_reducible apply Keeps.ite
    | split
    | dsimp only

theorem State.stampStep_keeps {s0 s : State} (h : Keeps s0 s) (c : Int) :
    Keeps s0 (State.stampStep s c) := by
  unfold State.stampStep
  repeat' first
    | with_reducible assumption
    | intro _
    | with_reducible apply Keeps.iteFst
    | with_reducible apply State.carry_keeps
    | with_reducible apply Keeps.ite
    | split
    | with_reducible apply Keeps.fields
    | rfl
    | dsimp only

theorem State.steerBy_keeps {s0 s : State} (h : Keeps s0 s) (ofs : Int) :
    Keeps s0 (State.steerBy s ofs) := by
  unfold State.steerBy
  repeat' first
    | with_reducible assumption
    | intro _
    | with_reducible apply Keeps.iteFst
    | with_reducible apply Keeps.ite
    | with_reducible apply Keeps.fields
    | rfl
    | split
    | dsimp only

theorem State.ppsEdge_keeps {s0 s : State} (h : Keeps s0 s) (high : Bool) :
    Keeps s0 (State.ppsEdge s high) := by
  unfold State.ppsEdge
  repeat' first
    | with_reducible assumption
    | intro _
    | with_reducible apply State.wakeBy_keeps
    | with_reducible apply State.raise_keeps
    | with_reducible apply State.stampStep_keeps
    | with_reducible apply State.steerBy_keeps
    | with_reducible apply Keeps.ite
    | with_reducible apply Keeps.fields
    | rfl
    | split
    | dsimp only

theorem execPpsLoss_keeps {s0 s : State} (h : Keeps s0 s) :
    OKeeps s0 (execPpsLoss s) := by
  unfold execPpsLoss
  repeat' first
    | with_reducible assumption
    | intro _
    | with_reducible apply OKeeps.next
    | with_reducible apply OKeeps.fault
    | with_reducible apply OKeeps.ite
    | with_reducible apply State.wakeBy_keeps
    | with_reducible apply State.raise_keeps
    | with_reducible apply State.runTo_keeps
    | with_reducible apply State.timeReport_keeps
    | with_reducible apply Keeps.ite
    | split
    | with_reducible apply Keeps.fields
    | rfl
    | dsimp only

theorem cmdTsSetTick_keeps {s0 s : State} (h : Keeps s0 s) (env : Env) (p : List W32) :
    Keeps s0 (cmdTsSetTick s env p).state := by
  unfold cmdTsSetTick
  repeat' first
    | with_reducible assumption
    | intro _
    | with_reducible apply fail_keeps
    | with_reducible apply okay_keeps
    | with_reducible apply done_keeps
    | with_reducible apply wait_keeps
    | with_reducible apply Keeps.iteRes
    | with_reducible apply Keeps.iteFst
    | with_reducible apply State.carry_keeps
    | with_reducible apply Keeps.ite
    | with_reducible apply Keeps.fields
    | rfl
    | split
    | dsimp only

theorem State.moveAnchor_keeps {s0 s : State} (h : Keeps s0 s) :
    Keeps s0 (State.moveAnchor s) := by
  unfold State.moveAnchor
  repeat' first
    | with_reducible assumption
    | intro _
    | with_reducible apply Keeps.ite
    | with_reducible apply Keeps.fields
    | rfl
    | split
    | dsimp only

theorem State.setDiscipline_keeps {s0 s : State} (h : Keeps s0 s) (mode window : Nat) (comp : Int) :
    Keeps s0 (State.setDiscipline s mode window comp) := by
  unfold State.setDiscipline
  repeat' first
    | with_reducible assumption
    | intro _
    | with_reducible apply State.wakeBy_keeps
    | with_reducible apply State.raise_keeps
    | with_reducible apply State.settle_keeps
    | with_reducible apply State.moveAnchor_keeps
    | with_reducible apply Keeps.ite
    | with_reducible apply Keeps.fields
    | rfl
    | split
    | dsimp only

theorem cmdTsDiscipline_keeps {s0 s : State} (h : Keeps s0 s) (env : Env) (p : List W32) :
    Keeps s0 (cmdTsDiscipline s env p).state := by
  unfold cmdTsDiscipline
  repeat' first
    | with_reducible assumption
    | intro _
    | with_reducible apply fail_keeps
    | with_reducible apply okay_keeps
    | with_reducible apply done_keeps
    | with_reducible apply wait_keeps
    | with_reducible apply Keeps.iteRes
    | with_reducible apply Keeps.iteFst
    | with_reducible apply State.carry_keeps
    | with_reducible apply State.setDiscipline_keeps
    | with_reducible apply Keeps.ite
    | split
    | dsimp only

theorem cmdTsSetTime_keeps {s0 s : State} (h : Keeps s0 s) (env : Env) (p : List W32) :
    Keeps s0 (cmdTsSetTime s env p).state := by
  unfold cmdTsSetTime
  repeat' first
    | with_reducible assumption
    | intro _
    | with_reducible apply fail_keeps
    | with_reducible apply okay_keeps
    | with_reducible apply done_keeps
    | with_reducible apply wait_keeps
    | with_reducible apply Keeps.iteRes
    | with_reducible apply State.carry_keeps
    | with_reducible apply Keeps.ite
    | split
    | with_reducible apply Keeps.fields
    | rfl
    | dsimp only

end Sys2Proof.Machine
end

