-- ==== Sys2Proof/Laws/KeepLink.lean ====
section
/-! SUPPORT. What the operations of Machine/Link.lean keep. -/
namespace Sys2Proof.Machine

theorem State.modBx_keeps {s0 s : State} (h : Keeps s0 s) (f : Basxus → Basxus) :
    Keeps s0 (State.modBx s f) := by
  unfold State.modBx
  repeat' first
    | with_reducible assumption
    | intro _
    | with_reducible apply Keeps.ite
    | with_reducible apply Keeps.fields
    | rfl
    | split
    | dsimp only

theorem State.modPort_keeps {s0 s : State} (h : Keeps s0 s) (up : Bool) (f : BxPort → BxPort) :
    Keeps s0 (State.modPort s up f) := by
  unfold State.modPort
  repeat' first
    | with_reducible assumption
    | intro _
    | with_reducible apply State.modBx_keeps
    | with_reducible apply Keeps.ite
    | split
    | dsimp only

theorem State.linkTo_keeps {s0 s : State} (h : Keeps s0 s) (up : Bool) (x : LinkState) :
    Keeps s0 (State.linkTo s up x) := by
  unfold State.linkTo
  repeat' first
    | with_reducible assumption
    | intro _
    | with_reducible apply State.raise_keeps
    | with_reducible apply State.modPort_keeps
    | with_reducible apply Keeps.ite
    | split
    | dsimp only

theorem State.alignTo_keeps {s0 s : State} (h : Keeps s0 s) (x : AlignState) :
    Keeps s0 (State.alignTo s x) := by
  unfold State.alignTo
  repeat' first
    | with_reducible assumption
    | intro _
    | with_reducible apply State.raise_keeps
    | with_reducible apply State.startTrack_keeps
    | with_reducible apply State.modBx_keeps
    | with_reducible apply Keeps.ite
    | split
    | dsimp only

theorem State.alignFault_keeps {s0 s : State} (h : Keeps s0 s) (cause : Nat) :
    Keeps s0 (State.alignFault s cause) := by
  unfold State.alignFault
  repeat' first
    | with_reducible assumption
    | intro _
    | with_reducible apply State.modBx_keeps
    | with_reducible apply State.alignTo_keeps
    | with_reducible apply Keeps.ite
    | split
    | dsimp only

theorem State.number_keeps {s0 s : State} (h : Keeps s0 s) :
    Keeps s0 (State.number s) := by
  unfold State.number
  repeat' first
    | with_reducible assumption
    | intro _
    | with_reducible apply State.modBx_keeps
    | with_reducible apply State.linkTo_keeps
    | with_reducible apply State.alignTo_keeps
    | with_reducible apply Keeps.ite
    | split
    | dsimp only

theorem State.tickCheck_keeps {s0 s : State} (h : Keeps s0 s) :
    Keeps s0 (State.tickCheck s) := by
  unfold State.tickCheck
  repeat' first
    | with_reducible assumption
    | intro _
    | with_reducible apply State.alignFault_keeps
    | with_reducible apply Keeps.ite
    | split
    | dsimp only

theorem State.badBlocks_keeps {s0 s : State} (h : Keeps s0 s) (up : Bool) (n : Nat) :
    Keeps s0 (State.badBlocks s up n) := by
  unfold State.badBlocks
  repeat' first
    | with_reducible assumption
    | intro _
    | with_reducible apply State.modPort_keeps
    | with_reducible apply Keeps.ite
    | split
    | dsimp only

theorem State.lanesOf_keeps {s0 s : State} (h : Keeps s0 s) (up : Bool) (rx : BxRx) :
    Keeps s0 (State.lanesOf s up rx) := by
  unfold State.lanesOf
  repeat' first
    | with_reducible assumption
    | intro _
    | with_reducible apply State.modPort_keeps
    | with_reducible apply State.badBlocks_keeps
    | with_reducible apply Keeps.ite
    | split
    | dsimp only

theorem execBxPortUp_keeps {s0 s : State} (h : Keeps s0 s) (up : Bool) (bad : Nat) :
    OKeeps s0 (execBxPortUp up bad s) := by
  unfold execBxPortUp
  repeat' first
    | with_reducible assumption
    | intro _
    | with_reducible apply OKeeps.next
    | with_reducible apply OKeeps.fault
    | with_reducible apply OKeeps.ite
    | with_reducible apply State.settle_keeps
    | with_reducible apply State.hold_keeps
    | with_reducible apply State.ctl_keeps
    | with_reducible apply State.modBx_keeps
    | with_reducible apply State.modPort_keeps
    | with_reducible apply State.linkTo_keeps
    | with_reducible apply State.alignTo_keeps
    | with_reducible apply State.number_keeps
    | with_reducible apply State.tickCheck_keeps
    | with_reducible apply State.badBlocks_keeps
    | with_reducible apply Keeps.ite
    | split
    | dsimp only

theorem execBxLeaderTimeout_keeps {s0 s : State} (h : Keeps s0 s) (rx : BxRx) :
    OKeeps s0 (execBxLeaderTimeout rx s) := by
  unfold execBxLeaderTimeout
  repeat' first
    | with_reducible assumption
    | intro _
    | with_reducible apply OKeeps.next
    | with_reducible apply OKeeps.fault
    | with_reducible apply OKeeps.ite
    | with_reducible apply State.settle_keeps
    | with_reducible apply State.hold_keeps
    | with_reducible apply State.modBx_keeps
    | with_reducible apply State.alignTo_keeps
    | with_reducible apply State.lanesOf_keeps
    | with_reducible apply Keeps.ite
    | split
    | dsimp only

theorem State.portGone_keeps {s0 s : State} (h : Keeps s0 s) (up : Bool) (x : LinkState) :
    Keeps s0 (State.portGone s up x) := by
  unfold State.portGone
  repeat' first
    | with_reducible assumption
    | intro _
    | with_reducible apply State.hold_keeps
    | with_reducible apply State.refLose_keeps
    | with_reducible apply State.modBx_keeps
    | with_reducible apply State.modPort_keeps
    | with_reducible apply State.linkTo_keeps
    | with_reducible apply State.alignTo_keeps
    | with_reducible apply Keeps.ite
    | split
    | dsimp only

theorem execBxPortLost_keeps {s0 s : State} (h : Keeps s0 s) (up : Bool) (failed : Nat) :
    OKeeps s0 (execBxPortLost up failed s) := by
  unfold execBxPortLost
  repeat' first
    | with_reducible assumption
    | intro _
    | with_reducible apply OKeeps.next
    | with_reducible apply OKeeps.fault
    | with_reducible apply OKeeps.ite
    | with_reducible apply State.report_keeps
    | with_reducible apply State.badBlocks_keeps
    | with_reducible apply State.portGone_keeps
    | with_reducible apply Keeps.ite
    | split
    | dsimp only

theorem execBxCapReceived_keeps {s0 s : State} (h : Keeps s0 s) (up : Bool) (cap : W64) (rx : BxRx) :
    OKeeps s0 (execBxCapReceived up cap rx s) := by
  unfold execBxCapReceived
  repeat' first
    | with_reducible assumption
    | intro _
    | with_reducible apply OKeeps.next
    | with_reducible apply OKeeps.fault
    | with_reducible apply OKeeps.ite
    | with_reducible apply State.report_keeps
    | with_reducible apply State.settle_keeps
    | with_reducible apply State.refLose_keeps
    | with_reducible apply State.modPort_keeps
    | with_reducible apply State.linkTo_keeps
    | with_reducible apply State.number_keeps
    | with_reducible apply State.tickCheck_keeps
    | with_reducible apply State.lanesOf_keeps
    | with_reducible apply State.portGone_keeps
    | with_reducible apply Keeps.ite
    | split
    | dsimp only

theorem execBxTimeFrame_keeps {s0 s : State} (h : Keeps s0 s) (up : Bool) (t : BxTimes) (bad : Nat) :
    OKeeps s0 (execBxTimeFrame up t bad s) := by
  unfold execBxTimeFrame
  repeat' first
    | with_reducible assumption
    | intro _
    | with_reducible apply OKeeps.next
    | with_reducible apply OKeeps.fault
    | with_reducible apply OKeeps.ite
    | with_reducible apply State.modPort_keeps
    | with_reducible apply State.badBlocks_keeps
    | with_reducible apply Keeps.ite
    | split
    | dsimp only

theorem State.alignOn_keeps {s0 s : State} (h : Keeps s0 s) (θ : Int) :
    Keeps s0 (State.alignOn s θ) := by
  unfold State.alignOn
  repeat' first
    | with_reducible assumption
    | intro _
    | with_reducible apply Keeps.iteFst
    | with_reducible apply State.startSlew_keeps
    | with_reducible apply State.startTrack_keeps
    | with_reducible apply State.modBx_keeps
    | with_reducible apply State.alignTo_keeps
    | with_reducible apply State.alignFault_keeps
    | with_reducible apply Keeps.ite
    | split
    | dsimp only

theorem execBxOffsetUpdate_keeps {s0 s : State} (h : Keeps s0 s) (up : Bool) :
    OKeeps s0 (execBxOffsetUpdate up s) := by
  unfold execBxOffsetUpdate
  repeat' first
    | with_reducible assumption
    | intro _
    | with_reducible apply OKeeps.next
    | with_reducible apply OKeeps.fault
    | with_reducible apply OKeeps.ite
    | with_reducible apply State.modBx_keeps
    | with_reducible apply State.modPort_keeps
    | with_reducible apply State.tickCheck_keeps
    | with_reducible apply State.alignOn_keeps
    | with_reducible apply Keeps.ite
    | split
    | dsimp only

theorem State.takeControl_keeps {s0 s : State} (h : Keeps s0 s) (f : BxCtl) :
    Keeps s0 (State.takeControl s f) := by
  unfold State.takeControl
  repeat' first
    | with_reducible assumption
    | intro _
    | with_reducible apply State.setDiscipline_keeps
    | with_reducible apply State.modBx_keeps
    | with_reducible apply Keeps.ite
    | split
    | with_reducible apply Keeps.fields
    | rfl
    | dsimp only

theorem execBxControlFrame_keeps {s0 s : State} (h : Keeps s0 s) (f : BxCtl) :
    OKeeps s0 (execBxControlFrame f s) := by
  unfold execBxControlFrame
  repeat' first
    | with_reducible assumption
    | intro _
    | with_reducible apply OKeeps.next
    | with_reducible apply OKeeps.fault
    | with_reducible apply OKeeps.ite
    | with_reducible apply State.ctl_keeps
    | with_reducible apply State.takeControl_keeps
    | with_reducible apply Keeps.ite
    | split
    | dsimp only

theorem State.fwdRecord_keeps {s0 s : State} (h : Keeps s0 s) (up : Bool) (src : Nat) (v : W64) :
    Keeps s0 (State.fwdRecord s up src v) := by
  unfold State.fwdRecord
  repeat' first
    | with_reducible assumption
    | intro _
    | with_reducible apply State.modPort_keeps
    | with_reducible apply Keeps.ite
    | split
    | dsimp only

theorem State.fwdLosses_keeps {s0 s : State} (h : Keeps s0 s) (up : Bool) (src : Nat) :
    Keeps s0 (State.fwdLosses s up src) := by
  unfold State.fwdLosses
  repeat' first
    | with_reducible assumption
    | intro _
    | with_reducible apply Keeps.iteFst
    | with_reducible apply State.modPort_keeps
    | with_reducible apply Keeps.ite
    | split
    | dsimp only

theorem State.fwdTag_keeps {s0 s : State} (h : Keeps s0 s) (up : Bool) (src ch : Nat) (v : W64) :
    Keeps s0 (State.fwdTag s up src ch v) := by
  unfold State.fwdTag
  repeat' first
    | with_reducible assumption
    | intro _
    | with_reducible apply Keeps.iteFst
    | with_reducible apply State.modPort_keeps
    | with_reducible apply Keeps.ite
    | split
    | dsimp only

theorem State.forward_keeps {s0 s : State} (h : Keeps s0 s) (c : Nat) (w : PWord) :
    Keeps s0 (State.forward s c w) := by
  unfold State.forward
  repeat' first
    | with_reducible assumption
    | intro _
    | with_reducible apply State.fwdRecord_keeps
    | with_reducible apply State.fwdLosses_keeps
    | with_reducible apply State.fwdTag_keeps
    | with_reducible apply Keeps.ite
    | with_reducible apply Keeps.foldl
    | with_reducible apply Keeps.foldlFst
    | split
    | dsimp only

theorem State.relayWord_keeps {s0 s : State} (h : Keeps s0 s) (src : Nat) (v : W64) :
    Keeps s0 (State.relayWord s src v) := by
  unfold State.relayWord
  repeat' first
    | with_reducible assumption
    | intro _
    | with_reducible apply State.fwdRecord_keeps
    | with_reducible apply State.fwdLosses_keeps
    | with_reducible apply State.fwdTag_keeps
    | with_reducible apply Keeps.ite
    | split
    | dsimp only

theorem execBxTagFrame_keeps {s0 s : State} (h : Keeps s0 s) (up : Bool) (src : Fin 16) (words : List W64) :
    OKeeps s0 (execBxTagFrame up src words s) := by
  unfold execBxTagFrame
  repeat' first
    | with_reducible assumption
    | intro _
    | with_reducible apply OKeeps.next
    | with_reducible apply OKeeps.fault
    | with_reducible apply OKeeps.ite
    | with_reducible apply State.remoteWord_keeps
    | with_reducible apply State.relayWord_keeps
    | with_reducible apply Keeps.ite
    | with_reducible apply Keeps.foldl
    | with_reducible apply Keeps.foldlFst
    | split
    | dsimp only

theorem State.enablePort_keeps {s0 s : State} (h : Keeps s0 s) (up on : Bool) (fwd : Nat) :
    Keeps s0 (State.enablePort s up on fwd) := by
  unfold State.enablePort
  repeat' first
    | with_reducible assumption
    | intro _
    | with_reducible apply State.modPort_keeps
    | with_reducible apply State.linkTo_keeps
    | with_reducible apply State.portGone_keeps
    | with_reducible apply Keeps.ite
    | split
    | dsimp only

theorem cmdBxLink_keeps {s0 s : State} (h : Keeps s0 s) (p : List W32) :
    Keeps s0 (cmdBxLink s p).state := by
  unfold cmdBxLink
  repeat' first
    | with_reducible assumption
    | intro _
    | with_reducible apply fail_keeps
    | with_reducible apply okay_keeps
    | with_reducible apply done_keeps
    | with_reducible apply wait_keeps
    | with_reducible apply Keeps.iteRes
    | with_reducible apply State.settle_keeps
    | with_reducible apply State.modBx_keeps
    | with_reducible apply State.enablePort_keeps
    | with_reducible apply Keeps.ite
    | split
    | dsimp only

theorem cmdBxAlign_keeps {s0 s : State} (h : Keeps s0 s) (p : List W32) :
    Keeps s0 (cmdBxAlign s p).state := by
  unfold cmdBxAlign
  repeat' first
    | with_reducible assumption
    | intro _
    | with_reducible apply fail_keeps
    | with_reducible apply okay_keeps
    | with_reducible apply done_keeps
    | with_reducible apply wait_keeps
    | with_reducible apply Keeps.iteRes
    | with_reducible apply State.modBx_keeps
    | with_reducible apply State.alignTo_keeps
    | with_reducible apply State.tickCheck_keeps
    | with_reducible apply Keeps.ite
    | split
    | dsimp only

end Sys2Proof.Machine
end

