-- ==== Sys2Proof/Laws/KeepMerge.lean ====
section
/-! SUPPORT. What the operations of Machine/Merge.lean keep. -/
namespace Sys2Proof.Machine

theorem State.decoderWord_keeps {s0 s : State} (h : Keeps s0 s) (c : Nat) (w : PWord) :
    Keeps s0 (State.decoderWord s c w) := by
  unfold State.decoderWord
  repeat' first
    | with_reducible assumption
    | intro _
    | with_reducible apply State.modDec_keeps
    | with_reducible apply Keeps.ite
    | with_reducible apply Keeps.each
    | split
    | dsimp only

theorem State.export__keeps {s0 s : State} (h : Keeps s0 s) (c : Nat) (w : PWord) :
    Keeps s0 (State.export_ s c w) := by
  unfold State.export_
  repeat' first
    | with_reducible assumption
    | intro _
    | with_reducible apply State.modCl_keeps
    | with_reducible apply Keeps.ite
    | with_reducible apply Keeps.each
    | split
    | dsimp only

theorem State.closers_keeps {s0 s : State} (h : Keeps s0 s) (c : Nat) :
    Keeps s0 (State.closers s c) := by
  unfold State.closers
  repeat' first
    | with_reducible assumption
    | intro _
    | with_reducible apply State.dmaFinish_keeps
    | with_reducible apply Keeps.ite
    | with_reducible apply Keeps.each
    | split
    | dsimp only

theorem State.mergeCounts_keeps {s0 s : State} (h : Keeps s0 s) (c : Nat) (w : PWord) :
    Keeps s0 (State.mergeCounts s c w) := by
  unfold State.mergeCounts
  repeat' first
    | with_reducible assumption
    | intro _
    | with_reducible apply State.pcAdd_keeps
    | with_reducible apply Keeps.ite
    | split
    | dsimp only

theorem State.distribute_keeps {s0 s : State} (h : Keeps s0 s) (c : Nat) (w : PWord) :
    Keeps s0 (State.distribute s c w) := by
  unfold State.distribute
  repeat' first
    | with_reducible assumption
    | intro _
    | with_reducible apply State.modMe_keeps
    | with_reducible apply State.slotsWord_keeps
    | with_reducible apply State.ringsWord_keeps
    | with_reducible apply State.forward_keeps
    | with_reducible apply State.decoderWord_keeps
    | with_reducible apply State.export__keeps
    | with_reducible apply State.closers_keeps
    | with_reducible apply Keeps.ite
    | split
    | dsimp only

theorem execMergeRelease_keeps {s0 s : State} (h : Keeps s0 s) (c : Fin 4) :
    OKeeps s0 (execMergeRelease c s) := by
  unfold execMergeRelease
  repeat' first
    | with_reducible assumption
    | intro _
    | with_reducible apply OKeeps.next
    | with_reducible apply OKeeps.fault
    | with_reducible apply OKeeps.ite
    | with_reducible apply State.modCl_keeps
    | with_reducible apply State.runTo_keeps
    | with_reducible apply State.mergeCounts_keeps
    | with_reducible apply State.distribute_keeps
    | with_reducible apply Keeps.ite
    | split
    | dsimp only

theorem execTagImport_keeps {s0 s : State} (h : Keeps s0 s) (c : Fin 4) :
    OKeeps s0 (execTagImport c s) := by
  unfold execTagImport
  repeat' first
    | with_reducible assumption
    | intro _
    | with_reducible apply OKeeps.next
    | with_reducible apply OKeeps.fault
    | with_reducible apply OKeeps.ite
    | with_reducible apply State.modCl_keeps
    | with_reducible apply State.takeLane_keeps
    | with_reducible apply Keeps.ite
    | split
    | dsimp only

end Sys2Proof.Machine
end

