-- ==== Sys2Proof/Laws/KeepQuad.lean ====
section
/-! SUPPORT. What the operations of Machine/Quad.lean keep. -/
namespace Sys2Proof.Machine

theorem State.qdEvent_keeps {s0 s : State} (h : Keeps s0 s) (d code : Nat) :
    Keeps s0 (State.qdEvent s d code) := by
  unfold State.qdEvent
  repeat' first
    | with_reducible assumption
    | intro _
    | with_reducible apply State.raise_keeps
    | with_reducible apply State.event_keeps
    | with_reducible apply Keeps.ite
    | split
    | dsimp only

theorem State.qdWrap_keeps {s0 s : State} (h : Keeps s0 s) (d : Nat) (before : W32) :
    Keeps s0 (State.qdWrap s d before) := by
  unfold State.qdWrap
  repeat' first
    | with_reducible assumption
    | intro _
    | with_reducible apply State.qdEvent_keeps
    | with_reducible apply Keeps.ite
    | split
    | dsimp only

theorem State.qdIndex_keeps {s0 s : State} (h : Keeps s0 s) (d time : Nat) (fl : Bool) :
    Keeps s0 (State.qdIndex s d time fl) := by
  unfold State.qdIndex
  repeat' first
    | with_reducible assumption
    | intro _
    | with_reducible apply State.modDec_keeps
    | with_reducible apply State.qdEvent_keeps
    | with_reducible apply State.qdWrap_keeps
    | with_reducible apply Keeps.ite
    | split
    | dsimp only

theorem State.qdStrobe_keeps {s0 s : State} (h : Keeps s0 s) (d : Nat) (p : Int) (time : Nat) (fl : Bool) :
    Keeps s0 (State.qdStrobe s d p time fl) := by
  unfold State.qdStrobe
  repeat' first
    | with_reducible assumption
    | intro _
    | with_reducible apply Keeps.iteFst
    | with_reducible apply State.modDec_keeps
    | with_reducible apply State.qdEvent_keeps
    | with_reducible apply Keeps.ite
    | split
    | dsimp only

theorem State.qdLoss_keeps {s0 s : State} (h : Keeps s0 s) (d role n time : Nat) (fl : Bool) :
    Keeps s0 (State.qdLoss s d role n time fl) := by
  unfold State.qdLoss
  repeat' first
    | with_reducible assumption
    | intro _
    | with_reducible apply State.modDec_keeps
    | with_reducible apply State.qdEvent_keeps
    | with_reducible apply Keeps.ite
    | split
    | dsimp only

theorem State.qdIllegal_keeps {s0 s : State} (h : Keeps s0 s) (d : Nat) (a b : QdItem) :
    Keeps s0 (State.qdIllegal s d a b) := by
  unfold State.qdIllegal
  repeat' first
    | with_reducible assumption
    | intro _
    | with_reducible apply State.modDec_keeps
    | with_reducible apply State.qdEvent_keeps
    | with_reducible apply Keeps.ite
    | split
    | dsimp only

theorem State.qdTag_keeps {s0 s : State} (h : Keeps s0 s) (d role : Nat) (p : Int) (time : Nat) (up fl : Bool) :
    Keeps s0 (State.qdTag s d role p time up fl) := by
  unfold State.qdTag
  repeat' first
    | with_reducible assumption
    | intro _
    | with_reducible apply State.modDec_keeps
    | with_reducible apply State.transition_keeps
    | with_reducible apply State.qdWrap_keeps
    | with_reducible apply State.qdIndex_keeps
    | with_reducible apply State.qdStrobe_keeps
    | with_reducible apply Keeps.ite
    | split
    | dsimp only

theorem State.qdHandle_keeps {s0 s : State} (h : Keeps s0 s) (d : Nat) (i : QdItem) (l : List QdItem) :
    Keeps s0 (State.qdHandle s d i l) := by
  unfold State.qdHandle
  repeat' first
    | with_reducible assumption
    | intro _
    | with_reducible apply State.modDec_keeps
    | with_reducible apply State.qdLoss_keeps
    | with_reducible apply State.qdIllegal_keeps
    | with_reducible apply State.qdTag_keeps
    | with_reducible apply Keeps.ite
    | split
    | dsimp only

theorem execQdTagHandle_keeps {s0 s : State} (h : Keeps s0 s) (d : Fin 32) :
    OKeeps s0 (execQdTagHandle d s) := by
  unfold execQdTagHandle
  repeat' first
    | with_reducible assumption
    | intro _
    | with_reducible apply OKeeps.next
    | with_reducible apply OKeeps.fault
    | with_reducible apply OKeeps.ite
    | with_reducible apply State.runTo_keeps
    | with_reducible apply State.qdHandle_keeps
    | with_reducible apply Keeps.ite
    | split
    | dsimp only

theorem execQdSnapshotPublish_keeps {s0 s : State} (h : Keeps s0 s) (d : Fin 32) :
    OKeeps s0 (execQdSnapshotPublish d s) := by
  unfold execQdSnapshotPublish
  repeat' first
    | with_reducible assumption
    | intro _
    | with_reducible apply OKeeps.next
    | with_reducible apply OKeeps.fault
    | with_reducible apply OKeeps.ite
    | with_reducible apply State.modDec_keeps
    | with_reducible apply State.runTo_keeps
    | with_reducible apply State.hold_keeps
    | with_reducible apply Keeps.ite
    | split
    | dsimp only

theorem cmdQdDefine_keeps {s0 s : State} (h : Keeps s0 s) (p : List W32) :
    Keeps s0 (cmdQdDefine s p).state := by
  unfold cmdQdDefine
  repeat' first
    | with_reducible assumption
    | intro _
    | with_reducible apply fail_keeps
    | with_reducible apply okay_keeps
    | with_reducible apply done_keeps
    | with_reducible apply wait_keeps
    | with_reducible apply Keeps.iteRes
    | with_reducible apply State.defer_keeps
    | with_reducible apply Keeps.ite
    | split
    | dsimp only

theorem State.applyQd_keeps {s0 s : State} (h : Keeps s0 s) (p : List W32) :
    Keeps s0 (State.applyQd s p) := by
  unfold State.applyQd
  repeat' first
    | with_reducible assumption
    | intro _
    | with_reducible apply State.modDec_keeps
    | with_reducible apply State.qdWrap_keeps
    | with_reducible apply Keeps.ite
    | split
    | dsimp only

theorem cmdQdRead_keeps {s0 s : State} (h : Keeps s0 s) (p : List W32) :
    Keeps s0 (cmdQdRead s p).state := by
  unfold cmdQdRead
  repeat' first
    | with_reducible assumption
    | intro _
    | with_reducible apply fail_keeps
    | with_reducible apply okay_keeps
    | with_reducible apply done_keeps
    | with_reducible apply wait_keeps
    | with_reducible apply Keeps.iteRes
    | with_reducible apply Keeps.ite
    | split
    | dsimp only

end Sys2Proof.Machine
end

