-- ==== Sys2Proof/Laws/KeepRtc.lean ====
section
/-! SUPPORT. What the operations of Machine/Rtc.lean keep. -/
namespace Sys2Proof.Machine

theorem State.modRtc_keeps {s0 s : State} (h : Keeps s0 s) (f : Rtc → Rtc) :
    Keeps s0 (State.modRtc s f) := by
  unfold State.modRtc
  repeat' first
    | with_reducible assumption
    | intro _
    | with_reducible apply Keeps.ite
    | with_reducible apply Keeps.fields
    | rfl
    | split
    | dsimp only

theorem State.rtcFree_keeps {s0 s : State} (h : Keeps s0 s) :
    Keeps s0 (State.rtcFree s) := by
  unfold State.rtcFree
  repeat' first
    | with_reducible assumption
    | intro _
    | with_reducible apply Keeps.iteFst
    | with_reducible apply State.modRtc_keeps
    | with_reducible apply Keeps.ite
    | split
    | dsimp only

theorem State.rtcLatch_keeps {s0 s : State} (h : Keeps s0 s) :
    Keeps s0 (State.rtcLatch s).1 := by
  unfold State.rtcLatch
  repeat' first
    | with_reducible assumption
    | intro _
    | with_reducible apply Keeps.iteFst
    | with_reducible apply State.modRtc_keeps
    | with_reducible apply Keeps.ite
    | split
    | dsimp only

theorem execRtcSubRead_keeps {s0 s : State} (h : Keeps s0 s) :
    OKeeps s0 (execRtcSubRead s) := by
  unfold execRtcSubRead
  repeat' first
    | with_reducible assumption
    | intro _
    | with_reducible apply OKeeps.next
    | with_reducible apply OKeeps.fault
    | with_reducible apply OKeeps.ite
    | with_reducible apply Keeps.iteFst
    | with_reducible apply State.readReturns_keeps
    | with_reducible apply State.rtcLatch_keeps
    | with_reducible apply Keeps.ite
    | split
    | dsimp only

theorem State.rtcWasSet_keeps {s0 s : State} (h : Keeps s0 s) (ofs : Option (BitVec 16)) :
    Keeps s0 (State.rtcWasSet s ofs) := by
  unfold State.rtcWasSet
  repeat' first
    | with_reducible assumption
    | intro _
    | with_reducible apply State.modRtc_keeps
    | with_reducible apply Keeps.ite
    | split
    | dsimp only

theorem State.rtcSlave_keeps {s0 s : State} (h : Keeps s0 s) (sec : Nat) (mark : Int) (ofs : Option (BitVec 16)) :
    Keeps s0 (State.rtcSlave s sec mark ofs) := by
  unfold State.rtcSlave
  repeat' first
    | with_reducible assumption
    | intro _
    | with_reducible apply State.modRtc_keeps
    | with_reducible apply State.rtcWasSet_keeps
    | with_reducible apply Keeps.ite
    | split
    | dsimp only

theorem State.rtcApply_keeps {s0 s : State} (h : Keeps s0 s) (a : RtcArmed) (mark : Int) :
    Keeps s0 (State.rtcApply s a mark) := by
  unfold State.rtcApply
  repeat' first
    | with_reducible assumption
    | intro _
    | with_reducible apply State.rtcSlave_keeps
    | with_reducible apply Keeps.ite
    | split
    | dsimp only

theorem execSecondMark_keeps {s0 s : State} (h : Keeps s0 s) :
    OKeeps s0 (execSecondMark s) := by
  unfold execSecondMark
  repeat' first
    | with_reducible assumption
    | intro _
    | with_reducible apply OKeeps.next
    | with_reducible apply OKeeps.fault
    | with_reducible apply OKeeps.ite
    | with_reducible apply State.runTo_keeps
    | with_reducible apply State.rtcApply_keeps
    | with_reducible apply Keeps.ite
    | split
    | dsimp only

theorem State.rtcPps_keeps {s0 s : State} (h : Keeps s0 s) (c : Nat) :
    Keeps s0 (State.rtcPps s c) := by
  unfold State.rtcPps
  repeat' first
    | with_reducible assumption
    | intro _
    | with_reducible apply State.rtcApply_keeps
    | with_reducible apply Keeps.ite
    | split
    | dsimp only

theorem execPpsEdge_keeps {s0 s : State} (h : Keeps s0 s) (dt : Nat) (high : Bool) :
    OKeeps s0 (execPpsEdge dt high s) := by
  unfold execPpsEdge
  repeat' first
    | with_reducible assumption
    | intro _
    | with_reducible apply OKeeps.next
    | with_reducible apply OKeeps.fault
    | with_reducible apply OKeeps.ite
    | with_reducible apply State.advance_keeps
    | with_reducible apply State.ppsEdge_keeps
    | with_reducible apply State.rtcPps_keeps
    | with_reducible apply Keeps.ite
    | split
    | dsimp only

theorem execRtcOffsetApply_keeps {s0 s : State} (h : Keeps s0 s) :
    OKeeps s0 (execRtcOffsetApply s) := by
  unfold execRtcOffsetApply
  repeat' first
    | with_reducible assumption
    | intro _
    | with_reducible apply OKeeps.next
    | with_reducible apply OKeeps.fault
    | with_reducible apply OKeeps.ite
    | with_reducible apply State.runTo_keeps
    | with_reducible apply State.modRtc_keeps
    | with_reducible apply Keeps.ite
    | split
    | dsimp only

theorem execRtcTrimMeasure_keeps {s0 s : State} (h : Keeps s0 s) (trim : Int) :
    OKeeps s0 (execRtcTrimMeasure trim s) := by
  unfold execRtcTrimMeasure
  repeat' first
    | with_reducible assumption
    | intro _
    | with_reducible apply OKeeps.next
    | with_reducible apply OKeeps.fault
    | with_reducible apply OKeeps.ite
    | with_reducible apply State.runTo_keeps
    | with_reducible apply State.modRtc_keeps
    | with_reducible apply Keeps.ite
    | split
    | dsimp only

theorem execXtalFail_keeps {s0 s : State} (h : Keeps s0 s) :
    OKeeps s0 (execXtalFail s) := by
  unfold execXtalFail
  repeat' first
    | with_reducible assumption
    | intro _
    | with_reducible apply OKeeps.next
    | with_reducible apply OKeeps.fault
    | with_reducible apply OKeeps.ite
    | with_reducible apply State.modRtc_keeps
    | with_reducible apply State.rtcFree_keeps
    | with_reducible apply Keeps.ite
    | split
    | dsimp only

theorem execBackupSwitch_keeps {s0 s : State} (h : Keeps s0 s) (vbat : Bool) :
    OKeeps s0 (execBackupSwitch vbat s) := by
  unfold execBackupSwitch
  repeat' first
    | with_reducible assumption
    | intro _
    | with_reducible apply OKeeps.next
    | with_reducible apply OKeeps.fault
    | with_reducible apply OKeeps.ite
    | with_reducible apply State.modRtc_keeps
    | with_reducible apply Keeps.ite
    | split
    | dsimp only

theorem cmdTsRtcSet_keeps {s0 s : State} (h : Keeps s0 s) (p : List W32) :
    Keeps s0 (cmdTsRtcSet s p).state := by
  unfold cmdTsRtcSet
  repeat' first
    | with_reducible assumption
    | intro _
    | with_reducible apply fail_keeps
    | with_reducible apply okay_keeps
    | with_reducible apply done_keeps
    | with_reducible apply wait_keeps
    | with_reducible apply Keeps.iteRes
    | with_reducible apply State.modRtc_keeps
    | with_reducible apply State.rtcWasSet_keeps
    | with_reducible apply Keeps.ite
    | split
    | dsimp only

theorem cmdTsRtcRead_keeps {s0 s : State} (h : Keeps s0 s) :
    Keeps s0 (cmdTsRtcRead s).state := by
  unfold cmdTsRtcRead
  repeat' first
    | with_reducible assumption
    | intro _
    | with_reducible apply fail_keeps
    | with_reducible apply okay_keeps
    | with_reducible apply done_keeps
    | with_reducible apply wait_keeps
    | with_reducible apply Keeps.iteRes
    | with_reducible apply Keeps.iteFst
    | with_reducible apply State.rtcLatch_keeps
    | with_reducible apply Keeps.ite
    | split
    | dsimp only

end Sys2Proof.Machine
end

