-- ==== Sys2Proof/Laws/KeepSecure.lean ====
section
/-! SUPPORT. What the operations of Machine/Secure.lean keep. -/
namespace Sys2Proof.Machine

theorem State.modSec_keeps {s0 s : State} (h : Keeps s0 s) (f : Sec → Sec) :
    Keeps s0 (State.modSec s f) := by
  unfold State.modSec
  repeat' first
    | with_reducible assumption
    | intro _
    | with_reducible apply Keeps.ite
    | with_reducible apply Keeps.fields
    | rfl
    | split
    | dsimp only

theorem State.secReport_keeps {s0 s : State} (h : Keeps s0 s) (code mb : Nat) :
    Keeps s0 (State.secReport s code mb) := by
  unfold State.secReport
  repeat' first
    | with_reducible assumption
    | intro _
    | with_reducible apply State.report_keeps
    | with_reducible apply Keeps.ite
    | split
    | dsimp only

theorem State.audit_keeps {s0 s : State} (h : Keeps s0 s) (kind role key code : Nat) (arg0 arg1 : W32) :
    Keeps s0 (State.audit s kind role key code arg0 arg1) := by
  unfold State.audit
  repeat' first
    | with_reducible assumption
    | intro _
    | with_reducible apply Keeps.iteFst
    | with_reducible apply State.modSec_keeps
    | with_reducible apply Keeps.ite
    | with_reducible apply Keeps.fields
    | rfl
    | split
    | dsimp only

theorem State.auditReq_keeps {s0 s : State} (h : Keeps s0 s) (r : SecReq) (kind role key code : Nat) :
    Keeps s0 (State.auditReq s r kind role key code) := by
  unfold State.auditReq
  repeat' first
    | with_reducible assumption
    | intro _
    | with_reducible apply State.audit_keeps
    | with_reducible apply Keeps.ite
    | split
    | dsimp only

theorem State.h2dLeft_keeps {s0 s : State} (h : Keeps s0 s) (l : List W32) : Keeps s0 (s.h2dLeft l) :=
  State.modQp_keeps h _ fun x hx => ⟨Nat.le_trans (by simp only [List.length_drop]; omega) hx.1, hx.2⟩


theorem State.dropOthers_keeps {s0 s : State} (h : Keeps s0 s) (r : SecReq) : Keeps s0 (s.dropOthers r) :=
  State.modQp_keeps (State.h2dLeft_keeps h _) _ fun _ x => x


theorem State.takeFrame_keeps {s0 s : State} (h : Keeps s0 s) (f : List W32) :
    Keeps s0 (State.takeFrame s f) := by
  unfold State.takeFrame
  repeat' first
    | with_reducible assumption
    | intro _
    | with_reducible apply State.h2dLeft_keeps
    | with_reducible apply Keeps.ite
    | split
    | dsimp only

theorem State.replyFrame_keeps {s0 s : State} (h : Keeps s0 s) (r : SecReq) (l : List W32) : Keeps s0 (s.replyFrame r l) := by
  unfold State.replyFrame
  refine State.modQp_keeps h _ fun x hx => ?_
  split
  · rename_i c
    exact ⟨hx.1, by simpa only [List.length_append] using c⟩
  · exact hx


theorem State.setSess_keeps {s0 s : State} (h : Keeps s0 s) (k : Nat) (x : Option Session) :
    Keeps s0 (State.setSess s k x) := by
  unfold State.setSess
  repeat' first
    | with_reducible assumption
    | intro _
    | with_reducible apply State.modSec_keeps
    | with_reducible apply Keeps.ite
    | split
    | dsimp only

theorem State.closeSess_keeps {s0 s : State} (h : Keeps s0 s) (k code : Nat) (arg0 arg1 : W32) :
    Keeps s0 (State.closeSess s k code arg0 arg1) := by
  unfold State.closeSess
  repeat' first
    | with_reducible assumption
    | intro _
    | with_reducible apply State.audit_keeps
    | with_reducible apply State.setSess_keeps
    | with_reducible apply Keeps.ite
    | split
    | dsimp only

theorem refuse_keeps {s0 s : State} (h : Keeps s0 s) (code : Nat) :
    Keeps s0 (refuse s code).1 := by
  unfold refuse
  repeat' first
    | with_reducible assumption
    | intro _
    | with_reducible apply Keeps.iteFst
    | with_reducible apply Keeps.ite
    | split
    | dsimp only

theorem State.inSession_keeps {s0 s : State} (h : Keeps s0 s) (r : SecReq) (user needs : Bool) (code : Nat)
    {f : State → Session → List W32 → Answer} (hf : ∀ t x l, Keeps s0 t → Keeps s0 (f t x l).1) :
    Keeps s0 (s.inSession r user needs code f).1 := by
  unfold State.inSession
  repeat' first
    | with_reducible assumption
    | intro _
    | with_reducible apply Keeps.iteFst
    | with_reducible apply hf
    | with_reducible apply refuse_keeps
    | with_reducible apply State.setSess_keeps
    | with_reducible apply State.takeFrame_keeps
    | with_reducible apply State.auditReq_keeps
    | with_reducible apply State.closeSess_keeps
    | with_reducible apply State.secReport_keeps
    | split
    | dsimp only


theorem secChallenge_keeps {s0 s : State} (h : Keeps s0 s) (r : SecReq) :
    Keeps s0 (secChallenge s r).1 := by
  unfold secChallenge
  repeat' first
    | with_reducible assumption
    | intro _
    | with_reducible apply Keeps.iteFst
    | with_reducible apply State.modSec_keeps
    | with_reducible apply refuse_keeps
    | with_reducible apply Keeps.ite
    | split
    | dsimp only

theorem State.openFailed_keeps {s0 s : State} (h : Keeps s0 s) (i : Nat) :
    Keeps s0 (State.openFailed s i) := by
  unfold State.openFailed
  repeat' first
    | with_reducible assumption
    | intro _
    | with_reducible apply Keeps.iteFst
    | with_reducible apply State.modSec_keeps
    | with_reducible apply Keeps.ite
    | split
    | dsimp only

theorem State.openSess_keeps {s0 s : State} (h : Keeps s0 s) (r : SecReq) (role key : Nat) (nonce : BitVec 384) (eph : List W32) :
    Keeps s0 (s.openSess r role key nonce eph).1 := by
  unfold State.openSess
  lift_lets
  intro n own t sig hd x s1 s2
  have k1 : Keeps s0 s1 := State.modSec_keeps h _
  have k2 : Keeps s0 s2 := State.auditReq_keeps (State.setSess_keeps k1 _ _) _ _ _ _ _
  exact Keeps.fst (State.replyFrame_keeps k2 _ _)


theorem secOpenFailed_keeps {s0 s : State} (h : Keeps s0 s) (r : SecReq) (i role key : Nat) : Keeps s0 (secOpen.failed r s i role key).1 :=
  refuse_keeps (State.auditReq_keeps (State.secReport_keeps (State.openFailed_keeps h _) _ _) _ _ _ _ _) _

theorem secOpenRefused_keeps {s0 s : State} (h : Keeps s0 s) (r : SecReq) (role key c : Nat) : Keeps s0 (secOpen.refused r s role key c) :=
  Keeps.ite (State.auditReq_keeps h _ _ _ _ _) h

theorem secOpen_keeps {s0 s : State} (h : Keeps s0 s) (r : SecReq) : Keeps s0 (secOpen s r).1 := by
  unfold secOpen
  repeat' first
    | with_reducible assumption
    | intro _
    | with_reducible apply Keeps.iteFst
    | with_reducible apply refuse_keeps
    | with_reducible apply secOpenFailed_keeps
    | with_reducible apply secOpenRefused_keeps
    | with_reducible apply State.openSess_keeps
    | with_reducible apply State.auditReq_keeps
    | with_reducible apply State.takeFrame_keeps
    | with_reducible apply State.modSec_keeps
    | with_reducible apply Keeps.ite
    | split
    | dsimp only


theorem secClose_keeps {s0 s : State} (h : Keeps s0 s) (r : SecReq) :
    Keeps s0 (secClose s r).1 := by
  unfold secClose
  repeat' first
    | with_reducible assumption
    | intro _
    | with_reducible apply Keeps.iteFst
    | with_reducible apply State.closeSess_keeps
    | with_reducible apply State.inSession_keeps
    | with_reducible apply Keeps.ite
    | split
    | dsimp only

theorem secEnroll_keeps {s0 s : State} (h : Keeps s0 s) (r : SecReq) :
    Keeps s0 (secEnroll s r).1 := by
  unfold secEnroll
  repeat' first
    | with_reducible assumption
    | intro _
    | with_reducible apply Keeps.iteFst
    | with_reducible apply State.modSec_keeps
    | with_reducible apply State.auditReq_keeps
    | with_reducible apply State.inSession_keeps
    | with_reducible apply Keeps.ite
    | split
    | dsimp only

theorem secRemove_keeps {s0 s : State} (h : Keeps s0 s) (r : SecReq) :
    Keeps s0 (secRemove s r).1 := by
  unfold secRemove
  repeat' first
    | with_reducible assumption
    | intro _
    | with_reducible apply Keeps.iteFst
    | with_reducible apply State.modSec_keeps
    | with_reducible apply State.auditReq_keeps
    | with_reducible apply State.inSession_keeps
    | with_reducible apply Keeps.ite
    | split
    | dsimp only

theorem State.signRecord_keeps {s0 s : State} (h : Keeps s0 s) (r : SecReq) (x : Session) (type mask : Nat) (since : Int) (start : Nat) (data before : List W32) (embed : Bool) :
    Keeps s0 (State.signRecord s r x type mask since start data before embed).1 := by
  unfold State.signRecord
  repeat' first
    | with_reducible assumption
    | intro _
    | with_reducible apply Keeps.iteFst
    | with_reducible apply State.modSec_keeps
    | with_reducible apply State.audit_keeps
    | with_reducible apply State.replyFrame_keeps
    | with_reducible apply Keeps.ite
    | split
    | dsimp only

theorem secSignSlot_keeps {s0 s : State} (h : Keeps s0 s) (r : SecReq) :
    Keeps s0 (secSignSlot s r).1 := by
  unfold secSignSlot
  repeat' first
    | with_reducible assumption
    | intro _
    | with_reducible apply Keeps.iteFst
    | with_reducible apply State.inSession_keeps
    | with_reducible apply State.signRecord_keeps
    | with_reducible apply Keeps.ite
    | split
    | dsimp only

theorem secBlobPart_keeps {s0 s : State} (h : Keeps s0 s) (r : SecReq) :
    Keeps s0 (secBlobPart s r).1 := by
  unfold secBlobPart
  repeat' first
    | with_reducible assumption
    | intro _
    | with_reducible apply Keeps.iteFst
    | with_reducible apply State.setSess_keeps
    | with_reducible apply State.inSession_keeps
    | with_reducible apply Keeps.ite
    | split
    | dsimp only

theorem secBlobEnd_keeps {s0 s : State} (h : Keeps s0 s) (r : SecReq) :
    Keeps s0 (secBlobEnd s r).1 := by
  unfold secBlobEnd
  repeat' first
    | with_reducible assumption
    | intro _
    | with_reducible apply Keeps.iteFst
    | with_reducible apply State.setSess_keeps
    | with_reducible apply State.inSession_keeps
    | with_reducible apply State.signRecord_keeps
    | with_reducible apply Keeps.ite
    | split
    | dsimp only

theorem secSeal_keeps {s0 s : State} (h : Keeps s0 s) (r : SecReq) :
    Keeps s0 (secSeal s r).1 := by
  unfold secSeal
  repeat' first
    | with_reducible assumption
    | intro _
    | with_reducible apply Keeps.iteFst
    | with_reducible apply State.settle_keeps
    | with_reducible apply State.modSec_keeps
    | with_reducible apply State.auditReq_keeps
    | with_reducible apply State.inSession_keeps
    | with_reducible apply State.signRecord_keeps
    | with_reducible apply Keeps.ite
    | split
    | dsimp only

theorem secSealClear_keeps {s0 s : State} (h : Keeps s0 s) (r : SecReq) :
    Keeps s0 (secSealClear s r).1 := by
  unfold secSealClear
  repeat' first
    | with_reducible assumption
    | intro _
    | with_reducible apply Keeps.iteFst
    | with_reducible apply State.settle_keeps
    | with_reducible apply State.modSec_keeps
    | with_reducible apply State.auditReq_keeps
    | with_reducible apply State.inSession_keeps
    | with_reducible apply State.signRecord_keeps
    | with_reducible apply Keeps.ite
    | split
    | dsimp only

theorem secAuditRead_keeps {s0 s : State} (h : Keeps s0 s) (r : SecReq) :
    Keeps s0 (secAuditRead s r).1 := by
  unfold secAuditRead
  repeat' first
    | with_reducible assumption
    | intro _
    | with_reducible apply Keeps.iteFst
    | with_reducible apply State.audit_keeps
    | with_reducible apply State.inSession_keeps
    | with_reducible apply State.signRecord_keeps
    | with_reducible apply Keeps.ite
    | split
    | dsimp only

theorem State.zeroise_keeps {s0 s : State} (h : Keeps s0 s) (cause mb : Nat) :
    Keeps s0 (State.zeroise s cause mb) := by
  unfold State.zeroise
  repeat' first
    | with_reducible assumption
    | intro _
    | with_reducible apply Keeps.iteFst
    | with_reducible apply State.settle_keeps
    | with_reducible apply State.modSec_keeps
    | with_reducible apply State.secReport_keeps
    | with_reducible apply Keeps.ite
    | with_reducible apply Keeps.fields
    | rfl
    | split
    | dsimp only

theorem secZeroize_keeps {s0 s : State} (h : Keeps s0 s) (r : SecReq) :
    Keeps s0 (secZeroize s r).1 := by
  unfold secZeroize
  repeat' first
    | with_reducible assumption
    | intro _
    | with_reducible apply Keeps.iteFst
    | with_reducible apply refuse_keeps
    | with_reducible apply State.inSession_keeps
    | with_reducible apply State.zeroise_keeps
    | with_reducible apply Keeps.ite
    | split
    | dsimp only

theorem secTamperCfg_keeps {s0 s : State} (h : Keeps s0 s) (r : SecReq) :
    Keeps s0 (secTamperCfg s r).1 := by
  unfold secTamperCfg
  repeat' first
    | with_reducible assumption
    | intro _
    | with_reducible apply Keeps.iteFst
    | with_reducible apply State.lines_keeps
    | with_reducible apply State.auditReq_keeps
    | with_reducible apply State.inSession_keeps
    | with_reducible apply Keeps.ite
    | with_reducible apply Keeps.fields
    | rfl
    | split
    | dsimp only

theorem execTamperDetect_keeps {s0 s : State} (h : Keeps s0 s) (k : Fin 8) (on : Bool) :
    OKeeps s0 (execTamperDetect k on s) := by
  unfold execTamperDetect
  repeat' first
    | with_reducible assumption
    | intro _
    | with_reducible apply OKeeps.next
    | with_reducible apply OKeeps.fault
    | with_reducible apply OKeeps.ite
    | with_reducible apply State.lines_keeps
    | with_reducible apply State.audit_keeps
    | with_reducible apply State.zeroise_keeps
    | with_reducible apply Keeps.ite
    | with_reducible apply Keeps.fields
    | rfl
    | split
    | dsimp only

theorem State.setSpare_keeps {s0 s : State} (h : Keeps s0 s) (f : FwSlot) :
    Keeps s0 (State.setSpare s f) := by
  unfold State.setSpare
  repeat' first
    | with_reducible assumption
    | intro _
    | with_reducible apply State.modSec_keeps
    | with_reducible apply Keeps.ite
    | split
    | dsimp only

theorem State.dropUpdate_keeps {s0 s : State} (h : Keeps s0 s) :
    Keeps s0 (State.dropUpdate s) := by
  unfold State.dropUpdate
  repeat' first
    | with_reducible assumption
    | intro _
    | with_reducible apply State.modSec_keeps
    | with_reducible apply State.setSpare_keeps
    | with_reducible apply Keeps.ite
    | split
    | dsimp only

theorem secFwBegin_keeps {s0 s : State} (h : Keeps s0 s) (r : SecReq) :
    Keeps s0 (secFwBegin s r).1 := by
  unfold secFwBegin
  repeat' first
    | with_reducible assumption
    | intro _
    | with_reducible apply Keeps.iteFst
    | with_reducible apply State.modSec_keeps
    | with_reducible apply State.inSession_keeps
    | with_reducible apply State.setSpare_keeps
    | with_reducible apply Keeps.ite
    | split
    | dsimp only

theorem secFwData_keeps {s0 s : State} (h : Keeps s0 s) (r : SecReq) :
    Keeps s0 (secFwData s r).1 := by
  unfold secFwData
  repeat' first
    | with_reducible assumption
    | intro _
    | with_reducible apply Keeps.iteFst
    | with_reducible apply State.modSec_keeps
    | with_reducible apply refuse_keeps
    | with_reducible apply State.inSession_keeps
    | with_reducible apply Keeps.ite
    | split
    | dsimp only

theorem secFwCommit_keeps {s0 s : State} (h : Keeps s0 s) (r : SecReq) :
    Keeps s0 (secFwCommit s r).1 := by
  unfold secFwCommit
  repeat' first
    | with_reducible assumption
    | intro _
    | with_reducible apply Keeps.iteFst
    | with_reducible apply State.modSec_keeps
    | with_reducible apply State.secReport_keeps
    | with_reducible apply State.auditReq_keeps
    | with_reducible apply refuse_keeps
    | with_reducible apply State.inSession_keeps
    | with_reducible apply State.setSpare_keeps
    | with_reducible apply State.dropUpdate_keeps
    | with_reducible apply Keeps.ite
    | split
    | dsimp only

theorem secFwAbort_keeps {s0 s : State} (h : Keeps s0 s) (r : SecReq) :
    Keeps s0 (secFwAbort s r).1 := by
  unfold secFwAbort
  repeat' first
    | with_reducible assumption
    | intro _
    | with_reducible apply Keeps.iteFst
    | with_reducible apply State.inSession_keeps
    | with_reducible apply State.dropUpdate_keeps
    | with_reducible apply Keeps.ite
    | split
    | dsimp only

theorem secDebugUnlock_keeps {s0 s : State} (h : Keeps s0 s) (r : SecReq) :
    Keeps s0 (secDebugUnlock s r).1 := by
  unfold secDebugUnlock
  repeat' first
    | with_reducible assumption
    | intro _
    | with_reducible apply Keeps.iteFst
    | with_reducible apply State.settle_keeps
    | with_reducible apply State.modSec_keeps
    | with_reducible apply State.secReport_keeps
    | with_reducible apply State.auditReq_keeps
    | with_reducible apply refuse_keeps
    | with_reducible apply State.inSession_keeps
    | with_reducible apply State.zeroise_keeps
    | with_reducible apply Keeps.ite
    | split
    | dsimp only

theorem secExportCert_keeps {s0 s : State} (h : Keeps s0 s) (r : SecReq) :
    Keeps s0 (secExportCert s r).1 := by
  unfold secExportCert
  repeat' first
    | with_reducible assumption
    | intro _
    | with_reducible apply Keeps.iteFst
    | with_reducible apply State.replyFrame_keeps
    | with_reducible apply refuse_keeps
    | with_reducible apply Keeps.ite
    | split
    | dsimp only

theorem secService_keeps {s0 s : State} (h : Keeps s0 s) (r : SecReq) : Keeps s0 (secService s r).1 := by
  unfold secService
  dsimp only
  split
  · exact refuse_keeps h _
  apply Keeps.iteFst
  · exact refuse_keeps h _
  have k := State.dropOthers_keeps h r
  split
  · exact secChallenge_keeps k r
  · exact secOpen_keeps k r
  · exact secClose_keeps k r
  · exact secEnroll_keeps k r
  · exact secRemove_keeps k r
  · exact secSignSlot_keeps k r
  · exact secBlobPart_keeps k r
  · exact secBlobEnd_keeps k r
  · exact secSeal_keeps k r
  · exact secSealClear_keeps k r
  · exact secAuditRead_keeps k r
  · exact secZeroize_keeps k r
  · exact secTamperCfg_keeps k r
  · exact secFwBegin_keeps k r
  · exact secFwData_keeps k r
  · exact secFwCommit_keeps k r
  · exact secFwAbort_keeps k r
  · exact secDebugUnlock_keeps k r
  · exact secExportCert_keeps k r
  · exact refuse_keeps k _


theorem secRunGo_keeps {s0 : State} : ∀ (n : Nat) {s : State} (_ : Keeps s0 s), Keeps s0 (State.secRun.go n s)
  | 0, _, h => h
  | n + 1, s, h => by
    unfold State.secRun.go
    split
    · exact h
    · exact secRunGo_keeps n (State.modSec_keeps (secService_keeps (State.modSec_keeps h _) _) _)

theorem State.secRun_keeps {s0 s : State} (h : Keeps s0 s) : Keeps s0 s.secRun := State.lines_keeps (secRunGo_keeps _ h)


theorem State.secGive_keeps {s0 : State} : ∀ (l : List SecAnswer) {s : State} (_ : Keeps s0 s), Keeps s0 (s.secGive l)
  | [], _, h => h
  | a :: l, s, h => by
    unfold State.secGive
    apply Keeps.ite
    · exact State.secGive_keeps l (State.mbDone_keeps h _ _ _)
    · exact State.secGive_keeps l h


theorem State.secReturn_keeps {s0 s : State} (h : Keeps s0 s) :
    Keeps s0 (State.secReturn s) := by
  unfold State.secReturn
  repeat' first
    | with_reducible assumption
    | intro _
    | with_reducible apply State.lines_keeps
    | with_reducible apply State.modSec_keeps
    | with_reducible apply State.secGive_keeps
    | with_reducible apply Keeps.ite
    | split
    | dsimp only

theorem State.secDeliver_keeps {s0 s : State} (h : Keeps s0 s) (r : SecReq) (silent : Bool) :
    Keeps s0 (State.secDeliver s r silent) := by
  unfold State.secDeliver
  repeat' first
    | with_reducible assumption
    | intro _
    | with_reducible apply State.lines_keeps
    | with_reducible apply State.modSec_keeps
    | with_reducible apply State.secRun_keeps
    | with_reducible apply State.secReturn_keeps
    | with_reducible apply Keeps.ite
    | split
    | dsimp only

theorem State.ring_keeps {s0 s : State} (h : Keeps s0 s) (k : Nat) :
    Keeps s0 (State.ring s k) := by
  unfold State.ring
  repeat' first
    | with_reducible assumption
    | intro _
    | with_reducible apply State.raise_keeps
    | with_reducible apply Keeps.ite
    | split
    | dsimp only

theorem execDoorbellFrame_keeps {s0 s : State} (h : Keeps s0 s) :
    OKeeps s0 (execDoorbellFrame s) := by
  unfold execDoorbellFrame
  repeat' first
    | with_reducible assumption
    | intro _
    | with_reducible apply OKeeps.next
    | with_reducible apply OKeeps.fault
    | with_reducible apply OKeeps.ite
    | with_reducible apply State.ring_keeps
    | with_reducible apply Keeps.ite
    | split
    | dsimp only

theorem State.selfTest_keeps {s0 s : State} (h : Keeps s0 s) (pass : Bool) :
    Keeps s0 (State.selfTest s pass) := by
  unfold State.selfTest
  repeat' first
    | with_reducible assumption
    | intro _
    | with_reducible apply State.settle_keeps
    | with_reducible apply State.modSec_keeps
    | with_reducible apply State.secReport_keeps
    | with_reducible apply State.audit_keeps
    | with_reducible apply Keeps.ite
    | split
    | dsimp only

theorem execDoorbellSelfTest_keeps {s0 s : State} (h : Keeps s0 s) (pass : Bool) :
    OKeeps s0 (execDoorbellSelfTest pass s) := by
  unfold execDoorbellSelfTest
  repeat' first
    | with_reducible assumption
    | intro _
    | with_reducible apply OKeeps.next
    | with_reducible apply OKeeps.fault
    | with_reducible apply OKeeps.ite
    | with_reducible apply State.ring_keeps
    | with_reducible apply State.selfTest_keeps
    | with_reducible apply Keeps.ite
    | split
    | dsimp only

theorem execDoorbellCloseSessions_keeps {s0 s : State} (h : Keeps s0 s) :
    OKeeps s0 (execDoorbellCloseSessions s) := by
  unfold execDoorbellCloseSessions
  repeat' first
    | with_reducible assumption
    | intro _
    | with_reducible apply OKeeps.next
    | with_reducible apply OKeeps.fault
    | with_reducible apply OKeeps.ite
    | with_reducible apply State.closeSess_keeps
    | with_reducible apply State.ring_keeps
    | with_reducible apply Keeps.ite
    | split
    | dsimp only

theorem State.lockDebug_keeps {s0 s : State} (h : Keeps s0 s) :
    Keeps s0 (State.lockDebug s) := by
  unfold State.lockDebug
  repeat' first
    | with_reducible assumption
    | intro _
    | with_reducible apply State.settle_keeps
    | with_reducible apply State.timSyncAll_keeps
    | with_reducible apply State.modSec_keeps
    | with_reducible apply State.audit_keeps
    | with_reducible apply Keeps.ite
    | with_reducible apply Keeps.fields
    | rfl
    | split
    | dsimp only

theorem execDoorbellLockDebug_keeps {s0 s : State} (h : Keeps s0 s) :
    OKeeps s0 (execDoorbellLockDebug s) := by
  unfold execDoorbellLockDebug
  repeat' first
    | with_reducible assumption
    | intro _
    | with_reducible apply OKeeps.next
    | with_reducible apply OKeeps.fault
    | with_reducible apply OKeeps.ite
    | with_reducible apply State.ring_keeps
    | with_reducible apply State.lockDebug_keeps
    | with_reducible apply Keeps.ite
    | split
    | dsimp only

theorem execSessionTimeout_keeps {s0 s : State} (h : Keeps s0 s) (mb7 : Bool) :
    OKeeps s0 (execSessionTimeout mb7 s) := by
  unfold execSessionTimeout
  repeat' first
    | with_reducible assumption
    | intro _
    | with_reducible apply OKeeps.next
    | with_reducible apply OKeeps.fault
    | with_reducible apply OKeeps.ite
    | with_reducible apply State.runTo_keeps
    | with_reducible apply State.closeSess_keeps
    | with_reducible apply Keeps.ite
    | split
    | dsimp only

theorem execLockoutExpire_keeps {s0 s : State} (h : Keeps s0 s) (i : Nat) :
    OKeeps s0 (execLockoutExpire i s) := by
  unfold execLockoutExpire
  repeat' first
    | with_reducible assumption
    | intro _
    | with_reducible apply OKeeps.next
    | with_reducible apply OKeeps.fault
    | with_reducible apply OKeeps.ite
    | with_reducible apply Keeps.iteFst
    | with_reducible apply State.runTo_keeps
    | with_reducible apply State.modSec_keeps
    | with_reducible apply Keeps.ite
    | split
    | dsimp only

end Sys2Proof.Machine
end

