-- ==== Sys2Proof/Laws/KeepHostIf.lean ====
section
/-! SUPPORT. What the operations of Machine/HostIf.lean keep. -/
namespace Sys2Proof.Machine

theorem execBusMasterEnable_keeps {s0 s : State} (h : Keeps s0 s) (en : Bool) :
    OKeeps s0 (execBusMasterEnable en s) := by
  unfold execBusMasterEnable
  repeat' first
    | with_reducible assumption
    | intro _
    | with_reducible apply OKeeps.next
    | with_reducible apply OKeeps.fault
    | with_reducible apply OKeeps.ite
    | with_reducible apply Keeps.ite
    | with_reducible apply Keeps.fields
    | rfl
    | split
    | dsimp only

theorem execPcieRetrain_keeps {s0 s : State} (h : Keeps s0 s) (width speed : Nat) :
    OKeeps s0 (execPcieRetrain width speed s) := by
  unfold execPcieRetrain
  repeat' first
    | with_reducible assumption
    | intro _
    | with_reducible apply OKeeps.next
    | with_reducible apply OKeeps.fault
    | with_reducible apply OKeeps.ite
    | with_reducible apply State.report_keeps
    | with_reducible apply Keeps.ite
    | with_reducible apply Keeps.fields
    | rfl
    | split
    | dsimp only

theorem execDataLinkUp_keeps {s0 s : State} (h : Keeps s0 s) (width speed : Nat) :
    OKeeps s0 (execDataLinkUp width speed s) := by
  unfold execDataLinkUp
  repeat' first
    | with_reducible assumption
    | intro _
    | with_reducible apply OKeeps.next
    | with_reducible apply OKeeps.fault
    | with_reducible apply OKeeps.ite
    | with_reducible apply State.raise_keeps
    | with_reducible apply State.runTo_keeps
    | with_reducible apply Keeps.ite
    | with_reducible apply Keeps.fields
    | rfl
    | split
    | dsimp only

theorem State.mirrorWrite_keeps {s0 s : State} (h : Keeps s0 s) :
    Keeps s0 (State.mirrorWrite s) := by
  unfold State.mirrorWrite
  repeat' first
    | with_reducible assumption
    | intro _
    | with_reducible apply State.pcAdd_keeps
    | with_reducible apply State.post_keeps
    | with_reducible apply Keeps.ite
    | split
    | with_reducible apply Keeps.fields
    | rfl
    | dsimp only

theorem State.mirrorTick_keeps {s0 s : State} (h : Keeps s0 s) :
    Keeps s0 (State.mirrorTick s) := by
  unfold State.mirrorTick
  repeat' first
    | with_reducible assumption
    | intro _
    | with_reducible apply State.mirrorWrite_keeps
    | with_reducible apply Keeps.ite
    | split
    | with_reducible apply Keeps.fields
    | rfl
    | dsimp only

theorem execMirrorWrite_keeps {s0 s : State} (h : Keeps s0 s) :
    OKeeps s0 (execMirrorWrite s) := by
  unfold execMirrorWrite
  repeat' first
    | with_reducible assumption
    | intro _
    | with_reducible apply OKeeps.next
    | with_reducible apply OKeeps.fault
    | with_reducible apply OKeeps.ite
    | with_reducible apply State.mirrorWrite_keeps
    | with_reducible apply Keeps.ite
    | split
    | dsimp only

theorem State.mirrorStop_keeps {s0 s : State} (h : Keeps s0 s) :
    Keeps s0 (State.mirrorStop s) := by
  unfold State.mirrorStop
  repeat' first
    | with_reducible assumption
    | intro _
    | with_reducible apply Keeps.ite
    | with_reducible apply Keeps.fields
    | rfl
    | split
    | dsimp only

theorem execMirrorDisable_keeps {s0 s : State} (h : Keeps s0 s) :
    OKeeps s0 (execMirrorDisable s) := by
  unfold execMirrorDisable
  repeat' first
    | with_reducible assumption
    | intro _
    | with_reducible apply OKeeps.next
    | with_reducible apply OKeeps.fault
    | with_reducible apply OKeeps.ite
    | with_reducible apply State.mirrorStop_keeps
    | with_reducible apply Keeps.ite
    | split
    | dsimp only

theorem cmdSysSetMirror_keeps {s0 s : State} (h : Keeps s0 s) (p : List W32) :
    Keeps s0 (cmdSysSetMirror s p).state := by
  unfold cmdSysSetMirror
  repeat' first
    | with_reducible assumption
    | intro _
    | with_reducible apply fail_keeps
    | with_reducible apply okay_keeps
    | with_reducible apply done_keeps
    | with_reducible apply wait_keeps
    | with_reducible apply Keeps.iteRes
    | with_reducible apply State.defer_keeps
    | with_reducible apply State.mirrorStop_keeps
    | with_reducible apply Keeps.ite
    | with_reducible apply Keeps.fields
    | rfl
    | split
    | dsimp only

theorem State.applyMirror_keeps {s0 s : State} (h : Keeps s0 s) :
    Keeps s0 (State.applyMirror s) := by
  unfold State.applyMirror
  repeat' first
    | with_reducible assumption
    | intro _
    | with_reducible apply Keeps.ite
    | with_reducible apply Keeps.fields
    | rfl
    | split
    | dsimp only

end Sys2Proof.Machine
end

