-- ==== Sys2Proof/Laws/KeepIrq.lean ====
section
/-! SUPPORT. What the operations of Machine/Irq.lean keep. -/
namespace Sys2Proof.Machine

theorem State.dicDeliver_keeps {s0 s : State} (h : Keeps s0 s) (sec : Bool) (k : Nat) (direct : Bool) :
    Keeps s0 (State.dicDeliver s sec k direct) := by
  unfold State.dicDeliver
  repeat' first
    | with_reducible assumption
    | intro _
    | with_reducible apply State.modSrc_keeps
    | with_reducible apply State.pcAdd_keeps
    | with_reducible apply Keeps.ite
    | with_reducible apply Keeps.fields
    | rfl
    | split
    | dsimp only

theorem execDicDelivery_keeps {s0 s : State} (h : Keeps s0 s) (sec : Bool) :
    OKeeps s0 (execDicDelivery sec s) := by
  unfold execDicDelivery
  repeat' first
    | with_reducible assumption
    | intro _
    | with_reducible apply OKeeps.next
    | with_reducible apply OKeeps.fault
    | with_reducible apply OKeeps.ite
    | with_reducible apply State.runTo_keeps
    | with_reducible apply State.handover_keeps
    | with_reducible apply State.dicDeliver_keeps
    | with_reducible apply Keeps.ite
    | split
    | with_reducible apply Keeps.fields
    | rfl
    | dsimp only

theorem icEoiSpurious_keeps {s0 s : State} (h : Keeps s0 s) (sec : Bool) (n : Fin 256) : Keeps s0 (execIcEoi.spurious sec n s) :=
  Keeps.fields h rfl rfl

theorem execIcEoi_keeps {s0 s : State} (h : Keeps s0 s) (sec : Bool) (n : Fin 256) : OKeeps s0 (execIcEoi sec n s) := by
  unfold execIcEoi
  split
  · apply OKeeps.ite
    · have k : Keeps s0 { s with ic := s.ic.setStack sec ‹_› } := Keeps.fields h rfl rfl
      refine OKeeps.next (Keeps.ite (State.modSrc_keeps k _ (Source.complete s.now)) ?_)
      exact Keeps.fields (State.modSrc_keeps k _ (Source.complete s.now)) rfl rfl
    · exact OKeeps.next (icEoiSpurious_keeps h _ _)
  · exact OKeeps.next (icEoiSpurious_keeps h _ _)


theorem execCoalTimeout_keeps {s0 s : State} (h : Keeps s0 s) (k : Fin 256) :
    OKeeps s0 (execCoalTimeout k s) := by
  unfold execCoalTimeout
  repeat' first
    | with_reducible assumption
    | intro _
    | with_reducible apply OKeeps.next
    | with_reducible apply OKeeps.fault
    | with_reducible apply OKeeps.ite
    | with_reducible apply State.modSrc_keeps
    | with_reducible apply State.runTo_keeps
    | with_reducible apply Keeps.ite
    | split
    | dsimp only

theorem State.lostDue_keeps {s0 s : State} (h : Keeps s0 s) (cyc : Nat) :
    Keeps s0 (State.lostDue s cyc) := by
  unfold State.lostDue
  repeat' first
    | with_reducible assumption
    | intro _
    | with_reducible apply Keeps.ite
    | with_reducible apply Keeps.fields
    | rfl
    | split
    | dsimp only

theorem execErrlogWrite_keeps {s0 s : State} (h : Keeps s0 s) :
    OKeeps s0 (execErrlogWrite s) := by
  unfold execErrlogWrite
  repeat' first
    | with_reducible assumption
    | intro _
    | with_reducible apply OKeeps.next
    | with_reducible apply OKeeps.fault
    | with_reducible apply OKeeps.ite
    | with_reducible apply State.raise_keeps
    | with_reducible apply State.runTo_keeps
    | with_reducible apply State.report_keeps
    | with_reducible apply State.lostDue_keeps
    | with_reducible apply Keeps.ite
    | split
    | with_reducible apply Keeps.fields
    | rfl
    | dsimp only

theorem State.snapRead_keeps {s0 s : State} (h : Keeps s0 s) (n : Nat) (host : Bool) :
    Keeps s0 (State.snapRead s n host).1 := by
  unfold State.snapRead
  repeat' first
    | with_reducible assumption
    | intro _
    | with_reducible apply Keeps.iteFst
    | with_reducible apply Keeps.ite
    | with_reducible apply Keeps.foldl
    | with_reducible apply Keeps.foldlFst
    | with_reducible apply Keeps.fields
    | rfl
    | split
    | dsimp only

theorem execPcSnapRead_keeps {s0 s : State} (h : Keeps s0 s) (n : Fin 64) (host : Bool) :
    OKeeps s0 (execPcSnapRead n host s) := by
  unfold execPcSnapRead
  repeat' first
    | with_reducible assumption
    | intro _
    | with_reducible apply OKeeps.next
    | with_reducible apply OKeeps.fault
    | with_reducible apply OKeeps.ite
    | with_reducible apply Keeps.iteFst
    | with_reducible apply State.readReturns_keeps
    | with_reducible apply State.snapRead_keeps
    | with_reducible apply Keeps.ite
    | split
    | dsimp only

theorem execCounterWrap_keeps {s0 s : State} (h : Keeps s0 s) (n : Fin 64) :
    OKeeps s0 (execCounterWrap n s) := by
  unfold execCounterWrap
  repeat' first
    | with_reducible assumption
    | intro _
    | with_reducible apply OKeeps.next
    | with_reducible apply OKeeps.fault
    | with_reducible apply OKeeps.ite
    | with_reducible apply State.pcAdd_keeps
    | with_reducible apply Keeps.ite
    | split
    | dsimp only

end Sys2Proof.Machine
end

