-- ==== Sys2Proof/Laws/KeepPower.lean ====
section
/-! SUPPORT. What the operations of Machine/Power.lean keep. -/
namespace Sys2Proof.Machine

theorem State.modPwr_keeps {s0 s : State} (h : Keeps s0 s) (f : Power → Power) :
    Keeps s0 (State.modPwr s f) := by
  unfold State.modPwr
  repeat' first
    | with_reducible assumption
    | intro _
    | with_reducible apply Keeps.ite
    | with_reducible apply Keeps.fields
    | rfl
    | split
    | dsimp only

theorem State.gateCluster_keeps {s0 s : State} (h : Keeps s0 s) (c : Nat) :
    Keeps s0 (State.gateCluster s c) := by
  unfold State.gateCluster
  repeat' first
    | with_reducible assumption
    | intro _
    | with_reducible apply State.modIn_keeps
    | with_reducible apply State.modCl_keeps
    | with_reducible apply State.modMe_keeps
    | with_reducible apply State.modSlot_keeps
    | with_reducible apply State.modDec_keeps
    | with_reducible apply State.modSrc_keeps
    | with_reducible apply State.refreshUse_keeps
    | with_reducible apply State.hold_keeps
    | with_reducible apply State.carry_keeps
    | with_reducible apply Keeps.ite
    | with_reducible apply Keeps.each
    | with_reducible apply Keeps.foldl
    | with_reducible apply Keeps.foldlFst
    | with_reducible apply Keeps.fields
    | rfl
    | split
    | dsimp only

theorem State.ungateCluster_keeps {s0 s : State} (h : Keeps s0 s) (c : Nat) :
    Keeps s0 (State.ungateCluster s c) := by
  unfold State.ungateCluster
  repeat' first
    | with_reducible assumption
    | intro _
    | with_reducible apply State.modIn_keeps
    | with_reducible apply State.modCl_keeps
    | with_reducible apply State.modDec_keeps
    | with_reducible apply State.beginInts_keeps
    | with_reducible apply State.carry_keeps
    | with_reducible apply State.modPwr_keeps
    | with_reducible apply Keeps.ite
    | with_reducible apply Keeps.each
    | split
    | dsimp only

theorem State.setGated_keeps {s0 s : State} (h : Keeps s0 s) (mask : Nat) :
    Keeps s0 (State.setGated s mask) := by
  unfold State.setGated
  repeat' first
    | with_reducible assumption
    | intro _
    | with_reducible apply State.modPwr_keeps
    | with_reducible apply State.gateCluster_keeps
    | with_reducible apply State.ungateCluster_keeps
    | with_reducible apply Keeps.ite
    | with_reducible apply Keeps.each
    | split
    | dsimp only

theorem State.applyPower_keeps {s0 s : State} (h : Keeps s0 s) (p : List W32) :
    Keeps s0 (State.applyPower s p) := by
  unfold State.applyPower
  repeat' first
    | with_reducible assumption
    | intro _
    | with_reducible apply State.raise_keeps
    | with_reducible apply State.settle_keeps
    | with_reducible apply State.accrue_keeps
    | with_reducible apply State.modPwr_keeps
    | with_reducible apply State.setGated_keeps
    | with_reducible apply Keeps.ite
    | split
    | dsimp only

theorem cmdPwrSetState_keeps {s0 s : State} (h : Keeps s0 s) (mb : Nat) (p : List W32) :
    Keeps s0 (cmdPwrSetState s mb p).state := by
  unfold cmdPwrSetState
  repeat' first
    | with_reducible assumption
    | intro _
    | with_reducible apply fail_keeps
    | with_reducible apply okay_keeps
    | with_reducible apply done_keeps
    | with_reducible apply wait_keeps
    | with_reducible apply Keeps.iteRes
    | with_reducible apply State.defer_keeps
    | with_reducible apply State.modPwr_keeps
    | with_reducible apply Keeps.ite
    | split
    | dsimp only

theorem cmdPwrRetainBanks_keeps {s0 s : State} (h : Keeps s0 s) (p : List W32) :
    Keeps s0 (cmdPwrRetainBanks s p).state := by
  unfold cmdPwrRetainBanks
  repeat' first
    | with_reducible assumption
    | intro _
    | with_reducible apply fail_keeps
    | with_reducible apply okay_keeps
    | with_reducible apply done_keeps
    | with_reducible apply wait_keeps
    | with_reducible apply Keeps.iteRes
    | with_reducible apply State.modPwr_keeps
    | with_reducible apply Keeps.ite
    | split
    | dsimp only

theorem State.retainAbort_keeps {s0 s : State} (h : Keeps s0 s) (r : RetainPend) :
    Keeps s0 (State.retainAbort s r) := by
  unfold State.retainAbort
  repeat' first
    | with_reducible assumption
    | intro _
    | with_reducible apply State.mbDone_keeps
    | with_reducible apply State.modPwr_keeps
    | with_reducible apply Keeps.ite
    | split
    | dsimp only

theorem State.retainCommit_keeps {s0 s : State} (h : Keeps s0 s) (r : RetainPend) :
    Keeps s0 (State.retainCommit s r) := by
  unfold State.retainCommit
  repeat' first
    | with_reducible assumption
    | intro _
    | with_reducible apply State.modMb_keeps
    | with_reducible apply State.raise_keeps
    | with_reducible apply State.accrue_keeps
    | with_reducible apply State.vddmWindow_keeps
    | with_reducible apply State.mbDone_keeps
    | with_reducible apply State.modPwr_keeps
    | with_reducible apply State.setGated_keeps
    | with_reducible apply Keeps.ite
    | split
    | dsimp only

theorem execRetainCommit_keeps {s0 s : State} (h : Keeps s0 s) :
    OKeeps s0 (execRetainCommit s) := by
  unfold execRetainCommit
  repeat' first
    | with_reducible assumption
    | intro _
    | with_reducible apply OKeeps.next
    | with_reducible apply OKeeps.fault
    | with_reducible apply OKeeps.ite
    | with_reducible apply State.runTo_keeps
    | with_reducible apply State.mbDone_keeps
    | with_reducible apply State.modPwr_keeps
    | with_reducible apply State.retainAbort_keeps
    | with_reducible apply State.retainCommit_keeps
    | with_reducible apply Keeps.ite
    | split
    | dsimp only

theorem State.wakeBank_keeps {s0 s : State} (h : Keeps s0 s) (b : Nat) :
    Keeps s0 (State.wakeBank s b) := by
  unfold State.wakeBank
  repeat' first
    | with_reducible assumption
    | intro _
    | with_reducible apply State.modBank_keeps
    | with_reducible apply State.zeroBank_keeps
    | with_reducible apply Keeps.ite
    | split
    | dsimp only

theorem State.mcBack_keeps {s0 s : State} (h : Keeps s0 s) :
    Keeps s0 (State.mcBack s) := by
  unfold State.mcBack
  repeat' first
    | with_reducible assumption
    | intro _
    | with_reducible apply State.secRun_keeps
    | with_reducible apply State.secReturn_keeps
    | with_reducible apply Keeps.ite
    | split
    | dsimp only

theorem State.mbHostReset_keeps {s0 s : State} (h : Keeps s0 s) (m : Nat) :
    Keeps s0 (State.mbHostReset s m) := by
  unfold State.mbHostReset
  repeat' first
    | with_reducible assumption
    | intro _
    | with_reducible apply State.modMb_keeps
    | with_reducible apply State.mbUntaken_keeps
    | with_reducible apply Keeps.ite
    | split
    | dsimp only

theorem State.dropGroups_keeps {s0 s : State} (h : Keeps s0 s) :
    Keeps s0 (State.dropGroups s) := by
  unfold State.dropGroups
  repeat' first
    | with_reducible assumption
    | intro _
    | with_reducible apply Keeps.ite
    | with_reducible apply Keeps.fields
    | rfl
    | split
    | dsimp only

theorem QueuePair.hostReset_bounded {q : QueuePair} (h : q.Bounded) (n : Nat) (count : W32) : (q.hostReset n count).Bounded := by
  unfold QueuePair.hostReset
  dsimp only
  split
  · exact ⟨Nat.zero_le _, Nat.zero_le _⟩
  split
  · refine QueuePair.putLost_bounded (QueuePair.write_bounded ?_ _ _)
    exact ⟨Nat.zero_le _, h.2⟩
  · exact ⟨Nat.zero_le _, h.2⟩

theorem State.cmdHostReset_keeps {s0 s : State} (h : Keeps s0 s) : Keeps s0 (s.cmdHostReset) := by
  unfold State.cmdHostReset
  refine State.lines_keeps (State.modPwr_keeps (Keeps.each (State.dropGroups_keeps (Keeps.each (State.modSec_keeps (State.dropUpdate_keeps
    (State.closeSess_keeps (State.closeSess_keeps (Keeps.fields h rfl rfl) _ _ _ _) _ _ _ _)) _) fun t n k => State.mbHostReset_keeps k _)) fun t n k => ?_) _)
  exact State.modQp_keeps k _ fun _ x => QueuePair.hostReset_bounded x _ _


theorem State.lateHostReset_keeps {s0 s : State} (h : Keeps s0 s) :
    Keeps s0 (State.lateHostReset s) := by
  unfold State.lateHostReset
  repeat' first
    | with_reducible assumption
    | intro _
    | with_reducible apply State.cmdHostReset_keeps
    | with_reducible apply Keeps.ite
    | split
    | dsimp only

theorem execHostReset_keeps {s0 s : State} (h : Keeps s0 s) (linkDown : Bool) :
    OKeeps s0 (execHostReset linkDown s) := by
  unfold execHostReset
  repeat' first
    | with_reducible assumption
    | intro _
    | with_reducible apply OKeeps.next
    | with_reducible apply OKeeps.fault
    | with_reducible apply OKeeps.ite
    | with_reducible apply State.wakeBy_keeps
    | with_reducible apply State.raise_keeps
    | with_reducible apply State.dmaHostReset_keeps
    | with_reducible apply State.mirrorStop_keeps
    | with_reducible apply State.modPwr_keeps
    | with_reducible apply State.cmdHostReset_keeps
    | with_reducible apply Keeps.ite
    | with_reducible apply Keeps.fields
    | rfl
    | split
    | dsimp only

theorem execWake_keeps {s0 s : State} (h : Keeps s0 s) :
    OKeeps s0 (execWake s) := by
  unfold execWake
  repeat' first
    | with_reducible assumption
    | intro _
    | with_reducible apply OKeeps.next
    | with_reducible apply OKeeps.fault
    | with_reducible apply OKeeps.ite
    | with_reducible apply State.raise_keeps
    | with_reducible apply State.defer_keeps
    | with_reducible apply State.accrue_keeps
    | with_reducible apply State.vddmWindow_keeps
    | with_reducible apply State.modPwr_keeps
    | with_reducible apply State.retainAbort_keeps
    | with_reducible apply State.wakeBank_keeps
    | with_reducible apply State.mcBack_keeps
    | with_reducible apply State.lateHostReset_keeps
    | with_reducible apply Keeps.ite
    | with_reducible apply Keeps.each
    | split
    | dsimp only

theorem State.mbAbort_keeps {s0 s : State} (h : Keeps s0 s) (m : Nat) :
    Keeps s0 (State.mbAbort s m) := by
  unfold State.mbAbort
  repeat' first
    | with_reducible assumption
    | intro _
    | with_reducible apply State.modMb_keeps
    | with_reducible apply State.mbDone_keeps
    | with_reducible apply Keeps.ite
    | split
    | dsimp only

theorem State.mcRestart_keeps {s0 s : State} (h : Keeps s0 s) (cause arg : Nat) :
    Keeps s0 (State.mcRestart s cause arg) := by
  unfold State.mcRestart
  repeat' first
    | with_reducible assumption
    | intro _
    | with_reducible apply State.report_keeps
    | with_reducible apply State.lines_keeps
    | with_reducible apply State.modPwr_keeps
    | with_reducible apply State.dropGroups_keeps
    | with_reducible apply State.mbAbort_keeps
    | with_reducible apply Keeps.ite
    | with_reducible apply Keeps.each
    | split
    | dsimp only

theorem execMcWatchdog_keeps {s0 s : State} (h : Keeps s0 s) :
    OKeeps s0 (execMcWatchdog s) := by
  unfold execMcWatchdog
  repeat' first
    | with_reducible assumption
    | intro _
    | with_reducible apply OKeeps.next
    | with_reducible apply OKeeps.fault
    | with_reducible apply OKeeps.ite
    | with_reducible apply State.mcRestart_keeps
    | with_reducible apply Keeps.ite
    | split
    | dsimp only

theorem execMcRestartComplete_keeps {s0 s : State} (h : Keeps s0 s) :
    OKeeps s0 (execMcRestartComplete s) := by
  unfold execMcRestartComplete
  repeat' first
    | with_reducible assumption
    | intro _
    | with_reducible apply OKeeps.next
    | with_reducible apply OKeeps.fault
    | with_reducible apply OKeeps.ite
    | with_reducible apply State.modPwr_keeps
    | with_reducible apply State.mcBack_keeps
    | with_reducible apply State.lateHostReset_keeps
    | with_reducible apply Keeps.ite
    | split
    | dsimp only

theorem QueuePair.reset_bounded (k : Fin 4) : (vget State.reset.qp k).Bounded := by
  have e : vget State.reset.qp k = QueuePair.reset := by simp [vget, State.reset]
  rw [e]
  exact ⟨Nat.zero_le _, Nat.zero_le _⟩

theorem State.porAssert_keeps {s0 s : State} (h : Keeps s0 s) (cause jtag : Nat) : Keeps s0 (s.porAssert cause jtag) :=
  ⟨(State.rtcFree_keeps h).queue, fun _ => rfl, fun _ => (by decide : (0 : Nat) < dtcMod), fun _ => QueuePair.reset_bounded, (State.rtcFree_keeps h).phys⟩


theorem execRailExcursion_keeps {s0 s : State} (h : Keeps s0 s) :
    OKeeps s0 (execRailExcursion s) := by
  unfold execRailExcursion
  repeat' first
    | with_reducible assumption
    | intro _
    | with_reducible apply OKeeps.next
    | with_reducible apply OKeeps.fault
    | with_reducible apply OKeeps.ite
    | with_reducible apply State.porAssert_keeps
    | with_reducible apply Keeps.ite
    | split
    | dsimp only

theorem execPorN_keeps {s0 s : State} (h : Keeps s0 s) :
    OKeeps s0 (execPorN s) := by
  unfold execPorN
  repeat' first
    | with_reducible assumption
    | intro _
    | with_reducible apply OKeeps.next
    | with_reducible apply OKeeps.fault
    | with_reducible apply OKeeps.ite
    | with_reducible apply State.porAssert_keeps
    | with_reducible apply Keeps.ite
    | split
    | dsimp only

theorem execJtagInstruction_keeps {s0 s : State} (h : Keeps s0 s) (i : Nat) :
    OKeeps s0 (execJtagInstruction i s) := by
  unfold execJtagInstruction
  repeat' first
    | with_reducible assumption
    | intro _
    | with_reducible apply OKeeps.next
    | with_reducible apply OKeeps.fault
    | with_reducible apply OKeeps.ite
    | with_reducible apply State.timSyncAll_keeps
    | with_reducible apply State.modPwr_keeps
    | with_reducible apply State.porAssert_keeps
    | with_reducible apply Keeps.ite
    | split
    | dsimp only

theorem State.moduleBoot_keeps {s0 s : State} (h : Keeps s0 s) (pass : Bool) :
    Keeps s0 (State.moduleBoot s pass) := by
  unfold State.moduleBoot
  repeat' first
    | with_reducible assumption
    | intro _
    | with_reducible apply State.settle_keeps
    | with_reducible apply State.selfTest_keeps
    | with_reducible apply State.modPwr_keeps
    | with_reducible apply State.mcBack_keeps
    | with_reducible apply State.lateHostReset_keeps
    | with_reducible apply Keeps.ite
    | with_reducible apply Keeps.fields
    | rfl
    | split
    | dsimp only

theorem execPowerOnReset_keeps {s0 s : State} (h : Keeps s0 s) (dt : Nat) (b : Boot) :
    OKeeps s0 (execPowerOnReset dt b s) := by
  unfold execPowerOnReset
  repeat' first
    | with_reducible assumption
    | intro _
    | with_reducible apply OKeeps.next
    | with_reducible apply OKeeps.fault
    | with_reducible apply OKeeps.ite
    | with_reducible apply State.advance_keeps
    | with_reducible apply State.runTo_keeps
    | with_reducible apply State.modSec_keeps
    | with_reducible apply State.modPwr_keeps
    | with_reducible apply State.moduleBoot_keeps
    | with_reducible apply Keeps.ite
    | with_reducible apply Keeps.fields
    | rfl
    | split
    | dsimp only

theorem State.startCal_keeps {s0 s : State} (h : Keeps s0 s) :
    Keeps s0 (State.startCal s) := by
  unfold State.startCal
  repeat' first
    | with_reducible assumption
    | intro _
    | with_reducible apply Keeps.iteFst
    | with_reducible apply State.modCl_keeps
    | with_reducible apply Keeps.ite
    | with_reducible apply Keeps.each
    | with_reducible apply Keeps.fields
    | rfl
    | split
    | dsimp only

theorem State.checkSeal_keeps {s0 s : State} (h : Keeps s0 s) (ok : Bool) :
    Keeps s0 (State.checkSeal s ok) := by
  unfold State.checkSeal
  repeat' first
    | with_reducible assumption
    | intro _
    | with_reducible apply State.modSec_keeps
    | with_reducible apply State.secReport_keeps
    | with_reducible apply Keeps.ite
    | split
    | dsimp only

theorem execReady_keeps {s0 s : State} (h : Keeps s0 s) (dt : Nat) (cut : Option HistCut) (sealOk : Bool) :
    OKeeps s0 (execReady dt cut sealOk s) := by
  unfold execReady
  repeat' first
    | with_reducible assumption
    | intro _
    | with_reducible apply OKeeps.next
    | with_reducible apply OKeeps.fault
    | with_reducible apply OKeeps.ite
    | with_reducible apply State.advance_keeps
    | with_reducible apply State.runTo_keeps
    | with_reducible apply State.zeroBank_keeps
    | with_reducible apply State.settle_keeps
    | with_reducible apply State.cutHistory_keeps
    | with_reducible apply State.beginCal_keeps
    | with_reducible apply State.slowSlew_keeps
    | with_reducible apply State.modSec_keeps
    | with_reducible apply State.modPwr_keeps
    | with_reducible apply State.startCal_keeps
    | with_reducible apply State.checkSeal_keeps
    | with_reducible apply Keeps.ite
    | with_reducible apply Keeps.each
    | split
    | with_reducible apply Keeps.fields
    | rfl
    | dsimp only

theorem State.deviceCleared_keeps {s0 s : State} (h : Keeps s0 s) : Keeps s0 s.deviceCleared := by
  unfold State.deviceCleared
  exact Keeps.fieldsEmpty h rfl rfl


theorem State.deviceReset_keeps {s0 s : State} (h : Keeps s0 s) (pass : Bool) :
    Keeps s0 (State.deviceReset s pass) := by
  unfold State.deviceReset
  repeat' first
    | with_reducible assumption
    | intro _
    | with_reducible apply State.report_keeps
    | with_reducible apply State.settle_keeps
    | with_reducible apply State.presentLevel_keeps
    | with_reducible apply State.dmaIdle_keeps
    | with_reducible apply State.mbAbort_keeps
    | with_reducible apply State.moduleBoot_keeps
    | with_reducible apply State.deviceCleared_keeps
    | with_reducible apply Keeps.ite
    | with_reducible apply Keeps.each
    | split
    | dsimp only

theorem State.sysReset_keeps {s0 s : State} (h : Keeps s0 s) (p : List W32) (silent : Bool) :
    Keeps s0 (State.sysReset s p silent) := by
  unfold State.sysReset
  repeat' first
    | with_reducible assumption
    | intro _
    | with_reducible apply State.mcRestart_keeps
    | with_reducible apply State.deviceReset_keeps
    | with_reducible apply Keeps.ite
    | split
    | dsimp only

theorem execBackupDomainLost_keeps {s0 s : State} (h : Keeps s0 s) :
    OKeeps s0 (execBackupDomainLost s) := by
  unfold execBackupDomainLost
  repeat' first
    | with_reducible assumption
    | intro _
    | with_reducible apply OKeeps.next
    | with_reducible apply OKeeps.fault
    | with_reducible apply OKeeps.ite
    | with_reducible apply State.settle_keeps
    | with_reducible apply State.modSec_keeps
    | with_reducible apply Keeps.ite
    | with_reducible apply Keeps.fields
    | rfl
    | split
    | dsimp only

end Sys2Proof.Machine
end

