-- ==== Sys2Proof/Laws/KeepRegMap.lean ====
section
/-! SUPPORT. What the operations of Machine/RegMap.lean keep. -/
namespace Sys2Proof.Machine

theorem State.readChannel_keeps {s0 s : State} (h : Keeps s0 s) (n o : Nat) :
    Keeps s0 (State.readChannel s n o) := by
  unfold State.readChannel
  repeat' first
    | with_reducible assumption
    | intro _
    | with_reducible apply State.modIn_keeps
    | with_reducible apply State.modOut_keeps
    | with_reducible apply State.modPu_keeps
    | with_reducible apply Keeps.ite
    | split
    | dsimp only

theorem State.readCluster_keeps {s0 s : State} (h : Keeps s0 s) (c o : Nat) :
    Keeps s0 (State.readCluster s c o) := by
  unfold State.readCluster
  repeat' first
    | with_reducible assumption
    | intro _
    | with_reducible apply State.modSch_keeps
    | with_reducible apply State.modInt_keeps
    | with_reducible apply Keeps.ite
    | split
    | dsimp only

theorem State.readEffect_keeps {s0 s : State} (h : Keeps s0 s) (o : Nat) :
    Keeps s0 (State.readEffect s o) := by
  unfold State.readEffect
  repeat' first
    | with_reducible assumption
    | intro _
    | with_reducible apply Keeps.iteFst
    | with_reducible apply State.modBank_keeps
    | with_reducible apply State.modDma_keeps
    | with_reducible apply State.modMb_keeps
    | with_reducible apply State.modSrc_keeps
    | with_reducible apply State.d2hRead_keeps
    | with_reducible apply State.modRtc_keeps
    | with_reducible apply State.rtcLatch_keeps
    | with_reducible apply State.snapRead_keeps
    | with_reducible apply State.readChannel_keeps
    | with_reducible apply State.readCluster_keeps
    | with_reducible apply Keeps.ite
    | with_reducible apply Keeps.fields
    | rfl
    | split
    | dsimp only

theorem State.regRead_keeps {s0 s : State} (h : Keeps s0 s) (o : Nat) :
    Keeps s0 (State.regRead s o).1 := by
  unfold State.regRead
  repeat' first
    | with_reducible assumption
    | intro _
    | with_reducible apply Keeps.iteFst
    | with_reducible apply State.readEffect_keeps
    | with_reducible apply Keeps.ite
    | split
    | dsimp only

theorem State.bar4Read_keeps {s0 s : State} (h : Keeps s0 s) (o : Nat) :
    Keeps s0 (State.bar4Read s o).1 := by
  unfold State.bar4Read
  repeat' first
    | with_reducible assumption
    | intro _
    | with_reducible apply Keeps.iteFst
    | with_reducible apply State.snapRead_keeps
    | with_reducible apply Keeps.ite
    | split
    | dsimp only

theorem State.readBytes_keeps {s0 s : State} (h : Keeps s0 s) (bar4 : Bool) (off len : Nat) :
    Keeps s0 (State.readBytes s bar4 off len).1 := by
  unfold State.readBytes
  repeat' first
    | with_reducible assumption
    | intro _
    | with_reducible apply Keeps.iteFst
    | with_reducible apply State.regRead_keeps
    | with_reducible apply State.bar4Read_keeps
    | with_reducible apply Keeps.ite
    | with_reducible apply Keeps.foldl
    | with_reducible apply Keeps.foldlFst
    | split
    | dsimp only

theorem execReadClear_keeps {s0 s : State} (h : Keeps s0 s) (off : Nat) :
    OKeeps s0 (execReadClear off s) := by
  unfold execReadClear
  repeat' first
    | with_reducible assumption
    | intro _
    | with_reducible apply OKeeps.next
    | with_reducible apply OKeeps.fault
    | with_reducible apply OKeeps.ite
    | with_reducible apply Keeps.iteFst
    | with_reducible apply State.readBytes_keeps
    | with_reducible apply Keeps.ite
    | with_reducible apply Keeps.fields
    | rfl
    | split
    | dsimp only

theorem State.readOnly_keeps {s0 s : State} (h : Keeps s0 s) (o : Nat) (v : W32) :
    Keeps s0 (State.readOnly s o v) := by
  unfold State.readOnly
  repeat' first
    | with_reducible assumption
    | intro _
    | with_reducible apply State.report_keeps
    | with_reducible apply Keeps.ite
    | split
    | dsimp only

theorem State.mixed_keeps {s0 s : State} (h : Keeps s0 s) (o : Nat) (v cur : W32) (mask : Nat) :
    Keeps s0 (State.mixed s o v cur mask) := by
  unfold State.mixed
  repeat' first
    | with_reducible assumption
    | intro _
    | with_reducible apply State.readOnly_keeps
    | with_reducible apply Keeps.ite
    | split
    | dsimp only

theorem State.sysWrite_keeps {s0 s : State} (h : Keeps s0 s) (o : Nat) (v : W32) :
    Keeps s0 (State.sysWrite s o v) := by
  unfold State.sysWrite
  repeat' first
    | with_reducible assumption
    | intro _
    | with_reducible apply State.report_keeps
    | with_reducible apply State.mirrorStop_keeps
    | with_reducible apply State.readOnly_keeps
    | with_reducible apply State.mixed_keeps
    | with_reducible apply Keeps.ite
    | split
    | with_reducible apply Keeps.fields
    | rfl
    | dsimp only

theorem QueuePair.setCfg_bounded {q : QueuePair} (h : q.Bounded) (n : Nat) (v : W32) : (q.setCfg n v).Bounded :=
  QueuePair.putLost_bounded h

theorem State.mbRegWrite_keeps {s0 s : State} (h : Keeps s0 s) (o : Nat) (v : W32) :
    Keeps s0 (State.mbRegWrite s o v) := by
  unfold State.mbRegWrite
  repeat' first
    | with_reducible assumption
    | intro _
    | with_reducible apply State.modQp_keeps
    | with_reducible apply State.mbWrite_keeps
    | with_reducible apply State.mbTimeoutWrite_keeps
    | with_reducible apply State.mbCtrl_keeps
    | with_reducible apply State.h2dPush_keeps
    | with_reducible apply State.readOnly_keeps
    | with_reducible apply State.mixed_keeps
    | with_reducible apply Keeps.ite
    | split
    | exact QueuePair.setCfg_bounded (by assumption) _ _
    | dsimp only

theorem State.dmaWrite_keeps {s0 s : State} (h : Keeps s0 s) (o : Nat) (v : W32) :
    Keeps s0 (State.dmaWrite s o v) := by
  unfold State.dmaWrite
  repeat' first
    | with_reducible assumption
    | intro _
    | with_reducible apply State.runTo_keeps
    | with_reducible apply State.dmaFlush_keeps
    | with_reducible apply State.tailWrite_keeps
    | with_reducible apply State.headWrite_keeps
    | with_reducible apply State.ringRegWrite_keeps
    | with_reducible apply State.readOnly_keeps
    | with_reducible apply State.mixed_keeps
    | with_reducible apply Keeps.ite
    | split
    | dsimp only

theorem State.doorbell_keeps {s0 s : State} (h : Keeps s0 s) (k : Nat) :
    Keeps s0 (State.doorbell s k) := by
  unfold State.doorbell
  repeat' first
    | with_reducible assumption
    | intro _
    | with_reducible apply State.useFree_keeps
    | with_reducible apply State.closeSess_keeps
    | with_reducible apply State.ring_keeps
    | with_reducible apply State.selfTest_keeps
    | with_reducible apply State.lockDebug_keeps
    | with_reducible apply Keeps.ite
    | split
    | dsimp only

theorem State.regWrite_keeps {s0 s : State} (h : Keeps s0 s) (o : Nat) (v : W32) :
    Keeps s0 (State.regWrite s o v) := by
  unfold State.regWrite
  repeat' first
    | with_reducible assumption
    | intro _
    | with_reducible apply State.capture3_keeps
    | with_reducible apply State.readOnly_keeps
    | with_reducible apply State.mixed_keeps
    | with_reducible apply State.sysWrite_keeps
    | with_reducible apply State.mbRegWrite_keeps
    | with_reducible apply State.dmaWrite_keeps
    | with_reducible apply State.doorbell_keeps
    | with_reducible apply Keeps.ite
    | split
    | dsimp only

theorem execHostRegisterWrite_keeps {s0 s : State} (h : Keeps s0 s) (off : Nat) (v : W32) :
    OKeeps s0 (execHostRegisterWrite off v s) := by
  unfold execHostRegisterWrite
  repeat' first
    | with_reducible assumption
    | intro _
    | with_reducible apply OKeeps.next
    | with_reducible apply OKeeps.fault
    | with_reducible apply OKeeps.ite
    | with_reducible apply State.report_keeps
    | with_reducible apply State.regWrite_keeps
    | with_reducible apply Keeps.ite
    | split
    | dsimp only

theorem execHostOddSizeAccess_keeps {s0 s : State} (h : Keeps s0 s) (bar4 : Bool) (off len : Nat) (data : Option W32) :
    OKeeps s0 (execHostOddSizeAccess bar4 off len data s) := by
  unfold execHostOddSizeAccess
  repeat' first
    | with_reducible assumption
    | intro _
    | with_reducible apply OKeeps.next
    | with_reducible apply OKeeps.fault
    | with_reducible apply OKeeps.ite
    | with_reducible apply Keeps.iteFst
    | with_reducible apply State.report_keeps
    | with_reducible apply State.readBytes_keeps
    | with_reducible apply Keeps.ite
    | split
    | with_reducible apply Keeps.fields
    | rfl
    | dsimp only

end Sys2Proof.Machine
end

