-- ==== Sys2Proof/Laws/KeepMicroIo.lean ====
section
/-! SUPPORT. What the operations of Machine/MicroIo.lean keep. -/
namespace Sys2Proof.Machine

theorem State.tagRead_keeps {s0 s : State} (h : Keeps s0 s) (c : Nat) (w : BitVec 128) (t : Nat) (pop : Bool) :
    Keeps s0 (State.tagRead s c w t pop) := by
  unfold State.tagRead
  repeat' first
    | with_reducible assumption
    | intro _
    | with_reducible apply State.modMe_keeps
    | with_reducible apply Keeps.ite
    | split
    | dsimp only

theorem dpTag_keeps {s0 s : State} (h : Keeps s0 s) (c : Nat) (w : BitVec 128) (t : Nat) :
    Keeps s0 (dpTag c s w t).state := by
  unfold dpTag
  repeat' first
    | with_reducible assumption
    | intro _
    | with_reducible apply didOk_keeps
    | with_reducible apply didFault_keeps
    | with_reducible apply didHandled_keeps
    | with_reducible apply Keeps.iteDid
    | with_reducible apply State.modMe_keeps
    | with_reducible apply State.tagRead_keeps
    | with_reducible apply Keeps.ite
    | split
    | dsimp only

theorem dpEdge_keeps {s0 s : State} (h : Keeps s0 s) (c : Nat) (w : BitVec 128) (t : Nat) :
    Keeps s0 (dpEdge c s w t).state := by
  unfold dpEdge
  repeat' first
    | with_reducible assumption
    | intro _
    | with_reducible apply didOk_keeps
    | with_reducible apply didFault_keeps
    | with_reducible apply didHandled_keeps
    | with_reducible apply Keeps.iteDid
    | with_reducible apply Keeps.iteFst
    | with_reducible apply State.modMe_keeps
    | with_reducible apply State.eqPush_keeps
    | with_reducible apply Keeps.ite
    | split
    | dsimp only

theorem State.ioRead_keeps {s0 s : State} (h : Keeps s0 s) (c sel : Nat) :
    Keeps s0 (State.ioRead s c sel).1 := by
  unfold State.ioRead
  repeat' first
    | with_reducible assumption
    | intro _
    | with_reducible apply Keeps.iteFst
    | with_reducible apply State.regRead_keeps
    | with_reducible apply Keeps.ite
    | split
    | dsimp only

theorem State.ioWrite_keeps {s0 s u : State} (h : Keeps s0 s) (c sel t : Nat) (v : W32) (e : s.ioWrite c sel t v = some u) : Keeps s0 u := by
  unfold State.ioWrite at e
  dsimp only at e
  repeat' split at e
  all_goals (try cases e)
  · exact State.puWrite_keeps h _ _ _
  · exact State.puCtrl_keeps h _ _
  · exact State.modOut_keeps h _ _
  · exact State.modOut_keeps h _ _
  · exact State.modOut_keeps h _ _
  · exact State.eqPush_keeps h _ _ _ _ _
  · exact Keeps.fields h rfl rfl


theorem dpIo_keeps {s0 s : State} (h : Keeps s0 s) (c : Nat) (w : BitVec 128) (t : Nat) : Keeps s0 (dpIo c s w t).state := by
  unfold dpIo
  extract_lets sel r n e a u
  have k : Keeps s0 u := State.modMe_keeps (State.ioRead_keeps h _ _) _ _
  apply Keeps.iteDid
  · exact didHandled_keeps (Keeps.ite (State.nextAddr_keeps k _ _ _ _) (State.charge_keeps k _ _))
  split
  · rename_i e
    exact didOk_keeps (Keeps.ite (State.modMe_keeps (State.ioWrite_keeps h _ _ _ _ e) _ _) (State.ioWrite_keeps h _ _ _ _ e))
  · exact h


theorem dpBank_keeps {s0 s : State} (h : Keeps s0 s) (c : Nat) (e : Ecc) (w : BitVec 128) (t : Nat) :
    Keeps s0 (dpBank c e s w t).state := by
  unfold dpBank
  repeat' first
    | with_reducible assumption
    | intro _
    | with_reducible apply didOk_keeps
    | with_reducible apply didFault_keeps
    | with_reducible apply didHandled_keeps
    | with_reducible apply Keeps.iteDid
    | with_reducible apply Keeps.iteFst
    | with_reducible apply State.modMe_keeps
    | with_reducible apply State.pcAdd_keeps
    | with_reducible apply State.deny_keeps
    | with_reducible apply State.readWord_keeps
    | with_reducible apply State.writeWord_keeps
    | with_reducible apply Keeps.ite
    | split
    | dsimp only

theorem dpEvent_keeps {s0 s : State} (h : Keeps s0 s) (c : Nat) (w : BitVec 128) (t : Nat) :
    Keeps s0 (dpEvent c s w t).state := by
  unfold dpEvent
  repeat' first
    | with_reducible assumption
    | intro _
    | with_reducible apply didOk_keeps
    | with_reducible apply didFault_keeps
    | with_reducible apply didHandled_keeps
    | with_reducible apply Keeps.iteDid
    | with_reducible apply State.modMe_keeps
    | with_reducible apply State.raise_keeps
    | with_reducible apply State.notice_keeps
    | with_reducible apply Keeps.ite
    | split
    | dsimp only

theorem execUNop_keeps {s0 s : State} (h : Keeps s0 s) (c : Fin 4) (ue : Bool) :
    OKeeps s0 (execUNop c ue s) := by
  unfold execUNop
  repeat' first
    | with_reducible assumption
    | intro _
    | with_reducible apply OKeeps.next
    | with_reducible apply OKeeps.fault
    | with_reducible apply OKeeps.ite
    | with_reducible apply State.issue_keeps
    | with_reducible apply dpCtrl_keeps
    | with_reducible apply Keeps.ite
    | split
    | dsimp only

theorem execUReti_keeps {s0 s : State} (h : Keeps s0 s) (c : Fin 4) (ue : Bool) :
    OKeeps s0 (execUReti c ue s) := by
  unfold execUReti
  repeat' first
    | with_reducible assumption
    | intro _
    | with_reducible apply OKeeps.next
    | with_reducible apply OKeeps.fault
    | with_reducible apply OKeeps.ite
    | with_reducible apply State.issue_keeps
    | with_reducible apply dpCtrl_keeps
    | with_reducible apply Keeps.ite
    | split
    | dsimp only

theorem execUEi_keeps {s0 s : State} (h : Keeps s0 s) (c : Fin 4) (ue : Bool) :
    OKeeps s0 (execUEi c ue s) := by
  unfold execUEi
  repeat' first
    | with_reducible assumption
    | intro _
    | with_reducible apply OKeeps.next
    | with_reducible apply OKeeps.fault
    | with_reducible apply OKeeps.ite
    | with_reducible apply State.issue_keeps
    | with_reducible apply dpCtrl_keeps
    | with_reducible apply Keeps.ite
    | split
    | dsimp only

theorem execUDi_keeps {s0 s : State} (h : Keeps s0 s) (c : Fin 4) (ue : Bool) :
    OKeeps s0 (execUDi c ue s) := by
  unfold execUDi
  repeat' first
    | with_reducible assumption
    | intro _
    | with_reducible apply OKeeps.next
    | with_reducible apply OKeeps.fault
    | with_reducible apply OKeeps.ite
    | with_reducible apply State.issue_keeps
    | with_reducible apply dpCtrl_keeps
    | with_reducible apply Keeps.ite
    | split
    | dsimp only

theorem execULdlc_keeps {s0 s : State} (h : Keeps s0 s) (c : Fin 4) (ue : Bool) :
    OKeeps s0 (execULdlc c ue s) := by
  unfold execULdlc
  repeat' first
    | with_reducible assumption
    | intro _
    | with_reducible apply OKeeps.next
    | with_reducible apply OKeeps.fault
    | with_reducible apply OKeeps.ite
    | with_reducible apply State.issue_keeps
    | with_reducible apply dpCtrl_keeps
    | with_reducible apply Keeps.ite
    | split
    | dsimp only

theorem execUSetf_keeps {s0 s : State} (h : Keeps s0 s) (c : Fin 4) (ue : Bool) :
    OKeeps s0 (execUSetf c ue s) := by
  unfold execUSetf
  repeat' first
    | with_reducible assumption
    | intro _
    | with_reducible apply OKeeps.next
    | with_reducible apply OKeeps.fault
    | with_reducible apply OKeeps.ite
    | with_reducible apply State.issue_keeps
    | with_reducible apply dpCtrl_keeps
    | with_reducible apply Keeps.ite
    | split
    | dsimp only

theorem execUFault_keeps {s0 s : State} (h : Keeps s0 s) (c : Fin 4) (ue : Bool) :
    OKeeps s0 (execUFault c ue s) := by
  unfold execUFault
  repeat' first
    | with_reducible assumption
    | intro _
    | with_reducible apply OKeeps.next
    | with_reducible apply OKeeps.fault
    | with_reducible apply OKeeps.ite
    | with_reducible apply State.issue_keeps
    | with_reducible apply dpCtrl_keeps
    | with_reducible apply Keeps.ite
    | split
    | dsimp only

theorem execUAdd_keeps {s0 s : State} (h : Keeps s0 s) (c : Fin 4) (ue : Bool) :
    OKeeps s0 (execUAdd c ue s) := by
  unfold execUAdd
  repeat' first
    | with_reducible assumption
    | intro _
    | with_reducible apply OKeeps.next
    | with_reducible apply OKeeps.fault
    | with_reducible apply OKeeps.ite
    | with_reducible apply State.issue_keeps
    | with_reducible apply dpAlu_keeps
    | with_reducible apply Keeps.ite
    | split
    | dsimp only

theorem execUAdc_keeps {s0 s : State} (h : Keeps s0 s) (c : Fin 4) (ue : Bool) :
    OKeeps s0 (execUAdc c ue s) := by
  unfold execUAdc
  repeat' first
    | with_reducible assumption
    | intro _
    | with_reducible apply OKeeps.next
    | with_reducible apply OKeeps.fault
    | with_reducible apply OKeeps.ite
    | with_reducible apply State.issue_keeps
    | with_reducible apply dpAlu_keeps
    | with_reducible apply Keeps.ite
    | split
    | dsimp only

theorem execUSub_keeps {s0 s : State} (h : Keeps s0 s) (c : Fin 4) (ue : Bool) :
    OKeeps s0 (execUSub c ue s) := by
  unfold execUSub
  repeat' first
    | with_reducible assumption
    | intro _
    | with_reducible apply OKeeps.next
    | with_reducible apply OKeeps.fault
    | with_reducible apply OKeeps.ite
    | with_reducible apply State.issue_keeps
    | with_reducible apply dpAlu_keeps
    | with_reducible apply Keeps.ite
    | split
    | dsimp only

theorem execUSbc_keeps {s0 s : State} (h : Keeps s0 s) (c : Fin 4) (ue : Bool) :
    OKeeps s0 (execUSbc c ue s) := by
  unfold execUSbc
  repeat' first
    | with_reducible assumption
    | intro _
    | with_reducible apply OKeeps.next
    | with_reducible apply OKeeps.fault
    | with_reducible apply OKeeps.ite
    | with_reducible apply State.issue_keeps
    | with_reducible apply dpAlu_keeps
    | with_reducible apply Keeps.ite
    | split
    | dsimp only

theorem execUAnd_keeps {s0 s : State} (h : Keeps s0 s) (c : Fin 4) (ue : Bool) :
    OKeeps s0 (execUAnd c ue s) := by
  unfold execUAnd
  repeat' first
    | with_reducible assumption
    | intro _
    | with_reducible apply OKeeps.next
    | with_reducible apply OKeeps.fault
    | with_reducible apply OKeeps.ite
    | with_reducible apply State.issue_keeps
    | with_reducible apply dpAlu_keeps
    | with_reducible apply Keeps.ite
    | split
    | dsimp only

theorem execUOr_keeps {s0 s : State} (h : Keeps s0 s) (c : Fin 4) (ue : Bool) :
    OKeeps s0 (execUOr c ue s) := by
  unfold execUOr
  repeat' first
    | with_reducible assumption
    | intro _
    | with_reducible apply OKeeps.next
    | with_reducible apply OKeeps.fault
    | with_reducible apply OKeeps.ite
    | with_reducible apply State.issue_keeps
    | with_reducible apply dpAlu_keeps
    | with_reducible apply Keeps.ite
    | split
    | dsimp only

theorem execUXor_keeps {s0 s : State} (h : Keeps s0 s) (c : Fin 4) (ue : Bool) :
    OKeeps s0 (execUXor c ue s) := by
  unfold execUXor
  repeat' first
    | with_reducible assumption
    | intro _
    | with_reducible apply OKeeps.next
    | with_reducible apply OKeeps.fault
    | with_reducible apply OKeeps.ite
    | with_reducible apply State.issue_keeps
    | with_reducible apply dpAlu_keeps
    | with_reducible apply Keeps.ite
    | split
    | dsimp only

theorem execUAndn_keeps {s0 s : State} (h : Keeps s0 s) (c : Fin 4) (ue : Bool) :
    OKeeps s0 (execUAndn c ue s) := by
  unfold execUAndn
  repeat' first
    | with_reducible assumption
    | intro _
    | with_reducible apply OKeeps.next
    | with_reducible apply OKeeps.fault
    | with_reducible apply OKeeps.ite
    | with_reducible apply State.issue_keeps
    | with_reducible apply dpAlu_keeps
    | with_reducible apply Keeps.ite
    | split
    | dsimp only

theorem execUMin_keeps {s0 s : State} (h : Keeps s0 s) (c : Fin 4) (ue : Bool) :
    OKeeps s0 (execUMin c ue s) := by
  unfold execUMin
  repeat' first
    | with_reducible assumption
    | intro _
    | with_reducible apply OKeeps.next
    | with_reducible apply OKeeps.fault
    | with_reducible apply OKeeps.ite
    | with_reducible apply State.issue_keeps
    | with_reducible apply dpAlu_keeps
    | with_reducible apply Keeps.ite
    | split
    | dsimp only

theorem execUMax_keeps {s0 s : State} (h : Keeps s0 s) (c : Fin 4) (ue : Bool) :
    OKeeps s0 (execUMax c ue s) := by
  unfold execUMax
  repeat' first
    | with_reducible assumption
    | intro _
    | with_reducible apply OKeeps.next
    | with_reducible apply OKeeps.fault
    | with_reducible apply OKeeps.ite
    | with_reducible apply State.issue_keeps
    | with_reducible apply dpAlu_keeps
    | with_reducible apply Keeps.ite
    | split
    | dsimp only

theorem execUMinu_keeps {s0 s : State} (h : Keeps s0 s) (c : Fin 4) (ue : Bool) :
    OKeeps s0 (execUMinu c ue s) := by
  unfold execUMinu
  repeat' first
    | with_reducible assumption
    | intro _
    | with_reducible apply OKeeps.next
    | with_reducible apply OKeeps.fault
    | with_reducible apply OKeeps.ite
    | with_reducible apply State.issue_keeps
    | with_reducible apply dpAlu_keeps
    | with_reducible apply Keeps.ite
    | split
    | dsimp only

theorem execUMaxu_keeps {s0 s : State} (h : Keeps s0 s) (c : Fin 4) (ue : Bool) :
    OKeeps s0 (execUMaxu c ue s) := by
  unfold execUMaxu
  repeat' first
    | with_reducible assumption
    | intro _
    | with_reducible apply OKeeps.next
    | with_reducible apply OKeeps.fault
    | with_reducible apply OKeeps.ite
    | with_reducible apply State.issue_keeps
    | with_reducible apply dpAlu_keeps
    | with_reducible apply Keeps.ite
    | split
    | dsimp only

theorem execUAddsat_keeps {s0 s : State} (h : Keeps s0 s) (c : Fin 4) (ue : Bool) :
    OKeeps s0 (execUAddsat c ue s) := by
  unfold execUAddsat
  repeat' first
    | with_reducible assumption
    | intro _
    | with_reducible apply OKeeps.next
    | with_reducible apply OKeeps.fault
    | with_reducible apply OKeeps.ite
    | with_reducible apply State.issue_keeps
    | with_reducible apply dpAlu_keeps
    | with_reducible apply Keeps.ite
    | split
    | dsimp only

theorem execUSubsat_keeps {s0 s : State} (h : Keeps s0 s) (c : Fin 4) (ue : Bool) :
    OKeeps s0 (execUSubsat c ue s) := by
  unfold execUSubsat
  repeat' first
    | with_reducible assumption
    | intro _
    | with_reducible apply OKeeps.next
    | with_reducible apply OKeeps.fault
    | with_reducible apply OKeeps.ite
    | with_reducible apply State.issue_keeps
    | with_reducible apply dpAlu_keeps
    | with_reducible apply Keeps.ite
    | split
    | dsimp only

theorem execUCmp_keeps {s0 s : State} (h : Keeps s0 s) (c : Fin 4) (ue : Bool) :
    OKeeps s0 (execUCmp c ue s) := by
  unfold execUCmp
  repeat' first
    | with_reducible assumption
    | intro _
    | with_reducible apply OKeeps.next
    | with_reducible apply OKeeps.fault
    | with_reducible apply OKeeps.ite
    | with_reducible apply State.issue_keeps
    | with_reducible apply dpAlu_keeps
    | with_reducible apply Keeps.ite
    | split
    | dsimp only

theorem execUTst_keeps {s0 s : State} (h : Keeps s0 s) (c : Fin 4) (ue : Bool) :
    OKeeps s0 (execUTst c ue s) := by
  unfold execUTst
  repeat' first
    | with_reducible assumption
    | intro _
    | with_reducible apply OKeeps.next
    | with_reducible apply OKeeps.fault
    | with_reducible apply OKeeps.ite
    | with_reducible apply State.issue_keeps
    | with_reducible apply dpAlu_keeps
    | with_reducible apply Keeps.ite
    | split
    | dsimp only

theorem execUShl_keeps {s0 s : State} (h : Keeps s0 s) (c : Fin 4) (ue : Bool) :
    OKeeps s0 (execUShl c ue s) := by
  unfold execUShl
  repeat' first
    | with_reducible assumption
    | intro _
    | with_reducible apply OKeeps.next
    | with_reducible apply OKeeps.fault
    | with_reducible apply OKeeps.ite
    | with_reducible apply State.issue_keeps
    | with_reducible apply dpShift_keeps
    | with_reducible apply Keeps.ite
    | split
    | dsimp only

theorem execUShr_keeps {s0 s : State} (h : Keeps s0 s) (c : Fin 4) (ue : Bool) :
    OKeeps s0 (execUShr c ue s) := by
  unfold execUShr
  repeat' first
    | with_reducible assumption
    | intro _
    | with_reducible apply OKeeps.next
    | with_reducible apply OKeeps.fault
    | with_reducible apply OKeeps.ite
    | with_reducible apply State.issue_keeps
    | with_reducible apply dpShift_keeps
    | with_reducible apply Keeps.ite
    | split
    | dsimp only

theorem execUSar_keeps {s0 s : State} (h : Keeps s0 s) (c : Fin 4) (ue : Bool) :
    OKeeps s0 (execUSar c ue s) := by
  unfold execUSar
  repeat' first
    | with_reducible assumption
    | intro _
    | with_reducible apply OKeeps.next
    | with_reducible apply OKeeps.fault
    | with_reducible apply OKeeps.ite
    | with_reducible apply State.issue_keeps
    | with_reducible apply dpShift_keeps
    | with_reducible apply Keeps.ite
    | split
    | dsimp only

theorem execURol_keeps {s0 s : State} (h : Keeps s0 s) (c : Fin 4) (ue : Bool) :
    OKeeps s0 (execURol c ue s) := by
  unfold execURol
  repeat' first
    | with_reducible assumption
    | intro _
    | with_reducible apply OKeeps.next
    | with_reducible apply OKeeps.fault
    | with_reducible apply OKeeps.ite
    | with_reducible apply State.issue_keeps
    | with_reducible apply dpShift_keeps
    | with_reducible apply Keeps.ite
    | split
    | dsimp only

theorem execUExt_keeps {s0 s : State} (h : Keeps s0 s) (c : Fin 4) (ue : Bool) :
    OKeeps s0 (execUExt c ue s) := by
  unfold execUExt
  repeat' first
    | with_reducible assumption
    | intro _
    | with_reducible apply OKeeps.next
    | with_reducible apply OKeeps.fault
    | with_reducible apply OKeeps.ite
    | with_reducible apply State.issue_keeps
    | with_reducible apply dpShift_keeps
    | with_reducible apply Keeps.ite
    | split
    | dsimp only

theorem execUIns_keeps {s0 s : State} (h : Keeps s0 s) (c : Fin 4) (ue : Bool) :
    OKeeps s0 (execUIns c ue s) := by
  unfold execUIns
  repeat' first
    | with_reducible assumption
    | intro _
    | with_reducible apply OKeeps.next
    | with_reducible apply OKeeps.fault
    | with_reducible apply OKeeps.ite
    | with_reducible apply State.issue_keeps
    | with_reducible apply dpShift_keeps
    | with_reducible apply Keeps.ite
    | split
    | dsimp only

theorem execUClz_keeps {s0 s : State} (h : Keeps s0 s) (c : Fin 4) (ue : Bool) :
    OKeeps s0 (execUClz c ue s) := by
  unfold execUClz
  repeat' first
    | with_reducible assumption
    | intro _
    | with_reducible apply OKeeps.next
    | with_reducible apply OKeeps.fault
    | with_reducible apply OKeeps.ite
    | with_reducible apply State.issue_keeps
    | with_reducible apply dpShift_keeps
    | with_reducible apply Keeps.ite
    | split
    | dsimp only

theorem execUPopc_keeps {s0 s : State} (h : Keeps s0 s) (c : Fin 4) (ue : Bool) :
    OKeeps s0 (execUPopc c ue s) := by
  unfold execUPopc
  repeat' first
    | with_reducible assumption
    | intro _
    | with_reducible apply OKeeps.next
    | with_reducible apply OKeeps.fault
    | with_reducible apply OKeeps.ite
    | with_reducible apply State.issue_keeps
    | with_reducible apply dpShift_keeps
    | with_reducible apply Keeps.ite
    | split
    | dsimp only

theorem execUMull_keeps {s0 s : State} (h : Keeps s0 s) (c : Fin 4) (ue : Bool) :
    OKeeps s0 (execUMull c ue s) := by
  unfold execUMull
  repeat' first
    | with_reducible assumption
    | intro _
    | with_reducible apply OKeeps.next
    | with_reducible apply OKeeps.fault
    | with_reducible apply OKeeps.ite
    | with_reducible apply State.issue_keeps
    | with_reducible apply dpMul_keeps
    | with_reducible apply Keeps.ite
    | split
    | dsimp only

theorem execUMulhu_keeps {s0 s : State} (h : Keeps s0 s) (c : Fin 4) (ue : Bool) :
    OKeeps s0 (execUMulhu c ue s) := by
  unfold execUMulhu
  repeat' first
    | with_reducible assumption
    | intro _
    | with_reducible apply OKeeps.next
    | with_reducible apply OKeeps.fault
    | with_reducible apply OKeeps.ite
    | with_reducible apply State.issue_keeps
    | with_reducible apply dpMul_keeps
    | with_reducible apply Keeps.ite
    | split
    | dsimp only

theorem execUMulhs_keeps {s0 s : State} (h : Keeps s0 s) (c : Fin 4) (ue : Bool) :
    OKeeps s0 (execUMulhs c ue s) := by
  unfold execUMulhs
  repeat' first
    | with_reducible assumption
    | intro _
    | with_reducible apply OKeeps.next
    | with_reducible apply OKeeps.fault
    | with_reducible apply OKeeps.ite
    | with_reducible apply State.issue_keeps
    | with_reducible apply dpMul_keeps
    | with_reducible apply Keeps.ite
    | split
    | dsimp only

theorem execUTadd_keeps {s0 s : State} (h : Keeps s0 s) (c : Fin 4) (ue : Bool) :
    OKeeps s0 (execUTadd c ue s) := by
  unfold execUTadd
  repeat' first
    | with_reducible assumption
    | intro _
    | with_reducible apply OKeeps.next
    | with_reducible apply OKeeps.fault
    | with_reducible apply OKeeps.ite
    | with_reducible apply State.issue_keeps
    | with_reducible apply dpTime_keeps
    | with_reducible apply Keeps.ite
    | split
    | dsimp only

theorem execUTsub_keeps {s0 s : State} (h : Keeps s0 s) (c : Fin 4) (ue : Bool) :
    OKeeps s0 (execUTsub c ue s) := by
  unfold execUTsub
  repeat' first
    | with_reducible assumption
    | intro _
    | with_reducible apply OKeeps.next
    | with_reducible apply OKeeps.fault
    | with_reducible apply OKeeps.ite
    | with_reducible apply State.issue_keeps
    | with_reducible apply dpTime_keeps
    | with_reducible apply Keeps.ite
    | split
    | dsimp only

theorem execUTaddi_keeps {s0 s : State} (h : Keeps s0 s) (c : Fin 4) (ue : Bool) :
    OKeeps s0 (execUTaddi c ue s) := by
  unfold execUTaddi
  repeat' first
    | with_reducible assumption
    | intro _
    | with_reducible apply OKeeps.next
    | with_reducible apply OKeeps.fault
    | with_reducible apply OKeeps.ite
    | with_reducible apply State.issue_keeps
    | with_reducible apply dpTime_keeps
    | with_reducible apply Keeps.ite
    | split
    | dsimp only

theorem execUTdiff_keeps {s0 s : State} (h : Keeps s0 s) (c : Fin 4) (ue : Bool) :
    OKeeps s0 (execUTdiff c ue s) := by
  unfold execUTdiff
  repeat' first
    | with_reducible assumption
    | intro _
    | with_reducible apply OKeeps.next
    | with_reducible apply OKeeps.fault
    | with_reducible apply OKeeps.ite
    | with_reducible apply State.issue_keeps
    | with_reducible apply dpTime_keeps
    | with_reducible apply Keeps.ite
    | split
    | dsimp only

theorem execUTcmp_keeps {s0 s : State} (h : Keeps s0 s) (c : Fin 4) (ue : Bool) :
    OKeeps s0 (execUTcmp c ue s) := by
  unfold execUTcmp
  repeat' first
    | with_reducible assumption
    | intro _
    | with_reducible apply OKeeps.next
    | with_reducible apply OKeeps.fault
    | with_reducible apply OKeeps.ite
    | with_reducible apply State.issue_keeps
    | with_reducible apply dpTime_keeps
    | with_reducible apply Keeps.ite
    | split
    | dsimp only

theorem execUTld_keeps {s0 s : State} (h : Keeps s0 s) (c : Fin 4) (ue : Bool) :
    OKeeps s0 (execUTld c ue s) := by
  unfold execUTld
  repeat' first
    | with_reducible assumption
    | intro _
    | with_reducible apply OKeeps.next
    | with_reducible apply OKeeps.fault
    | with_reducible apply OKeeps.ite
    | with_reducible apply State.issue_keeps
    | with_reducible apply dpTime_keeps
    | with_reducible apply Keeps.ite
    | split
    | dsimp only

theorem execUTset_keeps {s0 s : State} (h : Keeps s0 s) (c : Fin 4) (ue : Bool) :
    OKeeps s0 (execUTset c ue s) := by
  unfold execUTset
  repeat' first
    | with_reducible assumption
    | intro _
    | with_reducible apply OKeeps.next
    | with_reducible apply OKeeps.fault
    | with_reducible apply OKeeps.ite
    | with_reducible apply State.issue_keeps
    | with_reducible apply dpTime_keeps
    | with_reducible apply Keeps.ite
    | split
    | dsimp only

theorem execUTlow_keeps {s0 s : State} (h : Keeps s0 s) (c : Fin 4) (ue : Bool) :
    OKeeps s0 (execUTlow c ue s) := by
  unfold execUTlow
  repeat' first
    | with_reducible assumption
    | intro _
    | with_reducible apply OKeeps.next
    | with_reducible apply OKeeps.fault
    | with_reducible apply OKeeps.ite
    | with_reducible apply State.issue_keeps
    | with_reducible apply dpTime_keeps
    | with_reducible apply Keeps.ite
    | split
    | dsimp only

theorem execUThigh_keeps {s0 s : State} (h : Keeps s0 s) (c : Fin 4) (ue : Bool) :
    OKeeps s0 (execUThigh c ue s) := by
  unfold execUThigh
  repeat' first
    | with_reducible assumption
    | intro _
    | with_reducible apply OKeeps.next
    | with_reducible apply OKeeps.fault
    | with_reducible apply OKeeps.ite
    | with_reducible apply State.issue_keeps
    | with_reducible apply dpTime_keeps
    | with_reducible apply Keeps.ite
    | split
    | dsimp only

theorem execUTmov_keeps {s0 s : State} (h : Keeps s0 s) (c : Fin 4) (ue : Bool) :
    OKeeps s0 (execUTmov c ue s) := by
  unfold execUTmov
  repeat' first
    | with_reducible assumption
    | intro _
    | with_reducible apply OKeeps.next
    | with_reducible apply OKeeps.fault
    | with_reducible apply OKeeps.ite
    | with_reducible apply State.issue_keeps
    | with_reducible apply dpTime_keeps
    | with_reducible apply Keeps.ite
    | split
    | dsimp only

theorem execUMovi_keeps {s0 s : State} (h : Keeps s0 s) (c : Fin 4) (ue : Bool) :
    OKeeps s0 (execUMovi c ue s) := by
  unfold execUMovi
  repeat' first
    | with_reducible assumption
    | intro _
    | with_reducible apply OKeeps.next
    | with_reducible apply OKeeps.fault
    | with_reducible apply OKeeps.ite
    | with_reducible apply State.issue_keeps
    | with_reducible apply dpMove_keeps
    | with_reducible apply Keeps.ite
    | split
    | dsimp only

theorem execUMov_keeps {s0 s : State} (h : Keeps s0 s) (c : Fin 4) (ue : Bool) :
    OKeeps s0 (execUMov c ue s) := by
  unfold execUMov
  repeat' first
    | with_reducible assumption
    | intro _
    | with_reducible apply OKeeps.next
    | with_reducible apply OKeeps.fault
    | with_reducible apply OKeeps.ite
    | with_reducible apply State.issue_keeps
    | with_reducible apply dpMove_keeps
    | with_reducible apply Keeps.ite
    | split
    | dsimp only

theorem execURdspec_keeps {s0 s : State} (h : Keeps s0 s) (c : Fin 4) (ue : Bool) :
    OKeeps s0 (execURdspec c ue s) := by
  unfold execURdspec
  repeat' first
    | with_reducible assumption
    | intro _
    | with_reducible apply OKeeps.next
    | with_reducible apply OKeeps.fault
    | with_reducible apply OKeeps.ite
    | with_reducible apply State.issue_keeps
    | with_reducible apply dpMove_keeps
    | with_reducible apply Keeps.ite
    | split
    | dsimp only

theorem execUWrspec_keeps {s0 s : State} (h : Keeps s0 s) (c : Fin 4) (ue : Bool) :
    OKeeps s0 (execUWrspec c ue s) := by
  unfold execUWrspec
  repeat' first
    | with_reducible assumption
    | intro _
    | with_reducible apply OKeeps.next
    | with_reducible apply OKeeps.fault
    | with_reducible apply OKeeps.ite
    | with_reducible apply State.issue_keeps
    | with_reducible apply dpMove_keeps
    | with_reducible apply Keeps.ite
    | split
    | dsimp only

theorem execUTagPop_keeps {s0 s : State} (h : Keeps s0 s) (c : Fin 4) (ue : Bool) :
    OKeeps s0 (execUTagPop c ue s) := by
  unfold execUTagPop
  repeat' first
    | with_reducible assumption
    | intro _
    | with_reducible apply OKeeps.next
    | with_reducible apply OKeeps.fault
    | with_reducible apply OKeeps.ite
    | with_reducible apply State.issue_keeps
    | with_reducible apply dpTag_keeps
    | with_reducible apply Keeps.ite
    | split
    | dsimp only

theorem execUTagPeek_keeps {s0 s : State} (h : Keeps s0 s) (c : Fin 4) (ue : Bool) :
    OKeeps s0 (execUTagPeek c ue s) := by
  unfold execUTagPeek
  repeat' first
    | with_reducible assumption
    | intro _
    | with_reducible apply OKeeps.next
    | with_reducible apply OKeeps.fault
    | with_reducible apply OKeeps.ite
    | with_reducible apply State.issue_keeps
    | with_reducible apply dpTag_keeps
    | with_reducible apply Keeps.ite
    | split
    | dsimp only

theorem execUTagLevel_keeps {s0 s : State} (h : Keeps s0 s) (c : Fin 4) (ue : Bool) :
    OKeeps s0 (execUTagLevel c ue s) := by
  unfold execUTagLevel
  repeat' first
    | with_reducible assumption
    | intro _
    | with_reducible apply OKeeps.next
    | with_reducible apply OKeeps.fault
    | with_reducible apply OKeeps.ite
    | with_reducible apply State.issue_keeps
    | with_reducible apply dpTag_keeps
    | with_reducible apply Keeps.ite
    | split
    | dsimp only

theorem execUTagClrloss_keeps {s0 s : State} (h : Keeps s0 s) (c : Fin 4) (ue : Bool) :
    OKeeps s0 (execUTagClrloss c ue s) := by
  unfold execUTagClrloss
  repeat' first
    | with_reducible assumption
    | intro _
    | with_reducible apply OKeeps.next
    | with_reducible apply OKeeps.fault
    | with_reducible apply OKeeps.ite
    | with_reducible apply State.issue_keeps
    | with_reducible apply dpTag_keeps
    | with_reducible apply Keeps.ite
    | split
    | dsimp only

theorem execUEdgePush_keeps {s0 s : State} (h : Keeps s0 s) (c : Fin 4) (ue : Bool) :
    OKeeps s0 (execUEdgePush c ue s) := by
  unfold execUEdgePush
  repeat' first
    | with_reducible assumption
    | intro _
    | with_reducible apply OKeeps.next
    | with_reducible apply OKeeps.fault
    | with_reducible apply OKeeps.ite
    | with_reducible apply State.issue_keeps
    | with_reducible apply dpEdge_keeps
    | with_reducible apply Keeps.ite
    | split
    | dsimp only

theorem execUEdgeQlevel_keeps {s0 s : State} (h : Keeps s0 s) (c : Fin 4) (ue : Bool) :
    OKeeps s0 (execUEdgeQlevel c ue s) := by
  unfold execUEdgeQlevel
  repeat' first
    | with_reducible assumption
    | intro _
    | with_reducible apply OKeeps.next
    | with_reducible apply OKeeps.fault
    | with_reducible apply OKeeps.ite
    | with_reducible apply State.issue_keeps
    | with_reducible apply dpEdge_keeps
    | with_reducible apply Keeps.ite
    | split
    | dsimp only

theorem execUIoRd_keeps {s0 s : State} (h : Keeps s0 s) (c : Fin 4) (ue : Bool) :
    OKeeps s0 (execUIoRd c ue s) := by
  unfold execUIoRd
  repeat' first
    | with_reducible assumption
    | intro _
    | with_reducible apply OKeeps.next
    | with_reducible apply OKeeps.fault
    | with_reducible apply OKeeps.ite
    | with_reducible apply State.issue_keeps
    | with_reducible apply dpIo_keeps
    | with_reducible apply Keeps.ite
    | split
    | dsimp only

theorem execUIoWr_keeps {s0 s : State} (h : Keeps s0 s) (c : Fin 4) (ue : Bool) :
    OKeeps s0 (execUIoWr c ue s) := by
  unfold execUIoWr
  repeat' first
    | with_reducible assumption
    | intro _
    | with_reducible apply OKeeps.next
    | with_reducible apply OKeeps.fault
    | with_reducible apply OKeeps.ite
    | with_reducible apply State.issue_keeps
    | with_reducible apply dpIo_keeps
    | with_reducible apply Keeps.ite
    | split
    | dsimp only

theorem execUBankLd_keeps {s0 s : State} (h : Keeps s0 s) (c : Fin 4) (ue : Bool) (e : Ecc) :
    OKeeps s0 (execUBankLd c ue e s) := by
  unfold execUBankLd
  repeat' first
    | with_reducible assumption
    | intro _
    | with_reducible apply OKeeps.next
    | with_reducible apply OKeeps.fault
    | with_reducible apply OKeeps.ite
    | with_reducible apply State.issue_keeps
    | with_reducible apply dpBank_keeps
    | with_reducible apply Keeps.ite
    | split
    | dsimp only

theorem execUBankSt_keeps {s0 s : State} (h : Keeps s0 s) (c : Fin 4) (ue : Bool) (e : Ecc) :
    OKeeps s0 (execUBankSt c ue e s) := by
  unfold execUBankSt
  repeat' first
    | with_reducible assumption
    | intro _
    | with_reducible apply OKeeps.next
    | with_reducible apply OKeeps.fault
    | with_reducible apply OKeeps.ite
    | with_reducible apply State.issue_keeps
    | with_reducible apply dpBank_keeps
    | with_reducible apply Keeps.ite
    | split
    | dsimp only

theorem execUBankAdd_keeps {s0 s : State} (h : Keeps s0 s) (c : Fin 4) (ue : Bool) (e : Ecc) :
    OKeeps s0 (execUBankAdd c ue e s) := by
  unfold execUBankAdd
  repeat' first
    | with_reducible assumption
    | intro _
    | with_reducible apply OKeeps.next
    | with_reducible apply OKeeps.fault
    | with_reducible apply OKeeps.ite
    | with_reducible apply State.issue_keeps
    | with_reducible apply dpBank_keeps
    | with_reducible apply Keeps.ite
    | split
    | dsimp only

theorem execUBankSwap_keeps {s0 s : State} (h : Keeps s0 s) (c : Fin 4) (ue : Bool) (e : Ecc) :
    OKeeps s0 (execUBankSwap c ue e s) := by
  unfold execUBankSwap
  repeat' first
    | with_reducible assumption
    | intro _
    | with_reducible apply OKeeps.next
    | with_reducible apply OKeeps.fault
    | with_reducible apply OKeeps.ite
    | with_reducible apply State.issue_keeps
    | with_reducible apply dpBank_keeps
    | with_reducible apply Keeps.ite
    | split
    | dsimp only

theorem execUSig_keeps {s0 s : State} (h : Keeps s0 s) (c : Fin 4) (ue : Bool) :
    OKeeps s0 (execUSig c ue s) := by
  unfold execUSig
  repeat' first
    | with_reducible assumption
    | intro _
    | with_reducible apply OKeeps.next
    | with_reducible apply OKeeps.fault
    | with_reducible apply OKeeps.ite
    | with_reducible apply State.issue_keeps
    | with_reducible apply dpEvent_keeps
    | with_reducible apply Keeps.ite
    | split
    | dsimp only

theorem execUEvclr_keeps {s0 s : State} (h : Keeps s0 s) (c : Fin 4) (ue : Bool) :
    OKeeps s0 (execUEvclr c ue s) := by
  unfold execUEvclr
  repeat' first
    | with_reducible assumption
    | intro _
    | with_reducible apply OKeeps.next
    | with_reducible apply OKeeps.fault
    | with_reducible apply OKeeps.ite
    | with_reducible apply State.issue_keeps
    | with_reducible apply dpEvent_keeps
    | with_reducible apply Keeps.ite
    | split
    | dsimp only

theorem execUEvclrm_keeps {s0 s : State} (h : Keeps s0 s) (c : Fin 4) (ue : Bool) :
    OKeeps s0 (execUEvclrm c ue s) := by
  unfold execUEvclrm
  repeat' first
    | with_reducible assumption
    | intro _
    | with_reducible apply OKeeps.next
    | with_reducible apply OKeeps.fault
    | with_reducible apply OKeeps.ite
    | with_reducible apply State.issue_keeps
    | with_reducible apply dpEvent_keeps
    | with_reducible apply Keeps.ite
    | split
    | dsimp only

theorem execUWait_keeps {s0 s : State} (h : Keeps s0 s) (c : Fin 4) (ue : Bool) :
    OKeeps s0 (execUWait c ue s) := by
  unfold execUWait
  repeat' first
    | with_reducible assumption
    | intro _
    | with_reducible apply OKeeps.next
    | with_reducible apply OKeeps.fault
    | with_reducible apply OKeeps.ite
    | with_reducible apply State.issue_keeps
    | with_reducible apply dpWait_keeps
    | with_reducible apply Keeps.ite
    | split
    | dsimp only

theorem datapath_keeps {s0 s : State} (h : Keeps s0 s) (c : Nat) (w : BitVec 128) (t : Nat) :
    Keeps s0 (datapath c s w t).state := by
  unfold datapath
  repeat' first
    | with_reducible assumption
    | intro _
    | with_reducible apply didOk_keeps
    | with_reducible apply didFault_keeps
    | with_reducible apply didHandled_keeps
    | with_reducible apply Keeps.iteDid
    | with_reducible apply dpCtrl_keeps
    | with_reducible apply dpAlu_keeps
    | with_reducible apply dpShift_keeps
    | with_reducible apply dpMul_keeps
    | with_reducible apply dpTime_keeps
    | with_reducible apply dpMove_keeps
    | with_reducible apply dpWait_keeps
    | with_reducible apply dpTag_keeps
    | with_reducible apply dpEdge_keeps
    | with_reducible apply dpIo_keeps
    | with_reducible apply dpBank_keeps
    | with_reducible apply dpEvent_keeps
    | with_reducible apply Keeps.ite
    | split
    | dsimp only

theorem execUJump_keeps {s0 s : State} (h : Keeps s0 s) (c : Fin 4) (ue : Bool) :
    OKeeps s0 (execUJump c ue s) := by
  unfold execUJump
  repeat' first
    | with_reducible assumption
    | intro _
    | with_reducible apply OKeeps.next
    | with_reducible apply OKeeps.fault
    | with_reducible apply OKeeps.ite
    | with_reducible apply State.issue_keeps
    | with_reducible apply datapath_keeps
    | with_reducible apply Keeps.ite
    | split
    | dsimp only

theorem execUCall_keeps {s0 s : State} (h : Keeps s0 s) (c : Fin 4) (ue : Bool) :
    OKeeps s0 (execUCall c ue s) := by
  unfold execUCall
  repeat' first
    | with_reducible assumption
    | intro _
    | with_reducible apply OKeeps.next
    | with_reducible apply OKeeps.fault
    | with_reducible apply OKeeps.ite
    | with_reducible apply State.issue_keeps
    | with_reducible apply datapath_keeps
    | with_reducible apply Keeps.ite
    | split
    | dsimp only

theorem execURet_keeps {s0 s : State} (h : Keeps s0 s) (c : Fin 4) (ue : Bool) :
    OKeeps s0 (execURet c ue s) := by
  unfold execURet
  repeat' first
    | with_reducible assumption
    | intro _
    | with_reducible apply OKeeps.next
    | with_reducible apply OKeeps.fault
    | with_reducible apply OKeeps.ite
    | with_reducible apply State.issue_keeps
    | with_reducible apply datapath_keeps
    | with_reducible apply Keeps.ite
    | split
    | dsimp only

theorem execULoop_keeps {s0 s : State} (h : Keeps s0 s) (c : Fin 4) (ue : Bool) :
    OKeeps s0 (execULoop c ue s) := by
  unfold execULoop
  repeat' first
    | with_reducible assumption
    | intro _
    | with_reducible apply OKeeps.next
    | with_reducible apply OKeeps.fault
    | with_reducible apply OKeeps.ite
    | with_reducible apply State.issue_keeps
    | with_reducible apply datapath_keeps
    | with_reducible apply Keeps.ite
    | split
    | dsimp only

theorem execUDispatch_keeps {s0 s : State} (h : Keeps s0 s) (c : Fin 4) (ue : Bool) :
    OKeeps s0 (execUDispatch c ue s) := by
  unfold execUDispatch
  repeat' first
    | with_reducible assumption
    | intro _
    | with_reducible apply OKeeps.next
    | with_reducible apply OKeeps.fault
    | with_reducible apply OKeeps.ite
    | with_reducible apply State.issue_keeps
    | with_reducible apply datapath_keeps
    | with_reducible apply Keeps.ite
    | split
    | dsimp only

theorem execUEnd_keeps {s0 s : State} (h : Keeps s0 s) (c : Fin 4) (ue : Bool) :
    OKeeps s0 (execUEnd c ue s) := by
  unfold execUEnd
  repeat' first
    | with_reducible assumption
    | intro _
    | with_reducible apply OKeeps.next
    | with_reducible apply OKeeps.fault
    | with_reducible apply OKeeps.ite
    | with_reducible apply State.issue_keeps
    | with_reducible apply datapath_keeps
    | with_reducible apply Keeps.ite
    | split
    | dsimp only

end Sys2Proof.Machine
end

