-- ==== Sys2Proof/Laws/KeepLoad.lean ====
section
/-! SUPPORT. What the operations of Machine/Load.lean keep. -/
namespace Sys2Proof.Machine

theorem State.vectorSources_keeps {s0 s : State} (h : Keeps s0 s) (c : Fin 4) (vs : List W32) :
    Keeps s0 (State.vectorSources s c vs) := by
  unfold State.vectorSources
  repeat' first
    | with_reducible assumption
    | intro _
    | with_reducible apply State.modSrc_keeps
    | with_reducible apply State.report_keeps
    | with_reducible apply Keeps.ite
    | with_reducible apply Keeps.each
    | with_reducible apply Keeps.foldl
    | with_reducible apply Keeps.foldlFst
    | split
    | dsimp only

theorem State.loadImage_keeps {s0 s : State} (h : Keeps s0 s) (c : Fin 4) (l : List W64) (h : BitVec 384) :
    Keeps s0 (State.loadImage s c l h) := by
  unfold State.loadImage
  repeat' first
    | with_reducible assumption
    | intro _
    | with_reducible apply State.modMe_keeps
    | with_reducible apply State.modSrc_keeps
    | with_reducible apply State.vectorSources_keeps
    | with_reducible apply Keeps.ite
    | with_reducible apply Keeps.foldl
    | with_reducible apply Keeps.foldlFst
    | with_reducible apply Keeps.fields
    | rfl
    | split
    | dsimp only

theorem cmdUcLoad_keeps {s0 s : State} (h : Keeps s0 s) (p : List W32) :
    Keeps s0 (cmdUcLoad s p).state := by
  unfold cmdUcLoad
  repeat' first
    | with_reducible assumption
    | intro _
    | with_reducible apply fail_keeps
    | with_reducible apply okay_keeps
    | with_reducible apply done_keeps
    | with_reducible apply wait_keeps
    | with_reducible apply Keeps.iteRes
    | with_reducible apply State.modMe_keeps
    | with_reducible apply State.settle_keeps
    | with_reducible apply State.countIdle_keeps
    | with_reducible apply State.giveBank_keeps
    | with_reducible apply State.loadImage_keeps
    | with_reducible apply Keeps.ite
    | with_reducible apply Keeps.each
    | with_reducible apply Keeps.foldl
    | with_reducible apply Keeps.foldlFst
    | split
    | dsimp only

end Sys2Proof.Machine
end

