-- ==== Sys2Proof/Laws/KeepMail.lean ====
section
/-! SUPPORT. What the operations of Machine/Mail.lean keep. -/
namespace Sys2Proof.Machine

theorem cmdSysPing_keeps {s0 s : State} (h : Keeps s0 s) (p : List W32) :
    Keeps s0 (cmdSysPing s p).state := by
  unfold cmdSysPing
  repeat' first
    | with_reducible assumption
    | intro _
    | with_reducible apply fail_keeps
    | with_reducible apply okay_keeps
    | with_reducible apply done_keeps
    | with_reducible apply wait_keeps
    | with_reducible apply Keeps.iteRes
    | with_reducible apply Keeps.ite
    | split
    | dsimp only

theorem cmdSysGetInfo_keeps {s0 s : State} (h : Keeps s0 s) (p : List W32) :
    Keeps s0 (cmdSysGetInfo s p).state := by
  unfold cmdSysGetInfo
  repeat' first
    | with_reducible assumption
    | intro _
    | with_reducible apply fail_keeps
    | with_reducible apply okay_keeps
    | with_reducible apply done_keeps
    | with_reducible apply wait_keeps
    | with_reducible apply Keeps.iteRes
    | with_reducible apply Keeps.ite
    | split
    | dsimp only

theorem cmdSysGetHealth_keeps {s0 s : State} (h : Keeps s0 s) :
    Keeps s0 (cmdSysGetHealth s).state := by
  unfold cmdSysGetHealth
  repeat' first
    | with_reducible assumption
    | intro _
    | with_reducible apply fail_keeps
    | with_reducible apply okay_keeps
    | with_reducible apply done_keeps
    | with_reducible apply wait_keeps
    | with_reducible apply Keeps.iteRes
    | with_reducible apply Keeps.ite
    | split
    | dsimp only

theorem State.command_keeps {s0 s : State} (h : Keeps s0 s) (mb op : Nat) (env : Env) (p : List W32) :
    Keeps s0 (State.command s mb op env p).state := by
  unfold State.command
  repeat' first
    | with_reducible assumption
    | intro _
    | with_reducible apply fail_keeps
    | with_reducible apply okay_keeps
    | with_reducible apply done_keeps
    | with_reducible apply wait_keeps
    | with_reducible apply Keeps.iteRes
    | with_reducible apply cmdChSetInput_keeps
    | with_reducible apply cmdTimerSet_keeps
    | with_reducible apply cmdTaskSet_keeps
    | with_reducible apply cmdTaskRemove_keeps
    | with_reducible apply cmdSchedCheck_keeps
    | with_reducible apply cmdCalRun_keeps
    | with_reducible apply cmdCalStatus_keeps
    | with_reducible apply cmdCalPolicy_keeps
    | with_reducible apply cmdEnvTdr_keeps
    | with_reducible apply cmdEnvMonitors_keeps
    | with_reducible apply cmdMeasDefine_keeps
    | with_reducible apply cmdMeasArm_keeps
    | with_reducible apply cmdMeasStop_keeps
    | with_reducible apply cmdMeasRead_keeps
    | with_reducible apply cmdHistDefine_keeps
    | with_reducible apply cmdChSetOutput_keeps
    | with_reducible apply cmdChEnable_keeps
    | with_reducible apply cmdChDisable_keeps
    | with_reducible apply cmdSynPattern_keeps
    | with_reducible apply cmdSynBrakeCfg_keeps
    | with_reducible apply cmdSynBrakeClear_keeps
    | with_reducible apply cmdSynPair_keeps
    | with_reducible apply cmdBankAssign_keeps
    | with_reducible apply cmdStreamOpen_keeps
    | with_reducible apply cmdStreamClose_keeps
    | with_reducible apply cmdTsSetReference_keeps
    | with_reducible apply cmdTsSetTick_keeps
    | with_reducible apply cmdTsDiscipline_keeps
    | with_reducible apply cmdTsSetTime_keeps
    | with_reducible apply cmdBxLink_keeps
    | with_reducible apply cmdBxAlign_keeps
    | with_reducible apply cmdQdDefine_keeps
    | with_reducible apply cmdQdRead_keeps
    | with_reducible apply cmdTsRtcSet_keeps
    | with_reducible apply cmdTsRtcRead_keeps
    | with_reducible apply cmdSysSetMirror_keeps
    | with_reducible apply cmdPwrSetState_keeps
    | with_reducible apply cmdPwrRetainBanks_keeps
    | with_reducible apply cmdUcLoad_keeps
    | with_reducible apply cmdSysPing_keeps
    | with_reducible apply cmdSysGetInfo_keeps
    | with_reducible apply cmdSysGetHealth_keeps
    | with_reducible apply Keeps.ite
    | split
    | dsimp only

theorem State.applyAt_keeps {s0 s : State} (h : Keeps s0 s) (op : Nat) (p : List W32) (b : Nat) :
    Keeps s0 (State.applyAt s op p b) := by
  unfold State.applyAt
  repeat' first
    | with_reducible assumption
    | intro _
    | with_reducible apply applySetInput_keeps
    | with_reducible apply applyTimerStart_keeps
    | with_reducible apply applyTaskSet_keeps
    | with_reducible apply applyTaskRemove_keeps
    | with_reducible apply applyCalPolicy_keeps
    | with_reducible apply State.applyTdr_keeps
    | with_reducible apply armSlots_keeps
    | with_reducible apply stopSlots_keeps
    | with_reducible apply applySetOutput_keeps
    | with_reducible apply applyEnable_keeps
    | with_reducible apply applyDisable_keeps
    | with_reducible apply applyPattern_keeps
    | with_reducible apply applyBrakeGuard_keeps
    | with_reducible apply applySynPair_keeps
    | with_reducible apply applyStreamStart_keeps
    | with_reducible apply applyStreamClose_keeps
    | with_reducible apply State.applyQd_keeps
    | with_reducible apply State.applyMirror_keeps
    | with_reducible apply State.applyPower_keeps
    | with_reducible apply Keeps.ite
    | split
    | dsimp only

theorem State.guarded_keeps {s0 s : State} (h : Keeps s0 s) (but mb op : Nat) (env : Env) (p : List W32) :
    Keeps s0 (State.guarded s but mb op env p).state := by
  unfold State.guarded
  repeat' first
    | with_reducible assumption
    | intro _
    | with_reducible apply fail_keeps
    | with_reducible apply okay_keeps
    | with_reducible apply done_keeps
    | with_reducible apply wait_keeps
    | with_reducible apply Keeps.iteRes
    | with_reducible apply State.command_keeps
    | with_reducible apply Keeps.ite
    | split
    | dsimp only

end Sys2Proof.Machine
end

