-- ==== Sys2Proof/Laws/KeepGroup.lean ====
section
/-! SUPPORT. What the operations of Machine/Group.lean keep. -/
namespace Sys2Proof.Machine

theorem State.modGrp_keeps {s0 s : State} (h : Keeps s0 s) (k : Nat) (f : Group → Group) :
    Keeps s0 (State.modGrp s k f) := by
  unfold State.modGrp
  repeat' first
    | with_reducible assumption
    | intro _
    | with_reducible apply Keeps.ite
    | with_reducible apply Keeps.fields
    | rfl
    | split
    | dsimp only

theorem State.groupAhead_keeps {s0 s : State} (h : Keeps s0 s) (k : Option Nat) :
    Keeps s0 (State.groupAhead s k) := by
  unfold State.groupAhead
  repeat' first
    | with_reducible assumption
    | intro _
    | with_reducible apply State.applyAt_keeps
    | with_reducible apply State.modGrp_keeps
    | with_reducible apply Keeps.ite
    | with_reducible apply Keeps.foldl
    | with_reducible apply Keeps.foldlFst
    | split
    | dsimp only

theorem cmdGrpPrepare_keeps {s0 s : State} (h : Keeps s0 s) (env : Env) (p : List W32) :
    Keeps s0 (cmdGrpPrepare s env p).state := by
  unfold cmdGrpPrepare
  repeat' first
    | with_reducible assumption
    | intro _
    | with_reducible apply fail_keeps
    | with_reducible apply okay_keeps
    | with_reducible apply done_keeps
    | with_reducible apply wait_keeps
    | with_reducible apply Keeps.iteRes
    | with_reducible apply State.modGrp_keeps
    | with_reducible apply State.groupAhead_keeps
    | with_reducible apply Keeps.ite
    | split
    | dsimp only

theorem State.stageMember_keeps {s0 s : State} (h : Keeps s0 s) (b : Nat) (m : Member) :
    Keeps s0 (State.stageMember s b m) := by
  unfold State.stageMember
  repeat' first
    | with_reducible assumption
    | intro _
    | with_reducible apply State.defer_keeps
    | with_reducible apply applyPattern_keeps
    | with_reducible apply Keeps.ite
    | split
    | dsimp only

theorem cmdGrpCommit_keeps {s0 s : State} (h : Keeps s0 s) (p : List W32) :
    Keeps s0 (cmdGrpCommit s p).state := by
  unfold cmdGrpCommit
  repeat' first
    | with_reducible assumption
    | intro _
    | with_reducible apply fail_keeps
    | with_reducible apply okay_keeps
    | with_reducible apply done_keeps
    | with_reducible apply wait_keeps
    | with_reducible apply Keeps.iteRes
    | with_reducible apply State.modGrp_keeps
    | with_reducible apply State.stageMember_keeps
    | with_reducible apply Keeps.ite
    | with_reducible apply Keeps.foldl
    | with_reducible apply Keeps.foldlFst
    | split
    | dsimp only

theorem cmdGrpAbandon_keeps {s0 s : State} (h : Keeps s0 s) (p : List W32) :
    Keeps s0 (cmdGrpAbandon s p).state := by
  unfold cmdGrpAbandon
  repeat' first
    | with_reducible assumption
    | intro _
    | with_reducible apply fail_keeps
    | with_reducible apply okay_keeps
    | with_reducible apply done_keeps
    | with_reducible apply wait_keeps
    | with_reducible apply Keeps.iteRes
    | with_reducible apply State.modGrp_keeps
    | with_reducible apply Keeps.ite
    | split
    | dsimp only

theorem State.releaseGroups_keeps {s0 s : State} (h : Keeps s0 s) (b : Nat) :
    Keeps s0 (State.releaseGroups s b) := by
  unfold State.releaseGroups
  repeat' first
    | with_reducible assumption
    | intro _
    | with_reducible apply Keeps.ite
    | with_reducible apply Keeps.fields
    | rfl
    | split
    | dsimp only

end Sys2Proof.Machine
end

