-- ==== Sys2Proof/Laws/KeepTake.lean ====
section
/-! SUPPORT. What the operations of Machine/Take.lean keep. -/
namespace Sys2Proof.Machine

theorem State.finish_keeps {s0 : State} {r : Res} (h : Keeps s0 r.state) (mb : Nat) : Keeps s0 (State.finish r mb) := by
  unfold State.finish
  split
  · exact State.mbDone_keeps (Keeps.ite (State.modMb_keeps h _ _) h) _ _ _
  · exact State.modMb_keeps h _ _

theorem State.runPacket_keeps {s0 s : State} (h : Keeps s0 s) (mb : Nat) (env : Env) :
    Keeps s0 (State.runPacket s mb env) := by
  unfold State.runPacket
  repeat' first
    | with_reducible assumption
    | intro _
    | with_reducible apply State.mbDone_keeps
    | with_reducible apply State.sysReset_keeps
    | with_reducible apply State.guarded_keeps
    | with_reducible apply cmdGrpPrepare_keeps
    | with_reducible apply cmdGrpCommit_keeps
    | with_reducible apply cmdGrpAbandon_keeps
    | with_reducible apply Keeps.ite
    | split
    | with_reducible apply State.finish_keeps
    | with_reducible apply okay_keeps
    | dsimp only

theorem State.runSecure_keeps {s0 s : State} (h : Keeps s0 s) (mb : Nat) (env : Env) :
    Keeps s0 (State.runSecure s mb env) := by
  unfold State.runSecure
  repeat' first
    | with_reducible assumption
    | intro _
    | with_reducible apply State.modMb_keeps
    | with_reducible apply State.mbDone_keeps
    | with_reducible apply State.secDeliver_keeps
    | with_reducible apply Keeps.ite
    | split
    | dsimp only

theorem State.take_keeps {s0 s : State} (h : Keeps s0 s) (mb : Nat) (env : Env) :
    Keeps s0 (State.take s mb env) := by
  unfold State.take
  repeat' first
    | with_reducible assumption
    | intro _
    | with_reducible apply State.mbTake_keeps
    | with_reducible apply State.runPacket_keeps
    | with_reducible apply State.runSecure_keeps
    | with_reducible apply Keeps.ite
    | split
    | dsimp only

theorem execMessageTake_keeps {s0 s : State} (h : Keeps s0 s) (mb : Fin 8) (e : Env) :
    OKeeps s0 (execMessageTake mb e s) := by
  unfold execMessageTake
  repeat' first
    | with_reducible assumption
    | intro _
    | with_reducible apply OKeeps.next
    | with_reducible apply OKeeps.fault
    | with_reducible apply OKeeps.ite
    | with_reducible apply State.take_keeps
    | with_reducible apply Keeps.ite
    | split
    | dsimp only

theorem execGo_keeps {s0 s : State} (h : Keeps s0 s) (mb : Fin 8) :
    OKeeps s0 (execGo mb s) := by
  unfold execGo
  repeat' first
    | with_reducible assumption
    | intro _
    | with_reducible apply OKeeps.next
    | with_reducible apply OKeeps.fault
    | with_reducible apply OKeeps.ite
    | with_reducible apply State.mbGo_keeps
    | with_reducible apply Keeps.ite
    | split
    | dsimp only

theorem execSecureTimeout_keeps {s0 s : State} (h : Keeps s0 s) (mb : Fin 8) :
    OKeeps s0 (execSecureTimeout mb s) := by
  unfold execSecureTimeout
  repeat' first
    | with_reducible assumption
    | intro _
    | with_reducible apply OKeeps.next
    | with_reducible apply OKeeps.fault
    | with_reducible apply OKeeps.ite
    | with_reducible apply State.runTo_keeps
    | with_reducible apply State.mbDone_keeps
    | with_reducible apply Keeps.ite
    | split
    | dsimp only

theorem State.hostPost_keeps {s0 s : State} (h : Keeps s0 s) (m : Msg) (op : Nat) (p : List W32) :
    Keeps s0 (State.hostPost s m op p) := by
  unfold State.hostPost
  repeat' first
    | with_reducible assumption
    | intro _
    | with_reducible apply State.mbWrite_keeps
    | with_reducible apply State.mbGo_keeps
    | with_reducible apply Keeps.ite
    | with_reducible apply Keeps.each
    | split
    | dsimp only

theorem State.send_keeps {s0 s : State} (h : Keeps s0 s) (m : Msg) (op : Nat) (p : List W32) :
    Keeps s0 (State.send s m op p) := by
  unfold State.send
  repeat' first
    | with_reducible assumption
    | intro _
    | with_reducible apply State.take_keeps
    | with_reducible apply State.hostPost_keeps
    | with_reducible apply Keeps.ite
    | split
    | dsimp only

theorem execSysPing_keeps {s0 s : State} (h : Keeps s0 s) (m : Msg) :
    OKeeps s0 (execSysPing m s) := by
  unfold execSysPing
  repeat' first
    | with_reducible assumption
    | intro _
    | with_reducible apply OKeeps.next
    | with_reducible apply OKeeps.fault
    | with_reducible apply OKeeps.ite
    | with_reducible apply State.send_keeps
    | with_reducible apply Keeps.ite
    | split
    | dsimp only

theorem execSysGetInfo_keeps {s0 s : State} (h : Keeps s0 s) (m : Msg) :
    OKeeps s0 (execSysGetInfo m s) := by
  unfold execSysGetInfo
  repeat' first
    | with_reducible assumption
    | intro _
    | with_reducible apply OKeeps.next
    | with_reducible apply OKeeps.fault
    | with_reducible apply OKeeps.ite
    | with_reducible apply State.send_keeps
    | with_reducible apply Keeps.ite
    | split
    | dsimp only

theorem execSysGetHealth_keeps {s0 s : State} (h : Keeps s0 s) (m : Msg) :
    OKeeps s0 (execSysGetHealth m s) := by
  unfold execSysGetHealth
  repeat' first
    | with_reducible assumption
    | intro _
    | with_reducible apply OKeeps.next
    | with_reducible apply OKeeps.fault
    | with_reducible apply OKeeps.ite
    | with_reducible apply State.send_keeps
    | with_reducible apply Keeps.ite
    | split
    | dsimp only

theorem execSysResetFirmware_keeps {s0 s : State} (h : Keeps s0 s) (m : Msg) :
    OKeeps s0 (execSysResetFirmware m s) := by
  unfold execSysResetFirmware
  repeat' first
    | with_reducible assumption
    | intro _
    | with_reducible apply OKeeps.next
    | with_reducible apply OKeeps.fault
    | with_reducible apply OKeeps.ite
    | with_reducible apply State.send_keeps
    | with_reducible apply Keeps.ite
    | split
    | dsimp only

theorem execSysResetDevice_keeps {s0 s : State} (h : Keeps s0 s) (m : Msg) :
    OKeeps s0 (execSysResetDevice m s) := by
  unfold execSysResetDevice
  repeat' first
    | with_reducible assumption
    | intro _
    | with_reducible apply OKeeps.next
    | with_reducible apply OKeeps.fault
    | with_reducible apply OKeeps.ite
    | with_reducible apply State.send_keeps
    | with_reducible apply Keeps.ite
    | split
    | dsimp only

theorem execSysSetMirror_keeps {s0 s : State} (h : Keeps s0 s) (m : Msg) :
    OKeeps s0 (execSysSetMirror m s) := by
  unfold execSysSetMirror
  repeat' first
    | with_reducible assumption
    | intro _
    | with_reducible apply OKeeps.next
    | with_reducible apply OKeeps.fault
    | with_reducible apply OKeeps.ite
    | with_reducible apply State.send_keeps
    | with_reducible apply Keeps.ite
    | split
    | dsimp only

theorem execTsSetReference_keeps {s0 s : State} (h : Keeps s0 s) (m : Msg) :
    OKeeps s0 (execTsSetReference m s) := by
  unfold execTsSetReference
  repeat' first
    | with_reducible assumption
    | intro _
    | with_reducible apply OKeeps.next
    | with_reducible apply OKeeps.fault
    | with_reducible apply OKeeps.ite
    | with_reducible apply State.send_keeps
    | with_reducible apply Keeps.ite
    | split
    | dsimp only

theorem execTsSetTick_keeps {s0 s : State} (h : Keeps s0 s) (m : Msg) :
    OKeeps s0 (execTsSetTick m s) := by
  unfold execTsSetTick
  repeat' first
    | with_reducible assumption
    | intro _
    | with_reducible apply OKeeps.next
    | with_reducible apply OKeeps.fault
    | with_reducible apply OKeeps.ite
    | with_reducible apply State.send_keeps
    | with_reducible apply Keeps.ite
    | split
    | dsimp only

theorem execTsDiscipline_keeps {s0 s : State} (h : Keeps s0 s) (m : Msg) :
    OKeeps s0 (execTsDiscipline m s) := by
  unfold execTsDiscipline
  repeat' first
    | with_reducible assumption
    | intro _
    | with_reducible apply OKeeps.next
    | with_reducible apply OKeeps.fault
    | with_reducible apply OKeeps.ite
    | with_reducible apply State.send_keeps
    | with_reducible apply Keeps.ite
    | split
    | dsimp only

theorem execTsSetTimeAtTick_keeps {s0 s : State} (h : Keeps s0 s) (m : Msg) :
    OKeeps s0 (execTsSetTimeAtTick m s) := by
  unfold execTsSetTimeAtTick
  repeat' first
    | with_reducible assumption
    | intro _
    | with_reducible apply OKeeps.next
    | with_reducible apply OKeeps.fault
    | with_reducible apply OKeeps.ite
    | with_reducible apply State.send_keeps
    | with_reducible apply Keeps.ite
    | split
    | dsimp only

theorem execTsSetTimeAtPps_keeps {s0 s : State} (h : Keeps s0 s) (m : Msg) :
    OKeeps s0 (execTsSetTimeAtPps m s) := by
  unfold execTsSetTimeAtPps
  repeat' first
    | with_reducible assumption
    | intro _
    | with_reducible apply OKeeps.next
    | with_reducible apply OKeeps.fault
    | with_reducible apply OKeeps.ite
    | with_reducible apply State.send_keeps
    | with_reducible apply Keeps.ite
    | split
    | dsimp only

theorem execTsSetTimeCancel_keeps {s0 s : State} (h : Keeps s0 s) (m : Msg) :
    OKeeps s0 (execTsSetTimeCancel m s) := by
  unfold execTsSetTimeCancel
  repeat' first
    | with_reducible assumption
    | intro _
    | with_reducible apply OKeeps.next
    | with_reducible apply OKeeps.fault
    | with_reducible apply OKeeps.ite
    | with_reducible apply State.send_keeps
    | with_reducible apply Keeps.ite
    | split
    | dsimp only

theorem execTsRtcSetNow_keeps {s0 s : State} (h : Keeps s0 s) (m : Msg) :
    OKeeps s0 (execTsRtcSetNow m s) := by
  unfold execTsRtcSetNow
  repeat' first
    | with_reducible assumption
    | intro _
    | with_reducible apply OKeeps.next
    | with_reducible apply OKeeps.fault
    | with_reducible apply OKeeps.ite
    | with_reducible apply State.send_keeps
    | with_reducible apply Keeps.ite
    | split
    | dsimp only

theorem execTsRtcSetAtNextMark_keeps {s0 s : State} (h : Keeps s0 s) (m : Msg) :
    OKeeps s0 (execTsRtcSetAtNextMark m s) := by
  unfold execTsRtcSetAtNextMark
  repeat' first
    | with_reducible assumption
    | intro _
    | with_reducible apply OKeeps.next
    | with_reducible apply OKeeps.fault
    | with_reducible apply OKeeps.ite
    | with_reducible apply State.send_keeps
    | with_reducible apply Keeps.ite
    | split
    | dsimp only

theorem execTsRtcSetAtPps_keeps {s0 s : State} (h : Keeps s0 s) (m : Msg) :
    OKeeps s0 (execTsRtcSetAtPps m s) := by
  unfold execTsRtcSetAtPps
  repeat' first
    | with_reducible assumption
    | intro _
    | with_reducible apply OKeeps.next
    | with_reducible apply OKeeps.fault
    | with_reducible apply OKeeps.ite
    | with_reducible apply State.send_keeps
    | with_reducible apply Keeps.ite
    | split
    | dsimp only

theorem execTsRtcSetOffsetOnly_keeps {s0 s : State} (h : Keeps s0 s) (m : Msg) :
    OKeeps s0 (execTsRtcSetOffsetOnly m s) := by
  unfold execTsRtcSetOffsetOnly
  repeat' first
    | with_reducible assumption
    | intro _
    | with_reducible apply OKeeps.next
    | with_reducible apply OKeeps.fault
    | with_reducible apply OKeeps.ite
    | with_reducible apply State.send_keeps
    | with_reducible apply Keeps.ite
    | split
    | dsimp only

theorem execTsRtcRead_keeps {s0 s : State} (h : Keeps s0 s) (m : Msg) :
    OKeeps s0 (execTsRtcRead m s) := by
  unfold execTsRtcRead
  repeat' first
    | with_reducible assumption
    | intro _
    | with_reducible apply OKeeps.next
    | with_reducible apply OKeeps.fault
    | with_reducible apply OKeeps.ite
    | with_reducible apply State.send_keeps
    | with_reducible apply Keeps.ite
    | split
    | dsimp only

theorem execChSetInput_keeps {s0 s : State} (h : Keeps s0 s) (m : Msg) :
    OKeeps s0 (execChSetInput m s) := by
  unfold execChSetInput
  repeat' first
    | with_reducible assumption
    | intro _
    | with_reducible apply OKeeps.next
    | with_reducible apply OKeeps.fault
    | with_reducible apply OKeeps.ite
    | with_reducible apply State.send_keeps
    | with_reducible apply Keeps.ite
    | split
    | dsimp only

theorem execChSetOutput_keeps {s0 s : State} (h : Keeps s0 s) (m : Msg) :
    OKeeps s0 (execChSetOutput m s) := by
  unfold execChSetOutput
  repeat' first
    | with_reducible assumption
    | intro _
    | with_reducible apply OKeeps.next
    | with_reducible apply OKeeps.fault
    | with_reducible apply OKeeps.ite
    | with_reducible apply State.send_keeps
    | with_reducible apply Keeps.ite
    | split
    | dsimp only

theorem execChEnable_keeps {s0 s : State} (h : Keeps s0 s) (m : Msg) :
    OKeeps s0 (execChEnable m s) := by
  unfold execChEnable
  repeat' first
    | with_reducible assumption
    | intro _
    | with_reducible apply OKeeps.next
    | with_reducible apply OKeeps.fault
    | with_reducible apply OKeeps.ite
    | with_reducible apply State.send_keeps
    | with_reducible apply Keeps.ite
    | split
    | dsimp only

theorem execChDisable_keeps {s0 s : State} (h : Keeps s0 s) (m : Msg) :
    OKeeps s0 (execChDisable m s) := by
  unfold execChDisable
  repeat' first
    | with_reducible assumption
    | intro _
    | with_reducible apply OKeeps.next
    | with_reducible apply OKeeps.fault
    | with_reducible apply OKeeps.ite
    | with_reducible apply State.send_keeps
    | with_reducible apply Keeps.ite
    | split
    | dsimp only

theorem execMeasDefine_keeps {s0 s : State} (h : Keeps s0 s) (m : Msg) :
    OKeeps s0 (execMeasDefine m s) := by
  unfold execMeasDefine
  repeat' first
    | with_reducible assumption
    | intro _
    | with_reducible apply OKeeps.next
    | with_reducible apply OKeeps.fault
    | with_reducible apply OKeeps.ite
    | with_reducible apply State.send_keeps
    | with_reducible apply Keeps.ite
    | split
    | dsimp only

theorem execMeasArm_keeps {s0 s : State} (h : Keeps s0 s) (m : Msg) :
    OKeeps s0 (execMeasArm m s) := by
  unfold execMeasArm
  repeat' first
    | with_reducible assumption
    | intro _
    | with_reducible apply OKeeps.next
    | with_reducible apply OKeeps.fault
    | with_reducible apply OKeeps.ite
    | with_reducible apply State.send_keeps
    | with_reducible apply Keeps.ite
    | split
    | dsimp only

theorem execMeasStop_keeps {s0 s : State} (h : Keeps s0 s) (m : Msg) :
    OKeeps s0 (execMeasStop m s) := by
  unfold execMeasStop
  repeat' first
    | with_reducible assumption
    | intro _
    | with_reducible apply OKeeps.next
    | with_reducible apply OKeeps.fault
    | with_reducible apply OKeeps.ite
    | with_reducible apply State.send_keeps
    | with_reducible apply Keeps.ite
    | split
    | dsimp only

theorem execMeasRead_keeps {s0 s : State} (h : Keeps s0 s) (m : Msg) :
    OKeeps s0 (execMeasRead m s) := by
  unfold execMeasRead
  repeat' first
    | with_reducible assumption
    | intro _
    | with_reducible apply OKeeps.next
    | with_reducible apply OKeeps.fault
    | with_reducible apply OKeeps.ite
    | with_reducible apply State.send_keeps
    | with_reducible apply Keeps.ite
    | split
    | dsimp only

theorem execHistDefine_keeps {s0 s : State} (h : Keeps s0 s) (m : Msg) :
    OKeeps s0 (execHistDefine m s) := by
  unfold execHistDefine
  repeat' first
    | with_reducible assumption
    | intro _
    | with_reducible apply OKeeps.next
    | with_reducible apply OKeeps.fault
    | with_reducible apply OKeeps.ite
    | with_reducible apply State.send_keeps
    | with_reducible apply Keeps.ite
    | split
    | dsimp only

theorem execSynPattern_keeps {s0 s : State} (h : Keeps s0 s) (m : Msg) :
    OKeeps s0 (execSynPattern m s) := by
  unfold execSynPattern
  repeat' first
    | with_reducible assumption
    | intro _
    | with_reducible apply OKeeps.next
    | with_reducible apply OKeeps.fault
    | with_reducible apply OKeeps.ite
    | with_reducible apply State.send_keeps
    | with_reducible apply Keeps.ite
    | split
    | dsimp only

theorem execSynPatternShadow_keeps {s0 s : State} (h : Keeps s0 s) (m : Msg) :
    OKeeps s0 (execSynPatternShadow m s) := by
  unfold execSynPatternShadow
  repeat' first
    | with_reducible assumption
    | intro _
    | with_reducible apply OKeeps.next
    | with_reducible apply OKeeps.fault
    | with_reducible apply OKeeps.ite
    | with_reducible apply State.send_keeps
    | with_reducible apply Keeps.ite
    | split
    | dsimp only

theorem execSynPair_keeps {s0 s : State} (h : Keeps s0 s) (m : Msg) :
    OKeeps s0 (execSynPair m s) := by
  unfold execSynPair
  repeat' first
    | with_reducible assumption
    | intro _
    | with_reducible apply OKeeps.next
    | with_reducible apply OKeeps.fault
    | with_reducible apply OKeeps.ite
    | with_reducible apply State.send_keeps
    | with_reducible apply Keeps.ite
    | split
    | dsimp only

theorem execSynBrakeCfgSetInput_keeps {s0 s : State} (h : Keeps s0 s) (m : Msg) :
    OKeeps s0 (execSynBrakeCfgSetInput m s) := by
  unfold execSynBrakeCfgSetInput
  repeat' first
    | with_reducible assumption
    | intro _
    | with_reducible apply OKeeps.next
    | with_reducible apply OKeeps.fault
    | with_reducible apply OKeeps.ite
    | with_reducible apply State.send_keeps
    | with_reducible apply Keeps.ite
    | split
    | dsimp only

theorem execSynBrakeCfgSetGuard_keeps {s0 s : State} (h : Keeps s0 s) (m : Msg) :
    OKeeps s0 (execSynBrakeCfgSetGuard m s) := by
  unfold execSynBrakeCfgSetGuard
  repeat' first
    | with_reducible assumption
    | intro _
    | with_reducible apply OKeeps.next
    | with_reducible apply OKeeps.fault
    | with_reducible apply OKeeps.ite
    | with_reducible apply State.send_keeps
    | with_reducible apply Keeps.ite
    | split
    | dsimp only

theorem execSynBrakeClear_keeps {s0 s : State} (h : Keeps s0 s) (m : Msg) :
    OKeeps s0 (execSynBrakeClear m s) := by
  unfold execSynBrakeClear
  repeat' first
    | with_reducible assumption
    | intro _
    | with_reducible apply OKeeps.next
    | with_reducible apply OKeeps.fault
    | with_reducible apply OKeeps.ite
    | with_reducible apply State.send_keeps
    | with_reducible apply Keeps.ite
    | split
    | dsimp only

theorem execQdDefine_keeps {s0 s : State} (h : Keeps s0 s) (m : Msg) :
    OKeeps s0 (execQdDefine m s) := by
  unfold execQdDefine
  repeat' first
    | with_reducible assumption
    | intro _
    | with_reducible apply OKeeps.next
    | with_reducible apply OKeeps.fault
    | with_reducible apply OKeeps.ite
    | with_reducible apply State.send_keeps
    | with_reducible apply Keeps.ite
    | split
    | dsimp only

theorem execQdRead_keeps {s0 s : State} (h : Keeps s0 s) (m : Msg) :
    OKeeps s0 (execQdRead m s) := by
  unfold execQdRead
  repeat' first
    | with_reducible assumption
    | intro _
    | with_reducible apply OKeeps.next
    | with_reducible apply OKeeps.fault
    | with_reducible apply OKeeps.ite
    | with_reducible apply State.send_keeps
    | with_reducible apply Keeps.ite
    | split
    | dsimp only

theorem execUcLoad_keeps {s0 s : State} (h : Keeps s0 s) (m : Msg) :
    OKeeps s0 (execUcLoad m s) := by
  unfold execUcLoad
  repeat' first
    | with_reducible assumption
    | intro _
    | with_reducible apply OKeeps.next
    | with_reducible apply OKeeps.fault
    | with_reducible apply OKeeps.ite
    | with_reducible apply State.send_keeps
    | with_reducible apply Keeps.ite
    | split
    | dsimp only

theorem execTaskSet_keeps {s0 s : State} (h : Keeps s0 s) (m : Msg) :
    OKeeps s0 (execTaskSet m s) := by
  unfold execTaskSet
  repeat' first
    | with_reducible assumption
    | intro _
    | with_reducible apply OKeeps.next
    | with_reducible apply OKeeps.fault
    | with_reducible apply OKeeps.ite
    | with_reducible apply State.send_keeps
    | with_reducible apply Keeps.ite
    | split
    | dsimp only

theorem execTaskRemove_keeps {s0 s : State} (h : Keeps s0 s) (m : Msg) :
    OKeeps s0 (execTaskRemove m s) := by
  unfold execTaskRemove
  repeat' first
    | with_reducible assumption
    | intro _
    | with_reducible apply OKeeps.next
    | with_reducible apply OKeeps.fault
    | with_reducible apply OKeeps.ite
    | with_reducible apply State.send_keeps
    | with_reducible apply Keeps.ite
    | split
    | dsimp only

theorem execSchedCheck_keeps {s0 s : State} (h : Keeps s0 s) (m : Msg) :
    OKeeps s0 (execSchedCheck m s) := by
  unfold execSchedCheck
  repeat' first
    | with_reducible assumption
    | intro _
    | with_reducible apply OKeeps.next
    | with_reducible apply OKeeps.fault
    | with_reducible apply OKeeps.ite
    | with_reducible apply State.send_keeps
    | with_reducible apply Keeps.ite
    | split
    | dsimp only

theorem execTimerSet_keeps {s0 s : State} (h : Keeps s0 s) (m : Msg) :
    OKeeps s0 (execTimerSet m s) := by
  unfold execTimerSet
  repeat' first
    | with_reducible assumption
    | intro _
    | with_reducible apply OKeeps.next
    | with_reducible apply OKeeps.fault
    | with_reducible apply OKeeps.ite
    | with_reducible apply State.send_keeps
    | with_reducible apply Keeps.ite
    | split
    | dsimp only

theorem execCalRun_keeps {s0 s : State} (h : Keeps s0 s) (m : Msg) :
    OKeeps s0 (execCalRun m s) := by
  unfold execCalRun
  repeat' first
    | with_reducible assumption
    | intro _
    | with_reducible apply OKeeps.next
    | with_reducible apply OKeeps.fault
    | with_reducible apply OKeeps.ite
    | with_reducible apply State.send_keeps
    | with_reducible apply Keeps.ite
    | split
    | dsimp only

theorem execCalStatus_keeps {s0 s : State} (h : Keeps s0 s) (m : Msg) :
    OKeeps s0 (execCalStatus m s) := by
  unfold execCalStatus
  repeat' first
    | with_reducible assumption
    | intro _
    | with_reducible apply OKeeps.next
    | with_reducible apply OKeeps.fault
    | with_reducible apply OKeeps.ite
    | with_reducible apply State.send_keeps
    | with_reducible apply Keeps.ite
    | split
    | dsimp only

theorem execCalPolicy_keeps {s0 s : State} (h : Keeps s0 s) (m : Msg) :
    OKeeps s0 (execCalPolicy m s) := by
  unfold execCalPolicy
  repeat' first
    | with_reducible assumption
    | intro _
    | with_reducible apply OKeeps.next
    | with_reducible apply OKeeps.fault
    | with_reducible apply OKeeps.ite
    | with_reducible apply State.send_keeps
    | with_reducible apply Keeps.ite
    | split
    | dsimp only

theorem execEnvTdrMeasure_keeps {s0 s : State} (h : Keeps s0 s) (m : Msg) :
    OKeeps s0 (execEnvTdrMeasure m s) := by
  unfold execEnvTdrMeasure
  repeat' first
    | with_reducible assumption
    | intro _
    | with_reducible apply OKeeps.next
    | with_reducible apply OKeeps.fault
    | with_reducible apply OKeeps.ite
    | with_reducible apply State.send_keeps
    | with_reducible apply Keeps.ite
    | split
    | dsimp only

theorem execEnvTdrApply_keeps {s0 s : State} (h : Keeps s0 s) (m : Msg) :
    OKeeps s0 (execEnvTdrApply m s) := by
  unfold execEnvTdrApply
  repeat' first
    | with_reducible assumption
    | intro _
    | with_reducible apply OKeeps.next
    | with_reducible apply OKeeps.fault
    | with_reducible apply OKeeps.ite
    | with_reducible apply State.send_keeps
    | with_reducible apply Keeps.ite
    | split
    | dsimp only

theorem execEnvTdrSet_keeps {s0 s : State} (h : Keeps s0 s) (m : Msg) :
    OKeeps s0 (execEnvTdrSet m s) := by
  unfold execEnvTdrSet
  repeat' first
    | with_reducible assumption
    | intro _
    | with_reducible apply OKeeps.next
    | with_reducible apply OKeeps.fault
    | with_reducible apply OKeeps.ite
    | with_reducible apply State.send_keeps
    | with_reducible apply Keeps.ite
    | split
    | dsimp only

theorem execEnvTdrClear_keeps {s0 s : State} (h : Keeps s0 s) (m : Msg) :
    OKeeps s0 (execEnvTdrClear m s) := by
  unfold execEnvTdrClear
  repeat' first
    | with_reducible assumption
    | intro _
    | with_reducible apply OKeeps.next
    | with_reducible apply OKeeps.fault
    | with_reducible apply OKeeps.ite
    | with_reducible apply State.send_keeps
    | with_reducible apply Keeps.ite
    | split
    | dsimp only

theorem execEnvMonitors_keeps {s0 s : State} (h : Keeps s0 s) (m : Msg) :
    OKeeps s0 (execEnvMonitors m s) := by
  unfold execEnvMonitors
  repeat' first
    | with_reducible assumption
    | intro _
    | with_reducible apply OKeeps.next
    | with_reducible apply OKeeps.fault
    | with_reducible apply OKeeps.ite
    | with_reducible apply State.send_keeps
    | with_reducible apply Keeps.ite
    | split
    | dsimp only

theorem execEnvMonitorsSetWin_keeps {s0 s : State} (h : Keeps s0 s) (m : Msg) :
    OKeeps s0 (execEnvMonitorsSetWin m s) := by
  unfold execEnvMonitorsSetWin
  repeat' first
    | with_reducible assumption
    | intro _
    | with_reducible apply OKeeps.next
    | with_reducible apply OKeeps.fault
    | with_reducible apply OKeeps.ite
    | with_reducible apply State.send_keeps
    | with_reducible apply Keeps.ite
    | split
    | dsimp only

theorem execEnvMonitorsClearTrip_keeps {s0 s : State} (h : Keeps s0 s) (m : Msg) :
    OKeeps s0 (execEnvMonitorsClearTrip m s) := by
  unfold execEnvMonitorsClearTrip
  repeat' first
    | with_reducible assumption
    | intro _
    | with_reducible apply OKeeps.next
    | with_reducible apply OKeeps.fault
    | with_reducible apply OKeeps.ite
    | with_reducible apply State.send_keeps
    | with_reducible apply Keeps.ite
    | split
    | dsimp only

theorem execStreamOpenCapture_keeps {s0 s : State} (h : Keeps s0 s) (m : Msg) :
    OKeeps s0 (execStreamOpenCapture m s) := by
  unfold execStreamOpenCapture
  repeat' first
    | with_reducible assumption
    | intro _
    | with_reducible apply OKeeps.next
    | with_reducible apply OKeeps.fault
    | with_reducible apply OKeeps.ite
    | with_reducible apply State.send_keeps
    | with_reducible apply Keeps.ite
    | split
    | dsimp only

theorem execStreamOpenBlock_keeps {s0 s : State} (h : Keeps s0 s) (m : Msg) :
    OKeeps s0 (execStreamOpenBlock m s) := by
  unfold execStreamOpenBlock
  repeat' first
    | with_reducible assumption
    | intro _
    | with_reducible apply OKeeps.next
    | with_reducible apply OKeeps.fault
    | with_reducible apply OKeeps.ite
    | with_reducible apply State.send_keeps
    | with_reducible apply Keeps.ite
    | split
    | dsimp only

theorem execStreamOpenCopy_keeps {s0 s : State} (h : Keeps s0 s) (m : Msg) :
    OKeeps s0 (execStreamOpenCopy m s) := by
  unfold execStreamOpenCopy
  repeat' first
    | with_reducible assumption
    | intro _
    | with_reducible apply OKeeps.next
    | with_reducible apply OKeeps.fault
    | with_reducible apply OKeeps.ite
    | with_reducible apply State.send_keeps
    | with_reducible apply Keeps.ite
    | split
    | dsimp only

theorem execStreamClose_keeps {s0 s : State} (h : Keeps s0 s) (m : Msg) :
    OKeeps s0 (execStreamClose m s) := by
  unfold execStreamClose
  repeat' first
    | with_reducible assumption
    | intro _
    | with_reducible apply OKeeps.next
    | with_reducible apply OKeeps.fault
    | with_reducible apply OKeeps.ite
    | with_reducible apply State.send_keeps
    | with_reducible apply Keeps.ite
    | split
    | dsimp only

theorem execStreamCloseDiscard_keeps {s0 s : State} (h : Keeps s0 s) (m : Msg) :
    OKeeps s0 (execStreamCloseDiscard m s) := by
  unfold execStreamCloseDiscard
  repeat' first
    | with_reducible assumption
    | intro _
    | with_reducible apply OKeeps.next
    | with_reducible apply OKeeps.fault
    | with_reducible apply OKeeps.ite
    | with_reducible apply State.send_keeps
    | with_reducible apply Keeps.ite
    | split
    | dsimp only

theorem execBankAssign_keeps {s0 s : State} (h : Keeps s0 s) (m : Msg) :
    OKeeps s0 (execBankAssign m s) := by
  unfold execBankAssign
  repeat' first
    | with_reducible assumption
    | intro _
    | with_reducible apply OKeeps.next
    | with_reducible apply OKeeps.fault
    | with_reducible apply OKeeps.ite
    | with_reducible apply State.send_keeps
    | with_reducible apply Keeps.ite
    | split
    | dsimp only

theorem execPwrSetStateTrim_keeps {s0 s : State} (h : Keeps s0 s) (m : Msg) :
    OKeeps s0 (execPwrSetStateTrim m s) := by
  unfold execPwrSetStateTrim
  repeat' first
    | with_reducible assumption
    | intro _
    | with_reducible apply OKeeps.next
    | with_reducible apply OKeeps.fault
    | with_reducible apply OKeeps.ite
    | with_reducible apply State.send_keeps
    | with_reducible apply Keeps.ite
    | split
    | dsimp only

theorem execPwrSetStateRetain_keeps {s0 s : State} (h : Keeps s0 s) (m : Msg) :
    OKeeps s0 (execPwrSetStateRetain m s) := by
  unfold execPwrSetStateRetain
  repeat' first
    | with_reducible assumption
    | intro _
    | with_reducible apply OKeeps.next
    | with_reducible apply OKeeps.fault
    | with_reducible apply OKeeps.ite
    | with_reducible apply State.send_keeps
    | with_reducible apply Keeps.ite
    | split
    | dsimp only

theorem execPwrSetStateBackupOnly_keeps {s0 s : State} (h : Keeps s0 s) (m : Msg) :
    OKeeps s0 (execPwrSetStateBackupOnly m s) := by
  unfold execPwrSetStateBackupOnly
  repeat' first
    | with_reducible assumption
    | intro _
    | with_reducible apply OKeeps.next
    | with_reducible apply OKeeps.fault
    | with_reducible apply OKeeps.ite
    | with_reducible apply State.send_keeps
    | with_reducible apply Keeps.ite
    | split
    | dsimp only

theorem execPwrRetainBanks_keeps {s0 s : State} (h : Keeps s0 s) (m : Msg) :
    OKeeps s0 (execPwrRetainBanks m s) := by
  unfold execPwrRetainBanks
  repeat' first
    | with_reducible assumption
    | intro _
    | with_reducible apply OKeeps.next
    | with_reducible apply OKeeps.fault
    | with_reducible apply OKeeps.ite
    | with_reducible apply State.send_keeps
    | with_reducible apply Keeps.ite
    | split
    | dsimp only

theorem execGrpPrepare_keeps {s0 s : State} (h : Keeps s0 s) (m : Msg) :
    OKeeps s0 (execGrpPrepare m s) := by
  unfold execGrpPrepare
  repeat' first
    | with_reducible assumption
    | intro _
    | with_reducible apply OKeeps.next
    | with_reducible apply OKeeps.fault
    | with_reducible apply OKeeps.ite
    | with_reducible apply State.send_keeps
    | with_reducible apply Keeps.ite
    | split
    | dsimp only

theorem execGrpCommit_keeps {s0 s : State} (h : Keeps s0 s) (m : Msg) :
    OKeeps s0 (execGrpCommit m s) := by
  unfold execGrpCommit
  repeat' first
    | with_reducible assumption
    | intro _
    | with_reducible apply OKeeps.next
    | with_reducible apply OKeeps.fault
    | with_reducible apply OKeeps.ite
    | with_reducible apply State.send_keeps
    | with_reducible apply Keeps.ite
    | split
    | dsimp only

theorem execGrpAbandon_keeps {s0 s : State} (h : Keeps s0 s) (m : Msg) :
    OKeeps s0 (execGrpAbandon m s) := by
  unfold execGrpAbandon
  repeat' first
    | with_reducible assumption
    | intro _
    | with_reducible apply OKeeps.next
    | with_reducible apply OKeeps.fault
    | with_reducible apply OKeeps.ite
    | with_reducible apply State.send_keeps
    | with_reducible apply Keeps.ite
    | split
    | dsimp only

theorem execBxLink_keeps {s0 s : State} (h : Keeps s0 s) (m : Msg) :
    OKeeps s0 (execBxLink m s) := by
  unfold execBxLink
  repeat' first
    | with_reducible assumption
    | intro _
    | with_reducible apply OKeeps.next
    | with_reducible apply OKeeps.fault
    | with_reducible apply OKeeps.ite
    | with_reducible apply State.send_keeps
    | with_reducible apply Keeps.ite
    | split
    | dsimp only

theorem execBxAlign_keeps {s0 s : State} (h : Keeps s0 s) (m : Msg) :
    OKeeps s0 (execBxAlign m s) := by
  unfold execBxAlign
  repeat' first
    | with_reducible assumption
    | intro _
    | with_reducible apply OKeeps.next
    | with_reducible apply OKeeps.fault
    | with_reducible apply OKeeps.ite
    | with_reducible apply State.send_keeps
    | with_reducible apply Keeps.ite
    | split
    | dsimp only

theorem execSecChallenge_keeps {s0 s : State} (h : Keeps s0 s) (m : Msg) :
    OKeeps s0 (execSecChallenge m s) := by
  unfold execSecChallenge
  repeat' first
    | with_reducible assumption
    | intro _
    | with_reducible apply OKeeps.next
    | with_reducible apply OKeeps.fault
    | with_reducible apply OKeeps.ite
    | with_reducible apply State.send_keeps
    | with_reducible apply Keeps.ite
    | split
    | dsimp only

theorem execSecOpen_keeps {s0 s : State} (h : Keeps s0 s) (m : Msg) :
    OKeeps s0 (execSecOpen m s) := by
  unfold execSecOpen
  repeat' first
    | with_reducible assumption
    | intro _
    | with_reducible apply OKeeps.next
    | with_reducible apply OKeeps.fault
    | with_reducible apply OKeeps.ite
    | with_reducible apply State.send_keeps
    | with_reducible apply Keeps.ite
    | split
    | dsimp only

theorem execSecClose_keeps {s0 s : State} (h : Keeps s0 s) (m : Msg) :
    OKeeps s0 (execSecClose m s) := by
  unfold execSecClose
  repeat' first
    | with_reducible assumption
    | intro _
    | with_reducible apply OKeeps.next
    | with_reducible apply OKeeps.fault
    | with_reducible apply OKeeps.ite
    | with_reducible apply State.send_keeps
    | with_reducible apply Keeps.ite
    | split
    | dsimp only

theorem execSecEnroll_keeps {s0 s : State} (h : Keeps s0 s) (m : Msg) :
    OKeeps s0 (execSecEnroll m s) := by
  unfold execSecEnroll
  repeat' first
    | with_reducible assumption
    | intro _
    | with_reducible apply OKeeps.next
    | with_reducible apply OKeeps.fault
    | with_reducible apply OKeeps.ite
    | with_reducible apply State.send_keeps
    | with_reducible apply Keeps.ite
    | split
    | dsimp only

theorem execSecRemove_keeps {s0 s : State} (h : Keeps s0 s) (m : Msg) :
    OKeeps s0 (execSecRemove m s) := by
  unfold execSecRemove
  repeat' first
    | with_reducible assumption
    | intro _
    | with_reducible apply OKeeps.next
    | with_reducible apply OKeeps.fault
    | with_reducible apply OKeeps.ite
    | with_reducible apply State.send_keeps
    | with_reducible apply Keeps.ite
    | split
    | dsimp only

theorem execSecSignRecordSlot_keeps {s0 s : State} (h : Keeps s0 s) (m : Msg) :
    OKeeps s0 (execSecSignRecordSlot m s) := by
  unfold execSecSignRecordSlot
  repeat' first
    | with_reducible assumption
    | intro _
    | with_reducible apply OKeeps.next
    | with_reducible apply OKeeps.fault
    | with_reducible apply OKeeps.ite
    | with_reducible apply State.send_keeps
    | with_reducible apply Keeps.ite
    | split
    | dsimp only

theorem execSecSignRecordBlobPart_keeps {s0 s : State} (h : Keeps s0 s) (m : Msg) :
    OKeeps s0 (execSecSignRecordBlobPart m s) := by
  unfold execSecSignRecordBlobPart
  repeat' first
    | with_reducible assumption
    | intro _
    | with_reducible apply OKeeps.next
    | with_reducible apply OKeeps.fault
    | with_reducible apply OKeeps.ite
    | with_reducible apply State.send_keeps
    | with_reducible apply Keeps.ite
    | split
    | dsimp only

theorem execSecSignRecordBlobEnd_keeps {s0 s : State} (h : Keeps s0 s) (m : Msg) :
    OKeeps s0 (execSecSignRecordBlobEnd m s) := by
  unfold execSecSignRecordBlobEnd
  repeat' first
    | with_reducible assumption
    | intro _
    | with_reducible apply OKeeps.next
    | with_reducible apply OKeeps.fault
    | with_reducible apply OKeeps.ite
    | with_reducible apply State.send_keeps
    | with_reducible apply Keeps.ite
    | split
    | dsimp only

theorem execSecSealCalSeal_keeps {s0 s : State} (h : Keeps s0 s) (m : Msg) :
    OKeeps s0 (execSecSealCalSeal m s) := by
  unfold execSecSealCalSeal
  repeat' first
    | with_reducible assumption
    | intro _
    | with_reducible apply OKeeps.next
    | with_reducible apply OKeeps.fault
    | with_reducible apply OKeeps.ite
    | with_reducible apply State.send_keeps
    | with_reducible apply Keeps.ite
    | split
    | dsimp only

theorem execSecSealCalClear_keeps {s0 s : State} (h : Keeps s0 s) (m : Msg) :
    OKeeps s0 (execSecSealCalClear m s) := by
  unfold execSecSealCalClear
  repeat' first
    | with_reducible assumption
    | intro _
    | with_reducible apply OKeeps.next
    | with_reducible apply OKeeps.fault
    | with_reducible apply OKeeps.ite
    | with_reducible apply State.send_keeps
    | with_reducible apply Keeps.ite
    | split
    | dsimp only

theorem execSecAuditRead_keeps {s0 s : State} (h : Keeps s0 s) (m : Msg) :
    OKeeps s0 (execSecAuditRead m s) := by
  unfold execSecAuditRead
  repeat' first
    | with_reducible assumption
    | intro _
    | with_reducible apply OKeeps.next
    | with_reducible apply OKeeps.fault
    | with_reducible apply OKeeps.ite
    | with_reducible apply State.send_keeps
    | with_reducible apply Keeps.ite
    | split
    | dsimp only

theorem execSecZeroize_keeps {s0 s : State} (h : Keeps s0 s) (m : Msg) :
    OKeeps s0 (execSecZeroize m s) := by
  unfold execSecZeroize
  repeat' first
    | with_reducible assumption
    | intro _
    | with_reducible apply OKeeps.next
    | with_reducible apply OKeeps.fault
    | with_reducible apply OKeeps.ite
    | with_reducible apply State.send_keeps
    | with_reducible apply Keeps.ite
    | split
    | dsimp only

theorem execTamperCfg_keeps {s0 s : State} (h : Keeps s0 s) (m : Msg) :
    OKeeps s0 (execTamperCfg m s) := by
  unfold execTamperCfg
  repeat' first
    | with_reducible assumption
    | intro _
    | with_reducible apply OKeeps.next
    | with_reducible apply OKeeps.fault
    | with_reducible apply OKeeps.ite
    | with_reducible apply State.send_keeps
    | with_reducible apply Keeps.ite
    | split
    | dsimp only

theorem execSecFwUpdateBegin_keeps {s0 s : State} (h : Keeps s0 s) (m : Msg) :
    OKeeps s0 (execSecFwUpdateBegin m s) := by
  unfold execSecFwUpdateBegin
  repeat' first
    | with_reducible assumption
    | intro _
    | with_reducible apply OKeeps.next
    | with_reducible apply OKeeps.fault
    | with_reducible apply OKeeps.ite
    | with_reducible apply State.send_keeps
    | with_reducible apply Keeps.ite
    | split
    | dsimp only

theorem execSecFwUpdateData_keeps {s0 s : State} (h : Keeps s0 s) (m : Msg) :
    OKeeps s0 (execSecFwUpdateData m s) := by
  unfold execSecFwUpdateData
  repeat' first
    | with_reducible assumption
    | intro _
    | with_reducible apply OKeeps.next
    | with_reducible apply OKeeps.fault
    | with_reducible apply OKeeps.ite
    | with_reducible apply State.send_keeps
    | with_reducible apply Keeps.ite
    | split
    | dsimp only

theorem execSecFwUpdateCommit_keeps {s0 s : State} (h : Keeps s0 s) (m : Msg) :
    OKeeps s0 (execSecFwUpdateCommit m s) := by
  unfold execSecFwUpdateCommit
  repeat' first
    | with_reducible assumption
    | intro _
    | with_reducible apply OKeeps.next
    | with_reducible apply OKeeps.fault
    | with_reducible apply OKeeps.ite
    | with_reducible apply State.send_keeps
    | with_reducible apply Keeps.ite
    | split
    | dsimp only

theorem execSecFwUpdateAbort_keeps {s0 s : State} (h : Keeps s0 s) (m : Msg) :
    OKeeps s0 (execSecFwUpdateAbort m s) := by
  unfold execSecFwUpdateAbort
  repeat' first
    | with_reducible assumption
    | intro _
    | with_reducible apply OKeeps.next
    | with_reducible apply OKeeps.fault
    | with_reducible apply OKeeps.ite
    | with_reducible apply State.send_keeps
    | with_reducible apply Keeps.ite
    | split
    | dsimp only

theorem execSecDebugUnlock_keeps {s0 s : State} (h : Keeps s0 s) (m : Msg) :
    OKeeps s0 (execSecDebugUnlock m s) := by
  unfold execSecDebugUnlock
  repeat' first
    | with_reducible assumption
    | intro _
    | with_reducible apply OKeeps.next
    | with_reducible apply OKeeps.fault
    | with_reducible apply OKeeps.ite
    | with_reducible apply State.send_keeps
    | with_reducible apply Keeps.ite
    | split
    | dsimp only

theorem execSecExportCert_keeps {s0 s : State} (h : Keeps s0 s) (m : Msg) :
    OKeeps s0 (execSecExportCert m s) := by
  unfold execSecExportCert
  repeat' first
    | with_reducible assumption
    | intro _
    | with_reducible apply OKeeps.next
    | with_reducible apply OKeeps.fault
    | with_reducible apply OKeeps.ite
    | with_reducible apply State.send_keeps
    | with_reducible apply Keeps.ite
    | split
    | dsimp only

end Sys2Proof.Machine
end

