-- ==== Sys2Proof/Laws/KeepTick.lean ====
section
/-! SUPPORT. What the operations of Machine/Tick.lean keep. -/
namespace Sys2Proof.Machine

theorem moved_bounded (t : Nat) (d : Int) : (((t : Int) + d) % (dtcMod : Int)).toNat < dtcMod := by
  have h1 := Int.emod_lt_of_pos ((t : Int) + d) (b := (dtcMod : Int)) (by decide)
  have h0 := Int.emod_nonneg ((t : Int) + d) (b := (dtcMod : Int)) (by decide)
  omega

theorem State.moveScale_keeps {s0 s : State} (h : Keeps s0 s) (d : Int) : Keeps s0 (s.moveScale d) :=
  ⟨h.queue, h.mem, fun _ => moved_bounded _ _, h.qp, h.phys⟩


theorem State.stepTick_keeps {s0 s : State} (h : Keeps s0 s) (x : Nat) :
    Keeps s0 (State.stepTick s x).1 := by
  unfold State.stepTick
  repeat' first
    | with_reducible assumption
    | intro _
    | with_reducible apply Keeps.iteFst
    | with_reducible apply State.timeReport_keeps
    | with_reducible apply State.startSlew_keeps
    | with_reducible apply State.carry_keeps
    | with_reducible apply State.modBx_keeps
    | with_reducible apply State.moveScale_keeps
    | with_reducible apply Keeps.ite
    | split
    | with_reducible apply Keeps.fields
    | rfl
    | dsimp only

theorem State.newTick_keeps {s0 s : State} (h : Keeps s0 s) (m : Option Int) (b len : Nat) :
    Keeps s0 (State.newTick s m b len) := by
  unfold State.newTick
  repeat' first
    | with_reducible assumption
    | intro _
    | with_reducible apply State.ctl_keeps
    | with_reducible apply State.modBx_keeps
    | with_reducible apply Keeps.ite
    | split
    | with_reducible apply Keeps.fields
    | rfl
    | dsimp only

theorem State.deferTick_keeps {s0 s : State} (h : Keeps s0 s) (b : Nat) (at_ : Int) :
    Keeps s0 (State.deferTick s b at_) := by
  unfold State.deferTick
  repeat' first
    | with_reducible assumption
    | intro _
    | with_reducible apply State.applyAt_keeps
    | with_reducible apply State.releaseGroups_keeps
    | with_reducible apply Keeps.ite
    | with_reducible apply Keeps.foldl
    | with_reducible apply Keeps.foldlFst
    | with_reducible apply Keeps.fields
    | rfl
    | split
    | dsimp only

theorem State.recordTick_keeps {s0 s : State} (h : Keeps s0 s) (stepped : Bool) (len : Option Nat) (b : Nat) (at_ : Int) :
    Keeps s0 (State.recordTick s stepped len b at_) := by
  unfold State.recordTick
  repeat' first
    | with_reducible assumption
    | intro _
    | with_reducible apply State.emitAll_keeps
    | with_reducible apply Keeps.ite
    | split
    | dsimp only

theorem State.eventTick_keeps {s0 s : State} (h : Keeps s0 s) :
    Keeps s0 (State.eventTick s) := by
  unfold State.eventTick
  repeat' first
    | with_reducible assumption
    | intro _
    | with_reducible apply State.raise_keeps
    | with_reducible apply State.pcAdd_keeps
    | with_reducible apply State.event_keeps
    | with_reducible apply Keeps.ite
    | with_reducible apply Keeps.each
    | split
    | dsimp only

theorem State.boundary_keeps {s0 s : State} (h : Keeps s0 s) :
    Keeps s0 (State.boundary s) := by
  unfold State.boundary
  repeat' first
    | with_reducible assumption
    | intro _
    | with_reducible apply Keeps.iteFst
    | with_reducible apply State.raiseAll_keeps
    | with_reducible apply State.settle_keeps
    | with_reducible apply State.lossAtBoundary_keeps
    | with_reducible apply State.schTick_keeps
    | with_reducible apply State.stealTick_keeps
    | with_reducible apply State.tempTick_keeps
    | with_reducible apply State.baseTick_keeps
    | with_reducible apply State.applyPlan_keeps
    | with_reducible apply State.slotTick_keeps
    | with_reducible apply State.importTick_keeps
    | with_reducible apply State.serveHeld_keeps
    | with_reducible apply State.streamTick_keeps
    | with_reducible apply State.dmaAge_keeps
    | with_reducible apply State.mirrorTick_keeps
    | with_reducible apply State.stepTick_keeps
    | with_reducible apply State.newTick_keeps
    | with_reducible apply State.deferTick_keeps
    | with_reducible apply State.recordTick_keeps
    | with_reducible apply State.eventTick_keeps
    | with_reducible apply Keeps.ite
    | with_reducible apply Keeps.each
    | split
    | dsimp only

theorem execTickBoundary_keeps {s0 s : State} (h : Keeps s0 s) :
    OKeeps s0 (execTickBoundary s) := by
  unfold execTickBoundary
  repeat' first
    | with_reducible assumption
    | intro _
    | with_reducible apply OKeeps.next
    | with_reducible apply OKeeps.fault
    | with_reducible apply OKeeps.ite
    | with_reducible apply State.runTo_keeps
    | with_reducible apply State.boundary_keeps
    | with_reducible apply Keeps.ite
    | split
    | dsimp only

end Sys2Proof.Machine
end

