-- ==== Sys2Proof/Laws/KeepExec.lean ====
section
/-! SUPPORT. Every command, and so every step, keeps what Keep.lean says. -/
namespace Sys2Proof.Machine

/-- Every command keeps the queue and the invariant where it gives a next state. -/
theorem exec_keeps (i : Instr) (s : State) : OKeeps s (exec i s) :=
  match i with
  | .sysPing m => execSysPing_keeps (Keeps.refl s) m
  | .sysGetInfo m => execSysGetInfo_keeps (Keeps.refl s) m
  | .sysGetHealth m => execSysGetHealth_keeps (Keeps.refl s) m
  | .sysResetFirmware m => execSysResetFirmware_keeps (Keeps.refl s) m
  | .sysResetDevice m => execSysResetDevice_keeps (Keeps.refl s) m
  | .sysSetMirror m => execSysSetMirror_keeps (Keeps.refl s) m
  | .tsSetReference m => execTsSetReference_keeps (Keeps.refl s) m
  | .tsSetTick m => execTsSetTick_keeps (Keeps.refl s) m
  | .tsDiscipline m => execTsDiscipline_keeps (Keeps.refl s) m
  | .tsSetTimeAtTick m => execTsSetTimeAtTick_keeps (Keeps.refl s) m
  | .tsSetTimeAtPps m => execTsSetTimeAtPps_keeps (Keeps.refl s) m
  | .tsSetTimeCancel m => execTsSetTimeCancel_keeps (Keeps.refl s) m
  | .tsRtcSetNow m => execTsRtcSetNow_keeps (Keeps.refl s) m
  | .tsRtcSetAtNextMark m => execTsRtcSetAtNextMark_keeps (Keeps.refl s) m
  | .tsRtcSetAtPps m => execTsRtcSetAtPps_keeps (Keeps.refl s) m
  | .tsRtcSetOffsetOnly m => execTsRtcSetOffsetOnly_keeps (Keeps.refl s) m
  | .tsRtcRead m => execTsRtcRead_keeps (Keeps.refl s) m
  | .chSetInput m => execChSetInput_keeps (Keeps.refl s) m
  | .chSetOutput m => execChSetOutput_keeps (Keeps.refl s) m
  | .chEnable m => execChEnable_keeps (Keeps.refl s) m
  | .chDisable m => execChDisable_keeps (Keeps.refl s) m
  | .measDefine m => execMeasDefine_keeps (Keeps.refl s) m
  | .measArm m => execMeasArm_keeps (Keeps.refl s) m
  | .measStop m => execMeasStop_keeps (Keeps.refl s) m
  | .measRead m => execMeasRead_keeps (Keeps.refl s) m
  | .histDefine m => execHistDefine_keeps (Keeps.refl s) m
  | .synPattern m => execSynPattern_keeps (Keeps.refl s) m
  | .synPatternShadow m => execSynPatternShadow_keeps (Keeps.refl s) m
  | .synPair m => execSynPair_keeps (Keeps.refl s) m
  | .synBrakeCfgSetInput m => execSynBrakeCfgSetInput_keeps (Keeps.refl s) m
  | .synBrakeCfgSetGuard m => execSynBrakeCfgSetGuard_keeps (Keeps.refl s) m
  | .synBrakeClear m => execSynBrakeClear_keeps (Keeps.refl s) m
  | .qdDefine m => execQdDefine_keeps (Keeps.refl s) m
  | .qdRead m => execQdRead_keeps (Keeps.refl s) m
  | .ucLoad m => execUcLoad_keeps (Keeps.refl s) m
  | .taskSet m => execTaskSet_keeps (Keeps.refl s) m
  | .taskRemove m => execTaskRemove_keeps (Keeps.refl s) m
  | .schedCheck m => execSchedCheck_keeps (Keeps.refl s) m
  | .timerSet m => execTimerSet_keeps (Keeps.refl s) m
  | .calRun m => execCalRun_keeps (Keeps.refl s) m
  | .calStatus m => execCalStatus_keeps (Keeps.refl s) m
  | .calPolicy m => execCalPolicy_keeps (Keeps.refl s) m
  | .envTdrMeasure m => execEnvTdrMeasure_keeps (Keeps.refl s) m
  | .envTdrApply m => execEnvTdrApply_keeps (Keeps.refl s) m
  | .envTdrSet m => execEnvTdrSet_keeps (Keeps.refl s) m
  | .envTdrClear m => execEnvTdrClear_keeps (Keeps.refl s) m
  | .envMonitors m => execEnvMonitors_keeps (Keeps.refl s) m
  | .envMonitorsSetWin m => execEnvMonitorsSetWin_keeps (Keeps.refl s) m
  | .envMonitorsClearTrip m => execEnvMonitorsClearTrip_keeps (Keeps.refl s) m
  | .streamOpenCapture m => execStreamOpenCapture_keeps (Keeps.refl s) m
  | .streamOpenBlock m => execStreamOpenBlock_keeps (Keeps.refl s) m
  | .streamOpenCopy m => execStreamOpenCopy_keeps (Keeps.refl s) m
  | .streamClose m => execStreamClose_keeps (Keeps.refl s) m
  | .streamCloseDiscard m => execStreamCloseDiscard_keeps (Keeps.refl s) m
  | .bankAssign m => execBankAssign_keeps (Keeps.refl s) m
  | .pwrSetStateTrim m => execPwrSetStateTrim_keeps (Keeps.refl s) m
  | .pwrSetStateRetain m => execPwrSetStateRetain_keeps (Keeps.refl s) m
  | .pwrSetStateBackupOnly m => execPwrSetStateBackupOnly_keeps (Keeps.refl s) m
  | .pwrRetainBanks m => execPwrRetainBanks_keeps (Keeps.refl s) m
  | .grpPrepare m => execGrpPrepare_keeps (Keeps.refl s) m
  | .grpCommit m => execGrpCommit_keeps (Keeps.refl s) m
  | .grpAbandon m => execGrpAbandon_keeps (Keeps.refl s) m
  | .bxLink m => execBxLink_keeps (Keeps.refl s) m
  | .bxAlign m => execBxAlign_keeps (Keeps.refl s) m
  | .secChallenge m => execSecChallenge_keeps (Keeps.refl s) m
  | .secOpen m => execSecOpen_keeps (Keeps.refl s) m
  | .secClose m => execSecClose_keeps (Keeps.refl s) m
  | .secEnroll m => execSecEnroll_keeps (Keeps.refl s) m
  | .secRemove m => execSecRemove_keeps (Keeps.refl s) m
  | .secSignRecordSlot m => execSecSignRecordSlot_keeps (Keeps.refl s) m
  | .secSignRecordBlobPart m => execSecSignRecordBlobPart_keeps (Keeps.refl s) m
  | .secSignRecordBlobEnd m => execSecSignRecordBlobEnd_keeps (Keeps.refl s) m
  | .secSealCalSeal m => execSecSealCalSeal_keeps (Keeps.refl s) m
  | .secSealCalClear m => execSecSealCalClear_keeps (Keeps.refl s) m
  | .secAuditRead m => execSecAuditRead_keeps (Keeps.refl s) m
  | .secZeroize m => execSecZeroize_keeps (Keeps.refl s) m
  | .tamperCfg m => execTamperCfg_keeps (Keeps.refl s) m
  | .secFwUpdateBegin m => execSecFwUpdateBegin_keeps (Keeps.refl s) m
  | .secFwUpdateData m => execSecFwUpdateData_keeps (Keeps.refl s) m
  | .secFwUpdateCommit m => execSecFwUpdateCommit_keeps (Keeps.refl s) m
  | .secFwUpdateAbort m => execSecFwUpdateAbort_keeps (Keeps.refl s) m
  | .secDebugUnlock m => execSecDebugUnlock_keeps (Keeps.refl s) m
  | .secExportCert m => execSecExportCert_keeps (Keeps.refl s) m
  | .doorbellFrame => execDoorbellFrame_keeps (Keeps.refl s)
  | .doorbellSelfTest pass => execDoorbellSelfTest_keeps (Keeps.refl s) pass
  | .doorbellCloseSessions => execDoorbellCloseSessions_keeps (Keeps.refl s)
  | .doorbellLockDebug => execDoorbellLockDebug_keeps (Keeps.refl s)
  | .go mb => execGo_keeps (Keeps.refl s) mb
  | .cancel mb => execCancel_keeps (Keeps.refl s) mb
  | .mbDataWrite mb k v => execMbDataWrite_keeps (Keeps.refl s) mb k v
  | .messageTake mb e => execMessageTake_keeps (Keeps.refl s) mb e
  | .mailboxTimeout mb => execMailboxTimeout_keeps (Keeps.refl s) mb
  | .secureTimeout mb => execSecureTimeout_keeps (Keeps.refl s) mb
  | .qpH2dPush q v => execQpH2dPush_keeps (Keeps.refl s) q v
  | .qpD2hRead q => execQpD2hRead_keeps (Keeps.refl s) q
  | .qpDescriptorForward q => execQpDescriptorForward_keeps (Keeps.refl s) q
  | .hostRegisterWrite off v => execHostRegisterWrite_keeps (Keeps.refl s) off v
  | .hostOddSizeAccess bar4 off len data => execHostOddSizeAccess_keeps (Keeps.refl s) bar4 off len data
  | .readClear off => execReadClear_keeps (Keeps.refl s) off
  | .tsCapture => execTsCapture_keeps (Keeps.refl s)
  | .rtcSubRead => execRtcSubRead_keeps (Keeps.refl s)
  | .pcSnapRead n host => execPcSnapRead_keeps (Keeps.refl s) n host
  | .mirrorDisable => execMirrorDisable_keeps (Keeps.refl s)
  | .dmaRingTailWrite k v => execDmaRingTailWrite_keeps (Keeps.refl s) k v
  | .dmaRingHeadWrite k v => execDmaRingHeadWrite_keeps (Keeps.refl s) k v
  | .flush k => execFlush_keeps (Keeps.refl s) k
  | .hostBankAccess addr len data e => execHostBankAccess_keeps (Keeps.refl s) addr len data e
  | .icEoi sec n => execIcEoi_keeps (Keeps.refl s) sec n
  | .chEqPush n w0 w1 w2 w3 => execChEqPush_keeps (Keeps.refl s) n w0 w1 w2 w3
  | .puCmpWrite n v => execPuCmpWrite_keeps (Keeps.refl s) n v
  | .puPerWrite n v => execPuPerWrite_keeps (Keeps.refl s) n v
  | .puShadowWrite n r v => execPuShadowWrite_keeps (Keeps.refl s) n r v
  | .puLockClear n => execPuLockClear_keeps (Keeps.refl s) n
  | .gptStart n => execGptStart_keeps (Keeps.refl s) n
  | .gptStop n => execGptStop_keeps (Keeps.refl s) n
  | .gptSync n => execGptSync_keeps (Keeps.refl s) n
  | .gptClrFlags n => execGptClrFlags_keeps (Keeps.refl s) n
  | .uNop c ue => execUNop_keeps (Keeps.refl s) c ue
  | .uReti c ue => execUReti_keeps (Keeps.refl s) c ue
  | .uEi c ue => execUEi_keeps (Keeps.refl s) c ue
  | .uDi c ue => execUDi_keeps (Keeps.refl s) c ue
  | .uLdlc c ue => execULdlc_keeps (Keeps.refl s) c ue
  | .uSetf c ue => execUSetf_keeps (Keeps.refl s) c ue
  | .uFault c ue => execUFault_keeps (Keeps.refl s) c ue
  | .uAdd c ue => execUAdd_keeps (Keeps.refl s) c ue
  | .uAdc c ue => execUAdc_keeps (Keeps.refl s) c ue
  | .uSub c ue => execUSub_keeps (Keeps.refl s) c ue
  | .uSbc c ue => execUSbc_keeps (Keeps.refl s) c ue
  | .uAnd c ue => execUAnd_keeps (Keeps.refl s) c ue
  | .uOr c ue => execUOr_keeps (Keeps.refl s) c ue
  | .uXor c ue => execUXor_keeps (Keeps.refl s) c ue
  | .uAndn c ue => execUAndn_keeps (Keeps.refl s) c ue
  | .uMin c ue => execUMin_keeps (Keeps.refl s) c ue
  | .uMax c ue => execUMax_keeps (Keeps.refl s) c ue
  | .uMinu c ue => execUMinu_keeps (Keeps.refl s) c ue
  | .uMaxu c ue => execUMaxu_keeps (Keeps.refl s) c ue
  | .uAddsat c ue => execUAddsat_keeps (Keeps.refl s) c ue
  | .uSubsat c ue => execUSubsat_keeps (Keeps.refl s) c ue
  | .uCmp c ue => execUCmp_keeps (Keeps.refl s) c ue
  | .uTst c ue => execUTst_keeps (Keeps.refl s) c ue
  | .uShl c ue => execUShl_keeps (Keeps.refl s) c ue
  | .uShr c ue => execUShr_keeps (Keeps.refl s) c ue
  | .uSar c ue => execUSar_keeps (Keeps.refl s) c ue
  | .uRol c ue => execURol_keeps (Keeps.refl s) c ue
  | .uExt c ue => execUExt_keeps (Keeps.refl s) c ue
  | .uIns c ue => execUIns_keeps (Keeps.refl s) c ue
  | .uClz c ue => execUClz_keeps (Keeps.refl s) c ue
  | .uPopc c ue => execUPopc_keeps (Keeps.refl s) c ue
  | .uMull c ue => execUMull_keeps (Keeps.refl s) c ue
  | .uMulhu c ue => execUMulhu_keeps (Keeps.refl s) c ue
  | .uMulhs c ue => execUMulhs_keeps (Keeps.refl s) c ue
  | .uTadd c ue => execUTadd_keeps (Keeps.refl s) c ue
  | .uTsub c ue => execUTsub_keeps (Keeps.refl s) c ue
  | .uTaddi c ue => execUTaddi_keeps (Keeps.refl s) c ue
  | .uTdiff c ue => execUTdiff_keeps (Keeps.refl s) c ue
  | .uTcmp c ue => execUTcmp_keeps (Keeps.refl s) c ue
  | .uTld c ue => execUTld_keeps (Keeps.refl s) c ue
  | .uTset c ue => execUTset_keeps (Keeps.refl s) c ue
  | .uTlow c ue => execUTlow_keeps (Keeps.refl s) c ue
  | .uThigh c ue => execUThigh_keeps (Keeps.refl s) c ue
  | .uTmov c ue => execUTmov_keeps (Keeps.refl s) c ue
  | .uMovi c ue => execUMovi_keeps (Keeps.refl s) c ue
  | .uMov c ue => execUMov_keeps (Keeps.refl s) c ue
  | .uRdspec c ue => execURdspec_keeps (Keeps.refl s) c ue
  | .uWrspec c ue => execUWrspec_keeps (Keeps.refl s) c ue
  | .uTagPop c ue => execUTagPop_keeps (Keeps.refl s) c ue
  | .uTagPeek c ue => execUTagPeek_keeps (Keeps.refl s) c ue
  | .uTagLevel c ue => execUTagLevel_keeps (Keeps.refl s) c ue
  | .uTagClrloss c ue => execUTagClrloss_keeps (Keeps.refl s) c ue
  | .uEdgePush c ue => execUEdgePush_keeps (Keeps.refl s) c ue
  | .uEdgeQlevel c ue => execUEdgeQlevel_keeps (Keeps.refl s) c ue
  | .uIoRd c ue => execUIoRd_keeps (Keeps.refl s) c ue
  | .uIoWr c ue => execUIoWr_keeps (Keeps.refl s) c ue
  | .uBankLd c ue e => execUBankLd_keeps (Keeps.refl s) c ue e
  | .uBankSt c ue e => execUBankSt_keeps (Keeps.refl s) c ue e
  | .uBankAdd c ue e => execUBankAdd_keeps (Keeps.refl s) c ue e
  | .uBankSwap c ue e => execUBankSwap_keeps (Keeps.refl s) c ue e
  | .uSig c ue => execUSig_keeps (Keeps.refl s) c ue
  | .uEvclr c ue => execUEvclr_keeps (Keeps.refl s) c ue
  | .uEvclrm c ue => execUEvclrm_keeps (Keeps.refl s) c ue
  | .uWait c ue => execUWait_keeps (Keeps.refl s) c ue
  | .waitConditionMet c => execWaitConditionMet_keeps (Keeps.refl s) c
  | .waitTimeout c => execWaitTimeout_keeps (Keeps.refl s) c
  | .uJump c ue => execUJump_keeps (Keeps.refl s) c ue
  | .uCall c ue => execUCall_keeps (Keeps.refl s) c ue
  | .uRet c ue => execURet_keeps (Keeps.refl s) c ue
  | .uLoop c ue => execULoop_keeps (Keeps.refl s) c ue
  | .uDispatch c ue => execUDispatch_keeps (Keeps.refl s) c ue
  | .uEnd c ue => execUEnd_keeps (Keeps.refl s) c ue
  | .fastEntry c => execFastEntry_keeps (Keeps.refl s) c
  | .normalEntry c => execNormalEntry_keeps (Keeps.refl s) c
  | .handlerLong c => execHandlerLong_keeps (Keeps.refl s) c
  | .budgetCut c => execBudgetCut_keeps (Keeps.refl s) c
  | .guardBand c => execGuardBand_keeps (Keeps.refl s) c
  | .tickBoundary => execTickBoundary_keeps (Keeps.refl s)
  | .msPublish n => execMsPublish_keeps (Keeps.refl s) n
  | .qdSnapshotPublish d => execQdSnapshotPublish_keeps (Keeps.refl s) d
  | .mirrorWrite => execMirrorWrite_keeps (Keeps.refl s)
  | .inputTransition n rising dt => execInputTransition_keeps (Keeps.refl s) n rising dt
  | .conversionComplete n code => execConversionComplete_keeps (Keeps.refl s) n code
  | .qualifierRelease n => execQualifierRelease_keeps (Keeps.refl s) n
  | .lanePickup c l => execLanePickup_keeps (Keeps.refl s) c l
  | .mergeRelease c => execMergeRelease_keeps (Keeps.refl s) c
  | .tagImport c => execTagImport_keeps (Keeps.refl s) c
  | .histAdd n e => execHistAdd_keeps (Keeps.refl s) n e
  | .qdTagHandle d => execQdTagHandle_keeps (Keeps.refl s) d
  | .binTableUpdate n i1 hits => execBinTableUpdate_keeps (Keeps.refl s) n i1 hits
  | .tableSwap n i1 => execTableSwap_keeps (Keeps.refl s) n i1
  | .calStarved n i1 => execCalStarved_keeps (Keeps.refl s) n i1
  | .stealOverdue n => execStealOverdue_keeps (Keeps.refl s) n
  | .calCycleStart => execCalCycleStart_keeps (Keeps.refl s)
  | .deferredCalMeasure n => execDeferredCalMeasure_keeps (Keeps.refl s) n
  | .calMeasureDone n out tags => execCalMeasureDone_keeps (Keeps.refl s) n out tags
  | .tempTermUpdate => execTempTermUpdate_keeps (Keeps.refl s)
  | .ageingMeasure rings => execAgeingMeasure_keeps (Keeps.refl s) rings
  | .replan => execReplan_keeps (Keeps.refl s)
  | .baselineClear => execBaselineClear_keeps (Keeps.refl s)
  | .tdrChannelDone n r => execTdrChannelDone_keeps (Keeps.refl s) n r
  | .monitorReading k v invalid => execMonitorReading_keeps (Keeps.refl s) k v invalid
  | .thermalTrip k => execThermalTrip_keeps (Keeps.refl s) k
  | .refWindow w => execRefWindow_keeps (Keeps.refl s) w
  | .refMissingPulse => execRefMissingPulse_keeps (Keeps.refl s)
  | .refPhaseError => execRefPhaseError_keeps (Keeps.refl s)
  | .pllAcquireStart => execPllAcquireStart_keeps (Keeps.refl s)
  | .pllSlewDone => execPllSlewDone_keeps (Keeps.refl s)
  | .refLocked => execRefLocked_keeps (Keeps.refl s)
  | .refLockTimeout => execRefLockTimeout_keeps (Keeps.refl s)
  | .ppsEdge dt high => execPpsEdge_keeps (Keeps.refl s) dt high
  | .ppsLoss => execPpsLoss_keeps (Keeps.refl s)
  | .phaseSlewDone => execPhaseSlewDone_keeps (Keeps.refl s)
  | .dtcWrap => execDtcWrap_keeps (Keeps.refl s)
  | .ppsoutPulse => execPpsoutPulse_keeps (Keeps.refl s)
  | .bxPortUp up bad => execBxPortUp_keeps (Keeps.refl s) up bad
  | .bxLeaderTimeout rx => execBxLeaderTimeout_keeps (Keeps.refl s) rx
  | .bxPortLost up failed => execBxPortLost_keeps (Keeps.refl s) up failed
  | .bxCapReceived up cap rx => execBxCapReceived_keeps (Keeps.refl s) up cap rx
  | .bxTimeFrame up t bad => execBxTimeFrame_keeps (Keeps.refl s) up t bad
  | .bxOffsetUpdate up => execBxOffsetUpdate_keeps (Keeps.refl s) up
  | .bxTagFrame up src words => execBxTagFrame_keeps (Keeps.refl s) up src words
  | .bxControlFrame f => execBxControlFrame_keeps (Keeps.refl s) f
  | .brakeInputChange b dt => execBrakeInputChange_keeps (Keeps.refl s) b dt
  | .brakeTrip b => execBrakeTrip_keeps (Keeps.refl s) b
  | .brakeResume n => execBrakeResume_keeps (Keeps.refl s) n
  | .edgeCompute n => execEdgeCompute_keeps (Keeps.refl s) n
  | .edgeLaunch n => execEdgeLaunch_keeps (Keeps.refl s) n
  | .outputEvent n => execOutputEvent_keeps (Keeps.refl s) n
  | .puGenerate n => execPuGenerate_keeps (Keeps.refl s) n
  | .puHandover n => execPuHandover_keeps (Keeps.refl s) n
  | .gptTopEvent n => execGptTopEvent_keeps (Keeps.refl s) n
  | .gptCmpEvent n => execGptCmpEvent_keeps (Keeps.refl s) n
  | .gptTrigger n => execGptTrigger_keeps (Keeps.refl s) n
  | .dicDelivery sec => execDicDelivery_keeps (Keeps.refl s) sec
  | .coalTimeout n => execCoalTimeout_keeps (Keeps.refl s) n
  | .errlogWrite => execErrlogWrite_keeps (Keeps.refl s)
  | .dmaDescriptorFetch k f => execDmaDescriptorFetch_keeps (Keeps.refl s) k f
  | .dmaMove k n e h => execDmaMove_keeps (Keeps.refl s) k n e h
  | .flushTimeout k => execFlushTimeout_keeps (Keeps.refl s) k
  | .copyStep k e => execCopyStep_keeps (Keeps.refl s) k e
  | .handoverDrainEnd b => execHandoverDrainEnd_keeps (Keeps.refl s) b
  | .bankClearDone b => execBankClearDone_keeps (Keeps.refl s) b
  | .patrolScrub b e => execPatrolScrub_keeps (Keeps.refl s) b e
  | .retainCommit => execRetainCommit_keeps (Keeps.refl s)
  | .wake => execWake_keeps (Keeps.refl s)
  | .powerOnReset dt b => execPowerOnReset_keeps (Keeps.refl s) dt b
  | .railExcursion => execRailExcursion_keeps (Keeps.refl s)
  | .porN => execPorN_keeps (Keeps.refl s)
  | .ready dt cut sealOk => execReady_keeps (Keeps.refl s) dt cut sealOk
  | .mcWatchdog => execMcWatchdog_keeps (Keeps.refl s)
  | .hostReset linkDown => execHostReset_keeps (Keeps.refl s) linkDown
  | .pcieRetrain width speed => execPcieRetrain_keeps (Keeps.refl s) width speed
  | .backupSwitch vbat => execBackupSwitch_keeps (Keeps.refl s) vbat
  | .backupDomainLost => execBackupDomainLost_keeps (Keeps.refl s)
  | .xtalFail => execXtalFail_keeps (Keeps.refl s)
  | .rtcTrimMeasure trim => execRtcTrimMeasure_keeps (Keeps.refl s) trim
  | .rtcOffsetApply => execRtcOffsetApply_keeps (Keeps.refl s)
  | .tamperDetect k on => execTamperDetect_keeps (Keeps.refl s) k on
  | .sessionTimeout mb7 => execSessionTimeout_keeps (Keeps.refl s) mb7
  | .lockoutExpire k => execLockoutExpire_keeps (Keeps.refl s) k
  | .debouncedInactive b => execDebouncedInactive_keeps (Keeps.refl s) b
  | .quietTimeMet b => execQuietTimeMet_keeps (Keeps.refl s) b
  | .inAgePassed n out => execInAgePassed_keeps (Keeps.refl s) n out
  | .secondMark => execSecondMark_keeps (Keeps.refl s)
  | .busMasterEnable en => execBusMasterEnable_keeps (Keeps.refl s) en
  | .dataLinkUp width speed => execDataLinkUp_keeps (Keeps.refl s) width speed
  | .mcRestartComplete => execMcRestartComplete_keeps (Keeps.refl s)
  | .wakeScrubDone b e => execWakeScrubDone_keeps (Keeps.refl s) b e
  | .jtagInstruction k => execJtagInstruction_keeps (Keeps.refl s) k
  | .counterWrap n => execCounterWrap_keeps (Keeps.refl s) n

end Sys2Proof.Machine
end

