-- ==== Sys2Proof/Laws/Same.lean ====
section
/-! SUPPORT. Frames: how they compose, and the frames of the ways to build a state. -/
namespace Sys2Proof.Machine

/-- Every kind of one list is in another. -/
def within (a b : List Kind) : Bool := a.all fun k => b.contains k

theorem within_mem {a b : List Kind} (h : within a b = true) {k : Kind} (m : k ∈ a) : k ∈ b := by
  simp only [within, List.all_eq_true, List.contains_iff_mem] at h
  exact h k m

theorem within_trans {a b c : List Kind} (h : within a b = true) (g : within b c = true) : within a c = true := by
  simp only [within, List.all_eq_true, List.contains_iff_mem] at *
  exact fun k m => g k (h k m)

theorem Same.refl (l : List Kind) (s : State) : Same l s s := by constructor <;> exact Or.inr rfl

/-- One kind through two frames. -/
theorem sameStep {a l : List Kind} (d : within a l = true) {k : Kind} {α : Type} {x y z : α} (g : k ∈ a ∨ z = y) (h : k ∈ l ∨ y = x) :
    k ∈ l ∨ z = x := by
  cases g with
  | inl m => exact .inl (within_mem d m)
  | inr e => exact e ▸ h

/-- A change of the kinds in `a` after a change of the kinds in `l`. -/
theorem Same.step {a l : List Kind} {s t u : State} (d : within a l = true) (g : Same a t u) (h : Same l s t) : Same l s u :=
  ⟨sameStep d g.pending h.pending, sameStep d g.tb h.tb, sameStep d g.ref h.ref, sameStep d g.pps h.pps, sameStep d g.bx h.bx,
    sameStep d g.ch h.ch, sameStep d g.cl h.cl, sameStep d g.slot h.slot, sameStep d g.dec h.dec, sameStep d g.tim h.tim, sameStep
    d g.timWr h.timWr, sameStep d g.brk h.brk, sameStep d g.bank h.bank, sameStep d g.mem h.mem, sameStep d g.ue h.ue, sameStep d
    g.dma h.dma, sameStep d g.noStream h.noStream, sameStep d g.posted h.posted, sameStep d g.mir h.mir, sameStep d g.pcie h.pcie,
    sameStep d g.env h.env, sameStep d g.st h.st, sameStep d g.mb h.mb, sameStep d g.goNext h.goNext, sameStep d g.qp h.qp,
    sameStep d g.grp h.grp, sameStep d g.ic h.ic, sameStep d g.err h.err, sameStep d g.perf h.perf, sameStep d g.sec h.sec,
    sameStep d g.tamper h.tamper, sameStep d g.pwr h.pwr, sameStep d g.rtc h.rtc, sameStep d g.deferred h.deferred, sameStep d
    g.lastRead h.lastRead, sameStep d g.freeCnt h.freeCnt⟩


theorem Same.ite {l : List Kind} {s a b : State} {c : Prop} [Decidable c] (h : Same l s a) (k : Same l s b) : Same l s (if c then a else b) := by
  split <;> assumption

theorem Same.foldl {l : List Kind} {s : State} {α : Type} {f : State → α → State} (h : ∀ t a, Same l s t → Same l s (f t a)) :
    ∀ (v : List α) {t : State}, Same l s t → Same l s (v.foldl f t)
  | [], _, k => k
  | a :: v, _, k => Same.foldl h v (h _ a k)

theorem Same.each {l : List Kind} {s t : State} {v : List Nat} {f : State → Nat → State} (k : Same l s t)
    (h : ∀ t n, Same l s t → Same l s (f t n)) : Same l s (t.each v f) := Same.foldl h v k

theorem Same.foldlFst {l : List Kind} {s : State} {α β : Type} {f : State × β → α → State × β}
    (h : ∀ p a, Same l s p.1 → Same l s (f p a).1) : ∀ (v : List α) {p : State × β}, Same l s p.1 → Same l s (v.foldl f p).1
  | [], _, k => k
  | a :: v, _, k => Same.foldlFst h v (h _ a k)

theorem Same.iteFst {l : List Kind} {s : State} {β : Type} {a b : State × β} {c : Prop} [Decidable c] (h : Same l s a.1) (k : Same l s b.1) :
    Same l s (if c then a else b).1 := by
  split <;> assumption

theorem Same.fst {l : List Kind} {s a : State} {β : Type} {b : β} (h : Same l s a) : Same l s (a, b).1 := h

theorem Same.iteRes {l : List Kind} {s : State} {a b : Res} {c : Prop} [Decidable c] (h : Same l s a.state) (k : Same l s b.state) :
    Same l s (if c then a else b).state := by
  split <;> assumption

theorem fail_same {l : List Kind} {s0 s : State} (h : Same l s0 s) (c : Nat) : Same l s0 (fail s c).state := h
theorem okay_same {l : List Kind} {s0 s : State} (h : Same l s0 s) (r : List W32) : Same l s0 (okay s r).state := h
theorem done_same {l : List Kind} {s0 s : State} (h : Same l s0 s) (c : Nat) (r : List W32) : Same l s0 (Res.done s c r).state := h
theorem wait_same {l : List Kind} {s0 s : State} (h : Same l s0 s) (w : MbWait) : Same l s0 (Res.wait s w).state := h

theorem Same.iteDid {l : List Kind} {s : State} {a b : Did} {c : Prop} [Decidable c] (h : Same l s a.state) (k : Same l s b.state) :
    Same l s (if c then a else b).state := by
  split <;> assumption

theorem didOk_same {l : List Kind} {s0 s : State} (h : Same l s0 s) : Same l s0 (Did.ok s).state := h
theorem didFault_same {l : List Kind} {s0 s : State} (h : Same l s0 s) (k n : Nat) : Same l s0 (Did.fault s k n).state := h
theorem didHandled_same {l : List Kind} {s0 s : State} (h : Same l s0 s) : Same l s0 (Did.handled s).state := h

/-- The frame of an outcome: nothing is said of a fault or a refusal. -/
structure OSame (l : List Kind) (s : State) (o : Host.Outcome State Fault Refusal) : Prop where
  next_same : ∀ t, o = .next t → Same l s t

theorem OSame.next {l : List Kind} {s t : State} (h : Same l s t) : OSame l s (.next t) := by
  constructor; intro u e; cases e; exact h

theorem OSame.fault {l : List Kind} {s : State} (r : Fault) : OSame l s (.fault r) := by
  constructor; intro u e; cases e

theorem OSame.ite {l : List Kind} {s : State} {a b : Host.Outcome State Fault Refusal} {c : Prop} [Decidable c] (h : OSame l s a) (k : OSame l s b) :
    OSame l s (if c then a else b) := by
  split <;> assumption

/-! Frames of the record updates. -/

theorem Same.set_bank (t : State) (bank : Vector Bank 64) : Same [.bank] t { t with bank := bank } := by
  constructor <;> first | exact .inr rfl | exact .inl (by decide)

theorem Same.set_brk (t : State) (brk : Vector Brake 8) : Same [.brk] t { t with brk := brk } := by
  constructor <;> first | exact .inr rfl | exact .inl (by decide)

theorem Same.set_bx (t : State) (bx : Basxus) : Same [.bx] t { t with bx := bx } := by
  constructor <;> first | exact .inr rfl | exact .inl (by decide)

theorem Same.set_ch (t : State) (ch : Vector Channel 128) : Same [.ch] t { t with ch := ch } := by
  constructor <;> first | exact .inr rfl | exact .inl (by decide)

theorem Same.set_ch_cl_slot_dec_tim_timWr_bank_mem_ue_env_st_grp_ic_perf_sec_pwr_deferred (t : State) (ch : Vector Channel 128) (cl : Vector Cluster 4) (slot : Vector Slot 512) (dec : Vector Decoder 32) (tim : Vector Timer 32) (timWr : List TimWrite) (bank : Vector Bank 64) (mem : List Host.Cell) (ue : List Nat) (env : Envir) (st : Status) (grp : Vector Group 4) (ic : Ic) (perf : Perf) (sec : Sec) (pwr : Power) (deferred : List Deferred) : Same [.ch, .cl, .slot, .dec, .tim, .timWr, .bank, .mem, .ue, .env, .st, .grp, .ic, .perf, .sec, .pwr, .deferred] t { t with ch := ch, cl := cl, slot := slot, dec := dec, tim := tim, timWr := timWr, bank := bank, mem := mem, ue := ue, env := env, st := st, grp := grp, ic := ic, perf := perf, sec := sec, pwr := pwr, deferred := deferred } := by
  constructor <;> first | exact .inr rfl | exact .inl (by decide)

theorem Same.set_cl (t : State) (cl : Vector Cluster 4) : Same [.cl] t { t with cl := cl } := by
  constructor <;> first | exact .inr rfl | exact .inl (by decide)

theorem Same.set_dec (t : State) (dec : Vector Decoder 32) : Same [.dec] t { t with dec := dec } := by
  constructor <;> first | exact .inr rfl | exact .inl (by decide)

theorem Same.set_deferred (t : State) (deferred : List Deferred) : Same [.deferred] t { t with deferred := deferred } := by
  constructor <;> first | exact .inr rfl | exact .inl (by decide)

theorem Same.set_dma (t : State) (dma : Vector Dma 16) : Same [.dma] t { t with dma := dma } := by
  constructor <;> first | exact .inr rfl | exact .inl (by decide)

theorem Same.set_env (t : State) (env : Envir) : Same [.env] t { t with env := env } := by
  constructor <;> first | exact .inr rfl | exact .inl (by decide)

theorem Same.set_err (t : State) (err : ErrLog) : Same [.err] t { t with err := err } := by
  constructor <;> first | exact .inr rfl | exact .inl (by decide)

theorem Same.set_freeCnt (t : State) (freeCnt : Nat) : Same [.freeCnt] t { t with freeCnt := freeCnt } := by
  constructor <;> first | exact .inr rfl | exact .inl (by decide)

theorem Same.set_goNext (t : State) (goNext : Nat) : Same [.goNext] t { t with goNext := goNext } := by
  constructor <;> first | exact .inr rfl | exact .inl (by decide)

theorem Same.set_grp (t : State) (grp : Vector Group 4) : Same [.grp] t { t with grp := grp } := by
  constructor <;> first | exact .inr rfl | exact .inl (by decide)

theorem Same.set_ic (t : State) (ic : Ic) : Same [.ic] t { t with ic := ic } := by
  constructor <;> first | exact .inr rfl | exact .inl (by decide)

theorem Same.set_lastRead (t : State) (lastRead : Cpl) : Same [.lastRead] t { t with lastRead := lastRead } := by
  constructor <;> first | exact .inr rfl | exact .inl (by decide)

theorem Same.set_mb (t : State) (mb : Vector Mailbox 8) : Same [.mb] t { t with mb := mb } := by
  constructor <;> first | exact .inr rfl | exact .inl (by decide)

theorem Same.set_mem_ue (t : State) (mem : List Host.Cell) (ue : List Nat) : Same [.mem, .ue] t { t with mem := mem, ue := ue } := by
  constructor <;> first | exact .inr rfl | exact .inl (by decide)

theorem Same.set_mir (t : State) (mir : Mirror) : Same [.mir] t { t with mir := mir } := by
  constructor <;> first | exact .inr rfl | exact .inl (by decide)

theorem Same.set_mir_deferred (t : State) (mir : Mirror) (deferred : List Deferred) : Same [.mir, .deferred] t { t with mir := mir, deferred := deferred } := by
  constructor <;> first | exact .inr rfl | exact .inl (by decide)

theorem Same.set_mir_pcie (t : State) (mir : Mirror) (pcie : Pcie) : Same [.mir, .pcie] t { t with mir := mir, pcie := pcie } := by
  constructor <;> first | exact .inr rfl | exact .inl (by decide)

theorem Same.set_noStream (t : State) (noStream : W32) : Same [.noStream] t { t with noStream := noStream } := by
  constructor <;> first | exact .inr rfl | exact .inl (by decide)

theorem Same.set_pcie (t : State) (pcie : Pcie) : Same [.pcie] t { t with pcie := pcie } := by
  constructor <;> first | exact .inr rfl | exact .inl (by decide)

theorem Same.set_perf (t : State) (perf : Perf) : Same [.perf] t { t with perf := perf } := by
  constructor <;> first | exact .inr rfl | exact .inl (by decide)

theorem Same.set_posted (t : State) (posted : List Posted) : Same [.posted] t { t with posted := posted } := by
  constructor <;> first | exact .inr rfl | exact .inl (by decide)

theorem Same.set_pps (t : State) (pps : Pps) : Same [.pps] t { t with pps := pps } := by
  constructor <;> first | exact .inr rfl | exact .inl (by decide)

theorem Same.set_pwr (t : State) (pwr : Power) : Same [.pwr] t { t with pwr := pwr } := by
  constructor <;> first | exact .inr rfl | exact .inl (by decide)

theorem Same.set_qp (t : State) (qp : Vector QueuePair 4) : Same [.qp] t { t with qp := qp } := by
  constructor <;> first | exact .inr rfl | exact .inl (by decide)

theorem Same.set_ref (t : State) (ref : Reference) : Same [.ref] t { t with ref := ref } := by
  constructor <;> first | exact .inr rfl | exact .inl (by decide)

theorem Same.set_ref_pps (t : State) (ref : Reference) (pps : Pps) : Same [.ref, .pps] t { t with ref := ref, pps := pps } := by
  constructor <;> first | exact .inr rfl | exact .inl (by decide)

theorem Same.set_rtc (t : State) (rtc : Rtc) : Same [.rtc] t { t with rtc := rtc } := by
  constructor <;> first | exact .inr rfl | exact .inl (by decide)

theorem Same.set_sec (t : State) (sec : Sec) : Same [.sec] t { t with sec := sec } := by
  constructor <;> first | exact .inr rfl | exact .inl (by decide)

theorem Same.set_slot (t : State) (slot : Vector Slot 512) : Same [.slot] t { t with slot := slot } := by
  constructor <;> first | exact .inr rfl | exact .inl (by decide)

theorem Same.set_st (t : State) (st : Status) : Same [.st] t { t with st := st } := by
  constructor <;> first | exact .inr rfl | exact .inl (by decide)

theorem Same.set_st_ic_perf (t : State) (st : Status) (ic : Ic) (perf : Perf) : Same [.st, .ic, .perf] t { t with st := st, ic := ic, perf := perf } := by
  constructor <;> first | exact .inr rfl | exact .inl (by decide)

theorem Same.set_st_sec (t : State) (st : Status) (sec : Sec) : Same [.st, .sec] t { t with st := st, sec := sec } := by
  constructor <;> first | exact .inr rfl | exact .inl (by decide)

theorem Same.set_tamper (t : State) (tamper : Tamper) : Same [.tamper] t { t with tamper := tamper } := by
  constructor <;> first | exact .inr rfl | exact .inl (by decide)

theorem Same.set_tamper_rtc (t : State) (tamper : Tamper) (rtc : Rtc) : Same [.tamper, .rtc] t { t with tamper := tamper, rtc := rtc } := by
  constructor <;> first | exact .inr rfl | exact .inl (by decide)

theorem Same.set_tb (t : State) (tb : TimeBase) : Same [.tb] t { t with tb := tb } := by
  constructor <;> first | exact .inr rfl | exact .inl (by decide)

theorem Same.set_tb_ref_ch_dec_rtc (t : State) (tb : TimeBase) (ref : Reference) (ch : Vector Channel 128) (dec : Vector Decoder 32) (rtc : Rtc) : Same [.tb, .ref, .ch, .dec, .rtc] t { t with tb := tb, ref := ref, ch := ch, dec := dec, rtc := rtc } := by
  constructor <;> first | exact .inr rfl | exact .inl (by decide)

theorem Same.set_tim (t : State) (tim : Vector Timer 32) : Same [.tim] t { t with tim := tim } := by
  constructor <;> first | exact .inr rfl | exact .inl (by decide)

theorem Same.set_timWr (t : State) (timWr : List TimWrite) : Same [.timWr] t { t with timWr := timWr } := by
  constructor <;> first | exact .inr rfl | exact .inl (by decide)

theorem Same.set_ue (t : State) (ue : List Nat) : Same [.ue] t { t with ue := ue } := by
  constructor <;> first | exact .inr rfl | exact .inl (by decide)

end Sys2Proof.Machine
end

