-- ==== Sys2Proof/Laws/SameOps.lean ====
section
/-! SUPPORT. Frames of the operations of Machine/Ops.lean. -/
namespace Sys2Proof.Machine

theorem State.modCh_same {kl : List Kind} (hk : within [.ch] kl = true) {s0 s : State} (hs : Same kl s0 s) (n : Nat) (f : Channel → Channel) :
    Same kl s0 (State.modCh s n f) := by
  unfold State.modCh
  repeat' first
    | with_reducible assumption
    | intro _
    | exact within_trans (by decide) hk
    | with_reducible apply Same.ite
    | with_reducible refine Same.step (within_trans (by decide) hk) (Same.set_ch _ _) ?_
    | split
    | dsimp only

theorem State.modIn_same {kl : List Kind} (hk : within [.ch] kl = true) {s0 s : State} (hs : Same kl s0 s) (n : Nat) (f : ChIn → ChIn) :
    Same kl s0 (State.modIn s n f) := by
  unfold State.modIn
  repeat' first
    | with_reducible assumption
    | intro _
    | exact within_trans (by decide) hk
    | with_reducible apply State.modCh_same
    | with_reducible apply Same.ite
    | split
    | dsimp only

theorem State.modCal_same {kl : List Kind} (hk : within [.ch] kl = true) {s0 s : State} (hs : Same kl s0 s) (n : Nat) (f : ChCal → ChCal) :
    Same kl s0 (State.modCal s n f) := by
  unfold State.modCal
  repeat' first
    | with_reducible assumption
    | intro _
    | exact within_trans (by decide) hk
    | with_reducible apply State.modCh_same
    | with_reducible apply Same.ite
    | split
    | dsimp only

theorem State.modOut_same {kl : List Kind} (hk : within [.ch] kl = true) {s0 s : State} (hs : Same kl s0 s) (n : Nat) (f : ChOut → ChOut) :
    Same kl s0 (State.modOut s n f) := by
  unfold State.modOut
  repeat' first
    | with_reducible assumption
    | intro _
    | exact within_trans (by decide) hk
    | with_reducible apply State.modCh_same
    | with_reducible apply Same.ite
    | split
    | dsimp only

theorem State.modPu_same {kl : List Kind} (hk : within [.ch] kl = true) {s0 s : State} (hs : Same kl s0 s) (n : Nat) (f : PatUnit → PatUnit) :
    Same kl s0 (State.modPu s n f) := by
  unfold State.modPu
  repeat' first
    | with_reducible assumption
    | intro _
    | exact within_trans (by decide) hk
    | with_reducible apply State.modCh_same
    | with_reducible apply Same.ite
    | split
    | dsimp only

theorem State.modPr_same {kl : List Kind} (hk : within [.ch] kl = true) {s0 s : State} (hs : Same kl s0 s) (n : Nat) (f : ChPair → ChPair) :
    Same kl s0 (State.modPr s n f) := by
  unfold State.modPr
  repeat' first
    | with_reducible assumption
    | intro _
    | exact within_trans (by decide) hk
    | with_reducible apply State.modCh_same
    | with_reducible apply Same.ite
    | split
    | dsimp only

theorem State.modCl_same {kl : List Kind} (hk : within [.cl] kl = true) {s0 s : State} (hs : Same kl s0 s) (c : Nat) (f : Cluster → Cluster) :
    Same kl s0 (State.modCl s c f) := by
  unfold State.modCl
  repeat' first
    | with_reducible assumption
    | intro _
    | exact within_trans (by decide) hk
    | with_reducible apply Same.ite
    | with_reducible refine Same.step (within_trans (by decide) hk) (Same.set_cl _ _) ?_
    | split
    | dsimp only

theorem State.modMe_same {kl : List Kind} (hk : within [.cl] kl = true) {s0 s : State} (hs : Same kl s0 s) (c : Nat) (f : Microengine → Microengine) :
    Same kl s0 (State.modMe s c f) := by
  unfold State.modMe
  repeat' first
    | with_reducible assumption
    | intro _
    | exact within_trans (by decide) hk
    | with_reducible apply State.modCl_same
    | with_reducible apply Same.ite
    | split
    | dsimp only

theorem State.modSch_same {kl : List Kind} (hk : within [.cl] kl = true) {s0 s : State} (hs : Same kl s0 s) (c : Nat) (f : Sched → Sched) :
    Same kl s0 (State.modSch s c f) := by
  unfold State.modSch
  repeat' first
    | with_reducible assumption
    | intro _
    | exact within_trans (by decide) hk
    | with_reducible apply State.modCl_same
    | with_reducible apply Same.ite
    | split
    | dsimp only

theorem State.modTask_same {kl : List Kind} (hk : within [.cl] kl = true) {s0 s : State} (hs : Same kl s0 s) (c t : Nat) (f : Task → Task) :
    Same kl s0 (State.modTask s c t f) := by
  unfold State.modTask
  repeat' first
    | with_reducible assumption
    | intro _
    | exact within_trans (by decide) hk
    | with_reducible apply State.modSch_same
    | with_reducible apply Same.ite
    | split
    | dsimp only

theorem State.modSlot_same {kl : List Kind} (hk : within [.slot] kl = true) {s0 s : State} (hs : Same kl s0 s) (k : Nat) (f : Slot → Slot) :
    Same kl s0 (State.modSlot s k f) := by
  unfold State.modSlot
  repeat' first
    | with_reducible assumption
    | intro _
    | exact within_trans (by decide) hk
    | with_reducible apply Same.ite
    | with_reducible refine Same.step (within_trans (by decide) hk) (Same.set_slot _ _) ?_
    | split
    | dsimp only

theorem State.modDec_same {kl : List Kind} (hk : within [.dec] kl = true) {s0 s : State} (hs : Same kl s0 s) (d : Nat) (f : Decoder → Decoder) :
    Same kl s0 (State.modDec s d f) := by
  unfold State.modDec
  repeat' first
    | with_reducible assumption
    | intro _
    | exact within_trans (by decide) hk
    | with_reducible apply Same.ite
    | with_reducible refine Same.step (within_trans (by decide) hk) (Same.set_dec _ _) ?_
    | split
    | dsimp only

theorem State.modTim_same {kl : List Kind} (hk : within [.tim] kl = true) {s0 s : State} (hs : Same kl s0 s) (n : Nat) (f : Timer → Timer) :
    Same kl s0 (State.modTim s n f) := by
  unfold State.modTim
  repeat' first
    | with_reducible assumption
    | intro _
    | exact within_trans (by decide) hk
    | with_reducible apply Same.ite
    | with_reducible refine Same.step (within_trans (by decide) hk) (Same.set_tim _ _) ?_
    | split
    | dsimp only

theorem State.modBrk_same {kl : List Kind} (hk : within [.brk] kl = true) {s0 s : State} (hs : Same kl s0 s) (b : Nat) (f : Brake → Brake) :
    Same kl s0 (State.modBrk s b f) := by
  unfold State.modBrk
  repeat' first
    | with_reducible assumption
    | intro _
    | exact within_trans (by decide) hk
    | with_reducible apply Same.ite
    | with_reducible refine Same.step (within_trans (by decide) hk) (Same.set_brk _ _) ?_
    | split
    | dsimp only

theorem State.modBank_same {kl : List Kind} (hk : within [.bank] kl = true) {s0 s : State} (hs : Same kl s0 s) (b : Nat) (f : Bank → Bank) :
    Same kl s0 (State.modBank s b f) := by
  unfold State.modBank
  repeat' first
    | with_reducible assumption
    | intro _
    | exact within_trans (by decide) hk
    | with_reducible apply Same.ite
    | with_reducible refine Same.step (within_trans (by decide) hk) (Same.set_bank _ _) ?_
    | split
    | dsimp only

theorem State.modDma_same {kl : List Kind} (hk : within [.dma] kl = true) {s0 s : State} (hs : Same kl s0 s) (k : Nat) (f : Dma → Dma) :
    Same kl s0 (State.modDma s k f) := by
  unfold State.modDma
  repeat' first
    | with_reducible assumption
    | intro _
    | exact within_trans (by decide) hk
    | with_reducible apply Same.ite
    | with_reducible refine Same.step (within_trans (by decide) hk) (Same.set_dma _ _) ?_
    | split
    | dsimp only

theorem State.modMb_same {kl : List Kind} (hk : within [.mb] kl = true) {s0 s : State} (hs : Same kl s0 s) (m : Nat) (f : Mailbox → Mailbox) :
    Same kl s0 (State.modMb s m f) := by
  unfold State.modMb
  repeat' first
    | with_reducible assumption
    | intro _
    | exact within_trans (by decide) hk
    | with_reducible apply Same.ite
    | with_reducible refine Same.step (within_trans (by decide) hk) (Same.set_mb _ _) ?_
    | split
    | dsimp only

theorem State.modQp_same {kl : List Kind} (hk : within [.qp] kl = true) {s0 s : State} (hs : Same kl s0 s) (q : Nat) (f : QueuePair → QueuePair) :
    Same kl s0 (State.modQp s q f) := by
  unfold State.modQp
  repeat' first
    | with_reducible assumption
    | intro _
    | exact within_trans (by decide) hk
    | with_reducible apply Same.ite
    | with_reducible refine Same.step (within_trans (by decide) hk) (Same.set_qp _ _) ?_
    | split
    | dsimp only

theorem State.modSrc_same {kl : List Kind} (hk : within [.ic] kl = true) {s0 s : State} (hs : Same kl s0 s) (k : Nat) (f : Source → Source) :
    Same kl s0 (State.modSrc s k f) := by
  unfold State.modSrc
  repeat' first
    | with_reducible assumption
    | intro _
    | exact within_trans (by decide) hk
    | with_reducible apply Same.ite
    | with_reducible refine Same.step (within_trans (by decide) hk) (Same.set_ic _ _) ?_
    | split
    | dsimp only

theorem State.wakeBy_same {kl : List Kind} (hk : within [.pwr] kl = true) {s0 s : State} (hs : Same kl s0 s) (b : Nat) :
    Same kl s0 (State.wakeBy s b) := by
  unfold State.wakeBy
  repeat' first
    | with_reducible assumption
    | intro _
    | exact within_trans (by decide) hk
    | with_reducible apply Same.ite
    | with_reducible refine Same.step (within_trans (by decide) hk) (Same.set_pwr _ _) ?_
    | split
    | dsimp only

theorem State.wakeOf_same {kl : List Kind} (hk : within [.pwr] kl = true) {s0 s : State} (hs : Same kl s0 s) (k : Nat) :
    Same kl s0 (State.wakeOf s k) := by
  unfold State.wakeOf
  repeat' first
    | with_reducible assumption
    | intro _
    | exact within_trans (by decide) hk
    | with_reducible apply State.wakeBy_same
    | with_reducible apply Same.ite
    | split
    | dsimp only

theorem State.raise_same {kl : List Kind} (hk : within [.ic, .pwr] kl = true) {s0 s : State} (hs : Same kl s0 s) (k : Nat) :
    Same kl s0 (State.raise s k) := by
  unfold State.raise
  repeat' first
    | with_reducible assumption
    | intro _
    | exact within_trans (by decide) hk
    | with_reducible apply State.modSrc_same
    | with_reducible apply State.wakeOf_same
    | with_reducible apply Same.ite
    | split
    | dsimp only

theorem State.setLine_same {kl : List Kind} (hk : within [.ic] kl = true) {s0 s : State} (hs : Same kl s0 s) (k : Nat) (v : Bool) :
    Same kl s0 (State.setLine s k v) := by
  unfold State.setLine
  repeat' first
    | with_reducible assumption
    | intro _
    | exact within_trans (by decide) hk
    | with_reducible apply State.modSrc_same
    | with_reducible apply Same.ite
    | split
    | dsimp only

theorem State.pcWrap_same {kl : List Kind} (hk : within [.ic, .perf, .pwr] kl = true) {s0 s : State} (hs : Same kl s0 s) (n : Nat) :
    Same kl s0 (State.pcWrap s n) := by
  unfold State.pcWrap
  repeat' first
    | with_reducible assumption
    | intro _
    | exact within_trans (by decide) hk
    | with_reducible apply State.raise_same
    | with_reducible apply Same.ite
    | with_reducible refine Same.step (within_trans (by decide) hk) (Same.set_perf _ _) ?_
    | split
    | dsimp only

theorem State.pcRaw_same {kl : List Kind} (hk : within [.ic, .perf, .pwr] kl = true) {s0 s : State} (hs : Same kl s0 s) (n k : Nat) :
    Same kl s0 (State.pcRaw s n k) := by
  unfold State.pcRaw
  repeat' first
    | with_reducible assumption
    | intro _
    | exact within_trans (by decide) hk
    | with_reducible apply State.pcWrap_same
    | with_reducible apply Same.ite
    | with_reducible refine Same.step (within_trans (by decide) hk) (Same.set_perf _ _) ?_
    | split
    | dsimp only

theorem State.pcAdd_same {kl : List Kind} (hk : within [.ic, .perf, .pwr] kl = true) {s0 s : State} (hs : Same kl s0 s) (n k : Nat) :
    Same kl s0 (State.pcAdd s n k) := by
  unfold State.pcAdd
  repeat' first
    | with_reducible assumption
    | intro _
    | exact within_trans (by decide) hk
    | with_reducible apply State.pcRaw_same
    | with_reducible apply Same.ite
    | with_reducible refine Same.step (within_trans (by decide) hk) (Same.set_perf _ _) ?_
    | split
    | dsimp only

theorem State.advance_same {kl : List Kind} (hk : within [.tb, .ic, .perf, .pwr] kl = true) {s0 s : State} (hs : Same kl s0 s) (d : Nat) :
    Same kl s0 (State.advance s d) := by
  unfold State.advance
  repeat' first
    | with_reducible assumption
    | intro _
    | exact within_trans (by decide) hk
    | with_reducible apply State.pcAdd_same
    | with_reducible apply Same.ite
    | with_reducible refine Same.step (within_trans (by decide) hk) (Same.set_tb _ _) ?_
    | split
    | dsimp only

theorem State.runTo_same {kl : List Kind} (hk : within [.tb, .ic, .perf, .pwr] kl = true) {s0 s : State} (hs : Same kl s0 s) (p : Nat) :
    Same kl s0 (State.runTo s p) := by
  unfold State.runTo
  repeat' first
    | with_reducible assumption
    | intro _
    | exact within_trans (by decide) hk
    | with_reducible apply State.advance_same
    | with_reducible apply Same.ite
    | split
    | dsimp only

theorem State.defer_same {kl : List Kind} (hk : within [.deferred] kl = true) {s0 s : State} (hs : Same kl s0 s) (w : When) (op : Nat) (words : List W32) :
    Same kl s0 (State.defer s w op words) := by
  unfold State.defer
  repeat' first
    | with_reducible assumption
    | intro _
    | exact within_trans (by decide) hk
    | with_reducible apply Same.ite
    | with_reducible refine Same.step (within_trans (by decide) hk) (Same.set_deferred _ _) ?_
    | split
    | dsimp only

theorem State.report_same {kl : List Kind} (hk : within [.ic, .err, .perf, .pwr] kl = true) {s0 s : State} (hs : Same kl s0 s) (cls code object : Nat) (arg0 arg1 : W32) :
    Same kl s0 (State.report s cls code object arg0 arg1) := by
  unfold State.report
  repeat' first
    | with_reducible assumption
    | intro _
    | exact within_trans (by decide) hk
    | with_reducible apply State.pcAdd_same
    | with_reducible apply Same.ite
    | split
    | with_reducible refine Same.step (within_trans (by decide) hk) (Same.set_err _ _) ?_
    | dsimp only

theorem State.event_same {kl : List Kind} (hk : within [.cl, .tim, .pwr] kl = true) {s0 s : State} (hs : Same kl s0 s) (c kind arg : Nat) :
    Same kl s0 (State.event s c kind arg) := by
  unfold State.event
  repeat' first
    | with_reducible assumption
    | intro _
    | exact within_trans (by decide) hk
    | with_reducible apply State.modMe_same
    | with_reducible apply State.wakeBy_same
    | with_reducible apply Same.ite
    | with_reducible apply Same.each
    | with_reducible refine Same.step (within_trans (by decide) hk) (Same.set_tim _ _) ?_
    | split
    | dsimp only

theorem State.notice_same {kl : List Kind} (hk : within [.qp] kl = true) {s0 s : State} (hs : Same kl s0 s) (type : Nat) (data : List W32) :
    Same kl s0 (State.notice s type data) := by
  unfold State.notice
  repeat' first
    | with_reducible assumption
    | intro _
    | exact within_trans (by decide) hk
    | with_reducible apply State.modQp_same
    | with_reducible apply Same.ite
    | with_reducible apply Same.each
    | split
    | dsimp only

theorem State.deny_same {kl : List Kind} (hk : within [.bank, .ic, .err, .perf, .pwr] kl = true) {s0 s : State} (hs : Same kl s0 s) (b req word : Nat) (write : Bool) :
    Same kl s0 (State.deny s b req word write) := by
  unfold State.deny
  repeat' first
    | with_reducible assumption
    | intro _
    | exact within_trans (by decide) hk
    | with_reducible apply State.modBank_same
    | with_reducible apply State.raise_same
    | with_reducible apply State.report_same
    | with_reducible apply Same.ite
    | split
    | dsimp only

theorem State.badWord_same {kl : List Kind} (hk : within [.bank, .ic, .err, .perf, .pwr] kl = true) {s0 s : State} (hs : Same kl s0 s) (b req word : Nat) :
    Same kl s0 (State.badWord s b req word) := by
  unfold State.badWord
  repeat' first
    | with_reducible assumption
    | intro _
    | exact within_trans (by decide) hk
    | with_reducible apply State.modBank_same
    | with_reducible apply State.raise_same
    | with_reducible apply State.report_same
    | with_reducible apply Same.ite
    | split
    | dsimp only

theorem State.correctedWord_same {kl : List Kind} (hk : within [.bank, .ic, .perf, .pwr] kl = true) {s0 s : State} (hs : Same kl s0 s) (b : Nat) :
    Same kl s0 (State.correctedWord s b) := by
  unfold State.correctedWord
  repeat' first
    | with_reducible assumption
    | intro _
    | exact within_trans (by decide) hk
    | with_reducible apply State.modBank_same
    | with_reducible apply State.pcAdd_same
    | with_reducible apply Same.ite
    | split
    | dsimp only

theorem State.markBad_same {kl : List Kind} (hk : within [.ue] kl = true) {s0 s : State} (hs : Same kl s0 s) (w : Nat) :
    Same kl s0 (State.markBad s w) := by
  unfold State.markBad
  repeat' first
    | with_reducible assumption
    | intro _
    | exact within_trans (by decide) hk
    | with_reducible apply Same.ite
    | with_reducible refine Same.step (within_trans (by decide) hk) (Same.set_ue _ _) ?_
    | split
    | dsimp only

theorem State.readWord_same {kl : List Kind} (hk : within [.bank, .ue, .ic, .err, .perf, .pwr] kl = true) {s0 s : State} (hs : Same kl s0 s) (w req : Nat) (e : Ecc) :
    Same kl s0 (State.readWord s w req e).1 := by
  unfold State.readWord
  repeat' first
    | with_reducible assumption
    | intro _
    | exact within_trans (by decide) hk
    | with_reducible apply Same.iteFst
    | with_reducible apply State.badWord_same
    | with_reducible apply State.correctedWord_same
    | with_reducible apply State.markBad_same
    | with_reducible apply Same.ite
    | split
    | dsimp only

theorem State.writeWord_same {kl : List Kind} (hk : within [.mem, .ue] kl = true) {s0 s : State} (hs : Same kl s0 s) (w : Nat) (v : W64) :
    Same kl s0 (State.writeWord s w v) := by
  unfold State.writeWord
  repeat' first
    | with_reducible assumption
    | intro _
    | exact within_trans (by decide) hk
    | with_reducible apply Same.ite
    | with_reducible refine Same.step (within_trans (by decide) hk) (Same.set_mem_ue _ _ _) ?_
    | split
    | dsimp only

theorem State.zeroBank_same {kl : List Kind} (hk : within [.mem, .ue] kl = true) {s0 s : State} (hs : Same kl s0 s) (b : Nat) :
    Same kl s0 (State.zeroBank s b) := by
  unfold State.zeroBank
  repeat' first
    | with_reducible assumption
    | intro _
    | exact within_trans (by decide) hk
    | with_reducible apply Same.ite
    | with_reducible refine Same.step (within_trans (by decide) hk) (Same.set_mem_ue _ _ _) ?_
    | split
    | dsimp only

theorem State.post_same {kl : List Kind} (hk : within [.posted, .ic, .perf, .pwr] kl = true) {s0 s : State} (hs : Same kl s0 s) (addr : Nat) (words : List W32) :
    Same kl s0 (State.post s addr words) := by
  unfold State.post
  repeat' first
    | with_reducible assumption
    | intro _
    | exact within_trans (by decide) hk
    | with_reducible apply State.pcAdd_same
    | with_reducible apply Same.ite
    | with_reducible refine Same.step (within_trans (by decide) hk) (Same.set_posted _ _) ?_
    | split
    | dsimp only

theorem State.useFree_same {kl : List Kind} (hk : within [.freeCnt] kl = true) {s0 s : State} (hs : Same kl s0 s) :
    Same kl s0 (State.useFree s) := by
  unfold State.useFree
  repeat' first
    | with_reducible assumption
    | intro _
    | exact within_trans (by decide) hk
    | with_reducible apply Same.ite
    | with_reducible refine Same.step (within_trans (by decide) hk) (Same.set_freeCnt _ _) ?_
    | split
    | dsimp only

end Sys2Proof.Machine
end

