-- ==== Sys2Proof/Laws/SameStream.lean ====
section
/-! SUPPORT. Frames of the operations of Machine/Stream.lean. -/
namespace Sys2Proof.Machine

theorem State.emit_same {kl : List Kind} (hk : within [.cl] kl = true) {s0 s : State} (hs : Same kl s0 s) (c : Nat) (sort : Int) (dtc : Nat) (w : Word) :
    Same kl s0 (State.emit s c sort dtc w) := by
  unfold State.emit
  repeat' first
    | with_reducible assumption
    | intro _
    | exact within_trans (by decide) hk
    | with_reducible apply State.modCl_same
    | with_reducible apply Same.ite
    | split
    | dsimp only

theorem State.emitAll_same {kl : List Kind} (hk : within [.cl] kl = true) {s0 s : State} (hs : Same kl s0 s) (sort : Int) (dtc : Nat) (w : Word) :
    Same kl s0 (State.emitAll s sort dtc w) := by
  unfold State.emitAll
  repeat' first
    | with_reducible assumption
    | intro _
    | exact within_trans (by decide) hk
    | with_reducible apply State.emit_same
    | with_reducible apply Same.ite
    | with_reducible apply Same.each
    | split
    | dsimp only

end Sys2Proof.Machine
end

