-- ==== Sys2Proof/Laws/SameTrace.lean ====
section
/-! SUPPORT. Frames of the operations of Machine/Trace.lean. -/
namespace Sys2Proof.Machine

theorem State.modInt_same {kl : List Kind} (hk : within [.ch] kl = true) {s0 s : State} (hs : Same kl s0 s) (n : Nat) (i1 : Bool) (f : Interp → Interp) :
    Same kl s0 (State.modInt s n i1 f) := by
  unfold State.modInt
  repeat' first
    | with_reducible assumption
    | intro _
    | exact within_trans (by decide) hk
    | with_reducible apply State.modCal_same
    | with_reducible apply Same.ite
    | split
    | dsimp only

theorem State.setConf_same {kl : List Kind} (hk : within [.ch, .cl, .st] kl = true) {s0 s : State} (hs : Same kl s0 s) (n : Nat) (v : Conf) (at_ : Int) :
    Same kl s0 (State.setConf s n v at_) := by
  unfold State.setConf
  repeat' first
    | with_reducible assumption
    | intro _
    | exact within_trans (by decide) hk
    | with_reducible apply State.modCal_same
    | with_reducible apply State.emit_same
    | with_reducible apply Same.ite
    | with_reducible refine Same.step (within_trans (by decide) hk) (Same.set_st _ _) ?_
    | split
    | dsimp only

theorem State.setTrace_same {kl : List Kind} (hk : within [.cl, .st, .qp, .ic, .pwr] kl = true) {s0 s : State} (hs : Same kl s0 s) (v : Nat) (at_ : Int) :
    Same kl s0 (State.setTrace s v at_) := by
  unfold State.setTrace
  repeat' first
    | with_reducible assumption
    | intro _
    | exact within_trans (by decide) hk
    | with_reducible apply State.raise_same
    | with_reducible apply State.notice_same
    | with_reducible apply State.emitAll_same
    | with_reducible apply Same.ite
    | with_reducible refine Same.step (within_trans (by decide) hk) (Same.set_st _ _) ?_
    | split
    | dsimp only

theorem State.lowerConf_same {kl : List Kind} (hk : within [.ch, .cl, .st] kl = true) {s0 s : State} (hs : Same kl s0 s) :
    Same kl s0 (State.lowerConf s) := by
  unfold State.lowerConf
  repeat' first
    | with_reducible assumption
    | intro _
    | exact within_trans (by decide) hk
    | with_reducible apply Same.iteFst
    | with_reducible apply State.setConf_same
    | with_reducible apply Same.ite
    | with_reducible apply Same.each
    | split
    | dsimp only

theorem State.lowerTrace_same {kl : List Kind} (hk : within [.cl, .st, .qp, .ic, .pwr] kl = true) {s0 s : State} (hs : Same kl s0 s) :
    Same kl s0 (State.lowerTrace s) := by
  unfold State.lowerTrace
  repeat' first
    | with_reducible assumption
    | intro _
    | exact within_trans (by decide) hk
    | with_reducible apply State.setTrace_same
    | with_reducible apply Same.ite
    | split
    | dsimp only

theorem State.raiseAll_same {kl : List Kind} (hk : within [.ch, .cl, .st, .qp, .ic, .pwr] kl = true) {s0 s : State} (hs : Same kl s0 s) (at_ : Int) :
    Same kl s0 (State.raiseAll s at_) := by
  unfold State.raiseAll
  repeat' first
    | with_reducible assumption
    | intro _
    | exact within_trans (by decide) hk
    | with_reducible apply Same.iteFst
    | with_reducible apply State.setConf_same
    | with_reducible apply State.setTrace_same
    | with_reducible apply Same.ite
    | with_reducible apply Same.each
    | split
    | dsimp only

theorem State.lines_same {kl : List Kind} (hk : within [.ic] kl = true) {s0 s : State} (hs : Same kl s0 s) :
    Same kl s0 (State.lines s) := by
  unfold State.lines
  repeat' first
    | with_reducible assumption
    | intro _
    | exact within_trans (by decide) hk
    | with_reducible apply State.setLine_same
    | with_reducible apply Same.ite
    | with_reducible apply Same.each
    | split
    | dsimp only

theorem State.noteUnlocked_same {kl : List Kind} (hk : within [.env] kl = true) {s0 s : State} (hs : Same kl s0 s) :
    Same kl s0 (State.noteUnlocked s) := by
  unfold State.noteUnlocked
  repeat' first
    | with_reducible assumption
    | intro _
    | exact within_trans (by decide) hk
    | with_reducible apply Same.ite
    | with_reducible refine Same.step (within_trans (by decide) hk) (Same.set_env _ _) ?_
    | split
    | dsimp only

theorem State.noteLock_same {kl : List Kind} (hk : within [.st] kl = true) {s0 s : State} (hs : Same kl s0 s) :
    Same kl s0 (State.noteLock s) := by
  unfold State.noteLock
  repeat' first
    | with_reducible assumption
    | intro _
    | exact within_trans (by decide) hk
    | with_reducible apply Same.ite
    | split
    | with_reducible refine Same.step (within_trans (by decide) hk) (Same.set_st _ _) ?_
    | dsimp only

theorem State.noteConds_same {kl : List Kind} (hk : within [.st] kl = true) {s0 s : State} (hs : Same kl s0 s) :
    Same kl s0 (State.noteConds s) := by
  unfold State.noteConds
  repeat' first
    | with_reducible assumption
    | intro _
    | exact within_trans (by decide) hk
    | with_reducible apply Same.ite
    | with_reducible refine Same.step (within_trans (by decide) hk) (Same.set_st _ _) ?_
    | split
    | dsimp only

theorem State.noteRefout_same {kl : List Kind} (hk : within [.st] kl = true) {s0 s : State} (hs : Same kl s0 s) :
    Same kl s0 (State.noteRefout s) := by
  unfold State.noteRefout
  repeat' first
    | with_reducible assumption
    | intro _
    | exact within_trans (by decide) hk
    | with_reducible apply Same.ite
    | with_reducible refine Same.step (within_trans (by decide) hk) (Same.set_st _ _) ?_
    | split
    | dsimp only

theorem State.noteCap_same {kl : List Kind} (hk : within [.st] kl = true) {s0 s : State} (hs : Same kl s0 s) :
    Same kl s0 (State.noteCap s) := by
  unfold State.noteCap
  repeat' first
    | with_reducible assumption
    | intro _
    | exact within_trans (by decide) hk
    | with_reducible apply Same.ite
    | with_reducible refine Same.step (within_trans (by decide) hk) (Same.set_st _ _) ?_
    | split
    | dsimp only

theorem State.settle_same {kl : List Kind} (hk : within [.ch, .cl, .env, .st, .qp, .ic, .pwr] kl = true) {s0 s : State} (hs : Same kl s0 s) :
    Same kl s0 (State.settle s) := by
  unfold State.settle
  repeat' first
    | with_reducible assumption
    | intro _
    | exact within_trans (by decide) hk
    | with_reducible apply State.lowerConf_same
    | with_reducible apply State.lowerTrace_same
    | with_reducible apply State.lines_same
    | with_reducible apply State.noteUnlocked_same
    | with_reducible apply State.noteLock_same
    | with_reducible apply State.noteConds_same
    | with_reducible apply State.noteRefout_same
    | with_reducible apply State.noteCap_same
    | with_reducible apply Same.ite
    | split
    | dsimp only

end Sys2Proof.Machine
end

