-- ==== Sys2Proof/Laws/SameTdr.lean ====
section
/-! SUPPORT. Frames of the operations of Machine/Tdr.lean. -/
namespace Sys2Proof.Machine

theorem State.modCable_same {kl : List Kind} (hk : within [.ch] kl = true) {s0 s : State} (hs : Same kl s0 s) (n : Nat) (f : Cable → Cable) :
    Same kl s0 (State.modCable s n f) := by
  unfold State.modCable
  repeat' first
    | with_reducible assumption
    | intro _
    | exact within_trans (by decide) hk
    | with_reducible apply State.modCh_same
    | with_reducible apply Same.ite
    | split
    | dsimp only

theorem State.setTdr_same {kl : List Kind} (hk : within [.env] kl = true) {s0 s : State} (hs : Same kl s0 s) (c : Nat) (r : Option TdrRun) :
    Same kl s0 (State.setTdr s c r) := by
  unfold State.setTdr
  repeat' first
    | with_reducible assumption
    | intro _
    | exact within_trans (by decide) hk
    | with_reducible apply Same.ite
    | with_reducible refine Same.step (within_trans (by decide) hk) (Same.set_env _ _) ?_
    | split
    | dsimp only

theorem State.tdrFrom_same {kl : List Kind} (hk : within [.ch, .env] kl = true) {s0 : State} (c : Nat) (r : TdrRun) : ∀ (v : List Nat) {s : State} (_ : Same kl s0 s),
    Same kl s0 (s.tdrFrom c r v)
  | [], _, h => State.setTdr_same (within_trans (by decide) hk) h c none
  | n :: v, s, h => by
    unfold State.tdrFrom
    apply Same.ite
    · exact State.tdrFrom_same hk c r v (State.modCable_same (within_trans (by decide) hk) h _ _)
    apply Same.ite
    · exact State.tdrFrom_same hk c r v (State.modCable_same (within_trans (by decide) hk) h _ _)
    apply State.setTdr_same (within_trans (by decide) hk)
    exact Same.step (within_trans (by decide) hk) (Same.set_env _ _) h


theorem State.tdrStop_same {kl : List Kind} (hk : within [.ch, .env] kl = true) {s0 s : State} (hs : Same kl s0 s) (n outcome : Nat) :
    Same kl s0 (State.tdrStop s n outcome) := by
  unfold State.tdrStop
  repeat' first
    | with_reducible assumption
    | intro _
    | exact within_trans (by decide) hk
    | with_reducible apply State.modCable_same
    | with_reducible apply State.tdrFrom_same
    | with_reducible apply Same.ite
    | split
    | dsimp only

theorem State.tdrEnds_same {kl : List Kind} (hk : within [.tb, .ic, .perf, .pwr] kl = true) {s0 s : State} (hs : Same kl s0 s) (r : TdrRun) :
    Same kl s0 (State.tdrEnds s r) := by
  unfold State.tdrEnds
  repeat' first
    | with_reducible assumption
    | intro _
    | exact within_trans (by decide) hk
    | with_reducible apply State.runTo_same
    | with_reducible apply Same.ite
    | split
    | dsimp only

end Sys2Proof.Machine
end

