-- ==== Sys2Proof/Laws/SameInput.lean ====
section
/-! SUPPORT. Frames of the operations of Machine/Input.lean. -/
namespace Sys2Proof.Machine

theorem State.takeLane_same {kl : List Kind} (hk : within [.tb, .cl, .ic, .perf, .pwr] kl = true) {s0 s : State} (hs : Same kl s0 s) (c : Nat) :
    Same kl s0 (State.takeLane s c) := by
  unfold State.takeLane
  repeat' first
    | with_reducible assumption
    | intro _
    | exact within_trans (by decide) hk
    | with_reducible apply State.modCl_same
    | with_reducible apply State.runTo_same
    | with_reducible apply Same.ite
    | split
    | dsimp only

theorem State.pickUp_same {kl : List Kind} (hk : within [.tb, .ch, .cl, .ic, .perf, .pwr] kl = true) {s0 s : State} (hs : Same kl s0 s) (c l n : Nat) :
    Same kl s0 (State.pickUp s c l n) := by
  unfold State.pickUp
  repeat' first
    | with_reducible assumption
    | intro _
    | exact within_trans (by decide) hk
    | with_reducible apply State.modIn_same
    | with_reducible apply State.modCl_same
    | with_reducible apply State.runTo_same
    | with_reducible apply Same.ite
    | split
    | dsimp only

theorem execLanePickup_same {kl : List Kind} (hk : within [.tb, .ch, .cl, .ic, .perf, .pwr] kl = true) {s0 s : State} (hs : Same kl s0 s) (c : Fin 4) (l : Fin 4) :
    OSame kl s0 (execLanePickup c l s) := by
  unfold execLanePickup
  repeat' first
    | with_reducible assumption
    | intro _
    | exact within_trans (by decide) hk
    | with_reducible apply OSame.next
    | with_reducible apply OSame.fault
    | with_reducible apply OSame.ite
    | with_reducible apply State.pickUp_same
    | with_reducible apply Same.ite
    | split
    | dsimp only

theorem State.roomFor_same {kl : List Kind} (hk : within [.tb, .ch, .cl, .ic, .perf, .pwr] kl = true) {s0 s : State} (hs : Same kl s0 s) (n : Nat) :
    Same kl s0 (State.roomFor s n) := by
  unfold State.roomFor
  repeat' first
    | with_reducible assumption
    | intro _
    | exact within_trans (by decide) hk
    | with_reducible apply State.pickUp_same
    | with_reducible apply Same.ite
    | split
    | dsimp only

theorem State.transition_same {kl : List Kind} (hk : within [.ch] kl = true) {s0 s : State} (hs : Same kl s0 s) (n : Nat) (rising : Bool) :
    Same kl s0 (State.transition s n rising) := by
  unfold State.transition
  repeat' first
    | with_reducible assumption
    | intro _
    | exact within_trans (by decide) hk
    | with_reducible apply State.modIn_same
    | with_reducible apply Same.ite
    | split
    | dsimp only

theorem execInputTransition_same {kl : List Kind} (hk : within [.tb, .ch, .ic, .perf, .pwr] kl = true) {s0 s : State} (hs : Same kl s0 s) (n : Fin 128) (rising : Bool) (dt : Nat) :
    OSame kl s0 (execInputTransition n rising dt s) := by
  unfold execInputTransition
  repeat' first
    | with_reducible assumption
    | intro _
    | exact within_trans (by decide) hk
    | with_reducible apply OSame.next
    | with_reducible apply OSame.fault
    | with_reducible apply OSame.ite
    | with_reducible apply State.advance_same
    | with_reducible apply State.transition_same
    | with_reducible apply Same.ite
    | split
    | dsimp only

theorem execConversionComplete_same {kl : List Kind} (hk : within [.tb, .ch, .cl, .env, .st, .qp, .ic, .perf, .pwr] kl = true) {s0 s : State} (hs : Same kl s0 s) (n : Fin 128) (code : Fin 160) :
    OSame kl s0 (execConversionComplete n code s) := by
  unfold execConversionComplete
  repeat' first
    | with_reducible assumption
    | intro _
    | exact within_trans (by decide) hk
    | with_reducible apply OSame.next
    | with_reducible apply OSame.fault
    | with_reducible apply OSame.ite
    | with_reducible apply State.modIn_same
    | with_reducible apply State.runTo_same
    | with_reducible apply State.modInt_same
    | with_reducible apply State.settle_same
    | with_reducible apply State.roomFor_same
    | with_reducible apply Same.ite
    | split
    | dsimp only

theorem execQualifierRelease_same {kl : List Kind} (hk : within [.tb, .ch, .cl, .ic, .perf, .pwr] kl = true) {s0 s : State} (hs : Same kl s0 s) (n : Fin 128) :
    OSame kl s0 (execQualifierRelease n s) := by
  unfold execQualifierRelease
  repeat' first
    | with_reducible assumption
    | intro _
    | exact within_trans (by decide) hk
    | with_reducible apply OSame.next
    | with_reducible apply OSame.fault
    | with_reducible apply OSame.ite
    | with_reducible apply State.modIn_same
    | with_reducible apply State.runTo_same
    | with_reducible apply State.roomFor_same
    | with_reducible apply Same.ite
    | split
    | dsimp only

theorem State.lossAtBoundary_same {kl : List Kind} (hk : within [.ch] kl = true) {s0 s : State} (hs : Same kl s0 s) (sort : Int) (dtc : Nat) :
    Same kl s0 (State.lossAtBoundary s sort dtc) := by
  unfold State.lossAtBoundary
  repeat' first
    | with_reducible assumption
    | intro _
    | exact within_trans (by decide) hk
    | with_reducible apply State.modIn_same
    | with_reducible apply Same.ite
    | with_reducible apply Same.each
    | split
    | dsimp only

theorem applySetInput_same {kl : List Kind} (hk : within [.ch, .cl, .env, .st, .qp, .ic, .pwr] kl = true) {s0 s : State} (hs : Same kl s0 s) (p : List W32) :
    Same kl s0 (applySetInput s p) := by
  unfold applySetInput
  repeat' first
    | with_reducible assumption
    | intro _
    | exact within_trans (by decide) hk
    | with_reducible apply State.modIn_same
    | with_reducible apply State.settle_same
    | with_reducible apply Same.ite
    | with_reducible apply Same.each
    | split
    | dsimp only

theorem cmdChSetInput_same {kl : List Kind} (hk : within [.ch, .cl, .env, .st, .qp, .ic, .pwr, .deferred] kl = true) {s0 s : State} (hs : Same kl s0 s) (p : List W32) :
    Same kl s0 (cmdChSetInput s p).state := by
  unfold cmdChSetInput
  repeat' first
    | with_reducible assumption
    | intro _
    | exact within_trans (by decide) hk
    | with_reducible apply fail_same
    | with_reducible apply okay_same
    | with_reducible apply done_same
    | with_reducible apply wait_same
    | with_reducible apply Same.iteRes
    | with_reducible apply State.defer_same
    | with_reducible apply applySetInput_same
    | with_reducible apply Same.ite
    | split
    | dsimp only

theorem State.enableInput_same {kl : List Kind} (hk : within [.ch] kl = true) {s0 s : State} (hs : Same kl s0 s) (n : Nat) :
    Same kl s0 (State.enableInput s n) := by
  unfold State.enableInput
  repeat' first
    | with_reducible assumption
    | intro _
    | exact within_trans (by decide) hk
    | with_reducible apply State.modIn_same
    | with_reducible apply State.modCal_same
    | with_reducible apply Same.ite
    | split
    | dsimp only

theorem State.disableInput_same {kl : List Kind} (hk : within [.ch] kl = true) {s0 s : State} (hs : Same kl s0 s) (n : Nat) :
    Same kl s0 (State.disableInput s n) := by
  unfold State.disableInput
  repeat' first
    | with_reducible assumption
    | intro _
    | exact within_trans (by decide) hk
    | with_reducible apply State.modIn_same
    | with_reducible apply Same.ite
    | split
    | dsimp only

end Sys2Proof.Machine
end

