-- ==== Sys2Proof/Laws/SameTimers.lean ====
section
/-! SUPPORT. Frames of the operations of Machine/Timers.lean. -/
namespace Sys2Proof.Machine

theorem State.timSyncTo_same {kl : List Kind} (hk : within [.tim] kl = true) {s0 s : State} (hs : Same kl s0 s) (n e : Nat) :
    Same kl s0 (State.timSyncTo s n e) := by
  unfold State.timSyncTo
  repeat' first
    | with_reducible assumption
    | intro _
    | exact within_trans (by decide) hk
    | with_reducible apply State.modTim_same
    | with_reducible apply Same.ite
    | split
    | dsimp only

theorem State.timSync_same {kl : List Kind} (hk : within [.tim] kl = true) {s0 s : State} (hs : Same kl s0 s) (n : Nat) :
    Same kl s0 (State.timSync s n) := by
  unfold State.timSync
  repeat' first
    | with_reducible assumption
    | intro _
    | exact within_trans (by decide) hk
    | with_reducible apply State.timSyncTo_same
    | with_reducible apply Same.ite
    | split
    | dsimp only

theorem State.timSyncAllTo_same {kl : List Kind} (hk : within [.tim] kl = true) {s0 s : State} (hs : Same kl s0 s) (e : Nat) :
    Same kl s0 (State.timSyncAllTo s e) := by
  unfold State.timSyncAllTo
  repeat' first
    | with_reducible assumption
    | intro _
    | exact within_trans (by decide) hk
    | with_reducible apply State.timSyncTo_same
    | with_reducible apply Same.ite
    | with_reducible apply Same.each
    | split
    | dsimp only

theorem State.timSyncAll_same {kl : List Kind} (hk : within [.tim] kl = true) {s0 s : State} (hs : Same kl s0 s) :
    Same kl s0 (State.timSyncAll s) := by
  unfold State.timSyncAll
  repeat' first
    | with_reducible assumption
    | intro _
    | exact within_trans (by decide) hk
    | with_reducible apply State.timSyncAllTo_same
    | with_reducible apply Same.ite
    | split
    | dsimp only

theorem State.timOutput_same {kl : List Kind} (hk : within [.cl, .tim, .ic, .pwr] kl = true) {s0 s : State} (hs : Same kl s0 s) (n cause : Nat) :
    Same kl s0 (State.timOutput s n cause) := by
  unfold State.timOutput
  repeat' first
    | with_reducible assumption
    | intro _
    | exact within_trans (by decide) hk
    | with_reducible apply State.raise_same
    | with_reducible apply State.event_same
    | with_reducible apply Same.ite
    | split
    | dsimp only

theorem State.syncTree_same {kl : List Kind} (hk : within [.tim] kl = true) {s0 : State} : ∀ (f : Nat) {s : State} (_ : Same kl s0 s) (n edge : Nat), Same kl s0 (State.syncTree f s n edge)
  | 0, _, h, _, _ => h
  | f + 1, _, h, _, _ => Same.each (State.modTim_same (within_trans (by decide) hk) h _ _) fun _ _ k => State.syncTree_same hk f k _ _


theorem State.startTree_same {kl : List Kind} (hk : within [.tim] kl = true) {s0 : State} : ∀ (f : Nat) {s : State} (_ : Same kl s0 s) (n edge : Nat), Same kl s0 (State.startTree f s n edge)
  | 0, _, h, _, _ => h
  | f + 1, _, h, _, _ => Same.each (State.modTim_same (within_trans (by decide) hk) h _ _) fun _ _ k => State.startTree_same hk f k _ _


theorem State.timAct_same {kl : List Kind} (hk : within [.cl, .tim, .ic, .pwr] kl = true) {s0 : State} : ∀ (f : Nat) (b : Bool) {s : State} (_ : Same kl s0 s) (n edge : Nat), Same kl s0 (State.timAct f b s n edge)
  | 0, _, _, h, _, _ => h
  | f + 1, b, _, h, _, _ => by
    have ih := @State.timAct_same kl hk s0 f
    cases b <;> unfold State.timAct <;> dsimp only
    all_goals
      repeat' first
        | with_reducible assumption
        | intro _
        | exact within_trans (by decide) hk
        | with_reducible apply State.modTim_same
        | with_reducible apply State.timOutput_same
        | with_reducible apply State.timSyncTo_same
        | with_reducible apply State.syncTree_same
        | with_reducible apply ih
        | with_reducible apply Same.ite
        | with_reducible apply Same.each


theorem State.count_same {kl : List Kind} (hk : within [.cl, .tim, .ic, .pwr] kl = true) {s0 s : State} (hs : Same kl s0 s) (n edge : Nat) :
    Same kl s0 (State.count s n edge) := by
  unfold State.count
  repeat' first
    | with_reducible assumption
    | intro _
    | exact within_trans (by decide) hk
    | with_reducible apply State.timAct_same
    | with_reducible apply Same.ite
    | split
    | dsimp only

theorem State.srcTick_same {kl : List Kind} (hk : within [.cl, .tim, .ic, .pwr] kl = true) {s0 s : State} (hs : Same kl s0 s) (n edge : Nat) :
    Same kl s0 (State.srcTick s n edge) := by
  unfold State.srcTick
  repeat' first
    | with_reducible assumption
    | intro _
    | exact within_trans (by decide) hk
    | with_reducible apply State.modTim_same
    | with_reducible apply State.count_same
    | with_reducible apply Same.ite
    | split
    | dsimp only

theorem State.timStart_same {kl : List Kind} (hk : within [.tim] kl = true) {s0 s : State} (hs : Same kl s0 s) (n edge : Nat) :
    Same kl s0 (State.timStart s n edge) := by
  unfold State.timStart
  repeat' first
    | with_reducible assumption
    | intro _
    | exact within_trans (by decide) hk
    | with_reducible apply State.timSyncAllTo_same
    | with_reducible apply State.startTree_same
    | with_reducible apply Same.ite
    | split
    | dsimp only

theorem State.timStop_same {kl : List Kind} (hk : within [.cl, .tim, .ic, .pwr] kl = true) {s0 s : State} (hs : Same kl s0 s) (n edge : Nat) :
    Same kl s0 (State.timStop s n edge) := by
  unfold State.timStop
  repeat' first
    | with_reducible assumption
    | intro _
    | exact within_trans (by decide) hk
    | with_reducible apply State.timSyncAllTo_same
    | with_reducible apply State.timAct_same
    | with_reducible apply Same.ite
    | split
    | dsimp only

theorem State.timSyncCmd_same {kl : List Kind} (hk : within [.tim] kl = true) {s0 s : State} (hs : Same kl s0 s) (n edge : Nat) :
    Same kl s0 (State.timSyncCmd s n edge) := by
  unfold State.timSyncCmd
  repeat' first
    | with_reducible assumption
    | intro _
    | exact within_trans (by decide) hk
    | with_reducible apply State.timSyncAllTo_same
    | with_reducible apply State.syncTree_same
    | with_reducible apply Same.ite
    | split
    | dsimp only

theorem State.timClear_same {kl : List Kind} (hk : within [.tim] kl = true) {s0 s : State} (hs : Same kl s0 s) (n edge : Nat) :
    Same kl s0 (State.timClear s n edge) := by
  unfold State.timClear
  repeat' first
    | with_reducible assumption
    | intro _
    | exact within_trans (by decide) hk
    | with_reducible apply State.modTim_same
    | with_reducible apply Same.ite
    | split
    | dsimp only

theorem State.timCatch_same {kl : List Kind} (hk : within [.cl, .tim, .ic, .pwr] kl = true) {s0 s : State} (hs : Same kl s0 s) (n edge : Nat) :
    Same kl s0 (State.timCatch s n edge) := by
  unfold State.timCatch
  repeat' first
    | with_reducible assumption
    | intro _
    | exact within_trans (by decide) hk
    | with_reducible apply State.timSyncTo_same
    | with_reducible apply State.count_same
    | with_reducible apply Same.ite
    | split
    | dsimp only

theorem State.timWrite_same {kl : List Kind} (hk : within [.cl, .tim, .ic, .pwr] kl = true) {s0 s : State} (hs : Same kl s0 s) (n reg : Nat) (v : W32) (edge : Nat) :
    Same kl s0 (State.timWrite s n reg v edge) := by
  unfold State.timWrite
  repeat' first
    | with_reducible assumption
    | intro _
    | exact within_trans (by decide) hk
    | with_reducible apply State.modTim_same
    | with_reducible apply State.timSyncAllTo_same
    | with_reducible apply State.timStart_same
    | with_reducible apply State.timStop_same
    | with_reducible apply State.timSyncCmd_same
    | with_reducible apply State.timClear_same
    | with_reducible apply State.timCatch_same
    | with_reducible apply Same.ite
    | split
    | dsimp only

theorem State.timSettleBy_same {kl : List Kind} (hk : within [.cl, .tim, .timWr, .ic, .pwr] kl = true) {s0 s : State} (hs : Same kl s0 s) (x : Nat) :
    Same kl s0 (State.timSettleBy s x) := by
  unfold State.timSettleBy
  repeat' first
    | with_reducible assumption
    | intro _
    | exact within_trans (by decide) hk
    | with_reducible apply State.timWrite_same
    | with_reducible apply Same.ite
    | with_reducible apply Same.foldl
    | with_reducible apply Same.foldlFst
    | with_reducible refine Same.step (within_trans (by decide) hk) (Same.set_timWr _ _) ?_
    | split
    | dsimp only

theorem State.timSettle_same {kl : List Kind} (hk : within [.cl, .tim, .timWr, .ic, .pwr] kl = true) {s0 s : State} (hs : Same kl s0 s) :
    Same kl s0 (State.timSettle s) := by
  unfold State.timSettle
  repeat' first
    | with_reducible assumption
    | intro _
    | exact within_trans (by decide) hk
    | with_reducible apply State.timSettleBy_same
    | with_reducible apply Same.ite
    | split
    | dsimp only

theorem State.onEdge_same {kl : List Kind} (hk : within [.tb, .cl, .tim, .timWr, .ic, .perf, .pwr] kl = true) {s0 s : State} (hs : Same kl s0 s) :
    Same kl s0 (State.onEdge s) := by
  unfold State.onEdge
  repeat' first
    | with_reducible assumption
    | intro _
    | exact within_trans (by decide) hk
    | with_reducible apply State.runTo_same
    | with_reducible apply State.timSettleBy_same
    | with_reducible apply Same.ite
    | split
    | dsimp only

theorem State.timLead_same {kl : List Kind} (hk : within [.tb, .cl, .tim, .timWr, .ic, .perf, .pwr] kl = true) {s0 s : State} (hs : Same kl s0 s) (n : Nat) :
    Same kl s0 (State.timLead s n) := by
  unfold State.timLead
  repeat' first
    | with_reducible assumption
    | intro _
    | exact within_trans (by decide) hk
    | with_reducible apply State.runTo_same
    | with_reducible apply State.timWrite_same
    | with_reducible apply Same.ite
    | with_reducible apply Same.foldl
    | with_reducible apply Same.foldlFst
    | with_reducible refine Same.step (within_trans (by decide) hk) (Same.set_timWr _ _) ?_
    | split
    | dsimp only

theorem execGptStart_same {kl : List Kind} (hk : within [.tb, .cl, .tim, .timWr, .ic, .perf, .pwr] kl = true) {s0 s : State} (hs : Same kl s0 s) (n : Fin 32) :
    OSame kl s0 (execGptStart n s) := by
  unfold execGptStart
  repeat' first
    | with_reducible assumption
    | intro _
    | exact within_trans (by decide) hk
    | with_reducible apply OSame.next
    | with_reducible apply OSame.fault
    | with_reducible apply OSame.ite
    | with_reducible apply State.timStart_same
    | with_reducible apply State.timSettle_same
    | with_reducible apply State.onEdge_same
    | with_reducible apply Same.ite
    | split
    | dsimp only

theorem execGptStop_same {kl : List Kind} (hk : within [.tb, .cl, .tim, .timWr, .ic, .perf, .pwr] kl = true) {s0 s : State} (hs : Same kl s0 s) (n : Fin 32) :
    OSame kl s0 (execGptStop n s) := by
  unfold execGptStop
  repeat' first
    | with_reducible assumption
    | intro _
    | exact within_trans (by decide) hk
    | with_reducible apply OSame.next
    | with_reducible apply OSame.fault
    | with_reducible apply OSame.ite
    | with_reducible apply State.timStop_same
    | with_reducible apply State.timSettle_same
    | with_reducible apply State.onEdge_same
    | with_reducible apply Same.ite
    | split
    | dsimp only

theorem execGptSync_same {kl : List Kind} (hk : within [.tb, .cl, .tim, .timWr, .ic, .perf, .pwr] kl = true) {s0 s : State} (hs : Same kl s0 s) (n : Fin 32) :
    OSame kl s0 (execGptSync n s) := by
  unfold execGptSync
  repeat' first
    | with_reducible assumption
    | intro _
    | exact within_trans (by decide) hk
    | with_reducible apply OSame.next
    | with_reducible apply OSame.fault
    | with_reducible apply OSame.ite
    | with_reducible apply State.timSyncCmd_same
    | with_reducible apply State.timSettle_same
    | with_reducible apply State.onEdge_same
    | with_reducible apply Same.ite
    | split
    | dsimp only

theorem execGptClrFlags_same {kl : List Kind} (hk : within [.tb, .cl, .tim, .timWr, .ic, .perf, .pwr] kl = true) {s0 s : State} (hs : Same kl s0 s) (n : Fin 32) :
    OSame kl s0 (execGptClrFlags n s) := by
  unfold execGptClrFlags
  repeat' first
    | with_reducible assumption
    | intro _
    | exact within_trans (by decide) hk
    | with_reducible apply OSame.next
    | with_reducible apply OSame.fault
    | with_reducible apply OSame.ite
    | with_reducible apply State.timClear_same
    | with_reducible apply State.timSettle_same
    | with_reducible apply State.onEdge_same
    | with_reducible apply Same.ite
    | split
    | dsimp only

theorem State.timEvent_same {kl : List Kind} (hk : within [.tb, .cl, .tim, .timWr, .ic, .perf, .pwr] kl = true) {s0 s : State} (hs : Same kl s0 s) (n : Nat) (cmp : Bool) :
    Same kl s0 (State.timEvent s n cmp) := by
  unfold State.timEvent
  repeat' first
    | with_reducible assumption
    | intro _
    | exact within_trans (by decide) hk
    | with_reducible apply State.runTo_same
    | with_reducible apply State.timSyncTo_same
    | with_reducible apply State.count_same
    | with_reducible apply State.timLead_same
    | with_reducible apply Same.ite
    | split
    | dsimp only

theorem execGptTopEvent_same {kl : List Kind} (hk : within [.tb, .cl, .tim, .timWr, .ic, .perf, .pwr] kl = true) {s0 s : State} (hs : Same kl s0 s) (n : Fin 32) :
    OSame kl s0 (execGptTopEvent n s) := by
  unfold execGptTopEvent
  repeat' first
    | with_reducible assumption
    | intro _
    | exact within_trans (by decide) hk
    | with_reducible apply OSame.next
    | with_reducible apply OSame.fault
    | with_reducible apply OSame.ite
    | with_reducible apply State.timEvent_same
    | with_reducible apply Same.ite
    | split
    | dsimp only

theorem execGptCmpEvent_same {kl : List Kind} (hk : within [.tb, .cl, .tim, .timWr, .ic, .perf, .pwr] kl = true) {s0 s : State} (hs : Same kl s0 s) (n : Fin 32) :
    OSame kl s0 (execGptCmpEvent n s) := by
  unfold execGptCmpEvent
  repeat' first
    | with_reducible assumption
    | intro _
    | exact within_trans (by decide) hk
    | with_reducible apply OSame.next
    | with_reducible apply OSame.fault
    | with_reducible apply OSame.ite
    | with_reducible apply State.timEvent_same
    | with_reducible apply Same.ite
    | split
    | dsimp only

theorem State.capture_same {kl : List Kind} (hk : within [.cl, .tim, .ic, .pwr] kl = true) {s0 s : State} (hs : Same kl s0 s) (n edge : Nat) :
    Same kl s0 (State.capture s n edge) := by
  unfold State.capture
  repeat' first
    | with_reducible assumption
    | intro _
    | exact within_trans (by decide) hk
    | with_reducible apply State.modTim_same
    | with_reducible apply State.timOutput_same
    | with_reducible apply Same.ite
    | split
    | dsimp only

theorem execGptTrigger_same {kl : List Kind} (hk : within [.tb, .cl, .tim, .timWr, .ic, .perf, .pwr] kl = true) {s0 s : State} (hs : Same kl s0 s) (n : Fin 32) :
    OSame kl s0 (execGptTrigger n s) := by
  unfold execGptTrigger
  repeat' first
    | with_reducible assumption
    | intro _
    | exact within_trans (by decide) hk
    | with_reducible apply OSame.next
    | with_reducible apply OSame.fault
    | with_reducible apply OSame.ite
    | with_reducible apply State.modTim_same
    | with_reducible apply State.runTo_same
    | with_reducible apply State.timSyncTo_same
    | with_reducible apply State.srcTick_same
    | with_reducible apply State.timStart_same
    | with_reducible apply State.timSettleBy_same
    | with_reducible apply State.capture_same
    | with_reducible apply Same.ite
    | split
    | dsimp only

theorem cmdTimerSet_same {kl : List Kind} (hk : within [.tb, .cl, .tim, .timWr, .ic, .perf, .pwr, .deferred] kl = true) {s0 s : State} (hs : Same kl s0 s) (p : List W32) :
    Same kl s0 (cmdTimerSet s p).state := by
  unfold cmdTimerSet
  repeat' first
    | with_reducible assumption
    | intro _
    | exact within_trans (by decide) hk
    | with_reducible apply fail_same
    | with_reducible apply okay_same
    | with_reducible apply done_same
    | with_reducible apply wait_same
    | with_reducible apply Same.iteRes
    | with_reducible apply State.modTim_same
    | with_reducible apply State.defer_same
    | with_reducible apply State.timSyncAllTo_same
    | with_reducible apply State.timStart_same
    | with_reducible apply State.timStop_same
    | with_reducible apply State.timClear_same
    | with_reducible apply State.timCatch_same
    | with_reducible apply State.timSettle_same
    | with_reducible apply State.onEdge_same
    | with_reducible apply Same.ite
    | split
    | dsimp only

theorem applyTimerStart_same {kl : List Kind} (hk : within [.cl, .tim, .timWr, .ic, .pwr] kl = true) {s0 s : State} (hs : Same kl s0 s) (p : List W32) :
    Same kl s0 (applyTimerStart s p) := by
  unfold applyTimerStart
  repeat' first
    | with_reducible assumption
    | intro _
    | exact within_trans (by decide) hk
    | with_reducible apply State.timStart_same
    | with_reducible apply State.timSettleBy_same
    | with_reducible apply State.timSettle_same
    | with_reducible apply Same.ite
    | split
    | dsimp only

end Sys2Proof.Machine
end

