-- ==== Sys2Proof/Laws/SameMicroCore.lean ====
section
/-! SUPPORT. Frames of the operations of Machine/MicroCore.lean. -/
namespace Sys2Proof.Machine

theorem State.countIdle_same {kl : List Kind} (hk : within [.cl] kl = true) {s0 s : State} (hs : Same kl s0 s) (c upto : Nat) :
    Same kl s0 (State.countIdle s c upto) := by
  unfold State.countIdle
  repeat' first
    | with_reducible assumption
    | intro _
    | exact within_trans (by decide) hk
    | with_reducible apply State.modCl_same
    | with_reducible apply Same.ite
    | split
    | dsimp only

theorem State.charge_same {kl : List Kind} (hk : within [.cl] kl = true) {s0 s : State} (hs : Same kl s0 s) (c upto : Nat) :
    Same kl s0 (State.charge s c upto) := by
  unfold State.charge
  repeat' first
    | with_reducible assumption
    | intro _
    | exact within_trans (by decide) hk
    | with_reducible apply State.modMe_same
    | with_reducible apply Same.ite
    | split
    | dsimp only

theorem State.chargeIrq_same {kl : List Kind} (hk : within [.cl, .ic, .perf, .pwr] kl = true) {s0 s : State} (hs : Same kl s0 s) (c n : Nat) :
    Same kl s0 (State.chargeIrq s c n) := by
  unfold State.chargeIrq
  repeat' first
    | with_reducible assumption
    | intro _
    | exact within_trans (by decide) hk
    | with_reducible apply State.modMe_same
    | with_reducible apply State.pcAdd_same
    | with_reducible apply Same.ite
    | split
    | dsimp only

theorem State.dispatch_same {kl : List Kind} (hk : within [.cl] kl = true) {s0 s : State} (hs : Same kl s0 s) (c t at_ : Nat) :
    Same kl s0 (State.dispatch s c t at_) := by
  unfold State.dispatch
  repeat' first
    | with_reducible assumption
    | intro _
    | exact within_trans (by decide) hk
    | with_reducible apply State.modMe_same
    | with_reducible apply State.modTask_same
    | with_reducible apply State.countIdle_same
    | with_reducible apply Same.ite
    | split
    | dsimp only

theorem State.dispatchNext_same {kl : List Kind} (hk : within [.cl] kl = true) {s0 s : State} (hs : Same kl s0 s) (c at_ : Nat) :
    Same kl s0 (State.dispatchNext s c at_) := by
  unfold State.dispatchNext
  repeat' first
    | with_reducible assumption
    | intro _
    | exact within_trans (by decide) hk
    | with_reducible apply State.modMe_same
    | with_reducible apply State.modSch_same
    | with_reducible apply State.dispatch_same
    | with_reducible apply Same.ite
    | split
    | dsimp only

theorem State.taskOver_same {kl : List Kind} (hk : within [.cl] kl = true) {s0 s : State} (hs : Same kl s0 s) (c at_ : Nat) :
    Same kl s0 (State.taskOver s c at_) := by
  unfold State.taskOver
  repeat' first
    | with_reducible assumption
    | intro _
    | exact within_trans (by decide) hk
    | with_reducible apply State.modMe_same
    | with_reducible apply State.modSch_same
    | with_reducible apply State.modTask_same
    | with_reducible apply Same.ite
    | split
    | dsimp only

theorem State.leaveHandler_same {kl : List Kind} (hk : within [.cl, .ic, .perf, .pwr] kl = true) {s0 s : State} (hs : Same kl s0 s) (c at_ : Nat) (keepStack : Bool) :
    Same kl s0 (State.leaveHandler s c at_ keepStack) := by
  unfold State.leaveHandler
  repeat' first
    | with_reducible assumption
    | intro _
    | exact within_trans (by decide) hk
    | with_reducible apply State.modMe_same
    | with_reducible apply State.modSch_same
    | with_reducible apply State.modSrc_same
    | with_reducible apply State.chargeIrq_same
    | with_reducible apply Same.ite
    | split
    | with_reducible refine Same.step (within_trans (by decide) hk) (Same.set_ic _ _) ?_
    | dsimp only

theorem State.meFault_same {kl : List Kind} (hk : within [.cl, .qp, .ic, .err, .perf, .pwr] kl = true) {s0 s : State} (hs : Same kl s0 s) (c cause soft at_ : Nat) :
    Same kl s0 (State.meFault s c cause soft at_) := by
  unfold State.meFault
  repeat' first
    | with_reducible assumption
    | intro _
    | exact within_trans (by decide) hk
    | with_reducible apply State.modMe_same
    | with_reducible apply State.modTask_same
    | with_reducible apply State.raise_same
    | with_reducible apply State.report_same
    | with_reducible apply State.notice_same
    | with_reducible apply State.charge_same
    | with_reducible apply State.dispatchNext_same
    | with_reducible apply State.taskOver_same
    | with_reducible apply State.leaveHandler_same
    | with_reducible apply Same.ite
    | split
    | dsimp only

theorem State.goTo_same {kl : List Kind} (hk : within [.cl] kl = true) {s0 s : State} (hs : Same kl s0 s) (c a at_ : Nat) :
    Same kl s0 (State.goTo s c a at_) := by
  unfold State.goTo
  repeat' first
    | with_reducible assumption
    | intro _
    | exact within_trans (by decide) hk
    | with_reducible apply State.modMe_same
    | with_reducible apply State.charge_same
    | with_reducible apply Same.ite
    | split
    | dsimp only

theorem State.endTask_same {kl : List Kind} (hk : within [.cl, .qp, .ic, .err, .perf, .pwr] kl = true) {s0 s : State} (hs : Same kl s0 s) (c target at_ : Nat) :
    Same kl s0 (State.endTask s c target at_) := by
  unfold State.endTask
  repeat' first
    | with_reducible assumption
    | intro _
    | exact within_trans (by decide) hk
    | with_reducible apply State.modTask_same
    | with_reducible apply State.report_same
    | with_reducible apply State.charge_same
    | with_reducible apply State.dispatchNext_same
    | with_reducible apply State.taskOver_same
    | with_reducible apply State.meFault_same
    | with_reducible apply Same.ite
    | split
    | dsimp only

theorem State.nextAddr_same {kl : List Kind} (hk : within [.cl, .qp, .ic, .err, .perf, .pwr] kl = true) {s0 s : State} (hs : Same kl s0 s) (c : Nat) (w : BitVec 128) (at_ : Nat) (a : W64) :
    Same kl s0 (State.nextAddr s c w at_ a) := by
  unfold State.nextAddr
  repeat' first
    | with_reducible assumption
    | intro _
    | exact within_trans (by decide) hk
    | with_reducible apply State.modMe_same
    | with_reducible apply State.meFault_same
    | with_reducible apply State.goTo_same
    | with_reducible apply State.endTask_same
    | with_reducible apply Same.ite
    | split
    | dsimp only

theorem State.issue_same {kl : List Kind} (hk : within [.tb, .cl, .qp, .ic, .err, .perf, .pwr] kl = true) {s0 s : State} (h : Same kl s0 s) (c : Nat) (ue : Bool) (p : BitVec 128 → Bool)
    {f : State → BitVec 128 → Nat → Did} (hf : ∀ t w a, Same kl s0 t → Same kl s0 (f t w a).state) : Same kl s0 (s.issue c ue p f) := by
  unfold State.issue
  extract_lets m w t s1 s2 a
  have k2 : Same kl s0 s2 := State.modMe_same (within_trans (by decide) hk) (State.pcAdd_same (within_trans (by decide) hk)
    (State.charge_same (within_trans (by decide) hk) (State.runTo_same (within_trans (by decide) hk) h _) _ _) _ _) _ _
  clear_value s2
  apply Same.ite h
  apply Same.ite (State.meFault_same (within_trans (by decide) hk) k2 _ _ _ _)
  have k := hf s2 w t k2
  split
  · rename_i e; rw [e] at k; exact State.nextAddr_same (within_trans (by decide) hk) k _ _ _ _
  · rename_i e; rw [e] at k; exact State.meFault_same (within_trans (by decide) hk) k _ _ _ _
  · rename_i e; rw [e] at k; exact k


end Sys2Proof.Machine
end

