-- ==== Sys2Proof/Laws/SameMicroAlu.lean ====
section
/-! SUPPORT. Frames of the operations of Machine/MicroAlu.lean. -/
namespace Sys2Proof.Machine

theorem dpCtrl_same {kl : List Kind} (hk : within [.cl, .ic, .perf, .pwr] kl = true) {s0 s : State} (hs : Same kl s0 s) (c : Nat) (w : BitVec 128) (t : Nat) :
    Same kl s0 (dpCtrl c s w t).state := by
  unfold dpCtrl
  repeat' first
    | with_reducible assumption
    | intro _
    | exact within_trans (by decide) hk
    | with_reducible apply didOk_same
    | with_reducible apply didFault_same
    | with_reducible apply didHandled_same
    | with_reducible apply Same.iteDid
    | with_reducible apply State.modMe_same
    | with_reducible apply State.leaveHandler_same
    | with_reducible apply Same.ite
    | split
    | dsimp only

theorem dpAlu_same {kl : List Kind} (hk : within [.cl] kl = true) {s0 s : State} (hs : Same kl s0 s) (c : Nat) (w : BitVec 128) :
    Same kl s0 (dpAlu c s w).state := by
  unfold dpAlu
  repeat' first
    | with_reducible assumption
    | intro _
    | exact within_trans (by decide) hk
    | with_reducible apply didOk_same
    | with_reducible apply didFault_same
    | with_reducible apply didHandled_same
    | with_reducible apply Same.iteDid
    | with_reducible apply State.modMe_same
    | with_reducible apply Same.ite
    | split
    | dsimp only

theorem dpShift_same {kl : List Kind} (hk : within [.cl] kl = true) {s0 s : State} (hs : Same kl s0 s) (c : Nat) (w : BitVec 128) :
    Same kl s0 (dpShift c s w).state := by
  unfold dpShift
  repeat' first
    | with_reducible assumption
    | intro _
    | exact within_trans (by decide) hk
    | with_reducible apply didOk_same
    | with_reducible apply didFault_same
    | with_reducible apply didHandled_same
    | with_reducible apply Same.iteDid
    | with_reducible apply State.modMe_same
    | with_reducible apply Same.ite
    | split
    | dsimp only

theorem dpMul_same {kl : List Kind} (hk : within [.cl] kl = true) {s0 s : State} (hs : Same kl s0 s) (c : Nat) (w : BitVec 128) (t : Nat) :
    Same kl s0 (dpMul c s w t).state := by
  unfold dpMul
  repeat' first
    | with_reducible assumption
    | intro _
    | exact within_trans (by decide) hk
    | with_reducible apply didOk_same
    | with_reducible apply didFault_same
    | with_reducible apply didHandled_same
    | with_reducible apply Same.iteDid
    | with_reducible apply State.modMe_same
    | with_reducible apply Same.ite
    | split
    | dsimp only

theorem dpTime_same {kl : List Kind} (hk : within [.cl] kl = true) {s0 s : State} (hs : Same kl s0 s) (c : Nat) (w : BitVec 128) (t : Nat) :
    Same kl s0 (dpTime c s w t).state := by
  unfold dpTime
  repeat' first
    | with_reducible assumption
    | intro _
    | exact within_trans (by decide) hk
    | with_reducible apply didOk_same
    | with_reducible apply didFault_same
    | with_reducible apply didHandled_same
    | with_reducible apply Same.iteDid
    | with_reducible apply Same.iteFst
    | with_reducible apply State.modMe_same
    | with_reducible apply Same.ite
    | split
    | dsimp only

theorem dpMove_same {kl : List Kind} (hk : within [.cl] kl = true) {s0 s : State} (hs : Same kl s0 s) (c : Nat) (w : BitVec 128) (t : Nat) :
    Same kl s0 (dpMove c s w t).state := by
  unfold dpMove
  repeat' first
    | with_reducible assumption
    | intro _
    | exact within_trans (by decide) hk
    | with_reducible apply didOk_same
    | with_reducible apply didFault_same
    | with_reducible apply didHandled_same
    | with_reducible apply Same.iteDid
    | with_reducible apply State.modMe_same
    | with_reducible apply Same.ite
    | split
    | dsimp only

end Sys2Proof.Machine
end

