-- ==== Sys2Proof/Laws/SameSched.lean ====
section
/-! SUPPORT. Frames of the operations of Machine/Sched.lean. -/
namespace Sys2Proof.Machine

theorem State.schTick_same {kl : List Kind} (hk : within [.cl] kl = true) {s0 s : State} (hs : Same kl s0 s) (c at_ : Nat) (rebuild : Bool) :
    Same kl s0 (State.schTick s c at_ rebuild) := by
  unfold State.schTick
  repeat' first
    | with_reducible assumption
    | intro _
    | exact within_trans (by decide) hk
    | with_reducible apply State.modCl_same
    | with_reducible apply State.dispatchNext_same
    | with_reducible apply Same.ite
    | split
    | dsimp only

theorem State.overrun_same {kl : List Kind} (hk : within [.cl, .ic, .err, .perf, .pwr] kl = true) {s0 s : State} (hs : Same kl s0 s) (c at_ : Nat) :
    Same kl s0 (State.overrun s c at_) := by
  unfold State.overrun
  repeat' first
    | with_reducible assumption
    | intro _
    | exact within_trans (by decide) hk
    | with_reducible apply State.modMe_same
    | with_reducible apply State.modSch_same
    | with_reducible apply State.modTask_same
    | with_reducible apply State.report_same
    | with_reducible apply State.charge_same
    | with_reducible apply Same.ite
    | split
    | dsimp only

theorem State.skipTasks_same {kl : List Kind} (hk : within [.cl] kl = true) {s0 s : State} (hs : Same kl s0 s) (c : Nat) :
    Same kl s0 (State.skipTasks s c) := by
  unfold State.skipTasks
  repeat' first
    | with_reducible assumption
    | intro _
    | exact within_trans (by decide) hk
    | with_reducible apply State.modSch_same
    | with_reducible apply State.modTask_same
    | with_reducible apply Same.ite
    | with_reducible apply Same.each
    | split
    | dsimp only

theorem State.cutTask_same {kl : List Kind} (hk : within [.cl] kl = true) {s0 s : State} (hs : Same kl s0 s) (c t : Nat) :
    Same kl s0 (State.cutTask s c t) := by
  unfold State.cutTask
  repeat' first
    | with_reducible assumption
    | intro _
    | exact within_trans (by decide) hk
    | with_reducible apply State.modSch_same
    | with_reducible apply State.modTask_same
    | with_reducible apply State.charge_same
    | with_reducible apply State.dispatchNext_same
    | with_reducible apply State.taskOver_same
    | with_reducible apply Same.ite
    | split
    | dsimp only

theorem State.guardEnds_same {kl : List Kind} (hk : within [.cl, .ic, .err, .perf, .pwr] kl = true) {s0 s : State} (hs : Same kl s0 s) (c g : Nat) :
    Same kl s0 (State.guardEnds s c g) := by
  unfold State.guardEnds
  repeat' first
    | with_reducible assumption
    | intro _
    | exact within_trans (by decide) hk
    | with_reducible apply State.overrun_same
    | with_reducible apply State.cutTask_same
    | with_reducible apply Same.ite
    | split
    | dsimp only

theorem execGuardBand_same {kl : List Kind} (hk : within [.tb, .cl, .ic, .err, .perf, .pwr] kl = true) {s0 s : State} (hs : Same kl s0 s) (c : Fin 4) :
    OSame kl s0 (execGuardBand c s) := by
  unfold execGuardBand
  repeat' first
    | with_reducible assumption
    | intro _
    | exact within_trans (by decide) hk
    | with_reducible apply OSame.next
    | with_reducible apply OSame.fault
    | with_reducible apply OSame.ite
    | with_reducible apply State.modSch_same
    | with_reducible apply State.runTo_same
    | with_reducible apply State.countIdle_same
    | with_reducible apply State.skipTasks_same
    | with_reducible apply State.guardEnds_same
    | with_reducible apply Same.ite
    | split
    | dsimp only

theorem execBudgetCut_same {kl : List Kind} (hk : within [.tb, .cl, .ic, .perf, .pwr] kl = true) {s0 s : State} (hs : Same kl s0 s) (c : Fin 4) :
    OSame kl s0 (execBudgetCut c s) := by
  unfold execBudgetCut
  repeat' first
    | with_reducible assumption
    | intro _
    | exact within_trans (by decide) hk
    | with_reducible apply OSame.next
    | with_reducible apply OSame.fault
    | with_reducible apply OSame.ite
    | with_reducible apply State.runTo_same
    | with_reducible apply State.cutTask_same
    | with_reducible apply Same.ite
    | split
    | dsimp only

theorem dpWait_same {kl : List Kind} (hk : within [.cl] kl = true) {s0 s : State} (hs : Same kl s0 s) (c : Nat) (w : BitVec 128) (t : Nat) :
    Same kl s0 (dpWait c s w t).state := by
  unfold dpWait
  repeat' first
    | with_reducible assumption
    | intro _
    | exact within_trans (by decide) hk
    | with_reducible apply didOk_same
    | with_reducible apply didFault_same
    | with_reducible apply didHandled_same
    | with_reducible apply Same.iteDid
    | with_reducible apply State.modMe_same
    | with_reducible apply State.charge_same
    | with_reducible apply Same.ite
    | split
    | dsimp only

theorem execWaitConditionMet_same {kl : List Kind} (hk : within [.tb, .cl, .ic, .perf, .pwr] kl = true) {s0 s : State} (hs : Same kl s0 s) (c : Fin 4) :
    OSame kl s0 (execWaitConditionMet c s) := by
  unfold execWaitConditionMet
  repeat' first
    | with_reducible assumption
    | intro _
    | exact within_trans (by decide) hk
    | with_reducible apply OSame.next
    | with_reducible apply OSame.fault
    | with_reducible apply OSame.ite
    | with_reducible apply State.modMe_same
    | with_reducible apply State.runTo_same
    | with_reducible apply State.goTo_same
    | with_reducible apply Same.ite
    | split
    | dsimp only

theorem execWaitTimeout_same {kl : List Kind} (hk : within [.tb, .cl, .ic, .perf, .pwr] kl = true) {s0 s : State} (hs : Same kl s0 s) (c : Fin 4) :
    OSame kl s0 (execWaitTimeout c s) := by
  unfold execWaitTimeout
  repeat' first
    | with_reducible assumption
    | intro _
    | exact within_trans (by decide) hk
    | with_reducible apply OSame.next
    | with_reducible apply OSame.fault
    | with_reducible apply OSame.ite
    | with_reducible apply State.modMe_same
    | with_reducible apply State.runTo_same
    | with_reducible apply State.goTo_same
    | with_reducible apply Same.ite
    | split
    | dsimp only

theorem State.irqDecide_same {kl : List Kind} (hk : within [.tb, .cl, .ic, .perf, .pwr] kl = true) {s0 s : State} (hs : Same kl s0 s) (c : Fin 4) (fast : Bool) :
    Same kl s0 (State.irqDecide s c fast) := by
  unfold State.irqDecide
  repeat' first
    | with_reducible assumption
    | intro _
    | exact within_trans (by decide) hk
    | with_reducible apply State.modMe_same
    | with_reducible apply State.modSrc_same
    | with_reducible apply State.pcAdd_same
    | with_reducible apply State.runTo_same
    | with_reducible apply State.countIdle_same
    | with_reducible apply State.charge_same
    | with_reducible apply Same.ite
    | split
    | with_reducible refine Same.step (within_trans (by decide) hk) (Same.set_ic _ _) ?_
    | dsimp only

theorem execFastEntry_same {kl : List Kind} (hk : within [.tb, .cl, .ic, .perf, .pwr] kl = true) {s0 s : State} (hs : Same kl s0 s) (c : Fin 4) :
    OSame kl s0 (execFastEntry c s) := by
  unfold execFastEntry
  repeat' first
    | with_reducible assumption
    | intro _
    | exact within_trans (by decide) hk
    | with_reducible apply OSame.next
    | with_reducible apply OSame.fault
    | with_reducible apply OSame.ite
    | with_reducible apply State.irqDecide_same
    | with_reducible apply Same.ite
    | split
    | dsimp only

theorem execNormalEntry_same {kl : List Kind} (hk : within [.tb, .cl, .ic, .perf, .pwr] kl = true) {s0 s : State} (hs : Same kl s0 s) (c : Fin 4) :
    OSame kl s0 (execNormalEntry c s) := by
  unfold execNormalEntry
  repeat' first
    | with_reducible assumption
    | intro _
    | exact within_trans (by decide) hk
    | with_reducible apply OSame.next
    | with_reducible apply OSame.fault
    | with_reducible apply OSame.ite
    | with_reducible apply State.irqDecide_same
    | with_reducible apply Same.ite
    | split
    | dsimp only

theorem execHandlerLong_same {kl : List Kind} (hk : within [.tb, .cl, .qp, .ic, .err, .perf, .pwr] kl = true) {s0 s : State} (hs : Same kl s0 s) (c : Fin 4) :
    OSame kl s0 (execHandlerLong c s) := by
  unfold execHandlerLong
  repeat' first
    | with_reducible assumption
    | intro _
    | exact within_trans (by decide) hk
    | with_reducible apply OSame.next
    | with_reducible apply OSame.fault
    | with_reducible apply OSame.ite
    | with_reducible apply State.runTo_same
    | with_reducible apply State.meFault_same
    | with_reducible apply Same.ite
    | split
    | dsimp only

theorem applyTaskSet_same {kl : List Kind} (hk : within [.cl] kl = true) {s0 s : State} (hs : Same kl s0 s) (p : List W32) :
    Same kl s0 (applyTaskSet s p) := by
  unfold applyTaskSet
  repeat' first
    | with_reducible assumption
    | intro _
    | exact within_trans (by decide) hk
    | with_reducible apply State.modTask_same
    | with_reducible apply Same.ite
    | split
    | dsimp only

theorem applyTaskRemove_same {kl : List Kind} (hk : within [.cl] kl = true) {s0 s : State} (hs : Same kl s0 s) (p : List W32) :
    Same kl s0 (applyTaskRemove s p) := by
  unfold applyTaskRemove
  repeat' first
    | with_reducible assumption
    | intro _
    | exact within_trans (by decide) hk
    | with_reducible apply State.modTask_same
    | with_reducible apply Same.ite
    | with_reducible apply Same.each
    | split
    | dsimp only

theorem State.tasksBy_same {kl : List Kind} (hk : within [.cl] kl = true) {s0 s : State} (hs : Same kl s0 s) (b : Nat) :
    Same kl s0 (State.tasksBy s b) := by
  unfold State.tasksBy
  repeat' first
    | with_reducible assumption
    | intro _
    | exact within_trans (by decide) hk
    | with_reducible apply applyTaskSet_same
    | with_reducible apply applyTaskRemove_same
    | with_reducible apply Same.ite
    | with_reducible apply Same.foldl
    | with_reducible apply Same.foldlFst
    | split
    | dsimp only

theorem State.taskPlan_same {kl : List Kind} (hk : within [.cl] kl = true) {s0 s : State} (hs : Same kl s0 s) (p : List W32) :
    Same kl s0 (State.taskPlan s p).1 := by
  unfold State.taskPlan
  repeat' first
    | with_reducible assumption
    | intro _
    | exact within_trans (by decide) hk
    | with_reducible apply Same.iteFst
    | with_reducible apply State.tasksBy_same
    | with_reducible apply Same.ite
    | split
    | dsimp only

theorem cmdTaskSet_same {kl : List Kind} (hk : within [.cl, .deferred] kl = true) {s0 s : State} (hs : Same kl s0 s) (p : List W32) :
    Same kl s0 (cmdTaskSet s p).state := by
  unfold cmdTaskSet
  repeat' first
    | with_reducible assumption
    | intro _
    | exact within_trans (by decide) hk
    | with_reducible apply fail_same
    | with_reducible apply okay_same
    | with_reducible apply done_same
    | with_reducible apply wait_same
    | with_reducible apply Same.iteRes
    | with_reducible apply Same.iteFst
    | with_reducible apply State.defer_same
    | with_reducible apply applyTaskSet_same
    | with_reducible apply State.taskPlan_same
    | with_reducible apply Same.ite
    | split
    | dsimp only

theorem cmdTaskRemove_same {kl : List Kind} (hk : within [.cl, .deferred] kl = true) {s0 s : State} (hs : Same kl s0 s) (p : List W32) :
    Same kl s0 (cmdTaskRemove s p).state := by
  unfold cmdTaskRemove
  repeat' first
    | with_reducible assumption
    | intro _
    | exact within_trans (by decide) hk
    | with_reducible apply fail_same
    | with_reducible apply okay_same
    | with_reducible apply done_same
    | with_reducible apply wait_same
    | with_reducible apply Same.iteRes
    | with_reducible apply State.defer_same
    | with_reducible apply applyTaskRemove_same
    | with_reducible apply State.tasksBy_same
    | with_reducible apply Same.ite
    | split
    | dsimp only

theorem cmdSchedCheck_same {kl : List Kind} (hk : within [] kl = true) {s0 s : State} (hs : Same kl s0 s) (p : List W32) :
    Same kl s0 (cmdSchedCheck s p).state := by
  unfold cmdSchedCheck
  repeat' first
    | with_reducible assumption
    | intro _
    | exact within_trans (by decide) hk
    | with_reducible apply fail_same
    | with_reducible apply okay_same
    | with_reducible apply done_same
    | with_reducible apply wait_same
    | with_reducible apply Same.iteRes
    | with_reducible apply Same.ite
    | split
    | dsimp only

end Sys2Proof.Machine
end

