-- ==== Sys2Proof/Laws/SameCalib.lean ====
section
/-! SUPPORT. Frames of the operations of Machine/Calib.lean. -/
namespace Sys2Proof.Machine

theorem State.failCal_same {kl : List Kind} (hk : within [.ch] kl = true) {s0 s : State} (hs : Same kl s0 s) (n cause : Nat) :
    Same kl s0 (State.failCal s n cause) := by
  unfold State.failCal
  repeat' first
    | with_reducible assumption
    | intro _
    | exact within_trans (by decide) hk
    | with_reducible apply State.modCal_same
    | with_reducible apply Same.ite
    | split
    | dsimp only

theorem execTableSwap_same {kl : List Kind} (hk : within [.tb, .ch, .cl, .env, .st, .qp, .ic, .perf, .pwr] kl = true) {s0 s : State} (hs : Same kl s0 s) (n : Fin 128) (i1 : Bool) :
    OSame kl s0 (execTableSwap n i1 s) := by
  unfold execTableSwap
  repeat' first
    | with_reducible assumption
    | intro _
    | exact within_trans (by decide) hk
    | with_reducible apply OSame.next
    | with_reducible apply OSame.fault
    | with_reducible apply OSame.ite
    | with_reducible apply State.modCal_same
    | with_reducible apply State.runTo_same
    | with_reducible apply State.settle_same
    | with_reducible apply Same.ite
    | split
    | dsimp only

theorem execCalStarved_same {kl : List Kind} (hk : within [.tb, .ch, .cl, .env, .st, .qp, .ic, .perf, .pwr] kl = true) {s0 s : State} (hs : Same kl s0 s) (n : Fin 128) (i1 : Bool) :
    OSame kl s0 (execCalStarved n i1 s) := by
  unfold execCalStarved
  repeat' first
    | with_reducible assumption
    | intro _
    | exact within_trans (by decide) hk
    | with_reducible apply OSame.next
    | with_reducible apply OSame.fault
    | with_reducible apply OSame.ite
    | with_reducible apply State.runTo_same
    | with_reducible apply State.modInt_same
    | with_reducible apply State.settle_same
    | with_reducible apply Same.ite
    | split
    | dsimp only

theorem execStealOverdue_same {kl : List Kind} (hk : within [.tb, .ch, .cl, .env, .st, .qp, .ic, .perf, .pwr] kl = true) {s0 s : State} (hs : Same kl s0 s) (n : Fin 128) :
    OSame kl s0 (execStealOverdue n s) := by
  unfold execStealOverdue
  repeat' first
    | with_reducible assumption
    | intro _
    | exact within_trans (by decide) hk
    | with_reducible apply OSame.next
    | with_reducible apply OSame.fault
    | with_reducible apply OSame.ite
    | with_reducible apply State.modCal_same
    | with_reducible apply State.runTo_same
    | with_reducible apply State.settle_same
    | with_reducible apply Same.ite
    | split
    | dsimp only

theorem State.stealTick_same {kl : List Kind} (hk : within [.ch, .cl] kl = true) {s0 s : State} (hs : Same kl s0 s) (sort : Int) (dtc : Nat) :
    Same kl s0 (State.stealTick s sort dtc) := by
  unfold State.stealTick
  repeat' first
    | with_reducible assumption
    | intro _
    | exact within_trans (by decide) hk
    | with_reducible apply State.modIn_same
    | with_reducible apply State.modCal_same
    | with_reducible apply State.emit_same
    | with_reducible apply Same.ite
    | with_reducible apply Same.each
    | split
    | dsimp only

theorem State.completeCycle_same {kl : List Kind} (hk : within [.ch, .st] kl = true) {s0 s : State} (hs : Same kl s0 s) (ended : Bool) :
    Same kl s0 (State.completeCycle s ended) := by
  unfold State.completeCycle
  repeat' first
    | with_reducible assumption
    | intro _
    | exact within_trans (by decide) hk
    | with_reducible apply State.modCal_same
    | with_reducible apply Same.ite
    | with_reducible apply Same.each
    | with_reducible refine Same.step (within_trans (by decide) hk) (Same.set_st _ _) ?_
    | split
    | dsimp only

theorem State.startMeasure_same {kl : List Kind} (hk : within [.ch] kl = true) {s0 s : State} (hs : Same kl s0 s) (n : Nat) (run : Bool) :
    Same kl s0 (State.startMeasure s n run) := by
  unfold State.startMeasure
  repeat' first
    | with_reducible assumption
    | intro _
    | exact within_trans (by decide) hk
    | with_reducible apply State.modCal_same
    | with_reducible apply Same.ite
    | split
    | dsimp only

theorem execCalCycleStart_same {kl : List Kind} (hk : within [.tb, .ch, .st, .ic, .perf, .pwr] kl = true) {s0 s : State} (hs : Same kl s0 s) :
    OSame kl s0 (execCalCycleStart s) := by
  unfold execCalCycleStart
  repeat' first
    | with_reducible assumption
    | intro _
    | exact within_trans (by decide) hk
    | with_reducible apply OSame.next
    | with_reducible apply OSame.fault
    | with_reducible apply OSame.ite
    | with_reducible apply State.modCal_same
    | with_reducible apply State.runTo_same
    | with_reducible apply State.completeCycle_same
    | with_reducible apply State.startMeasure_same
    | with_reducible apply Same.ite
    | with_reducible apply Same.each
    | with_reducible refine Same.step (within_trans (by decide) hk) (Same.set_st _ _) ?_
    | split
    | dsimp only

theorem execDeferredCalMeasure_same {kl : List Kind} (hk : within [.ch] kl = true) {s0 s : State} (hs : Same kl s0 s) (n : Fin 128) :
    OSame kl s0 (execDeferredCalMeasure n s) := by
  unfold execDeferredCalMeasure
  repeat' first
    | with_reducible assumption
    | intro _
    | exact within_trans (by decide) hk
    | with_reducible apply OSame.next
    | with_reducible apply OSame.fault
    | with_reducible apply OSame.ite
    | with_reducible apply State.startMeasure_same
    | with_reducible apply Same.ite
    | split
    | dsimp only

theorem State.measureEnds_same {kl : List Kind} (hk : within [.ch, .st] kl = true) {s0 s : State} (hs : Same kl s0 s) (n : Nat) (run : Bool) :
    Same kl s0 (State.measureEnds s n run) := by
  unfold State.measureEnds
  repeat' first
    | with_reducible assumption
    | intro _
    | exact within_trans (by decide) hk
    | with_reducible apply State.completeCycle_same
    | with_reducible apply Same.ite
    | split
    | dsimp only

theorem execCalMeasureDone_same {kl : List Kind} (hk : within [.tb, .ch, .cl, .env, .st, .qp, .ic, .perf, .pwr] kl = true) {s0 s : State} (hs : Same kl s0 s) (n : Fin 128) (out : Bool) (tags : List Int) :
    OSame kl s0 (execCalMeasureDone n out tags s) := by
  unfold execCalMeasureDone
  repeat' first
    | with_reducible assumption
    | intro _
    | exact within_trans (by decide) hk
    | with_reducible apply OSame.next
    | with_reducible apply OSame.fault
    | with_reducible apply OSame.ite
    | with_reducible apply State.modCal_same
    | with_reducible apply State.runTo_same
    | with_reducible apply State.settle_same
    | with_reducible apply State.measureEnds_same
    | with_reducible apply Same.ite
    | split
    | dsimp only

theorem execTempTermUpdate_same {kl : List Kind} (hk : within [.ch] kl = true) {s0 s : State} (hs : Same kl s0 s) :
    OSame kl s0 (execTempTermUpdate s) := by
  unfold execTempTermUpdate
  repeat' first
    | with_reducible assumption
    | intro _
    | exact within_trans (by decide) hk
    | with_reducible apply OSame.next
    | with_reducible apply OSame.fault
    | with_reducible apply OSame.ite
    | with_reducible apply State.modCal_same
    | with_reducible apply Same.ite
    | with_reducible apply Same.each
    | split
    | dsimp only

theorem State.tempTick_same {kl : List Kind} (hk : within [.ch] kl = true) {s0 s : State} (hs : Same kl s0 s) :
    Same kl s0 (State.tempTick s) := by
  unfold State.tempTick
  repeat' first
    | with_reducible assumption
    | intro _
    | exact within_trans (by decide) hk
    | with_reducible apply State.modCal_same
    | with_reducible apply Same.ite
    | with_reducible apply Same.each
    | split
    | dsimp only

theorem execInAgePassed_same {kl : List Kind} (hk : within [.tb, .ch, .cl, .env, .st, .qp, .ic, .perf, .pwr] kl = true) {s0 s : State} (hs : Same kl s0 s) (n : Fin 128) (out : Bool) :
    OSame kl s0 (execInAgePassed n out s) := by
  unfold execInAgePassed
  repeat' first
    | with_reducible assumption
    | intro _
    | exact within_trans (by decide) hk
    | with_reducible apply OSame.next
    | with_reducible apply OSame.fault
    | with_reducible apply OSame.ite
    | with_reducible apply State.modCal_same
    | with_reducible apply State.runTo_same
    | with_reducible apply State.settle_same
    | with_reducible apply Same.ite
    | split
    | dsimp only

theorem State.accrue_same {kl : List Kind} (hk : within [.st] kl = true) {s0 s : State} (hs : Same kl s0 s) :
    Same kl s0 (State.accrue s) := by
  unfold State.accrue
  repeat' first
    | with_reducible assumption
    | intro _
    | exact within_trans (by decide) hk
    | with_reducible apply Same.ite
    | with_reducible refine Same.step (within_trans (by decide) hk) (Same.set_st _ _) ?_
    | split
    | dsimp only

theorem State.setProj_same {kl : List Kind} (hk : within [.ch, .st] kl = true) {s0 s : State} (hs : Same kl s0 s) :
    Same kl s0 (State.setProj s) := by
  unfold State.setProj
  repeat' first
    | with_reducible assumption
    | intro _
    | exact within_trans (by decide) hk
    | with_reducible apply Same.iteFst
    | with_reducible apply State.modCal_same
    | with_reducible apply Same.ite
    | with_reducible apply Same.each
    | with_reducible refine Same.step (within_trans (by decide) hk) (Same.set_st _ _) ?_
    | split
    | dsimp only

theorem execAgeingMeasure_same {kl : List Kind} (hk : within [.tb, .ch, .cl, .st, .ic, .perf, .pwr] kl = true) {s0 s : State} (hs : Same kl s0 s) (rings : List (W32 × W32)) :
    OSame kl s0 (execAgeingMeasure rings s) := by
  unfold execAgeingMeasure
  repeat' first
    | with_reducible assumption
    | intro _
    | exact within_trans (by decide) hk
    | with_reducible apply OSame.next
    | with_reducible apply OSame.fault
    | with_reducible apply OSame.ite
    | with_reducible apply Same.iteFst
    | with_reducible apply State.modCl_same
    | with_reducible apply State.runTo_same
    | with_reducible apply State.accrue_same
    | with_reducible apply State.setProj_same
    | with_reducible apply Same.ite
    | with_reducible apply Same.each
    | split
    | with_reducible refine Same.step (within_trans (by decide) hk) (Same.set_st _ _) ?_
    | dsimp only

theorem State.replan_same {kl : List Kind} (hk : within [.ch, .cl, .st] kl = true) {s0 s : State} (hs : Same kl s0 s) :
    Same kl s0 (State.replan s) := by
  unfold State.replan
  repeat' first
    | with_reducible assumption
    | intro _
    | exact within_trans (by decide) hk
    | with_reducible apply State.modCal_same
    | with_reducible apply State.modCl_same
    | with_reducible apply State.setProj_same
    | with_reducible apply Same.ite
    | with_reducible apply Same.each
    | with_reducible refine Same.step (within_trans (by decide) hk) (Same.set_st _ _) ?_
    | split
    | dsimp only

theorem execReplan_same {kl : List Kind} (hk : within [.tb, .ch, .cl, .env, .st, .qp, .ic, .perf, .pwr] kl = true) {s0 s : State} (hs : Same kl s0 s) :
    OSame kl s0 (execReplan s) := by
  unfold execReplan
  repeat' first
    | with_reducible assumption
    | intro _
    | exact within_trans (by decide) hk
    | with_reducible apply OSame.next
    | with_reducible apply OSame.fault
    | with_reducible apply OSame.ite
    | with_reducible apply State.runTo_same
    | with_reducible apply State.settle_same
    | with_reducible apply State.replan_same
    | with_reducible apply Same.ite
    | split
    | dsimp only

theorem execBaselineClear_same {kl : List Kind} (hk : within [.st] kl = true) {s0 s : State} (hs : Same kl s0 s) :
    OSame kl s0 (execBaselineClear s) := by
  unfold execBaselineClear
  repeat' first
    | with_reducible assumption
    | intro _
    | exact within_trans (by decide) hk
    | with_reducible apply OSame.next
    | with_reducible apply OSame.fault
    | with_reducible apply OSame.ite
    | with_reducible apply Same.ite
    | with_reducible refine Same.step (within_trans (by decide) hk) (Same.set_st _ _) ?_
    | split
    | dsimp only

theorem State.baseTick_same {kl : List Kind} (hk : within [.ch, .cl, .st] kl = true) {s0 s : State} (hs : Same kl s0 s) :
    Same kl s0 (State.baseTick s) := by
  unfold State.baseTick
  repeat' first
    | with_reducible assumption
    | intro _
    | exact within_trans (by decide) hk
    | with_reducible apply State.replan_same
    | with_reducible apply Same.ite
    | with_reducible refine Same.step (within_trans (by decide) hk) (Same.set_st _ _) ?_
    | split
    | dsimp only

theorem State.cutHistory_same {kl : List Kind} (hk : within [.ch, .cl, .st, .ic, .err, .perf, .pwr] kl = true) {s0 s : State} (hs : Same kl s0 s) (h : HistCut) :
    Same kl s0 (State.cutHistory s h) := by
  unfold State.cutHistory
  repeat' first
    | with_reducible assumption
    | intro _
    | exact within_trans (by decide) hk
    | with_reducible apply Same.iteFst
    | with_reducible apply State.modCal_same
    | with_reducible apply State.modCl_same
    | with_reducible apply State.report_same
    | with_reducible apply Same.ite
    | with_reducible apply Same.each
    | with_reducible refine Same.step (within_trans (by decide) hk) (Same.set_st _ _) ?_
    | split
    | dsimp only

theorem State.beginInts_same {kl : List Kind} (hk : within [.ch] kl = true) {s0 s : State} (hs : Same kl s0 s) (n : Nat) :
    Same kl s0 (State.beginInts s n) := by
  unfold State.beginInts
  repeat' first
    | with_reducible assumption
    | intro _
    | exact within_trans (by decide) hk
    | with_reducible apply State.modCal_same
    | with_reducible apply Same.ite
    | split
    | dsimp only

theorem State.beginCal_same {kl : List Kind} (hk : within [.ch, .st] kl = true) {s0 s : State} (hs : Same kl s0 s) :
    Same kl s0 (State.beginCal s) := by
  unfold State.beginCal
  repeat' first
    | with_reducible assumption
    | intro _
    | exact within_trans (by decide) hk
    | with_reducible apply State.modCh_same
    | with_reducible apply State.beginInts_same
    | with_reducible apply Same.ite
    | with_reducible apply Same.each
    | with_reducible refine Same.step (within_trans (by decide) hk) (Same.set_st _ _) ?_
    | split
    | dsimp only

theorem State.updateEnds_same {kl : List Kind} (hk : within [.ch, .cl, .env, .st, .qp, .ic, .err, .perf, .pwr] kl = true) {s0 s : State} (hs : Same kl s0 s) (n : Nat) (i1 : Bool) (h : Hits) :
    Same kl s0 (State.updateEnds s n i1 h) := by
  unfold State.updateEnds
  repeat' first
    | with_reducible assumption
    | intro _
    | exact within_trans (by decide) hk
    | with_reducible apply State.raise_same
    | with_reducible apply State.pcAdd_same
    | with_reducible apply State.report_same
    | with_reducible apply State.modInt_same
    | with_reducible apply State.settle_same
    | with_reducible apply State.failCal_same
    | with_reducible apply Same.ite
    | split
    | dsimp only

theorem execBinTableUpdate_same {kl : List Kind} (hk : within [.ch, .cl, .env, .st, .qp, .ic, .err, .perf, .pwr] kl = true) {s0 s : State} (hs : Same kl s0 s) (n : Fin 128) (i1 : Bool) (hits : Hits) :
    OSame kl s0 (execBinTableUpdate n i1 hits s) := by
  unfold execBinTableUpdate
  repeat' first
    | with_reducible assumption
    | intro _
    | exact within_trans (by decide) hk
    | with_reducible apply OSame.next
    | with_reducible apply OSame.fault
    | with_reducible apply OSame.ite
    | with_reducible apply State.modInt_same
    | with_reducible apply State.beginCal_same
    | with_reducible apply State.updateEnds_same
    | with_reducible apply Same.ite
    | split
    | dsimp only

theorem State.applyPlan_same {kl : List Kind} (hk : within [.cl, .ic, .err, .perf, .pwr] kl = true) {s0 s : State} (hs : Same kl s0 s) (c : Nat) :
    Same kl s0 (State.applyPlan s c) := by
  unfold State.applyPlan
  repeat' first
    | with_reducible assumption
    | intro _
    | exact within_trans (by decide) hk
    | with_reducible apply State.modCl_same
    | with_reducible apply State.report_same
    | with_reducible apply Same.ite
    | split
    | dsimp only

theorem cmdCalRun_same {kl : List Kind} (hk : within [.ch] kl = true) {s0 s : State} (hs : Same kl s0 s) (p : List W32) :
    Same kl s0 (cmdCalRun s p).state := by
  unfold cmdCalRun
  repeat' first
    | with_reducible assumption
    | intro _
    | exact within_trans (by decide) hk
    | with_reducible apply fail_same
    | with_reducible apply okay_same
    | with_reducible apply done_same
    | with_reducible apply wait_same
    | with_reducible apply Same.iteRes
    | with_reducible apply State.modCal_same
    | with_reducible apply State.startMeasure_same
    | with_reducible apply Same.ite
    | with_reducible apply Same.each
    | split
    | dsimp only

theorem cmdCalStatus_same {kl : List Kind} (hk : within [] kl = true) {s0 s : State} (hs : Same kl s0 s) (p : List W32) :
    Same kl s0 (cmdCalStatus s p).state := by
  unfold cmdCalStatus
  repeat' first
    | with_reducible assumption
    | intro _
    | exact within_trans (by decide) hk
    | with_reducible apply fail_same
    | with_reducible apply okay_same
    | with_reducible apply done_same
    | with_reducible apply wait_same
    | with_reducible apply Same.iteRes
    | with_reducible apply Same.ite
    | split
    | dsimp only

theorem applyCalPolicy_same {kl : List Kind} (hk : within [.ch, .cl, .env, .st, .qp, .ic, .pwr] kl = true) {s0 s : State} (hs : Same kl s0 s) (p : List W32) :
    Same kl s0 (applyCalPolicy s p) := by
  unfold applyCalPolicy
  repeat' first
    | with_reducible assumption
    | intro _
    | exact within_trans (by decide) hk
    | with_reducible apply State.modCal_same
    | with_reducible apply State.modCl_same
    | with_reducible apply State.settle_same
    | with_reducible apply Same.ite
    | with_reducible apply Same.each
    | split
    | dsimp only

theorem cmdCalPolicy_same {kl : List Kind} (hk : within [.deferred] kl = true) {s0 s : State} (hs : Same kl s0 s) (p : List W32) :
    Same kl s0 (cmdCalPolicy s p).state := by
  unfold cmdCalPolicy
  repeat' first
    | with_reducible assumption
    | intro _
    | exact within_trans (by decide) hk
    | with_reducible apply fail_same
    | with_reducible apply okay_same
    | with_reducible apply done_same
    | with_reducible apply wait_same
    | with_reducible apply Same.iteRes
    | with_reducible apply State.defer_same
    | with_reducible apply Same.ite
    | split
    | dsimp only

end Sys2Proof.Machine
end

