-- ==== Sys2Proof/Laws/SameEnvir.lean ====
section
/-! SUPPORT. Frames of the operations of Machine/Envir.lean. -/
namespace Sys2Proof.Machine

theorem State.setTerm_same {kl : List Kind} (hk : within [.ch] kl = true) {s0 s : State} (hs : Same kl s0 s) (n : Nat) (t : Nat) (src : CableSrc) :
    Same kl s0 (State.setTerm s n t src) := by
  unfold State.setTerm
  repeat' first
    | with_reducible assumption
    | intro _
    | exact within_trans (by decide) hk
    | with_reducible apply State.modCal_same
    | with_reducible apply State.modCable_same
    | with_reducible apply Same.ite
    | split
    | dsimp only

theorem State.applyTdr_same {kl : List Kind} (hk : within [.ch, .cl, .env, .st, .qp, .ic, .pwr] kl = true) {s0 s : State} (hs : Same kl s0 s) (p : List W32) :
    Same kl s0 (State.applyTdr s p) := by
  unfold State.applyTdr
  repeat' first
    | with_reducible assumption
    | intro _
    | exact within_trans (by decide) hk
    | with_reducible apply State.settle_same
    | with_reducible apply State.setTerm_same
    | with_reducible apply Same.ite
    | with_reducible apply Same.each
    | split
    | dsimp only

theorem cmdEnvTdr_same {kl : List Kind} (hk : within [.ch, .env, .deferred] kl = true) {s0 s : State} (hs : Same kl s0 s) (p : List W32) :
    Same kl s0 (cmdEnvTdr s p).state := by
  unfold cmdEnvTdr
  repeat' first
    | with_reducible assumption
    | intro _
    | exact within_trans (by decide) hk
    | with_reducible apply fail_same
    | with_reducible apply okay_same
    | with_reducible apply done_same
    | with_reducible apply wait_same
    | with_reducible apply Same.iteRes
    | with_reducible apply State.defer_same
    | with_reducible apply State.tdrFrom_same
    | with_reducible apply Same.ite
    | split
    | dsimp only

theorem execTdrChannelDone_same {kl : List Kind} (hk : within [.tb, .ch, .env, .ic, .perf, .pwr, .deferred] kl = true) {s0 s : State} (hs : Same kl s0 s) (n : Fin 128) (r : TdrResult) :
    OSame kl s0 (execTdrChannelDone n r s) := by
  unfold execTdrChannelDone
  repeat' first
    | with_reducible assumption
    | intro _
    | exact within_trans (by decide) hk
    | with_reducible apply OSame.next
    | with_reducible apply OSame.fault
    | with_reducible apply OSame.ite
    | with_reducible apply State.defer_same
    | with_reducible apply State.modCable_same
    | with_reducible apply State.tdrFrom_same
    | with_reducible apply State.tdrEnds_same
    | with_reducible apply Same.ite
    | split
    | with_reducible refine Same.step (within_trans (by decide) hk) (Same.set_env _ _) ?_
    | dsimp only

theorem State.modMon_same {kl : List Kind} (hk : within [.env] kl = true) {s0 s : State} (hs : Same kl s0 s) (k : Nat) (f : Monitor → Monitor) :
    Same kl s0 (State.modMon s k f) := by
  unfold State.modMon
  repeat' first
    | with_reducible assumption
    | intro _
    | exact within_trans (by decide) hk
    | with_reducible apply Same.ite
    | with_reducible refine Same.step (within_trans (by decide) hk) (Same.set_env _ _) ?_
    | split
    | dsimp only

theorem State.monNotice_same {kl : List Kind} (hk : within [.qp, .ic, .err, .perf, .pwr] kl = true) {s0 s : State} (hs : Same kl s0 s) (k : Nat) (fault : Bool) :
    Same kl s0 (State.monNotice s k fault) := by
  unfold State.monNotice
  repeat' first
    | with_reducible assumption
    | intro _
    | exact within_trans (by decide) hk
    | with_reducible apply State.wakeBy_same
    | with_reducible apply State.raise_same
    | with_reducible apply State.report_same
    | with_reducible apply State.notice_same
    | with_reducible apply Same.ite
    | split
    | dsimp only

theorem execMonitorReading_same {kl : List Kind} (hk : within [.env, .qp, .ic, .err, .perf, .pwr] kl = true) {s0 s : State} (hs : Same kl s0 s) (k : Fin 52) (v : Int) (invalid : Bool) :
    OSame kl s0 (execMonitorReading k v invalid s) := by
  unfold execMonitorReading
  repeat' first
    | with_reducible assumption
    | intro _
    | exact within_trans (by decide) hk
    | with_reducible apply OSame.next
    | with_reducible apply OSame.fault
    | with_reducible apply OSame.ite
    | with_reducible apply State.modMon_same
    | with_reducible apply State.monNotice_same
    | with_reducible apply Same.ite
    | with_reducible refine Same.step (within_trans (by decide) hk) (Same.set_env _ _) ?_
    | split
    | dsimp only

theorem execThermalTrip_same {kl : List Kind} (hk : within [.ch, .cl, .env, .st, .qp, .ic, .err, .perf, .pwr] kl = true) {s0 s : State} (hs : Same kl s0 s) (k : Fin 12) :
    OSame kl s0 (execThermalTrip k s) := by
  unfold execThermalTrip
  repeat' first
    | with_reducible assumption
    | intro _
    | exact within_trans (by decide) hk
    | with_reducible apply OSame.next
    | with_reducible apply OSame.fault
    | with_reducible apply OSame.ite
    | with_reducible apply State.modOut_same
    | with_reducible apply State.wakeBy_same
    | with_reducible apply State.report_same
    | with_reducible apply State.settle_same
    | with_reducible apply Same.ite
    | with_reducible apply Same.each
    | with_reducible refine Same.step (within_trans (by decide) hk) (Same.set_env _ _) ?_
    | split
    | dsimp only

theorem cmdEnvMonitors_same {kl : List Kind} (hk : within [.env, .ic] kl = true) {s0 s : State} (hs : Same kl s0 s) (p : List W32) :
    Same kl s0 (cmdEnvMonitors s p).state := by
  unfold cmdEnvMonitors
  repeat' first
    | with_reducible assumption
    | intro _
    | exact within_trans (by decide) hk
    | with_reducible apply fail_same
    | with_reducible apply okay_same
    | with_reducible apply done_same
    | with_reducible apply wait_same
    | with_reducible apply Same.iteRes
    | with_reducible apply State.lines_same
    | with_reducible apply State.modMon_same
    | with_reducible apply Same.ite
    | with_reducible refine Same.step (within_trans (by decide) hk) (Same.set_env _ _) ?_
    | split
    | dsimp only

theorem State.vddmWindow_same {kl : List Kind} (hk : within [.env] kl = true) {s0 s : State} (hs : Same kl s0 s) (retained : Bool) :
    Same kl s0 (State.vddmWindow s retained) := by
  unfold State.vddmWindow
  repeat' first
    | with_reducible assumption
    | intro _
    | exact within_trans (by decide) hk
    | with_reducible apply Same.iteFst
    | with_reducible apply State.modMon_same
    | with_reducible apply Same.ite
    | split
    | dsimp only

end Sys2Proof.Machine
end

