-- ==== Sys2Proof/Laws/SameSlots.lean ====
section
/-! SUPPORT. Frames of the operations of Machine/Slots.lean. -/
namespace Sys2Proof.Machine

theorem State.slotsWord_same {kl : List Kind} (hk : within [.slot] kl = true) {s0 s : State} (hs : Same kl s0 s) (c : Nat) (w : PWord) :
    Same kl s0 (State.slotsWord s c w) := by
  unfold State.slotsWord
  repeat' first
    | with_reducible assumption
    | intro _
    | exact within_trans (by decide) hk
    | with_reducible apply State.modSlot_same
    | with_reducible apply Same.ite
    | with_reducible apply Same.each
    | split
    | dsimp only

theorem State.refreshUse_same {kl : List Kind} (hk : within [.bank] kl = true) {s0 s : State} (hs : Same kl s0 s) :
    Same kl s0 (State.refreshUse s) := by
  unfold State.refreshUse
  repeat' first
    | with_reducible assumption
    | intro _
    | exact within_trans (by decide) hk
    | with_reducible apply State.modBank_same
    | with_reducible apply Same.ite
    | with_reducible apply Same.each
    | split
    | dsimp only

theorem State.slotTick_same {kl : List Kind} (hk : within [.slot, .posted, .ic, .perf, .pwr] kl = true) {s0 s : State} (hs : Same kl s0 s) (pre post x : Nat) (at_ : Int) (stepped moved : Bool) :
    Same kl s0 (State.slotTick s pre post x at_ stepped moved) := by
  unfold State.slotTick
  repeat' first
    | with_reducible assumption
    | intro _
    | exact within_trans (by decide) hk
    | with_reducible apply State.post_same
    | with_reducible apply Same.ite
    | with_reducible refine Same.step (within_trans (by decide) hk) (Same.set_slot _ _) ?_
    | split
    | dsimp only

theorem execMsPublish_same {kl : List Kind} (hk : within [.tb, .cl, .slot, .tim, .bank, .ic, .perf, .pwr] kl = true) {s0 s : State} (hs : Same kl s0 s) (n : Fin 512) :
    OSame kl s0 (execMsPublish n s) := by
  unfold execMsPublish
  repeat' first
    | with_reducible assumption
    | intro _
    | exact within_trans (by decide) hk
    | with_reducible apply OSame.next
    | with_reducible apply OSame.fault
    | with_reducible apply OSame.ite
    | with_reducible apply State.modSlot_same
    | with_reducible apply State.runTo_same
    | with_reducible apply State.event_same
    | with_reducible apply State.refreshUse_same
    | with_reducible apply Same.ite
    | split
    | dsimp only

theorem execHistAdd_same {kl : List Kind} (hk : within [.tb, .slot, .bank, .mem, .ue, .ic, .err, .perf, .pwr] kl = true) {s0 s : State} (hs : Same kl s0 s) (n : Fin 512) (e : Ecc) :
    OSame kl s0 (execHistAdd n e s) := by
  unfold execHistAdd
  repeat' first
    | with_reducible assumption
    | intro _
    | exact within_trans (by decide) hk
    | with_reducible apply OSame.next
    | with_reducible apply OSame.fault
    | with_reducible apply OSame.ite
    | with_reducible apply Same.iteFst
    | with_reducible apply State.modSlot_same
    | with_reducible apply State.pcAdd_same
    | with_reducible apply State.runTo_same
    | with_reducible apply State.readWord_same
    | with_reducible apply State.writeWord_same
    | with_reducible apply State.refreshUse_same
    | with_reducible apply Same.ite
    | split
    | dsimp only

theorem State.importTick_same {kl : List Kind} (hk : within [.cl] kl = true) {s0 s : State} (hs : Same kl s0 s) (c : Nat) :
    Same kl s0 (State.importTick s c) := by
  unfold State.importTick
  repeat' first
    | with_reducible assumption
    | intro _
    | exact within_trans (by decide) hk
    | with_reducible apply State.modCl_same
    | with_reducible apply Same.ite
    | split
    | dsimp only

theorem cmdMeasDefine_same {kl : List Kind} (hk : within [.slot] kl = true) {s0 s : State} (hs : Same kl s0 s) (p : List W32) :
    Same kl s0 (cmdMeasDefine s p).state := by
  unfold cmdMeasDefine
  repeat' first
    | with_reducible assumption
    | intro _
    | exact within_trans (by decide) hk
    | with_reducible apply fail_same
    | with_reducible apply okay_same
    | with_reducible apply done_same
    | with_reducible apply wait_same
    | with_reducible apply Same.iteRes
    | with_reducible apply State.modSlot_same
    | with_reducible apply Same.ite
    | split
    | dsimp only

theorem armSlots_same {kl : List Kind} (hk : within [.slot, .bank] kl = true) {s0 s : State} (hs : Same kl s0 s) (p : List W32) (b0 : Nat) :
    Same kl s0 (armSlots s p b0) := by
  unfold armSlots
  repeat' first
    | with_reducible assumption
    | intro _
    | exact within_trans (by decide) hk
    | with_reducible apply State.modSlot_same
    | with_reducible apply State.refreshUse_same
    | with_reducible apply Same.ite
    | with_reducible apply Same.each
    | split
    | dsimp only

theorem cmdMeasArm_same {kl : List Kind} (hk : within [.slot, .bank] kl = true) {s0 s : State} (hs : Same kl s0 s) (p : List W32) :
    Same kl s0 (cmdMeasArm s p).state := by
  unfold cmdMeasArm
  repeat' first
    | with_reducible assumption
    | intro _
    | exact within_trans (by decide) hk
    | with_reducible apply fail_same
    | with_reducible apply okay_same
    | with_reducible apply done_same
    | with_reducible apply wait_same
    | with_reducible apply Same.iteRes
    | with_reducible apply armSlots_same
    | with_reducible apply Same.ite
    | split
    | dsimp only

theorem stopSlots_same {kl : List Kind} (hk : within [.slot, .bank] kl = true) {s0 s : State} (hs : Same kl s0 s) (p : List W32) (at_ : Int) :
    Same kl s0 (stopSlots s p at_) := by
  unfold stopSlots
  repeat' first
    | with_reducible assumption
    | intro _
    | exact within_trans (by decide) hk
    | with_reducible apply State.modSlot_same
    | with_reducible apply State.refreshUse_same
    | with_reducible apply Same.ite
    | with_reducible apply Same.each
    | split
    | dsimp only

theorem cmdMeasStop_same {kl : List Kind} (hk : within [.slot, .bank] kl = true) {s0 s : State} (hs : Same kl s0 s) (p : List W32) :
    Same kl s0 (cmdMeasStop s p).state := by
  unfold cmdMeasStop
  repeat' first
    | with_reducible assumption
    | intro _
    | exact within_trans (by decide) hk
    | with_reducible apply fail_same
    | with_reducible apply okay_same
    | with_reducible apply done_same
    | with_reducible apply wait_same
    | with_reducible apply Same.iteRes
    | with_reducible apply stopSlots_same
    | with_reducible apply Same.ite
    | with_reducible apply Same.foldl
    | with_reducible apply Same.foldlFst
    | split
    | dsimp only

theorem cmdMeasRead_same {kl : List Kind} (hk : within [.freeCnt] kl = true) {s0 s : State} (hs : Same kl s0 s) (p : List W32) :
    Same kl s0 (cmdMeasRead s p).state := by
  unfold cmdMeasRead
  repeat' first
    | with_reducible assumption
    | intro _
    | exact within_trans (by decide) hk
    | with_reducible apply fail_same
    | with_reducible apply okay_same
    | with_reducible apply done_same
    | with_reducible apply wait_same
    | with_reducible apply Same.iteRes
    | with_reducible apply State.useFree_same
    | with_reducible apply Same.ite
    | split
    | dsimp only

theorem State.zeroRegion_same {kl : List Kind} (hk : within [.mem, .ue] kl = true) {s0 s : State} (hs : Same kl s0 s) (r : Nat × Nat) :
    Same kl s0 (State.zeroRegion s r) := by
  unfold State.zeroRegion
  repeat' first
    | with_reducible assumption
    | intro _
    | exact within_trans (by decide) hk
    | with_reducible apply Same.iteFst
    | with_reducible apply Same.ite
    | with_reducible refine Same.step (within_trans (by decide) hk) (Same.set_mem_ue _ _ _) ?_
    | split
    | dsimp only

theorem cmdHistDefine_same {kl : List Kind} (hk : within [.slot, .mem, .ue] kl = true) {s0 s : State} (hs : Same kl s0 s) (p : List W32) :
    Same kl s0 (cmdHistDefine s p).state := by
  unfold cmdHistDefine
  repeat' first
    | with_reducible assumption
    | intro _
    | exact within_trans (by decide) hk
    | with_reducible apply fail_same
    | with_reducible apply okay_same
    | with_reducible apply done_same
    | with_reducible apply wait_same
    | with_reducible apply Same.iteRes
    | with_reducible apply State.modSlot_same
    | with_reducible apply State.zeroRegion_same
    | with_reducible apply Same.ite
    | split
    | dsimp only

end Sys2Proof.Machine
end

