-- ==== Sys2Proof/Laws/SameOutput.lean ====
section
/-! SUPPORT. Frames of the operations of Machine/Output.lean. -/
namespace Sys2Proof.Machine

theorem State.place_same {kl : List Kind} (hk : within [.ch] kl = true) {s0 s : State} (hs : Same kl s0 s) (n : Nat) (t : Int) (level : Bool) :
    Same kl s0 (State.place s n t level) := by
  unfold State.place
  repeat' first
    | with_reducible assumption
    | intro _
    | exact within_trans (by decide) hk
    | with_reducible apply State.modOut_same
    | with_reducible apply Same.ite
    | split
    | dsimp only

theorem State.shortPulse_same {kl : List Kind} (hk : within [.ch] kl = true) {s0 s : State} (hs : Same kl s0 s) (n : Nat) :
    Same kl s0 (State.shortPulse s n) := by
  unfold State.shortPulse
  repeat' first
    | with_reducible assumption
    | intro _
    | exact within_trans (by decide) hk
    | with_reducible apply State.modOut_same
    | with_reducible apply Same.ite
    | split
    | dsimp only

theorem State.dropLast_same {kl : List Kind} (hk : within [.ch] kl = true) {s0 s : State} (hs : Same kl s0 s) (n : Nat) (p : Int) (level : Bool) :
    Same kl s0 (State.dropLast s n p level) := by
  unfold State.dropLast
  repeat' first
    | with_reducible assumption
    | intro _
    | exact within_trans (by decide) hk
    | with_reducible apply State.modOut_same
    | with_reducible apply State.modPr_same
    | with_reducible apply Same.ite
    | split
    | dsimp only

theorem State.shortEdge_same {kl : List Kind} (hk : within [.ch] kl = true) {s0 s : State} (hs : Same kl s0 s) (n : Nat) (p : Int) (launched stretch : Bool) (level : Bool) :
    Same kl s0 (State.shortEdge s n p launched stretch level) := by
  unfold State.shortEdge
  repeat' first
    | with_reducible assumption
    | intro _
    | exact within_trans (by decide) hk
    | with_reducible apply State.place_same
    | with_reducible apply State.shortPulse_same
    | with_reducible apply State.dropLast_same
    | with_reducible apply Same.ite
    | split
    | dsimp only

theorem State.seqEdge_same {kl : List Kind} (hk : within [.ch] kl = true) {s0 s : State} (hs : Same kl s0 s) (n : Nat) (t : Int) (level : Bool) :
    Same kl s0 (State.seqEdge s n t level) := by
  unfold State.seqEdge
  repeat' first
    | with_reducible assumption
    | intro _
    | exact within_trans (by decide) hk
    | with_reducible apply State.place_same
    | with_reducible apply State.shortEdge_same
    | with_reducible apply Same.ite
    | split
    | dsimp only

theorem State.addEvent_same {kl : List Kind} (hk : within [.ch] kl = true) {s0 s : State} (hs : Same kl s0 s) (n : Nat) (t : Int) (e : OutEvent) :
    Same kl s0 (State.addEvent s n t e) := by
  unfold State.addEvent
  repeat' first
    | with_reducible assumption
    | intro _
    | exact within_trans (by decide) hk
    | with_reducible apply State.modOut_same
    | with_reducible apply Same.ite
    | split
    | dsimp only

theorem State.pairOn_same {kl : List Kind} (hk : within [.ch] kl = true) {s0 s : State} (hs : Same kl s0 s) (o : Nat) (t : Int) :
    Same kl s0 (State.pairOn s o t) := by
  unfold State.pairOn
  repeat' first
    | with_reducible assumption
    | intro _
    | exact within_trans (by decide) hk
    | with_reducible apply State.modOut_same
    | with_reducible apply State.place_same
    | with_reducible apply Same.ite
    | split
    | dsimp only

theorem State.pairOff_same {kl : List Kind} (hk : within [.ch] kl = true) {s0 s : State} (hs : Same kl s0 s) (p : Nat) (t : Int) :
    Same kl s0 (State.pairOff s p t) := by
  unfold State.pairOff
  repeat' first
    | with_reducible assumption
    | intro _
    | exact within_trans (by decide) hk
    | with_reducible apply State.modOut_same
    | with_reducible apply State.place_same
    | with_reducible apply State.dropLast_same
    | with_reducible apply State.shortEdge_same
    | with_reducible apply State.pairOn_same
    | with_reducible apply Same.ite
    | split
    | dsimp only

theorem State.pairEnd_same {kl : List Kind} (hk : within [.ch] kl = true) {s0 s : State} (hs : Same kl s0 s) (p : Nat) (x : Int) :
    Same kl s0 (State.pairEnd s p x) := by
  unfold State.pairEnd
  repeat' first
    | with_reducible assumption
    | intro _
    | exact within_trans (by decide) hk
    | with_reducible apply State.modOut_same
    | with_reducible apply State.place_same
    | with_reducible apply State.shortPulse_same
    | with_reducible apply State.pairOn_same
    | with_reducible apply State.pairOff_same
    | with_reducible apply Same.ite
    | split
    | dsimp only

theorem State.xEdge_same {kl : List Kind} (hk : within [.ch] kl = true) {s0 s : State} (hs : Same kl s0 s) (a : Nat) (x : Int) (on : Bool) (e : Option (Nat × Bool)) :
    Same kl s0 (State.xEdge s a x on e) := by
  unfold State.xEdge
  repeat' first
    | with_reducible assumption
    | intro _
    | exact within_trans (by decide) hk
    | with_reducible apply Same.iteFst
    | with_reducible apply State.modOut_same
    | with_reducible apply State.modPr_same
    | with_reducible apply State.pairEnd_same
    | with_reducible apply Same.ite
    | split
    | dsimp only

theorem State.pairResume_same {kl : List Kind} (hk : within [.ch] kl = true) {s0 s : State} (hs : Same kl s0 s) (a : Nat) (t : Int) :
    Same kl s0 (State.pairResume s a t) := by
  unfold State.pairResume
  repeat' first
    | with_reducible assumption
    | intro _
    | exact within_trans (by decide) hk
    | with_reducible apply State.modOut_same
    | with_reducible apply State.modPr_same
    | with_reducible apply State.pairOn_same
    | with_reducible apply State.pairOff_same
    | with_reducible apply Same.ite
    | split
    | dsimp only

theorem State.takeEdge_same {kl : List Kind} (hk : within [.ch] kl = true) {s0 s : State} (h : Same kl s0 s) (n : Nat) (e : NextEdge) : Same kl s0 (s.takeEdge n e) := by
  cases e <;> (unfold State.takeEdge; exact State.modOut_same hk h _ _)


theorem State.queueResume_same {kl : List Kind} (hk : within [.ch] kl = true) {s0 s : State} (hs : Same kl s0 s) (n : Nat) (t : Int) :
    Same kl s0 (State.queueResume s n t) := by
  unfold State.queueResume
  repeat' first
    | with_reducible assumption
    | intro _
    | exact within_trans (by decide) hk
    | with_reducible apply State.modPr_same
    | with_reducible apply Same.ite
    | split
    | dsimp only

theorem State.runEdge_same {kl : List Kind} (hk : within [.ch] kl = true) {s0 s : State} (hs : Same kl s0 s) (n : Nat) (t : Int) (level : Bool) (e : Option (Nat × Bool)) (queue : Bool) :
    Same kl s0 (State.runEdge s n t level e queue) := by
  unfold State.runEdge
  repeat' first
    | with_reducible assumption
    | intro _
    | exact within_trans (by decide) hk
    | with_reducible apply State.seqEdge_same
    | with_reducible apply State.xEdge_same
    | with_reducible apply State.queueResume_same
    | with_reducible apply Same.ite
    | split
    | dsimp only

theorem State.runDesc_same {kl : List Kind} (hk : within [.ch, .cl, .tim, .pwr] kl = true) {s0 s : State} (hs : Same kl s0 s) (n : Nat) (d : Desc) :
    Same kl s0 (State.runDesc s n d) := by
  unfold State.runDesc
  repeat' first
    | with_reducible assumption
    | intro _
    | exact within_trans (by decide) hk
    | with_reducible apply State.modOut_same
    | with_reducible apply State.event_same
    | with_reducible apply State.addEvent_same
    | with_reducible apply State.runEdge_same
    | with_reducible apply Same.ite
    | split
    | dsimp only

theorem State.runNext_same {kl : List Kind} (hk : within [.ch, .cl, .tim, .pwr] kl = true) {s0 s : State} (h : Same kl s0 s) (n : Nat) (e : NextEdge) : Same kl s0 (s.runNext n e) := by
  cases e
  · exact State.runEdge_same (within_trans (by decide) hk) h _ _ _ _ _
  · exact State.runDesc_same (within_trans (by decide) hk) h _ _
  · exact State.runEdge_same (within_trans (by decide) hk) h _ _ _ _ _


theorem State.computeAlone_same {kl : List Kind} (hk : within [.tb, .ch, .cl, .tim, .ic, .perf, .pwr] kl = true) {s0 s : State} (hs : Same kl s0 s) (n : Nat) :
    Same kl s0 (State.computeAlone s n) := by
  unfold State.computeAlone
  repeat' first
    | with_reducible assumption
    | intro _
    | exact within_trans (by decide) hk
    | with_reducible apply State.runTo_same
    | with_reducible apply State.takeEdge_same
    | with_reducible apply State.runNext_same
    | with_reducible apply Same.ite
    | split
    | dsimp only

theorem State.toCompute_same {kl : List Kind} (hk : within [.tb, .ic, .perf, .pwr] kl = true) {s0 s : State} (hs : Same kl s0 s) (t : Int) :
    Same kl s0 (State.toCompute s t) := by
  unfold State.toCompute
  repeat' first
    | with_reducible assumption
    | intro _
    | exact within_trans (by decide) hk
    | with_reducible apply State.runTo_same
    | with_reducible apply Same.ite
    | split
    | dsimp only

theorem State.pairTurn_same {kl : List Kind} (hk : within [.tb, .ch, .cl, .tim, .ic, .perf, .pwr] kl = true) {s0 s : State} (hs : Same kl s0 s) (a : Nat) (x : Option NextEdge) (on : Option (Nat × Int)) :
    Same kl s0 (State.pairTurn s a x on) := by
  unfold State.pairTurn
  repeat' first
    | with_reducible assumption
    | intro _
    | exact within_trans (by decide) hk
    | with_reducible apply State.runTo_same
    | with_reducible apply State.pairOn_same
    | with_reducible apply State.takeEdge_same
    | with_reducible apply State.runNext_same
    | with_reducible apply State.toCompute_same
    | with_reducible apply Same.ite
    | split
    | dsimp only

theorem State.computePair_same {kl : List Kind} (hk : within [.tb, .ch, .cl, .tim, .ic, .perf, .pwr] kl = true) {s0 s : State} (hs : Same kl s0 s) (a : Nat) :
    Same kl s0 (State.computePair s a) := by
  unfold State.computePair
  repeat' first
    | with_reducible assumption
    | intro _
    | exact within_trans (by decide) hk
    | with_reducible apply State.pairResume_same
    | with_reducible apply State.toCompute_same
    | with_reducible apply State.pairTurn_same
    | with_reducible apply Same.ite
    | split
    | dsimp only

theorem execEdgeCompute_same {kl : List Kind} (hk : within [.tb, .ch, .cl, .tim, .ic, .perf, .pwr] kl = true) {s0 s : State} (hs : Same kl s0 s) (n : Fin 128) :
    OSame kl s0 (execEdgeCompute n s) := by
  unfold execEdgeCompute
  repeat' first
    | with_reducible assumption
    | intro _
    | exact within_trans (by decide) hk
    | with_reducible apply OSame.next
    | with_reducible apply OSame.fault
    | with_reducible apply OSame.ite
    | with_reducible apply State.computeAlone_same
    | with_reducible apply State.computePair_same
    | with_reducible apply Same.ite
    | split
    | dsimp only

theorem execEdgeLaunch_same {kl : List Kind} (hk : within [.tb, .ch, .ic, .perf, .pwr] kl = true) {s0 s : State} (hs : Same kl s0 s) (n : Fin 128) :
    OSame kl s0 (execEdgeLaunch n s) := by
  unfold execEdgeLaunch
  repeat' first
    | with_reducible assumption
    | intro _
    | exact within_trans (by decide) hk
    | with_reducible apply OSame.next
    | with_reducible apply OSame.fault
    | with_reducible apply OSame.ite
    | with_reducible apply State.modOut_same
    | with_reducible apply State.pcAdd_same
    | with_reducible apply State.runTo_same
    | with_reducible apply Same.ite
    | split
    | dsimp only

theorem execOutputEvent_same {kl : List Kind} (hk : within [.tb, .ch, .cl, .tim, .ic, .perf, .pwr] kl = true) {s0 s : State} (hs : Same kl s0 s) (n : Fin 128) :
    OSame kl s0 (execOutputEvent n s) := by
  unfold execOutputEvent
  repeat' first
    | with_reducible assumption
    | intro _
    | exact within_trans (by decide) hk
    | with_reducible apply OSame.next
    | with_reducible apply OSame.fault
    | with_reducible apply OSame.ite
    | with_reducible apply State.modOut_same
    | with_reducible apply State.raise_same
    | with_reducible apply State.runTo_same
    | with_reducible apply State.event_same
    | with_reducible apply Same.ite
    | split
    | dsimp only

theorem State.eqPush_same {kl : List Kind} (hk : within [.tb, .ch, .ic, .err, .perf, .pwr] kl = true) {s0 s : State} (h : Same kl s0 s) (n : Nat) (w0 w1 w2 w3 : W32) : Same kl s0 (s.eqPush n w0 w1 w2 w3).1 := by
  unfold State.eqPush
  lift_lets
  intro o t late s1 d
  have m : within [.ch] kl = true := within_trans (by decide) hk
  apply Same.iteFst
  · exact Same.fst (State.report_same (within_trans (by decide) hk) (State.runTo_same (within_trans (by decide) hk) h _) _ _ _ _ _)
  apply Same.iteFst
  · exact Same.fst (State.modOut_same m h _ _)
  have k : Same kl s0 s1 := Same.ite (State.modOut_same m h _ _) h
  apply Same.iteFst
  · exact Same.fst k
  · exact Same.fst (State.modOut_same m k _ _)


theorem State.fwEdge_same {kl : List Kind} (hk : within [.tb, .ic, .perf, .pwr] kl = true) {s0 s : State} (hs : Same kl s0 s) (n : Nat) :
    Same kl s0 (State.fwEdge s n) := by
  unfold State.fwEdge
  repeat' first
    | with_reducible assumption
    | intro _
    | exact within_trans (by decide) hk
    | with_reducible apply State.runTo_same
    | with_reducible apply Same.ite
    | split
    | dsimp only

theorem execChEqPush_same {kl : List Kind} (hk : within [.tb, .ch, .ic, .err, .perf, .pwr] kl = true) {s0 s : State} (hs : Same kl s0 s) (n : Fin 128) (w0 w1 w2 w3 : W32) :
    OSame kl s0 (execChEqPush n w0 w1 w2 w3 s) := by
  unfold execChEqPush
  repeat' first
    | with_reducible assumption
    | intro _
    | exact within_trans (by decide) hk
    | with_reducible apply OSame.next
    | with_reducible apply OSame.fault
    | with_reducible apply OSame.ite
    | with_reducible apply Same.iteFst
    | with_reducible apply State.modOut_same
    | with_reducible apply State.eqPush_same
    | with_reducible apply State.fwEdge_same
    | with_reducible apply Same.ite
    | split
    | dsimp only

theorem execQpDescriptorForward_same {kl : List Kind} (hk : within [.tb, .ch, .qp, .ic, .err, .perf, .pwr] kl = true) {s0 s : State} (hs : Same kl s0 s) (q : Fin 4) :
    OSame kl s0 (execQpDescriptorForward q s) := by
  unfold execQpDescriptorForward
  repeat' first
    | with_reducible assumption
    | intro _
    | exact within_trans (by decide) hk
    | with_reducible apply OSame.next
    | with_reducible apply OSame.fault
    | with_reducible apply OSame.ite
    | with_reducible apply Same.iteFst
    | with_reducible apply State.modQp_same
    | with_reducible apply State.report_same
    | with_reducible apply State.lines_same
    | with_reducible apply State.eqPush_same
    | with_reducible apply State.fwEdge_same
    | with_reducible apply Same.ite
    | split
    | dsimp only

theorem State.puEvent_same {kl : List Kind} (hk : within [.ch] kl = true) {s0 s : State} (hs : Same kl s0 s) (n : Nat) (t : Int) (e : OutEvent) (idx : Nat) :
    Same kl s0 (State.puEvent s n t e idx) := by
  unfold State.puEvent
  repeat' first
    | with_reducible assumption
    | intro _
    | exact within_trans (by decide) hk
    | with_reducible apply State.addEvent_same
    | with_reducible apply Same.ite
    | split
    | dsimp only

theorem State.unitCut_same {kl : List Kind} (hk : within [.ch] kl = true) {s0 s : State} (hs : Same kl s0 s) (n : Nat) :
    Same kl s0 (State.unitCut s n) := by
  unfold State.unitCut
  repeat' first
    | with_reducible assumption
    | intro _
    | exact within_trans (by decide) hk
    | with_reducible apply State.modOut_same
    | with_reducible apply State.modPu_same
    | with_reducible apply State.puEvent_same
    | with_reducible apply Same.ite
    | split
    | dsimp only

theorem State.presentLevel_same {kl : List Kind} (hk : within [.ch] kl = true) {s0 s : State} (hs : Same kl s0 s) (n : Nat) (edge : Bool) :
    Same kl s0 (State.presentLevel s n edge) := by
  unfold State.presentLevel
  repeat' first
    | with_reducible assumption
    | intro _
    | exact within_trans (by decide) hk
    | with_reducible apply State.modOut_same
    | with_reducible apply State.seqEdge_same
    | with_reducible apply State.xEdge_same
    | with_reducible apply Same.ite
    | split
    | dsimp only

theorem State.setOutput_same {kl : List Kind} (hk : within [.ch] kl = true) {s0 s : State} (hs : Same kl s0 s) (n : Nat) (p : List W32) :
    Same kl s0 (State.setOutput s n p) := by
  unfold State.setOutput
  repeat' first
    | with_reducible assumption
    | intro _
    | exact within_trans (by decide) hk
    | with_reducible apply State.modOut_same
    | with_reducible apply State.unitCut_same
    | with_reducible apply State.presentLevel_same
    | with_reducible apply Same.ite
    | split
    | dsimp only

theorem applySetOutput_same {kl : List Kind} (hk : within [.ch, .cl, .env, .st, .qp, .ic, .pwr] kl = true) {s0 s : State} (hs : Same kl s0 s) (p : List W32) :
    Same kl s0 (applySetOutput s p) := by
  unfold applySetOutput
  repeat' first
    | with_reducible assumption
    | intro _
    | exact within_trans (by decide) hk
    | with_reducible apply State.settle_same
    | with_reducible apply State.setOutput_same
    | with_reducible apply Same.ite
    | with_reducible apply Same.each
    | split
    | dsimp only

theorem cmdChSetOutput_same {kl : List Kind} (hk : within [.ch, .cl, .env, .st, .qp, .ic, .pwr, .deferred] kl = true) {s0 s : State} (hs : Same kl s0 s) (p : List W32) :
    Same kl s0 (cmdChSetOutput s p).state := by
  unfold cmdChSetOutput
  repeat' first
    | with_reducible assumption
    | intro _
    | exact within_trans (by decide) hk
    | with_reducible apply fail_same
    | with_reducible apply okay_same
    | with_reducible apply done_same
    | with_reducible apply wait_same
    | with_reducible apply Same.iteRes
    | with_reducible apply State.defer_same
    | with_reducible apply applySetOutput_same
    | with_reducible apply Same.ite
    | split
    | dsimp only

theorem applyEnable_same {kl : List Kind} (hk : within [.ch, .env] kl = true) {s0 s : State} (hs : Same kl s0 s) (p : List W32) :
    Same kl s0 (applyEnable s p) := by
  unfold applyEnable
  repeat' first
    | with_reducible assumption
    | intro _
    | exact within_trans (by decide) hk
    | with_reducible apply State.modOut_same
    | with_reducible apply State.tdrStop_same
    | with_reducible apply State.enableInput_same
    | with_reducible apply Same.ite
    | with_reducible apply Same.each
    | split
    | dsimp only

theorem applyDisable_same {kl : List Kind} (hk : within [.ch] kl = true) {s0 s : State} (hs : Same kl s0 s) (p : List W32) :
    Same kl s0 (applyDisable s p) := by
  unfold applyDisable
  repeat' first
    | with_reducible assumption
    | intro _
    | exact within_trans (by decide) hk
    | with_reducible apply State.modOut_same
    | with_reducible apply State.disableInput_same
    | with_reducible apply Same.ite
    | with_reducible apply Same.each
    | split
    | dsimp only

theorem cmdChEnable_same {kl : List Kind} (hk : within [.deferred] kl = true) {s0 s : State} (hs : Same kl s0 s) (p : List W32) :
    Same kl s0 (cmdChEnable s p).state := by
  unfold cmdChEnable
  repeat' first
    | with_reducible assumption
    | intro _
    | exact within_trans (by decide) hk
    | with_reducible apply fail_same
    | with_reducible apply okay_same
    | with_reducible apply done_same
    | with_reducible apply wait_same
    | with_reducible apply Same.iteRes
    | with_reducible apply State.defer_same
    | with_reducible apply Same.ite
    | split
    | dsimp only

theorem cmdChDisable_same {kl : List Kind} (hk : within [.deferred] kl = true) {s0 s : State} (hs : Same kl s0 s) (p : List W32) :
    Same kl s0 (cmdChDisable s p).state := by
  unfold cmdChDisable
  repeat' first
    | with_reducible assumption
    | intro _
    | exact within_trans (by decide) hk
    | with_reducible apply fail_same
    | with_reducible apply okay_same
    | with_reducible apply done_same
    | with_reducible apply wait_same
    | with_reducible apply Same.iteRes
    | with_reducible apply State.defer_same
    | with_reducible apply Same.ite
    | split
    | dsimp only

end Sys2Proof.Machine
end

