-- ==== Sys2Proof/Laws/SamePattern.lean ====
section
/-! SUPPORT. Frames of the operations of Machine/Pattern.lean. -/
namespace Sys2Proof.Machine

theorem State.handoverRej_same {kl : List Kind} (hk : within [.ch, .ic, .err, .perf, .pwr] kl = true) {s0 s : State} (hs : Same kl s0 s) (n : Nat) :
    Same kl s0 (State.handoverRej s n) := by
  unfold State.handoverRej
  repeat' first
    | with_reducible assumption
    | intro _
    | exact within_trans (by decide) hk
    | with_reducible apply State.modPu_same
    | with_reducible apply State.report_same
    | with_reducible apply Same.ite
    | split
    | dsimp only

theorem State.handover_same {kl : List Kind} (hk : within [.ch, .ic, .err, .perf, .pwr] kl = true) {s0 s : State} (hs : Same kl s0 s) (n cyc : Nat) :
    Same kl s0 (State.handover s n cyc) := by
  unfold State.handover
  repeat' first
    | with_reducible assumption
    | intro _
    | exact within_trans (by decide) hk
    | with_reducible apply State.modPu_same
    | with_reducible apply State.handoverRej_same
    | with_reducible apply Same.ite
    | split
    | dsimp only

theorem State.snapShadows_same {kl : List Kind} (hk : within [.ch, .ic, .err, .perf, .pwr] kl = true) {s0 s : State} (hs : Same kl s0 s) (n : Nat) :
    Same kl s0 (State.snapShadows s n) := by
  unfold State.snapShadows
  repeat' first
    | with_reducible assumption
    | intro _
    | exact within_trans (by decide) hk
    | with_reducible apply State.handover_same
    | with_reducible apply Same.ite
    | split
    | dsimp only

theorem execPuHandover_same {kl : List Kind} (hk : within [.tb, .ch, .ic, .err, .perf, .pwr] kl = true) {s0 s : State} (hs : Same kl s0 s) (n : Fin 128) :
    OSame kl s0 (execPuHandover n s) := by
  unfold execPuHandover
  repeat' first
    | with_reducible assumption
    | intro _
    | exact within_trans (by decide) hk
    | with_reducible apply OSame.next
    | with_reducible apply OSame.fault
    | with_reducible apply OSame.ite
    | with_reducible apply State.runTo_same
    | with_reducible apply State.handover_same
    | with_reducible apply Same.ite
    | split
    | dsimp only

theorem State.noteLate_same {kl : List Kind} (hk : within [.ch, .ic, .perf, .pwr] kl = true) {s0 s : State} (hs : Same kl s0 s) (n : Nat) :
    Same kl s0 (State.noteLate s n) := by
  unfold State.noteLate
  repeat' first
    | with_reducible assumption
    | intro _
    | exact within_trans (by decide) hk
    | with_reducible apply State.modPu_same
    | with_reducible apply State.pcAdd_same
    | with_reducible apply Same.ite
    | split
    | dsimp only

theorem State.puWrite_same {kl : List Kind} (hk : within [.ch, .ic, .err, .perf, .pwr] kl = true) {s0 s : State} (hs : Same kl s0 s) (n : Nat) (r : PuReg) (v : W32) :
    Same kl s0 (State.puWrite s n r v) := by
  unfold State.puWrite
  repeat' first
    | with_reducible assumption
    | intro _
    | exact within_trans (by decide) hk
    | with_reducible apply State.modPu_same
    | with_reducible apply State.report_same
    | with_reducible apply State.snapShadows_same
    | with_reducible apply State.noteLate_same
    | with_reducible apply Same.ite
    | split
    | dsimp only

theorem execPuCmpWrite_same {kl : List Kind} (hk : within [.tb, .ch, .ic, .err, .perf, .pwr] kl = true) {s0 s : State} (hs : Same kl s0 s) (n : Fin 128) (v : W32) :
    OSame kl s0 (execPuCmpWrite n v s) := by
  unfold execPuCmpWrite
  repeat' first
    | with_reducible assumption
    | intro _
    | exact within_trans (by decide) hk
    | with_reducible apply OSame.next
    | with_reducible apply OSame.fault
    | with_reducible apply OSame.ite
    | with_reducible apply State.fwEdge_same
    | with_reducible apply State.puWrite_same
    | with_reducible apply Same.ite
    | split
    | dsimp only

theorem execPuPerWrite_same {kl : List Kind} (hk : within [.tb, .ch, .ic, .err, .perf, .pwr] kl = true) {s0 s : State} (hs : Same kl s0 s) (n : Fin 128) (v : W32) :
    OSame kl s0 (execPuPerWrite n v s) := by
  unfold execPuPerWrite
  repeat' first
    | with_reducible assumption
    | intro _
    | exact within_trans (by decide) hk
    | with_reducible apply OSame.next
    | with_reducible apply OSame.fault
    | with_reducible apply OSame.ite
    | with_reducible apply State.fwEdge_same
    | with_reducible apply State.puWrite_same
    | with_reducible apply Same.ite
    | split
    | dsimp only

theorem execPuShadowWrite_same {kl : List Kind} (hk : within [.tb, .ch, .ic, .err, .perf, .pwr] kl = true) {s0 s : State} (hs : Same kl s0 s) (n : Fin 128) (r : PuReg) (v : W32) :
    OSame kl s0 (execPuShadowWrite n r v s) := by
  unfold execPuShadowWrite
  repeat' first
    | with_reducible assumption
    | intro _
    | exact within_trans (by decide) hk
    | with_reducible apply OSame.next
    | with_reducible apply OSame.fault
    | with_reducible apply OSame.ite
    | with_reducible apply State.fwEdge_same
    | with_reducible apply State.puWrite_same
    | with_reducible apply Same.ite
    | split
    | dsimp only

theorem State.lockClear_same {kl : List Kind} (hk : within [.ch, .cl, .tim, .ic, .err, .perf, .pwr] kl = true) {s0 s : State} (hs : Same kl s0 s) (n : Nat) :
    Same kl s0 (State.lockClear s n) := by
  unfold State.lockClear
  repeat' first
    | with_reducible assumption
    | intro _
    | exact within_trans (by decide) hk
    | with_reducible apply State.modPu_same
    | with_reducible apply State.count_same
    | with_reducible apply State.handoverRej_same
    | with_reducible apply State.snapShadows_same
    | with_reducible apply State.noteLate_same
    | with_reducible apply Same.ite
    | split
    | dsimp only

theorem execPuLockClear_same {kl : List Kind} (hk : within [.tb, .ch, .cl, .tim, .ic, .err, .perf, .pwr] kl = true) {s0 s : State} (hs : Same kl s0 s) (n : Fin 128) :
    OSame kl s0 (execPuLockClear n s) := by
  unfold execPuLockClear
  repeat' first
    | with_reducible assumption
    | intro _
    | exact within_trans (by decide) hk
    | with_reducible apply OSame.next
    | with_reducible apply OSame.fault
    | with_reducible apply OSame.ite
    | with_reducible apply State.fwEdge_same
    | with_reducible apply State.lockClear_same
    | with_reducible apply Same.ite
    | split
    | dsimp only

theorem State.puCtrl_same {kl : List Kind} (hk : within [.ch, .cl, .tim, .ic, .err, .perf, .pwr] kl = true) {s0 s : State} (hs : Same kl s0 s) (n : Nat) (w : W32) :
    Same kl s0 (State.puCtrl s n w) := by
  unfold State.puCtrl
  repeat' first
    | with_reducible assumption
    | intro _
    | exact within_trans (by decide) hk
    | with_reducible apply State.modPu_same
    | with_reducible apply State.snapShadows_same
    | with_reducible apply State.lockClear_same
    | with_reducible apply Same.ite
    | split
    | dsimp only

theorem State.puEdge_same {kl : List Kind} (hk : within [.ch] kl = true) {s0 s : State} (hs : Same kl s0 s) (n : Nat) (t : Int) (on : Bool) :
    Same kl s0 (State.puEdge s n t on) := by
  unfold State.puEdge
  repeat' first
    | with_reducible assumption
    | intro _
    | exact within_trans (by decide) hk
    | with_reducible apply State.modOut_same
    | with_reducible apply State.modPu_same
    | with_reducible apply Same.ite
    | split
    | dsimp only

theorem State.puResume_same {kl : List Kind} (hk : within [.ch] kl = true) {s0 s : State} (hs : Same kl s0 s) (n : Nat) (t : Int) :
    Same kl s0 (State.puResume s n t) := by
  unfold State.puResume
  repeat' first
    | with_reducible assumption
    | intro _
    | exact within_trans (by decide) hk
    | with_reducible apply State.modPr_same
    | with_reducible apply Same.ite
    | split
    | dsimp only

theorem State.puBegin_same {kl : List Kind} (hk : within [.ch] kl = true) {s0 s : State} (hs : Same kl s0 s) (n : Nat) (t : Int) (idx pos grp : Nat) :
    Same kl s0 (State.puBegin s n t idx pos grp) := by
  unfold State.puBegin
  repeat' first
    | with_reducible assumption
    | intro _
    | exact within_trans (by decide) hk
    | with_reducible apply State.modPu_same
    | with_reducible apply State.puEvent_same
    | with_reducible apply State.puEdge_same
    | with_reducible apply State.puResume_same
    | with_reducible apply Same.ite
    | split
    | dsimp only

theorem State.puStop_same {kl : List Kind} (hk : within [.ch] kl = true) {s0 s : State} (hs : Same kl s0 s) (n : Nat) (t : Int) :
    Same kl s0 (State.puStop s n t) := by
  unfold State.puStop
  repeat' first
    | with_reducible assumption
    | intro _
    | exact within_trans (by decide) hk
    | with_reducible apply State.modPu_same
    | with_reducible apply State.puEdge_same
    | with_reducible apply Same.ite
    | split
    | dsimp only

theorem State.puEnd_same {kl : List Kind} (hk : within [.ch] kl = true) {s0 s : State} (hs : Same kl s0 s) (n : Nat) (t : Int) :
    Same kl s0 (State.puEnd s n t) := by
  unfold State.puEnd
  repeat' first
    | with_reducible assumption
    | intro _
    | exact within_trans (by decide) hk
    | with_reducible apply State.puEvent_same
    | with_reducible apply State.puBegin_same
    | with_reducible apply State.puStop_same
    | with_reducible apply Same.ite
    | split
    | dsimp only

theorem State.puMatch_same {kl : List Kind} (hk : within [.ch] kl = true) {s0 s : State} (hs : Same kl s0 s) (n : Nat) (t : Int) :
    Same kl s0 (State.puMatch s n t) := by
  unfold State.puMatch
  repeat' first
    | with_reducible assumption
    | intro _
    | exact within_trans (by decide) hk
    | with_reducible apply State.modPu_same
    | with_reducible apply State.puEvent_same
    | with_reducible apply State.puEdge_same
    | with_reducible apply Same.ite
    | split
    | dsimp only

theorem execPuGenerate_same {kl : List Kind} (hk : within [.tb, .ch, .ic, .err, .perf, .pwr] kl = true) {s0 s : State} (hs : Same kl s0 s) (n : Fin 128) :
    OSame kl s0 (execPuGenerate n s) := by
  unfold execPuGenerate
  repeat' first
    | with_reducible assumption
    | intro _
    | exact within_trans (by decide) hk
    | with_reducible apply OSame.next
    | with_reducible apply OSame.fault
    | with_reducible apply OSame.ite
    | with_reducible apply Same.iteFst
    | with_reducible apply State.runTo_same
    | with_reducible apply State.puEvent_same
    | with_reducible apply State.snapShadows_same
    | with_reducible apply State.puBegin_same
    | with_reducible apply State.puStop_same
    | with_reducible apply State.puEnd_same
    | with_reducible apply State.puMatch_same
    | with_reducible apply Same.ite
    | split
    | dsimp only

theorem State.patternOn_same {kl : List Kind} (hk : within [.ch, .cl, .tim, .ic, .err, .perf, .pwr] kl = true) {s0 s : State} (hs : Same kl s0 s) (n : Nat) (p : List W32) (t0 : Nat) :
    Same kl s0 (State.patternOn s n p t0) := by
  unfold State.patternOn
  repeat' first
    | with_reducible assumption
    | intro _
    | exact within_trans (by decide) hk
    | with_reducible apply State.modPu_same
    | with_reducible apply State.presentLevel_same
    | with_reducible apply State.snapShadows_same
    | with_reducible apply State.lockClear_same
    | with_reducible apply State.puStop_same
    | with_reducible apply Same.ite
    | split
    | dsimp only

theorem applyPattern_same {kl : List Kind} (hk : within [.ch, .cl, .tim, .env, .st, .qp, .ic, .err, .perf, .pwr] kl = true) {s0 s : State} (hs : Same kl s0 s) (p : List W32) (t0 : Nat) :
    Same kl s0 (applyPattern s p t0) := by
  unfold applyPattern
  repeat' first
    | with_reducible assumption
    | intro _
    | exact within_trans (by decide) hk
    | with_reducible apply State.settle_same
    | with_reducible apply State.patternOn_same
    | with_reducible apply Same.ite
    | with_reducible apply Same.each
    | split
    | dsimp only

theorem cmdSynPattern_same {kl : List Kind} (hk : within [.ch, .cl, .tim, .env, .st, .qp, .ic, .err, .perf, .pwr] kl = true) {s0 s : State} (hs : Same kl s0 s) (p : List W32) :
    Same kl s0 (cmdSynPattern s p).state := by
  unfold cmdSynPattern
  repeat' first
    | with_reducible assumption
    | intro _
    | exact within_trans (by decide) hk
    | with_reducible apply fail_same
    | with_reducible apply okay_same
    | with_reducible apply done_same
    | with_reducible apply wait_same
    | with_reducible apply Same.iteRes
    | with_reducible apply applyPattern_same
    | with_reducible apply Same.ite
    | split
    | dsimp only

end Sys2Proof.Machine
end

