-- ==== Sys2Proof/Laws/SameBrake.lean ====
section
/-! SUPPORT. Frames of the operations of Machine/Brake.lean. -/
namespace Sys2Proof.Machine

theorem State.hold_same {kl : List Kind} (hk : within [.ch, .env] kl = true) {s0 s : State} (hs : Same kl s0 s) (n : Nat) :
    Same kl s0 (State.hold s n) := by
  unfold State.hold
  repeat' first
    | with_reducible assumption
    | intro _
    | exact within_trans (by decide) hk
    | with_reducible apply State.modPr_same
    | with_reducible apply State.tdrStop_same
    | with_reducible apply Same.ite
    | split
    | dsimp only

theorem State.trip_same {kl : List Kind} (hk : within [.ch, .cl, .tim, .brk, .env, .qp, .ic, .err, .perf, .pwr] kl = true) {s0 s : State} (hs : Same kl s0 s) (b : Nat) :
    Same kl s0 (State.trip s b) := by
  unfold State.trip
  repeat' first
    | with_reducible assumption
    | intro _
    | exact within_trans (by decide) hk
    | with_reducible apply State.modBrk_same
    | with_reducible apply State.raise_same
    | with_reducible apply State.pcAdd_same
    | with_reducible apply State.report_same
    | with_reducible apply State.event_same
    | with_reducible apply State.notice_same
    | with_reducible apply State.hold_same
    | with_reducible apply Same.ite
    | with_reducible apply Same.each
    | split
    | dsimp only

theorem State.debounce_same {kl : List Kind} (hk : within [.ch, .cl, .tim, .brk, .env, .qp, .ic, .err, .perf, .pwr] kl = true) {s0 s : State} (hs : Same kl s0 s) (b : Nat) :
    Same kl s0 (State.debounce s b) := by
  unfold State.debounce
  repeat' first
    | with_reducible assumption
    | intro _
    | exact within_trans (by decide) hk
    | with_reducible apply State.modBrk_same
    | with_reducible apply State.trip_same
    | with_reducible apply Same.ite
    | split
    | dsimp only

theorem State.brakeChange_same {kl : List Kind} (hk : within [.ch, .cl, .tim, .brk, .env, .qp, .ic, .err, .perf, .pwr] kl = true) {s0 s : State} (hs : Same kl s0 s) (b : Nat) :
    Same kl s0 (State.brakeChange s b) := by
  unfold State.brakeChange
  repeat' first
    | with_reducible assumption
    | intro _
    | exact within_trans (by decide) hk
    | with_reducible apply State.modBrk_same
    | with_reducible apply State.debounce_same
    | with_reducible apply Same.ite
    | split
    | dsimp only

theorem execBrakeInputChange_same {kl : List Kind} (hk : within [.tb, .ch, .cl, .tim, .brk, .env, .qp, .ic, .err, .perf, .pwr] kl = true) {s0 s : State} (hs : Same kl s0 s) (b : Fin 8) (dt : Nat) :
    OSame kl s0 (execBrakeInputChange b dt s) := by
  unfold execBrakeInputChange
  repeat' first
    | with_reducible assumption
    | intro _
    | exact within_trans (by decide) hk
    | with_reducible apply OSame.next
    | with_reducible apply OSame.fault
    | with_reducible apply OSame.ite
    | with_reducible apply State.advance_same
    | with_reducible apply State.brakeChange_same
    | with_reducible apply Same.ite
    | split
    | dsimp only

theorem execBrakeTrip_same {kl : List Kind} (hk : within [.tb, .ch, .cl, .tim, .brk, .env, .qp, .ic, .err, .perf, .pwr] kl = true) {s0 s : State} (hs : Same kl s0 s) (b : Fin 8) :
    OSame kl s0 (execBrakeTrip b s) := by
  unfold execBrakeTrip
  repeat' first
    | with_reducible assumption
    | intro _
    | exact within_trans (by decide) hk
    | with_reducible apply OSame.next
    | with_reducible apply OSame.fault
    | with_reducible apply OSame.ite
    | with_reducible apply State.modBrk_same
    | with_reducible apply State.runTo_same
    | with_reducible apply State.trip_same
    | with_reducible apply Same.ite
    | split
    | dsimp only

theorem execDebouncedInactive_same {kl : List Kind} (hk : within [.tb, .brk, .ic, .perf, .pwr] kl = true) {s0 s : State} (hs : Same kl s0 s) (b : Fin 8) :
    OSame kl s0 (execDebouncedInactive b s) := by
  unfold execDebouncedInactive
  repeat' first
    | with_reducible assumption
    | intro _
    | exact within_trans (by decide) hk
    | with_reducible apply OSame.next
    | with_reducible apply OSame.fault
    | with_reducible apply OSame.ite
    | with_reducible apply State.modBrk_same
    | with_reducible apply State.runTo_same
    | with_reducible apply Same.ite
    | split
    | dsimp only

theorem execQuietTimeMet_same {kl : List Kind} (hk : within [.tb, .brk, .ic, .perf, .pwr] kl = true) {s0 s : State} (hs : Same kl s0 s) (b : Fin 8) :
    OSame kl s0 (execQuietTimeMet b s) := by
  unfold execQuietTimeMet
  repeat' first
    | with_reducible assumption
    | intro _
    | exact within_trans (by decide) hk
    | with_reducible apply OSame.next
    | with_reducible apply OSame.fault
    | with_reducible apply OSame.ite
    | with_reducible apply State.modBrk_same
    | with_reducible apply State.runTo_same
    | with_reducible apply Same.ite
    | split
    | dsimp only

theorem execBrakeResume_same {kl : List Kind} (hk : within [.tb, .ch, .ic, .perf, .pwr] kl = true) {s0 s : State} (hs : Same kl s0 s) (n : Fin 128) :
    OSame kl s0 (execBrakeResume n s) := by
  unfold execBrakeResume
  repeat' first
    | with_reducible assumption
    | intro _
    | exact within_trans (by decide) hk
    | with_reducible apply OSame.next
    | with_reducible apply OSame.fault
    | with_reducible apply OSame.ite
    | with_reducible apply State.modPr_same
    | with_reducible apply State.runTo_same
    | with_reducible apply Same.ite
    | split
    | dsimp only

theorem State.holdAgain_same {kl : List Kind} (hk : within [.ch, .env] kl = true) {s0 s : State} (hs : Same kl s0 s) (n : Nat) :
    Same kl s0 (State.holdAgain s n) := by
  unfold State.holdAgain
  repeat' first
    | with_reducible assumption
    | intro _
    | exact within_trans (by decide) hk
    | with_reducible apply State.hold_same
    | with_reducible apply Same.ite
    | split
    | dsimp only

theorem applyBrakeGuard_same {kl : List Kind} (hk : within [.ch, .env] kl = true) {s0 s : State} (hs : Same kl s0 s) (p : List W32) :
    Same kl s0 (applyBrakeGuard s p) := by
  unfold applyBrakeGuard
  repeat' first
    | with_reducible assumption
    | intro _
    | exact within_trans (by decide) hk
    | with_reducible apply State.modPr_same
    | with_reducible apply State.holdAgain_same
    | with_reducible apply Same.ite
    | with_reducible apply Same.each
    | split
    | dsimp only

theorem cmdSynBrakeCfg_same {kl : List Kind} (hk : within [.tb, .brk, .ic, .perf, .pwr, .deferred] kl = true) {s0 s : State} (hs : Same kl s0 s) (p : List W32) :
    Same kl s0 (cmdSynBrakeCfg s p).state := by
  unfold cmdSynBrakeCfg
  repeat' first
    | with_reducible assumption
    | intro _
    | exact within_trans (by decide) hk
    | with_reducible apply fail_same
    | with_reducible apply okay_same
    | with_reducible apply done_same
    | with_reducible apply wait_same
    | with_reducible apply Same.iteRes
    | with_reducible apply State.modBrk_same
    | with_reducible apply State.runTo_same
    | with_reducible apply State.defer_same
    | with_reducible apply Same.ite
    | with_reducible apply Same.each
    | split
    | dsimp only

theorem cmdSynBrakeClear_same {kl : List Kind} (hk : within [.tb, .ch, .brk, .ic, .perf, .pwr] kl = true) {s0 s : State} (hs : Same kl s0 s) (p : List W32) :
    Same kl s0 (cmdSynBrakeClear s p).state := by
  unfold cmdSynBrakeClear
  repeat' first
    | with_reducible assumption
    | intro _
    | exact within_trans (by decide) hk
    | with_reducible apply fail_same
    | with_reducible apply okay_same
    | with_reducible apply done_same
    | with_reducible apply wait_same
    | with_reducible apply Same.iteRes
    | with_reducible apply State.modPr_same
    | with_reducible apply State.modBrk_same
    | with_reducible apply State.runTo_same
    | with_reducible apply Same.ite
    | with_reducible apply Same.each
    | split
    | dsimp only

theorem State.pairLevels_same {kl : List Kind} (hk : within [.ch] kl = true) {s0 s : State} (hs : Same kl s0 s) (a : Nat) :
    Same kl s0 (State.pairLevels s a) := by
  unfold State.pairLevels
  repeat' first
    | with_reducible assumption
    | intro _
    | exact within_trans (by decide) hk
    | with_reducible apply State.modOut_same
    | with_reducible apply State.modPr_same
    | with_reducible apply State.pairOn_same
    | with_reducible apply Same.ite
    | with_reducible apply Same.each
    | split
    | dsimp only

theorem State.convertEdges_same {kl : List Kind} (hk : within [.ch] kl = true) {s0 s : State} (hs : Same kl s0 s) (n : Nat) :
    Same kl s0 (State.convertEdges s n) := by
  unfold State.convertEdges
  repeat' first
    | with_reducible assumption
    | intro _
    | exact within_trans (by decide) hk
    | with_reducible apply State.modOut_same
    | with_reducible apply Same.ite
    | split
    | dsimp only

theorem State.retime_same {kl : List Kind} (hk : within [.ch] kl = true) {s0 s : State} (hs : Same kl s0 s) (a : Nat) :
    Same kl s0 (State.retime s a) := by
  unfold State.retime
  repeat' first
    | with_reducible assumption
    | intro _
    | exact within_trans (by decide) hk
    | with_reducible apply State.modOut_same
    | with_reducible apply Same.ite
    | split
    | dsimp only

theorem State.setPair_same {kl : List Kind} (hk : within [.ch, .env] kl = true) {s0 s : State} (hs : Same kl s0 s) (a : Nat) (p : List W32) :
    Same kl s0 (State.setPair s a p) := by
  unfold State.setPair
  repeat' first
    | with_reducible assumption
    | intro _
    | exact within_trans (by decide) hk
    | with_reducible apply State.modOut_same
    | with_reducible apply State.modPu_same
    | with_reducible apply State.modPr_same
    | with_reducible apply State.holdAgain_same
    | with_reducible apply State.pairLevels_same
    | with_reducible apply State.convertEdges_same
    | with_reducible apply State.retime_same
    | with_reducible apply Same.ite
    | with_reducible apply Same.each
    | split
    | dsimp only

theorem applySynPair_same {kl : List Kind} (hk : within [.ch, .env] kl = true) {s0 s : State} (hs : Same kl s0 s) (p : List W32) :
    Same kl s0 (applySynPair s p) := by
  unfold applySynPair
  repeat' first
    | with_reducible assumption
    | intro _
    | exact within_trans (by decide) hk
    | with_reducible apply State.setPair_same
    | with_reducible apply Same.ite
    | with_reducible apply Same.each
    | split
    | dsimp only

theorem cmdSynPair_same {kl : List Kind} (hk : within [.ch, .env, .deferred] kl = true) {s0 s : State} (hs : Same kl s0 s) (p : List W32) :
    Same kl s0 (cmdSynPair s p).state := by
  unfold cmdSynPair
  repeat' first
    | with_reducible assumption
    | intro _
    | exact within_trans (by decide) hk
    | with_reducible apply fail_same
    | with_reducible apply okay_same
    | with_reducible apply done_same
    | with_reducible apply wait_same
    | with_reducible apply Same.iteRes
    | with_reducible apply State.defer_same
    | with_reducible apply State.setPair_same
    | with_reducible apply Same.ite
    | with_reducible apply Same.each
    | split
    | dsimp only

end Sys2Proof.Machine
end

