-- ==== Sys2Proof/Laws/SameMbox.lean ====
section
/-! SUPPORT. Frames of the operations of Machine/Mbox.lean. -/
namespace Sys2Proof.Machine

theorem State.mbReject_same {kl : List Kind} (hk : within [.ic, .err, .perf, .pwr] kl = true) {s0 s : State} (hs : Same kl s0 s) (m : Nat) :
    Same kl s0 (State.mbReject s m) := by
  unfold State.mbReject
  repeat' first
    | with_reducible assumption
    | intro _
    | exact within_trans (by decide) hk
    | with_reducible apply State.report_same
    | with_reducible apply Same.ite
    | split
    | dsimp only

theorem State.mbWrite_same {kl : List Kind} (hk : within [.mb, .ic, .err, .perf, .pwr] kl = true) {s0 s : State} (hs : Same kl s0 s) (m k : Nat) (v : W32) :
    Same kl s0 (State.mbWrite s m k v) := by
  unfold State.mbWrite
  repeat' first
    | with_reducible assumption
    | intro _
    | exact within_trans (by decide) hk
    | with_reducible apply State.modMb_same
    | with_reducible apply State.mbReject_same
    | with_reducible apply Same.ite
    | split
    | dsimp only

theorem State.mbTimeoutWrite_same {kl : List Kind} (hk : within [.mb, .ic, .err, .perf, .pwr] kl = true) {s0 s : State} (hs : Same kl s0 s) (m : Nat) (v : W32) :
    Same kl s0 (State.mbTimeoutWrite s m v) := by
  unfold State.mbTimeoutWrite
  repeat' first
    | with_reducible assumption
    | intro _
    | exact within_trans (by decide) hk
    | with_reducible apply State.modMb_same
    | with_reducible apply State.mbReject_same
    | with_reducible apply Same.ite
    | split
    | dsimp only

theorem State.goReject_same {kl : List Kind} (hk : within [.mb, .ic, .err, .perf, .pwr] kl = true) {s0 s : State} (hs : Same kl s0 s) (m : Nat) :
    Same kl s0 (State.goReject s m) := by
  unfold State.goReject
  repeat' first
    | with_reducible assumption
    | intro _
    | exact within_trans (by decide) hk
    | with_reducible apply State.modMb_same
    | with_reducible apply State.mbReject_same
    | with_reducible apply Same.ite
    | split
    | dsimp only

theorem State.mbGo_same {kl : List Kind} (hk : within [.mb, .goNext, .ic, .err, .perf, .pwr] kl = true) {s0 s : State} (hs : Same kl s0 s) (m : Nat) :
    Same kl s0 (State.mbGo s m) := by
  unfold State.mbGo
  repeat' first
    | with_reducible assumption
    | intro _
    | exact within_trans (by decide) hk
    | with_reducible apply State.modMb_same
    | with_reducible apply State.wakeBy_same
    | with_reducible apply State.lines_same
    | with_reducible apply State.goReject_same
    | with_reducible apply Same.ite
    | with_reducible refine Same.step (within_trans (by decide) hk) (Same.set_goNext _ _) ?_
    | split
    | dsimp only

theorem State.mbDone_same {kl : List Kind} (hk : within [.mb, .ic, .perf, .pwr] kl = true) {s0 s : State} (hs : Same kl s0 s) (m code : Nat) (reply : List W32) :
    Same kl s0 (State.mbDone s m code reply) := by
  unfold State.mbDone
  repeat' first
    | with_reducible assumption
    | intro _
    | exact within_trans (by decide) hk
    | with_reducible apply State.modMb_same
    | with_reducible apply State.pcAdd_same
    | with_reducible apply State.lines_same
    | with_reducible apply Same.ite
    | split
    | dsimp only

theorem State.mbUntaken_same {kl : List Kind} (hk : within [.mb, .ic] kl = true) {s0 s : State} (hs : Same kl s0 s) (m code : Nat) :
    Same kl s0 (State.mbUntaken s m code) := by
  unfold State.mbUntaken
  repeat' first
    | with_reducible assumption
    | intro _
    | exact within_trans (by decide) hk
    | with_reducible apply State.modMb_same
    | with_reducible apply State.lines_same
    | with_reducible apply Same.ite
    | split
    | dsimp only

theorem State.mbCancel_same {kl : List Kind} (hk : within [.mb, .ic, .err, .perf, .pwr] kl = true) {s0 s : State} (hs : Same kl s0 s) (m : Nat) :
    Same kl s0 (State.mbCancel s m) := by
  unfold State.mbCancel
  repeat' first
    | with_reducible assumption
    | intro _
    | exact within_trans (by decide) hk
    | with_reducible apply State.modMb_same
    | with_reducible apply State.report_same
    | with_reducible apply State.mbUntaken_same
    | with_reducible apply Same.ite
    | split
    | dsimp only

theorem State.mbCtrl_same {kl : List Kind} (hk : within [.mb, .goNext, .ic, .err, .perf, .pwr] kl = true) {s0 s : State} (hs : Same kl s0 s) (m : Nat) (v : W32) :
    Same kl s0 (State.mbCtrl s m v) := by
  unfold State.mbCtrl
  repeat' first
    | with_reducible assumption
    | intro _
    | exact within_trans (by decide) hk
    | with_reducible apply State.goReject_same
    | with_reducible apply State.mbGo_same
    | with_reducible apply State.mbCancel_same
    | with_reducible apply Same.ite
    | split
    | dsimp only

theorem State.mbTake_same {kl : List Kind} (hk : within [.mb, .ic] kl = true) {s0 s : State} (hs : Same kl s0 s) (m : Nat) :
    Same kl s0 (State.mbTake s m) := by
  unfold State.mbTake
  repeat' first
    | with_reducible assumption
    | intro _
    | exact within_trans (by decide) hk
    | with_reducible apply State.modMb_same
    | with_reducible apply State.lines_same
    | with_reducible apply Same.ite
    | split
    | dsimp only

theorem execMbDataWrite_same {kl : List Kind} (hk : within [.mb, .ic, .err, .perf, .pwr] kl = true) {s0 s : State} (hs : Same kl s0 s) (mb : Fin 8) (k : Fin 16) (v : W32) :
    OSame kl s0 (execMbDataWrite mb k v s) := by
  unfold execMbDataWrite
  repeat' first
    | with_reducible assumption
    | intro _
    | exact within_trans (by decide) hk
    | with_reducible apply OSame.next
    | with_reducible apply OSame.fault
    | with_reducible apply OSame.ite
    | with_reducible apply State.mbWrite_same
    | with_reducible apply Same.ite
    | split
    | dsimp only

theorem execCancel_same {kl : List Kind} (hk : within [.mb, .ic, .err, .perf, .pwr] kl = true) {s0 s : State} (hs : Same kl s0 s) (mb : Fin 8) :
    OSame kl s0 (execCancel mb s) := by
  unfold execCancel
  repeat' first
    | with_reducible assumption
    | intro _
    | exact within_trans (by decide) hk
    | with_reducible apply OSame.next
    | with_reducible apply OSame.fault
    | with_reducible apply OSame.ite
    | with_reducible apply State.mbCancel_same
    | with_reducible apply Same.ite
    | split
    | dsimp only

theorem execMailboxTimeout_same {kl : List Kind} (hk : within [.tb, .mb, .ic, .perf, .pwr] kl = true) {s0 s : State} (hs : Same kl s0 s) (mb : Fin 8) :
    OSame kl s0 (execMailboxTimeout mb s) := by
  unfold execMailboxTimeout
  repeat' first
    | with_reducible assumption
    | intro _
    | exact within_trans (by decide) hk
    | with_reducible apply OSame.next
    | with_reducible apply OSame.fault
    | with_reducible apply OSame.ite
    | with_reducible apply State.modMb_same
    | with_reducible apply State.runTo_same
    | with_reducible apply Same.ite
    | split
    | dsimp only

theorem State.h2dPush_same {kl : List Kind} (hk : within [.qp, .ic] kl = true) {s0 s : State} (hs : Same kl s0 s) (q : Nat) (v : W32) :
    Same kl s0 (State.h2dPush s q v) := by
  unfold State.h2dPush
  repeat' first
    | with_reducible assumption
    | intro _
    | exact within_trans (by decide) hk
    | with_reducible apply State.modQp_same
    | with_reducible apply State.lines_same
    | with_reducible apply Same.ite
    | split
    | dsimp only

theorem State.d2hRead_same {kl : List Kind} (hk : within [.qp] kl = true) {s0 s : State} (hs : Same kl s0 s) (q : Nat) :
    Same kl s0 (State.d2hRead s q).1 := by
  unfold State.d2hRead
  repeat' first
    | with_reducible assumption
    | intro _
    | exact within_trans (by decide) hk
    | with_reducible apply Same.iteFst
    | with_reducible apply State.modQp_same
    | with_reducible apply Same.ite
    | split
    | dsimp only

theorem execQpH2dPush_same {kl : List Kind} (hk : within [.qp, .ic] kl = true) {s0 s : State} (hs : Same kl s0 s) (q : Fin 4) (v : W32) :
    OSame kl s0 (execQpH2dPush q v s) := by
  unfold execQpH2dPush
  repeat' first
    | with_reducible assumption
    | intro _
    | exact within_trans (by decide) hk
    | with_reducible apply OSame.next
    | with_reducible apply OSame.fault
    | with_reducible apply OSame.ite
    | with_reducible apply State.h2dPush_same
    | with_reducible apply Same.ite
    | split
    | dsimp only

theorem State.readReturns_same {kl : List Kind} (hk : within [.lastRead] kl = true) {s0 s : State} (hs : Same kl s0 s) (v : W32) :
    Same kl s0 (State.readReturns s v) := by
  unfold State.readReturns
  repeat' first
    | with_reducible assumption
    | intro _
    | exact within_trans (by decide) hk
    | with_reducible apply Same.ite
    | with_reducible refine Same.step (within_trans (by decide) hk) (Same.set_lastRead _ _) ?_
    | split
    | dsimp only

theorem execQpD2hRead_same {kl : List Kind} (hk : within [.qp, .lastRead] kl = true) {s0 s : State} (hs : Same kl s0 s) (q : Fin 4) :
    OSame kl s0 (execQpD2hRead q s) := by
  unfold execQpD2hRead
  repeat' first
    | with_reducible assumption
    | intro _
    | exact within_trans (by decide) hk
    | with_reducible apply OSame.next
    | with_reducible apply OSame.fault
    | with_reducible apply OSame.ite
    | with_reducible apply Same.iteFst
    | with_reducible apply State.d2hRead_same
    | with_reducible apply State.readReturns_same
    | with_reducible apply Same.ite
    | split
    | dsimp only

end Sys2Proof.Machine
end

