-- ==== Sys2Proof/Laws/SameBanks.lean ====
section
/-! SUPPORT. Frames of the operations of Machine/Banks.lean. -/
namespace Sys2Proof.Machine

theorem State.readWords_same {kl : List Kind} (hk : within [.bank, .ue, .ic, .err, .perf, .pwr] kl = true) {s0 s : State} (hs : Same kl s0 s) (req : Nat) (e : List (Nat × Ecc)) (l : List Nat) :
    Same kl s0 (State.readWords s req e l).1 := by
  unfold State.readWords
  repeat' first
    | with_reducible assumption
    | intro _
    | exact within_trans (by decide) hk
    | with_reducible apply Same.iteFst
    | with_reducible apply State.readWord_same
    | with_reducible apply Same.ite
    | with_reducible apply Same.foldl
    | with_reducible apply Same.foldlFst
    | split
    | dsimp only

theorem State.hostRead_same {kl : List Kind} (hk : within [.bank, .ue, .ic, .err, .perf, .pwr] kl = true) {s0 s : State} (hs : Same kl s0 s) (addr len : Nat) (e : List (Nat × Ecc)) :
    Same kl s0 (State.hostRead s addr len e).1 := by
  unfold State.hostRead
  repeat' first
    | with_reducible assumption
    | intro _
    | exact within_trans (by decide) hk
    | with_reducible apply Same.iteFst
    | with_reducible apply State.readWords_same
    | with_reducible apply Same.ite
    | split
    | dsimp only

theorem State.hostWriteWord_same {kl : List Kind} (hk : within [.bank, .mem, .ue, .ic, .err, .perf, .pwr] kl = true) {s0 s : State} (hs : Same kl s0 s) (addr : Nat) (data : List Byte) (e : List (Nat × Ecc)) (w : Nat) :
    Same kl s0 (State.hostWriteWord s addr data e w) := by
  unfold State.hostWriteWord
  repeat' first
    | with_reducible assumption
    | intro _
    | exact within_trans (by decide) hk
    | with_reducible apply Same.iteFst
    | with_reducible apply State.readWord_same
    | with_reducible apply State.writeWord_same
    | with_reducible apply Same.ite
    | split
    | dsimp only

theorem State.hostWrite_same {kl : List Kind} (hk : within [.bank, .mem, .ue, .ic, .err, .perf, .pwr] kl = true) {s0 s : State} (hs : Same kl s0 s) (addr : Nat) (data : List Byte) (e : List (Nat × Ecc)) :
    Same kl s0 (State.hostWrite s addr data e) := by
  unfold State.hostWrite
  repeat' first
    | with_reducible assumption
    | intro _
    | exact within_trans (by decide) hk
    | with_reducible apply State.hostWriteWord_same
    | with_reducible apply Same.ite
    | with_reducible apply Same.foldl
    | with_reducible apply Same.foldlFst
    | split
    | dsimp only

theorem State.hostServe_same {kl : List Kind} (hk : within [.bank, .mem, .ue, .ic, .err, .perf, .pwr] kl = true) {s0 s : State} (hs : Same kl s0 s) (a : HeldAccess) :
    Same kl s0 (State.hostServe s a).1 := by
  unfold State.hostServe
  repeat' first
    | with_reducible assumption
    | intro _
    | exact within_trans (by decide) hk
    | with_reducible apply Same.iteFst
    | with_reducible apply State.hostRead_same
    | with_reducible apply State.hostWrite_same
    | with_reducible apply Same.ite
    | split
    | dsimp only

theorem State.hostAccess_same {kl : List Kind} (hk : within [.bank, .mem, .ue, .ic, .err, .perf, .pwr] kl = true) {s0 s : State} (hs : Same kl s0 s) (a : HeldAccess) :
    Same kl s0 (State.hostAccess s a).1 := by
  unfold State.hostAccess
  repeat' first
    | with_reducible assumption
    | intro _
    | exact within_trans (by decide) hk
    | with_reducible apply Same.iteFst
    | with_reducible apply State.modBank_same
    | with_reducible apply State.deny_same
    | with_reducible apply State.hostServe_same
    | with_reducible apply Same.ite
    | split
    | dsimp only

theorem execHostBankAccess_same {kl : List Kind} (hk : within [.tb, .bank, .mem, .ue, .ic, .err, .perf, .pwr, .lastRead] kl = true) {s0 s : State} (hs : Same kl s0 s) (addr len : Nat) (data : Option (List Byte)) (e : List (Nat × Ecc)) :
    OSame kl s0 (execHostBankAccess addr len data e s) := by
  unfold execHostBankAccess
  repeat' first
    | with_reducible assumption
    | intro _
    | exact within_trans (by decide) hk
    | with_reducible apply OSame.next
    | with_reducible apply OSame.fault
    | with_reducible apply OSame.ite
    | with_reducible apply Same.iteFst
    | with_reducible apply State.runTo_same
    | with_reducible apply State.hostAccess_same
    | with_reducible apply Same.ite
    | with_reducible apply Same.foldl
    | with_reducible apply Same.foldlFst
    | split
    | with_reducible refine Same.step (within_trans (by decide) hk) (Same.set_lastRead _ _) ?_
    | dsimp only

theorem State.serveHeld_same {kl : List Kind} (hk : within [.bank, .mem, .ue, .ic, .err, .perf, .pwr, .lastRead] kl = true) {s0 s : State} (hs : Same kl s0 s) (b : Nat) :
    Same kl s0 (State.serveHeld s b) := by
  unfold State.serveHeld
  repeat' first
    | with_reducible assumption
    | intro _
    | exact within_trans (by decide) hk
    | with_reducible apply Same.iteFst
    | with_reducible apply State.modBank_same
    | with_reducible apply State.hostServe_same
    | with_reducible apply Same.ite
    | with_reducible apply Same.foldl
    | with_reducible apply Same.foldlFst
    | with_reducible refine Same.step (within_trans (by decide) hk) (Same.set_lastRead _ _) ?_
    | split
    | dsimp only

theorem State.bankWaits_same {kl : List Kind} (hk : within [.ch, .mb, .ic, .err, .perf, .pwr] kl = true) {s0 s : State} (hs : Same kl s0 s) :
    Same kl s0 (State.bankWaits s) := by
  unfold State.bankWaits
  repeat' first
    | with_reducible assumption
    | intro _
    | exact within_trans (by decide) hk
    | with_reducible apply State.handover_same
    | with_reducible apply State.mbDone_same
    | with_reducible apply Same.ite
    | with_reducible apply Same.each
    | split
    | dsimp only

theorem State.giveBank_same {kl : List Kind} (hk : within [.ch, .bank, .ic, .err, .perf, .pwr] kl = true) {s0 s : State} (hs : Same kl s0 s) (b owner : Nat) :
    Same kl s0 (State.giveBank s b owner) := by
  unfold State.giveBank
  repeat' first
    | with_reducible assumption
    | intro _
    | exact within_trans (by decide) hk
    | with_reducible apply State.modBank_same
    | with_reducible apply State.handover_same
    | with_reducible apply Same.ite
    | split
    | dsimp only

theorem State.clearBank_same {kl : List Kind} (hk : within [.ch, .bank, .mem, .ue, .ic, .err, .perf, .pwr] kl = true) {s0 s : State} (hs : Same kl s0 s) (b : Nat) :
    Same kl s0 (State.clearBank s b) := by
  unfold State.clearBank
  repeat' first
    | with_reducible assumption
    | intro _
    | exact within_trans (by decide) hk
    | with_reducible apply State.modBank_same
    | with_reducible apply State.zeroBank_same
    | with_reducible apply State.handover_same
    | with_reducible apply Same.ite
    | split
    | dsimp only

theorem State.drained_same {kl : List Kind} (hk : within [.tb, .ch, .bank, .mem, .ue, .mb, .ic, .err, .perf, .pwr, .lastRead] kl = true) {s0 s : State} (hs : Same kl s0 s) (b : Nat) :
    Same kl s0 (State.drained s b) := by
  unfold State.drained
  repeat' first
    | with_reducible assumption
    | intro _
    | exact within_trans (by decide) hk
    | with_reducible apply State.modBank_same
    | with_reducible apply State.runTo_same
    | with_reducible apply State.handover_same
    | with_reducible apply State.serveHeld_same
    | with_reducible apply State.bankWaits_same
    | with_reducible apply Same.ite
    | split
    | dsimp only

theorem execHandoverDrainEnd_same {kl : List Kind} (hk : within [.tb, .ch, .bank, .mem, .ue, .mb, .ic, .err, .perf, .pwr, .lastRead] kl = true) {s0 s : State} (hs : Same kl s0 s) (b : Fin 64) :
    OSame kl s0 (execHandoverDrainEnd b s) := by
  unfold execHandoverDrainEnd
  repeat' first
    | with_reducible assumption
    | intro _
    | exact within_trans (by decide) hk
    | with_reducible apply OSame.next
    | with_reducible apply OSame.fault
    | with_reducible apply OSame.ite
    | with_reducible apply State.drained_same
    | with_reducible apply Same.ite
    | split
    | dsimp only

theorem execBankClearDone_same {kl : List Kind} (hk : within [.tb, .ch, .bank, .mem, .ue, .mb, .ic, .err, .perf, .pwr, .lastRead] kl = true) {s0 s : State} (hs : Same kl s0 s) (b : Fin 64) :
    OSame kl s0 (execBankClearDone b s) := by
  unfold execBankClearDone
  repeat' first
    | with_reducible assumption
    | intro _
    | exact within_trans (by decide) hk
    | with_reducible apply OSame.next
    | with_reducible apply OSame.fault
    | with_reducible apply OSame.ite
    | with_reducible apply State.modBank_same
    | with_reducible apply State.runTo_same
    | with_reducible apply State.serveHeld_same
    | with_reducible apply State.bankWaits_same
    | with_reducible apply State.drained_same
    | with_reducible apply Same.ite
    | split
    | dsimp only

theorem execPatrolScrub_same {kl : List Kind} (hk : within [.tb, .bank, .ue, .ic, .err, .perf, .pwr] kl = true) {s0 s : State} (hs : Same kl s0 s) (b : Fin 64) (e : Ecc) :
    OSame kl s0 (execPatrolScrub b e s) := by
  unfold execPatrolScrub
  repeat' first
    | with_reducible assumption
    | intro _
    | exact within_trans (by decide) hk
    | with_reducible apply OSame.next
    | with_reducible apply OSame.fault
    | with_reducible apply OSame.ite
    | with_reducible apply Same.iteFst
    | with_reducible apply State.modBank_same
    | with_reducible apply State.runTo_same
    | with_reducible apply State.readWord_same
    | with_reducible apply Same.ite
    | split
    | dsimp only

theorem execWakeScrubDone_same {kl : List Kind} (hk : within [.tb, .bank, .ue, .ic, .err, .perf, .pwr] kl = true) {s0 s : State} (hs : Same kl s0 s) (b : Fin 64) (e : List (Nat × Ecc)) :
    OSame kl s0 (execWakeScrubDone b e s) := by
  unfold execWakeScrubDone
  repeat' first
    | with_reducible assumption
    | intro _
    | exact within_trans (by decide) hk
    | with_reducible apply OSame.next
    | with_reducible apply OSame.fault
    | with_reducible apply OSame.ite
    | with_reducible apply Same.iteFst
    | with_reducible apply State.modBank_same
    | with_reducible apply State.runTo_same
    | with_reducible apply State.readWord_same
    | with_reducible apply Same.ite
    | with_reducible apply Same.each
    | split
    | dsimp only

theorem cmdBankAssign_same {kl : List Kind} (hk : within [.tb, .ch, .bank, .mem, .ue, .ic, .err, .perf, .pwr] kl = true) {s0 s : State} (hs : Same kl s0 s) (p : List W32) :
    Same kl s0 (cmdBankAssign s p).state := by
  unfold cmdBankAssign
  repeat' first
    | with_reducible assumption
    | intro _
    | exact within_trans (by decide) hk
    | with_reducible apply fail_same
    | with_reducible apply okay_same
    | with_reducible apply done_same
    | with_reducible apply wait_same
    | with_reducible apply Same.iteRes
    | with_reducible apply State.modBank_same
    | with_reducible apply State.runTo_same
    | with_reducible apply State.handover_same
    | with_reducible apply State.giveBank_same
    | with_reducible apply State.clearBank_same
    | with_reducible apply Same.ite
    | with_reducible apply Same.each
    | split
    | dsimp only

end Sys2Proof.Machine
end

