-- ==== Sys2Proof/Laws/SameRing.lean ====
section
/-! SUPPORT. Frames of the operations of Machine/Ring.lean. -/
namespace Sys2Proof.Machine

theorem State.ringPut_same {kl : List Kind} (hk : within [.ch, .mem, .ue, .dma, .ic, .perf, .pwr] kl = true) {s0 s : State} (hs : Same kl s0 s) (k : Nat) (v : W64) :
    Same kl s0 (State.ringPut s k v) := by
  unfold State.ringPut
  repeat' first
    | with_reducible assumption
    | intro _
    | exact within_trans (by decide) hk
    | with_reducible apply State.modDma_same
    | with_reducible apply State.pcAdd_same
    | with_reducible apply State.writeWord_same
    | with_reducible apply State.place_same
    | with_reducible apply Same.ite
    | split
    | dsimp only

theorem State.ringPutAll_same {kl : List Kind} (hk : within [.ch, .mem, .ue, .dma, .ic, .perf, .pwr] kl = true) {s0 s : State} (hs : Same kl s0 s) (k : Nat) (l : List W64) :
    Same kl s0 (State.ringPutAll s k l) := by
  unfold State.ringPutAll
  repeat' first
    | with_reducible assumption
    | intro _
    | exact within_trans (by decide) hk
    | with_reducible apply State.ringPut_same
    | with_reducible apply Same.ite
    | with_reducible apply Same.foldl
    | with_reducible apply Same.foldlFst
    | split
    | dsimp only

theorem State.ringPutHi_same {kl : List Kind} (hk : within [.ch, .mem, .ue, .dma, .ic, .perf, .pwr] kl = true) {s0 s : State} (hs : Same kl s0 s) (k : Nat) (v : W64) (hi : Nat) :
    Same kl s0 (State.ringPutHi s k v hi) := by
  unfold State.ringPutHi
  repeat' first
    | with_reducible assumption
    | intro _
    | exact within_trans (by decide) hk
    | with_reducible apply State.modDma_same
    | with_reducible apply State.ringPut_same
    | with_reducible apply Same.ite
    | split
    | dsimp only

theorem State.streamPut_same {kl : List Kind} (hk : within [.ch, .mem, .ue, .dma, .ic, .perf, .pwr] kl = true) {s0 s : State} (hs : Same kl s0 s) (k : Nat) (w : PWord) :
    Same kl s0 (State.streamPut s k w) := by
  unfold State.streamPut
  repeat' first
    | with_reducible assumption
    | intro _
    | exact within_trans (by decide) hk
    | with_reducible apply State.ringPut_same
    | with_reducible apply State.ringPutHi_same
    | with_reducible apply Same.ite
    | split
    | dsimp only

theorem State.putDrops_same {kl : List Kind} (hk : within [.ch, .mem, .ue, .dma, .ic, .perf, .pwr] kl = true) {s0 s : State} (hs : Same kl s0 s) (k : Nat) (sort : Int) (dtc : Nat) :
    Same kl s0 (State.putDrops s k sort dtc) := by
  unfold State.putDrops
  repeat' first
    | with_reducible assumption
    | intro _
    | exact within_trans (by decide) hk
    | with_reducible apply Same.iteFst
    | with_reducible apply State.modDma_same
    | with_reducible apply State.streamPut_same
    | with_reducible apply Same.ite
    | with_reducible apply Same.foldl
    | with_reducible apply Same.foldlFst
    | split
    | dsimp only

theorem State.putRelease_same {kl : List Kind} (hk : within [.ch, .mem, .ue, .dma, .ic, .perf, .pwr] kl = true) {s0 s : State} (hs : Same kl s0 s) (k : Nat) (w : PWord) :
    Same kl s0 (State.putRelease s k w) := by
  unfold State.putRelease
  repeat' first
    | with_reducible assumption
    | intro _
    | exact within_trans (by decide) hk
    | with_reducible apply Same.iteFst
    | with_reducible apply State.modDma_same
    | with_reducible apply State.streamPut_same
    | with_reducible apply Same.ite
    | with_reducible apply Same.foldl
    | with_reducible apply Same.foldlFst
    | split
    | dsimp only

theorem State.streamWord_same {kl : List Kind} (hk : within [.ch, .mem, .ue, .dma, .ic, .perf, .pwr] kl = true) {s0 s : State} (hs : Same kl s0 s) (k : Nat) (w : PWord) :
    Same kl s0 (State.streamWord s k w) := by
  unfold State.streamWord
  repeat' first
    | with_reducible assumption
    | intro _
    | exact within_trans (by decide) hk
    | with_reducible apply State.modDma_same
    | with_reducible apply State.streamPut_same
    | with_reducible apply Same.ite
    | split
    | dsimp only

theorem State.gateWord_same {kl : List Kind} (hk : within [.ch, .mem, .ue, .dma, .ic, .perf, .pwr] kl = true) {s0 s : State} (hs : Same kl s0 s) (k : Nat) (w : PWord) (g : Int) :
    Same kl s0 (State.gateWord s k w g) := by
  unfold State.gateWord
  repeat' first
    | with_reducible assumption
    | intro _
    | exact within_trans (by decide) hk
    | with_reducible apply State.modDma_same
    | with_reducible apply State.streamPut_same
    | with_reducible apply Same.ite
    | split
    | dsimp only

theorem State.resumeWord_same {kl : List Kind} (hk : within [.ch, .mem, .ue, .dma, .ic, .perf, .pwr] kl = true) {s0 s : State} (hs : Same kl s0 s) (k : Nat) (w : PWord) (r : Int) (rDtc : Nat) :
    Same kl s0 (State.resumeWord s k w r rDtc) := by
  unfold State.resumeWord
  repeat' first
    | with_reducible assumption
    | intro _
    | exact within_trans (by decide) hk
    | with_reducible apply State.modDma_same
    | with_reducible apply State.streamPut_same
    | with_reducible apply State.putDrops_same
    | with_reducible apply State.putRelease_same
    | with_reducible apply Same.ite
    | split
    | dsimp only

theorem State.closeWord_same {kl : List Kind} (hk : within [.ch, .mem, .ue, .dma, .ic, .perf, .pwr] kl = true) {s0 s : State} (hs : Same kl s0 s) (k : Nat) (w : PWord) (e : Int) (eDtc : Nat) :
    Same kl s0 (State.closeWord s k w e eDtc) := by
  unfold State.closeWord
  repeat' first
    | with_reducible assumption
    | intro _
    | exact within_trans (by decide) hk
    | with_reducible apply State.modDma_same
    | with_reducible apply State.streamPut_same
    | with_reducible apply State.putDrops_same
    | with_reducible apply Same.ite
    | split
    | dsimp only

theorem State.ringWord_same {kl : List Kind} (hk : within [.ch, .mem, .ue, .dma, .ic, .perf, .pwr] kl = true) {s0 s : State} (hs : Same kl s0 s) (k : Nat) (w : PWord) :
    Same kl s0 (State.ringWord s k w) := by
  unfold State.ringWord
  repeat' first
    | with_reducible assumption
    | intro _
    | exact within_trans (by decide) hk
    | with_reducible apply State.modDma_same
    | with_reducible apply State.streamPut_same
    | with_reducible apply State.streamWord_same
    | with_reducible apply State.gateWord_same
    | with_reducible apply State.resumeWord_same
    | with_reducible apply State.closeWord_same
    | with_reducible apply Same.ite
    | split
    | dsimp only

theorem State.ringsWord_same {kl : List Kind} (hk : within [.ch, .mem, .ue, .dma, .ic, .perf, .pwr] kl = true) {s0 s : State} (hs : Same kl s0 s) (c : Nat) (w : PWord) :
    Same kl s0 (State.ringsWord s c w) := by
  unfold State.ringsWord
  repeat' first
    | with_reducible assumption
    | intro _
    | exact within_trans (by decide) hk
    | with_reducible apply State.ringWord_same
    | with_reducible apply Same.ite
    | with_reducible apply Same.each
    | split
    | dsimp only

theorem State.remoteWord_same {kl : List Kind} (hk : within [.tb, .ch, .cl, .mem, .ue, .dma, .noStream, .ic, .perf, .pwr] kl = true) {s0 s : State} (hs : Same kl s0 s) (dev : Nat) (v : W64) :
    Same kl s0 (State.remoteWord s dev v) := by
  unfold State.remoteWord
  repeat' first
    | with_reducible assumption
    | intro _
    | exact within_trans (by decide) hk
    | with_reducible apply State.modDma_same
    | with_reducible apply State.takeLane_same
    | with_reducible apply State.ringPut_same
    | with_reducible apply Same.ite
    | split
    | with_reducible refine Same.step (within_trans (by decide) hk) (Same.set_noStream _ _) ?_
    | dsimp only

theorem State.remoteDrops_same {kl : List Kind} (hk : within [.ch, .mem, .ue, .dma, .ic, .perf, .pwr] kl = true) {s0 s : State} (hs : Same kl s0 s) (k : Nat) :
    Same kl s0 (State.remoteDrops s k) := by
  unfold State.remoteDrops
  repeat' first
    | with_reducible assumption
    | intro _
    | exact within_trans (by decide) hk
    | with_reducible apply Same.iteFst
    | with_reducible apply State.modDma_same
    | with_reducible apply State.ringPutAll_same
    | with_reducible apply Same.ite
    | split
    | dsimp only

theorem State.gateStream_same {kl : List Kind} (hk : within [.ch, .mem, .ue, .dma, .ic, .perf, .pwr] kl = true) {s0 s : State} (hs : Same kl s0 s) (k : Nat) (at_ : Int) :
    Same kl s0 (State.gateStream s k at_) := by
  unfold State.gateStream
  repeat' first
    | with_reducible assumption
    | intro _
    | exact within_trans (by decide) hk
    | with_reducible apply State.modDma_same
    | with_reducible apply State.ringPut_same
    | with_reducible apply Same.ite
    | split
    | dsimp only

theorem State.releaseStream_same {kl : List Kind} (hk : within [.ch, .mem, .ue, .dma, .ic, .perf, .pwr] kl = true) {s0 s : State} (hs : Same kl s0 s) (k : Nat) (at_ : Int) :
    Same kl s0 (State.releaseStream s k at_) := by
  unfold State.releaseStream
  repeat' first
    | with_reducible assumption
    | intro _
    | exact within_trans (by decide) hk
    | with_reducible apply State.modDma_same
    | with_reducible apply State.ringPutAll_same
    | with_reducible apply State.remoteDrops_same
    | with_reducible apply Same.ite
    | split
    | dsimp only

theorem State.streamTick_same {kl : List Kind} (hk : within [.ch, .mem, .ue, .dma, .ic, .perf, .pwr] kl = true) {s0 s : State} (hs : Same kl s0 s) (at_ : Int) :
    Same kl s0 (State.streamTick s at_) := by
  unfold State.streamTick
  repeat' first
    | with_reducible assumption
    | intro _
    | exact within_trans (by decide) hk
    | with_reducible apply State.gateStream_same
    | with_reducible apply State.releaseStream_same
    | with_reducible apply Same.ite
    | with_reducible apply Same.each
    | split
    | dsimp only

end Sys2Proof.Machine
end

