-- ==== Sys2Proof/Laws/SameDma.lean ====
section
/-! SUPPORT. Frames of the operations of Machine/Dma.lean. -/
namespace Sys2Proof.Machine

theorem State.refreshRings_same {kl : List Kind} (hk : within [.bank] kl = true) {s0 s : State} (hs : Same kl s0 s) :
    Same kl s0 (State.refreshRings s) := by
  unfold State.refreshRings
  repeat' first
    | with_reducible assumption
    | intro _
    | exact within_trans (by decide) hk
    | with_reducible apply State.modBank_same
    | with_reducible apply Same.ite
    | with_reducible apply Same.each
    | split
    | dsimp only

theorem State.dmaIdle_same {kl : List Kind} (hk : within [.bank, .dma] kl = true) {s0 s : State} (hs : Same kl s0 s) (k : Nat) :
    Same kl s0 (State.dmaIdle s k) := by
  unfold State.dmaIdle
  repeat' first
    | with_reducible assumption
    | intro _
    | exact within_trans (by decide) hk
    | with_reducible apply State.modDma_same
    | with_reducible apply State.refreshRings_same
    | with_reducible apply Same.ite
    | split
    | dsimp only

theorem State.dmaHalt_same {kl : List Kind} (hk : within [.dma, .ic, .err, .perf, .pwr] kl = true) {s0 s : State} (hs : Same kl s0 s) (k cause : Nat) :
    Same kl s0 (State.dmaHalt s k cause) := by
  unfold State.dmaHalt
  repeat' first
    | with_reducible assumption
    | intro _
    | exact within_trans (by decide) hk
    | with_reducible apply State.modDma_same
    | with_reducible apply State.raise_same
    | with_reducible apply State.report_same
    | with_reducible apply Same.ite
    | split
    | dsimp only

theorem State.closeCheck_same {kl : List Kind} (hk : within [.bank, .dma, .ic, .pwr] kl = true) {s0 s : State} (hs : Same kl s0 s) (k : Nat) :
    Same kl s0 (State.closeCheck s k) := by
  unfold State.closeCheck
  repeat' first
    | with_reducible assumption
    | intro _
    | exact within_trans (by decide) hk
    | with_reducible apply State.raise_same
    | with_reducible apply State.dmaIdle_same
    | with_reducible apply Same.ite
    | split
    | dsimp only

theorem State.dmaComplete_same {kl : List Kind} (hk : within [.ch, .cl, .bank, .dma, .posted, .env, .st, .qp, .ic, .err, .perf, .pwr] kl = true) {s0 s : State} (hs : Same kl s0 s) (k result cause : Nat) :
    Same kl s0 (State.dmaComplete s k result cause) := by
  unfold State.dmaComplete
  repeat' first
    | with_reducible assumption
    | intro _
    | exact within_trans (by decide) hk
    | with_reducible apply State.modDma_same
    | with_reducible apply State.raise_same
    | with_reducible apply State.pcAdd_same
    | with_reducible apply State.post_same
    | with_reducible apply State.settle_same
    | with_reducible apply State.dmaHalt_same
    | with_reducible apply State.closeCheck_same
    | with_reducible apply Same.ite
    | split
    | dsimp only

theorem State.dmaFinish_same {kl : List Kind} (hk : within [.ch, .cl, .bank, .dma, .posted, .env, .st, .qp, .ic, .err, .perf, .pwr] kl = true) {s0 s : State} (hs : Same kl s0 s) (k : Nat) :
    Same kl s0 (State.dmaFinish s k) := by
  unfold State.dmaFinish
  repeat' first
    | with_reducible assumption
    | intro _
    | exact within_trans (by decide) hk
    | with_reducible apply State.closeCheck_same
    | with_reducible apply State.dmaComplete_same
    | with_reducible apply Same.ite
    | split
    | dsimp only

theorem execDmaDescriptorFetch_same {kl : List Kind} (hk : within [.ch, .cl, .bank, .dma, .posted, .env, .st, .qp, .ic, .err, .perf, .pwr] kl = true) {s0 s : State} (hs : Same kl s0 s) (k : Fin 16) (f : Fetch) :
    OSame kl s0 (execDmaDescriptorFetch k f s) := by
  unfold execDmaDescriptorFetch
  repeat' first
    | with_reducible assumption
    | intro _
    | exact within_trans (by decide) hk
    | with_reducible apply OSame.next
    | with_reducible apply OSame.fault
    | with_reducible apply OSame.ite
    | with_reducible apply State.modDma_same
    | with_reducible apply State.pcAdd_same
    | with_reducible apply State.settle_same
    | with_reducible apply State.dmaHalt_same
    | with_reducible apply State.dmaComplete_same
    | with_reducible apply Same.ite
    | split
    | dsimp only

theorem State.beginMove_same {kl : List Kind} (hk : within [.tb, .dma, .ic, .perf, .pwr] kl = true) {s0 s : State} (hs : Same kl s0 s) (k : Nat) :
    Same kl s0 (State.beginMove s k) := by
  unfold State.beginMove
  repeat' first
    | with_reducible assumption
    | intro _
    | exact within_trans (by decide) hk
    | with_reducible apply State.modDma_same
    | with_reducible apply State.runTo_same
    | with_reducible apply Same.ite
    | split
    | dsimp only

theorem State.moveRing_same {kl : List Kind} (hk : within [.tb, .ch, .cl, .bank, .ue, .dma, .posted, .env, .st, .qp, .ic, .err, .perf, .pwr] kl = true) {s0 s : State} (hs : Same kl s0 s) (k n : Nat) (e : List (Nat × Ecc)) (x : DmaDesc) :
    Same kl s0 (State.moveRing s k n e x) := by
  unfold State.moveRing
  repeat' first
    | with_reducible assumption
    | intro _
    | exact within_trans (by decide) hk
    | with_reducible apply Same.iteFst
    | with_reducible apply State.modDma_same
    | with_reducible apply State.pcAdd_same
    | with_reducible apply State.post_same
    | with_reducible apply State.place_same
    | with_reducible apply State.readWords_same
    | with_reducible apply State.dmaHalt_same
    | with_reducible apply State.dmaComplete_same
    | with_reducible apply State.dmaFinish_same
    | with_reducible apply State.beginMove_same
    | with_reducible apply Same.ite
    | split
    | dsimp only

theorem State.moveOut_same {kl : List Kind} (hk : within [.ch, .cl, .bank, .ue, .dma, .posted, .env, .st, .qp, .ic, .err, .perf, .pwr] kl = true) {s0 s : State} (hs : Same kl s0 s) (k n : Nat) (e : List (Nat × Ecc)) (x : DmaDesc) :
    Same kl s0 (State.moveOut s k n e x) := by
  unfold State.moveOut
  repeat' first
    | with_reducible assumption
    | intro _
    | exact within_trans (by decide) hk
    | with_reducible apply Same.iteFst
    | with_reducible apply State.modDma_same
    | with_reducible apply State.deny_same
    | with_reducible apply State.post_same
    | with_reducible apply State.readWords_same
    | with_reducible apply State.dmaHalt_same
    | with_reducible apply State.dmaComplete_same
    | with_reducible apply State.dmaFinish_same
    | with_reducible apply Same.ite
    | split
    | dsimp only

theorem State.putWords_same {kl : List Kind} (hk : within [.bank, .mem, .ue, .dma, .ic, .err, .perf, .pwr] kl = true) {s0 : State} (k : Nat) : ∀ (v : List (Nat × W64)) {s : State} (_ : Same kl s0 s), Same kl s0 (s.putWords k v).1
  | [], _, h => h
  | (w, x) :: v, s, h => by
    unfold State.putWords
    apply Same.iteFst
    · exact State.deny_same (within_trans (by decide) hk) h _ _ _ _
    · exact State.putWords_same hk k v (State.modDma_same (within_trans (by decide) hk) (State.writeWord_same (within_trans (by decide) hk) h _ _) _ _)


theorem State.moveIn_same {kl : List Kind} (hk : within [.ch, .cl, .bank, .mem, .ue, .dma, .posted, .env, .st, .qp, .ic, .err, .perf, .pwr] kl = true) {s0 s : State} (hs : Same kl s0 s) (k n : Nat) (h : HostRd) (x : DmaDesc) :
    Same kl s0 (State.moveIn s k n h x) := by
  unfold State.moveIn
  repeat' first
    | with_reducible assumption
    | intro _
    | exact within_trans (by decide) hk
    | with_reducible apply Same.iteFst
    | with_reducible apply State.pcAdd_same
    | with_reducible apply State.dmaHalt_same
    | with_reducible apply State.dmaComplete_same
    | with_reducible apply State.dmaFinish_same
    | with_reducible apply State.putWords_same
    | with_reducible apply Same.ite
    | split
    | dsimp only

theorem execDmaMove_same {kl : List Kind} (hk : within [.tb, .ch, .cl, .bank, .mem, .ue, .dma, .posted, .env, .st, .qp, .ic, .err, .perf, .pwr] kl = true) {s0 s : State} (hs : Same kl s0 s) (k : Fin 16) (n : Nat) (e : List (Nat × Ecc)) (h : HostRd) :
    OSame kl s0 (execDmaMove k n e h s) := by
  unfold execDmaMove
  repeat' first
    | with_reducible assumption
    | intro _
    | exact within_trans (by decide) hk
    | with_reducible apply OSame.next
    | with_reducible apply OSame.fault
    | with_reducible apply OSame.ite
    | with_reducible apply State.moveRing_same
    | with_reducible apply State.moveOut_same
    | with_reducible apply State.moveIn_same
    | with_reducible apply Same.ite
    | split
    | dsimp only

theorem State.dmaFlush_same {kl : List Kind} (hk : within [.ch, .cl, .bank, .dma, .posted, .env, .st, .qp, .ic, .err, .perf, .pwr] kl = true) {s0 s : State} (hs : Same kl s0 s) (k : Nat) :
    Same kl s0 (State.dmaFlush s k) := by
  unfold State.dmaFlush
  repeat' first
    | with_reducible assumption
    | intro _
    | exact within_trans (by decide) hk
    | with_reducible apply State.modDma_same
    | with_reducible apply State.dmaFinish_same
    | with_reducible apply Same.ite
    | split
    | dsimp only

theorem execFlush_same {kl : List Kind} (hk : within [.tb, .ch, .cl, .bank, .dma, .posted, .env, .st, .qp, .ic, .err, .perf, .pwr] kl = true) {s0 s : State} (hs : Same kl s0 s) (k : Fin 16) :
    OSame kl s0 (execFlush k s) := by
  unfold execFlush
  repeat' first
    | with_reducible assumption
    | intro _
    | exact within_trans (by decide) hk
    | with_reducible apply OSame.next
    | with_reducible apply OSame.fault
    | with_reducible apply OSame.ite
    | with_reducible apply State.runTo_same
    | with_reducible apply State.dmaFlush_same
    | with_reducible apply Same.ite
    | split
    | dsimp only

theorem execFlushTimeout_same {kl : List Kind} (hk : within [.ch, .cl, .bank, .dma, .posted, .env, .st, .qp, .ic, .err, .perf, .pwr] kl = true) {s0 s : State} (hs : Same kl s0 s) (k : Fin 16) :
    OSame kl s0 (execFlushTimeout k s) := by
  unfold execFlushTimeout
  repeat' first
    | with_reducible assumption
    | intro _
    | exact within_trans (by decide) hk
    | with_reducible apply OSame.next
    | with_reducible apply OSame.fault
    | with_reducible apply OSame.ite
    | with_reducible apply State.dmaComplete_same
    | with_reducible apply Same.ite
    | split
    | dsimp only

theorem State.dmaAge_same {kl : List Kind} (hk : within [.dma] kl = true) {s0 s : State} (hs : Same kl s0 s) :
    Same kl s0 (State.dmaAge s) := by
  unfold State.dmaAge
  repeat' first
    | with_reducible assumption
    | intro _
    | exact within_trans (by decide) hk
    | with_reducible apply Same.ite
    | with_reducible refine Same.step (within_trans (by decide) hk) (Same.set_dma _ _) ?_
    | split
    | dsimp only

theorem execCopyStep_same {kl : List Kind} (hk : within [.tb, .bank, .mem, .ue, .dma, .ic, .err, .perf, .pwr] kl = true) {s0 s : State} (hs : Same kl s0 s) (k : Fin 16) (e : Ecc) :
    OSame kl s0 (execCopyStep k e s) := by
  unfold execCopyStep
  repeat' first
    | with_reducible assumption
    | intro _
    | exact within_trans (by decide) hk
    | with_reducible apply OSame.next
    | with_reducible apply OSame.fault
    | with_reducible apply OSame.ite
    | with_reducible apply Same.iteFst
    | with_reducible apply State.modDma_same
    | with_reducible apply State.runTo_same
    | with_reducible apply State.deny_same
    | with_reducible apply State.readWord_same
    | with_reducible apply State.writeWord_same
    | with_reducible apply State.dmaIdle_same
    | with_reducible apply State.dmaHalt_same
    | with_reducible apply State.closeCheck_same
    | with_reducible apply Same.ite
    | split
    | dsimp only

theorem State.ringRegReject_same {kl : List Kind} (hk : within [.ic, .err, .perf, .pwr] kl = true) {s0 s : State} (hs : Same kl s0 s) (k r : Nat) (v : W32) :
    Same kl s0 (State.ringRegReject s k r v) := by
  unfold State.ringRegReject
  repeat' first
    | with_reducible assumption
    | intro _
    | exact within_trans (by decide) hk
    | with_reducible apply State.report_same
    | with_reducible apply Same.ite
    | split
    | dsimp only

theorem State.tailWrite_same {kl : List Kind} (hk : within [.ch, .cl, .dma, .env, .st, .qp, .ic, .pwr] kl = true) {s0 s : State} (hs : Same kl s0 s) (k : Nat) (v : W32) :
    Same kl s0 (State.tailWrite s k v) := by
  unfold State.tailWrite
  repeat' first
    | with_reducible assumption
    | intro _
    | exact within_trans (by decide) hk
    | with_reducible apply State.modDma_same
    | with_reducible apply State.settle_same
    | with_reducible apply Same.ite
    | split
    | dsimp only

theorem State.headWrite_same {kl : List Kind} (hk : within [.ch, .cl, .bank, .dma, .env, .st, .qp, .ic, .err, .perf, .pwr] kl = true) {s0 s : State} (hs : Same kl s0 s) (k : Nat) (v : W32) :
    Same kl s0 (State.headWrite s k v) := by
  unfold State.headWrite
  repeat' first
    | with_reducible assumption
    | intro _
    | exact within_trans (by decide) hk
    | with_reducible apply State.modDma_same
    | with_reducible apply State.settle_same
    | with_reducible apply State.closeCheck_same
    | with_reducible apply State.ringRegReject_same
    | with_reducible apply Same.ite
    | split
    | dsimp only

theorem execDmaRingTailWrite_same {kl : List Kind} (hk : within [.ch, .cl, .dma, .env, .st, .qp, .ic, .pwr] kl = true) {s0 s : State} (hs : Same kl s0 s) (k : Fin 16) (v : W32) :
    OSame kl s0 (execDmaRingTailWrite k v s) := by
  unfold execDmaRingTailWrite
  repeat' first
    | with_reducible assumption
    | intro _
    | exact within_trans (by decide) hk
    | with_reducible apply OSame.next
    | with_reducible apply OSame.fault
    | with_reducible apply OSame.ite
    | with_reducible apply State.tailWrite_same
    | with_reducible apply Same.ite
    | split
    | dsimp only

theorem execDmaRingHeadWrite_same {kl : List Kind} (hk : within [.ch, .cl, .bank, .dma, .env, .st, .qp, .ic, .err, .perf, .pwr] kl = true) {s0 s : State} (hs : Same kl s0 s) (k : Fin 16) (v : W32) :
    OSame kl s0 (execDmaRingHeadWrite k v s) := by
  unfold execDmaRingHeadWrite
  repeat' first
    | with_reducible assumption
    | intro _
    | exact within_trans (by decide) hk
    | with_reducible apply OSame.next
    | with_reducible apply OSame.fault
    | with_reducible apply OSame.ite
    | with_reducible apply State.headWrite_same
    | with_reducible apply Same.ite
    | split
    | dsimp only

theorem State.ringRegWrite_same {kl : List Kind} (hk : within [.dma, .ic, .err, .perf, .pwr] kl = true) {s0 s : State} (hs : Same kl s0 s) (k r : Nat) (v : W32) :
    Same kl s0 (State.ringRegWrite s k r v) := by
  unfold State.ringRegWrite
  repeat' first
    | with_reducible assumption
    | intro _
    | exact within_trans (by decide) hk
    | with_reducible apply State.modDma_same
    | with_reducible apply State.ringRegReject_same
    | with_reducible apply Same.ite
    | split
    | dsimp only

theorem State.dmaHostReset_same {kl : List Kind} (hk : within [.bank, .dma, .deferred] kl = true) {s0 s : State} (hs : Same kl s0 s) :
    Same kl s0 (State.dmaHostReset s) := by
  unfold State.dmaHostReset
  repeat' first
    | with_reducible assumption
    | intro _
    | exact within_trans (by decide) hk
    | with_reducible apply State.modDma_same
    | with_reducible apply State.dmaIdle_same
    | with_reducible apply Same.ite
    | with_reducible apply Same.each
    | with_reducible refine Same.step (within_trans (by decide) hk) (Same.set_deferred _ _) ?_
    | split
    | dsimp only

theorem cmdStreamOpen_same {kl : List Kind} (hk : within [.ch, .cl, .bank, .dma, .env, .st, .qp, .ic, .pwr, .deferred] kl = true) {s0 s : State} (hs : Same kl s0 s) (p : List W32) :
    Same kl s0 (cmdStreamOpen s p).state := by
  unfold cmdStreamOpen
  repeat' first
    | with_reducible assumption
    | intro _
    | exact within_trans (by decide) hk
    | with_reducible apply fail_same
    | with_reducible apply okay_same
    | with_reducible apply done_same
    | with_reducible apply wait_same
    | with_reducible apply Same.iteRes
    | with_reducible apply State.modDma_same
    | with_reducible apply State.defer_same
    | with_reducible apply State.settle_same
    | with_reducible apply State.refreshRings_same
    | with_reducible apply Same.ite
    | split
    | dsimp only

theorem applyStreamStart_same {kl : List Kind} (hk : within [.dma] kl = true) {s0 s : State} (hs : Same kl s0 s) (p : List W32) :
    Same kl s0 (applyStreamStart s p) := by
  unfold applyStreamStart
  repeat' first
    | with_reducible assumption
    | intro _
    | exact within_trans (by decide) hk
    | with_reducible apply State.modDma_same
    | with_reducible apply Same.ite
    | split
    | dsimp only

theorem cmdStreamClose_same {kl : List Kind} (hk : within [.bank, .dma, .ic, .pwr, .deferred] kl = true) {s0 s : State} (hs : Same kl s0 s) (p : List W32) :
    Same kl s0 (cmdStreamClose s p).state := by
  unfold cmdStreamClose
  repeat' first
    | with_reducible assumption
    | intro _
    | exact within_trans (by decide) hk
    | with_reducible apply fail_same
    | with_reducible apply okay_same
    | with_reducible apply done_same
    | with_reducible apply wait_same
    | with_reducible apply Same.iteRes
    | with_reducible apply State.modDma_same
    | with_reducible apply State.defer_same
    | with_reducible apply State.dmaIdle_same
    | with_reducible apply State.closeCheck_same
    | with_reducible apply Same.ite
    | split
    | dsimp only

theorem applyStreamClose_same {kl : List Kind} (hk : within [.ch, .cl, .bank, .mem, .ue, .dma, .posted, .env, .st, .qp, .ic, .err, .perf, .pwr] kl = true) {s0 s : State} (hs : Same kl s0 s) (p : List W32) :
    Same kl s0 (applyStreamClose s p) := by
  unfold applyStreamClose
  repeat' first
    | with_reducible assumption
    | intro _
    | exact within_trans (by decide) hk
    | with_reducible apply State.modDma_same
    | with_reducible apply State.remoteDrops_same
    | with_reducible apply State.dmaFinish_same
    | with_reducible apply Same.ite
    | split
    | dsimp only

end Sys2Proof.Machine
end

