-- ==== Sys2Proof/Laws/SameRefs.lean ====
section
/-! SUPPORT. Frames of the operations of Machine/Refs.lean. -/
namespace Sys2Proof.Machine

theorem State.timeReport_same {kl : List Kind} (hk : within [.ic, .err, .perf, .pwr] kl = true) {s0 s : State} (hs : Same kl s0 s) (code : Nat) :
    Same kl s0 (State.timeReport s code) := by
  unfold State.timeReport
  repeat' first
    | with_reducible assumption
    | intro _
    | exact within_trans (by decide) hk
    | with_reducible apply State.report_same
    | with_reducible apply Same.ite
    | split
    | dsimp only

theorem State.slowSlew_same {kl : List Kind} (hk : within [.ref] kl = true) {s0 s : State} (hs : Same kl s0 s) :
    Same kl s0 (State.slowSlew s) := by
  unfold State.slowSlew
  repeat' first
    | with_reducible assumption
    | intro _
    | exact within_trans (by decide) hk
    | with_reducible apply Same.ite
    | with_reducible refine Same.step (within_trans (by decide) hk) (Same.set_ref _ _) ?_
    | split
    | dsimp only

theorem State.refTo_same {kl : List Kind} (hk : within [.ref, .ch, .cl, .env, .st, .qp, .ic, .pwr] kl = true) {s0 s : State} (hs : Same kl s0 s) (x : RefState) (f : Reference → Reference) :
    Same kl s0 (State.refTo s x f) := by
  unfold State.refTo
  repeat' first
    | with_reducible assumption
    | intro _
    | exact within_trans (by decide) hk
    | with_reducible apply State.raise_same
    | with_reducible apply State.settle_same
    | with_reducible apply Same.ite
    | with_reducible refine Same.step (within_trans (by decide) hk) (Same.set_ref _ _) ?_
    | split
    | dsimp only

theorem State.refLose_same {kl : List Kind} (hk : within [.ref, .ch, .cl, .env, .st, .qp, .ic, .err, .perf, .pwr] kl = true) {s0 s : State} (hs : Same kl s0 s) :
    Same kl s0 (State.refLose s) := by
  unfold State.refLose
  repeat' first
    | with_reducible assumption
    | intro _
    | exact within_trans (by decide) hk
    | with_reducible apply State.timeReport_same
    | with_reducible apply State.refTo_same
    | with_reducible apply Same.ite
    | split
    | with_reducible refine Same.step (within_trans (by decide) hk) (Same.set_ref _ _) ?_
    | dsimp only

theorem State.tryDetect_same {kl : List Kind} (hk : within [.ref, .ch, .cl, .env, .st, .qp, .ic, .pwr] kl = true) {s0 s : State} (hs : Same kl s0 s) :
    Same kl s0 (State.tryDetect s) := by
  unfold State.tryDetect
  repeat' first
    | with_reducible assumption
    | intro _
    | exact within_trans (by decide) hk
    | with_reducible apply State.refTo_same
    | with_reducible apply Same.ite
    | split
    | dsimp only

theorem State.refTest_same {kl : List Kind} (hk : within [.ref, .ch, .cl, .env, .st, .qp, .ic, .err, .perf, .pwr] kl = true) {s0 s : State} (hs : Same kl s0 s) (c : WinClass) :
    Same kl s0 (State.refTest s c) := by
  unfold State.refTest
  repeat' first
    | with_reducible assumption
    | intro _
    | exact within_trans (by decide) hk
    | with_reducible apply State.refLose_same
    | with_reducible apply Same.ite
    | split
    | with_reducible refine Same.step (within_trans (by decide) hk) (Same.set_ref _ _) ?_
    | dsimp only

theorem State.refCount_same {kl : List Kind} (hk : within [.ref] kl = true) {s0 s : State} (hs : Same kl s0 s) (c : WinClass) :
    Same kl s0 (State.refCount s c) := by
  unfold State.refCount
  repeat' first
    | with_reducible assumption
    | intro _
    | exact within_trans (by decide) hk
    | with_reducible apply Same.ite
    | with_reducible refine Same.step (within_trans (by decide) hk) (Same.set_ref _ _) ?_
    | split
    | dsimp only

theorem State.refWindow_same {kl : List Kind} (hk : within [.ref, .ch, .cl, .env, .st, .qp, .ic, .err, .perf, .pwr] kl = true) {s0 s : State} (hs : Same kl s0 s) (w : RefWin) :
    Same kl s0 (State.refWindow s w) := by
  unfold State.refWindow
  repeat' first
    | with_reducible assumption
    | intro _
    | exact within_trans (by decide) hk
    | with_reducible apply State.tryDetect_same
    | with_reducible apply State.refTest_same
    | with_reducible apply State.refCount_same
    | with_reducible apply Same.ite
    | with_reducible refine Same.step (within_trans (by decide) hk) (Same.set_ref _ _) ?_
    | split
    | dsimp only

theorem execRefWindow_same {kl : List Kind} (hk : within [.tb, .ref, .ch, .cl, .env, .st, .qp, .ic, .err, .perf, .pwr] kl = true) {s0 s : State} (hs : Same kl s0 s) (w : RefWin) :
    OSame kl s0 (execRefWindow w s) := by
  unfold execRefWindow
  repeat' first
    | with_reducible assumption
    | intro _
    | exact within_trans (by decide) hk
    | with_reducible apply OSame.next
    | with_reducible apply OSame.fault
    | with_reducible apply OSame.ite
    | with_reducible apply State.advance_same
    | with_reducible apply State.refWindow_same
    | with_reducible apply Same.ite
    | split
    | dsimp only

theorem execRefMissingPulse_same {kl : List Kind} (hk : within [.ref, .ch, .cl, .env, .st, .qp, .ic, .err, .perf, .pwr] kl = true) {s0 s : State} (hs : Same kl s0 s) :
    OSame kl s0 (execRefMissingPulse s) := by
  unfold execRefMissingPulse
  repeat' first
    | with_reducible assumption
    | intro _
    | exact within_trans (by decide) hk
    | with_reducible apply OSame.next
    | with_reducible apply OSame.fault
    | with_reducible apply OSame.ite
    | with_reducible apply State.refLose_same
    | with_reducible apply Same.ite
    | with_reducible refine Same.step (within_trans (by decide) hk) (Same.set_ref _ _) ?_
    | split
    | dsimp only

theorem execRefPhaseError_same {kl : List Kind} (hk : within [.ref, .ch, .cl, .env, .st, .qp, .ic, .err, .perf, .pwr] kl = true) {s0 s : State} (hs : Same kl s0 s) :
    OSame kl s0 (execRefPhaseError s) := by
  unfold execRefPhaseError
  repeat' first
    | with_reducible assumption
    | intro _
    | exact within_trans (by decide) hk
    | with_reducible apply OSame.next
    | with_reducible apply OSame.fault
    | with_reducible apply OSame.ite
    | with_reducible apply State.refLose_same
    | with_reducible apply Same.ite
    | split
    | dsimp only

theorem execPllAcquireStart_same {kl : List Kind} (hk : within [.ref, .ch, .cl, .env, .st, .qp, .ic, .pwr] kl = true) {s0 s : State} (hs : Same kl s0 s) :
    OSame kl s0 (execPllAcquireStart s) := by
  unfold execPllAcquireStart
  repeat' first
    | with_reducible assumption
    | intro _
    | exact within_trans (by decide) hk
    | with_reducible apply OSame.next
    | with_reducible apply OSame.fault
    | with_reducible apply OSame.ite
    | with_reducible apply State.refTo_same
    | with_reducible apply Same.ite
    | split
    | dsimp only

theorem execPllSlewDone_same {kl : List Kind} (hk : within [.tb, .ref, .ch, .cl, .env, .st, .qp, .ic, .perf, .pwr] kl = true) {s0 s : State} (hs : Same kl s0 s) :
    OSame kl s0 (execPllSlewDone s) := by
  unfold execPllSlewDone
  repeat' first
    | with_reducible assumption
    | intro _
    | exact within_trans (by decide) hk
    | with_reducible apply OSame.next
    | with_reducible apply OSame.fault
    | with_reducible apply OSame.ite
    | with_reducible apply State.runTo_same
    | with_reducible apply State.tryDetect_same
    | with_reducible apply Same.ite
    | with_reducible refine Same.step (within_trans (by decide) hk) (Same.set_ref _ _) ?_
    | split
    | dsimp only

theorem execRefLocked_same {kl : List Kind} (hk : within [.tb, .ref, .ch, .cl, .env, .st, .qp, .ic, .perf, .pwr] kl = true) {s0 s : State} (hs : Same kl s0 s) :
    OSame kl s0 (execRefLocked s) := by
  unfold execRefLocked
  repeat' first
    | with_reducible assumption
    | intro _
    | exact within_trans (by decide) hk
    | with_reducible apply OSame.next
    | with_reducible apply OSame.fault
    | with_reducible apply OSame.ite
    | with_reducible apply State.runTo_same
    | with_reducible apply State.refTo_same
    | with_reducible apply Same.ite
    | split
    | dsimp only

theorem execRefLockTimeout_same {kl : List Kind} (hk : within [.tb, .ref, .ch, .cl, .env, .st, .qp, .ic, .err, .perf, .pwr] kl = true) {s0 s : State} (hs : Same kl s0 s) :
    OSame kl s0 (execRefLockTimeout s) := by
  unfold execRefLockTimeout
  repeat' first
    | with_reducible assumption
    | intro _
    | exact within_trans (by decide) hk
    | with_reducible apply OSame.next
    | with_reducible apply OSame.fault
    | with_reducible apply OSame.ite
    | with_reducible apply State.runTo_same
    | with_reducible apply State.refLose_same
    | with_reducible apply Same.ite
    | split
    | dsimp only

theorem State.refInternal_same {kl : List Kind} (hk : within [.ref, .ch, .cl, .env, .st, .qp, .ic, .err, .perf, .pwr] kl = true) {s0 s : State} (hs : Same kl s0 s) :
    Same kl s0 (State.refInternal s) := by
  unfold State.refInternal
  repeat' first
    | with_reducible assumption
    | intro _
    | exact within_trans (by decide) hk
    | with_reducible apply State.timeReport_same
    | with_reducible apply State.refTo_same
    | with_reducible apply Same.ite
    | with_reducible refine Same.step (within_trans (by decide) hk) (Same.set_ref _ _) ?_
    | split
    | dsimp only

theorem cmdTsSetReference_same {kl : List Kind} (hk : within [.ref, .ch, .cl, .env, .st, .qp, .ic, .err, .perf, .pwr] kl = true) {s0 s : State} (hs : Same kl s0 s) (p : List W32) :
    Same kl s0 (cmdTsSetReference s p).state := by
  unfold cmdTsSetReference
  repeat' first
    | with_reducible assumption
    | intro _
    | exact within_trans (by decide) hk
    | with_reducible apply fail_same
    | with_reducible apply okay_same
    | with_reducible apply done_same
    | with_reducible apply wait_same
    | with_reducible apply Same.iteRes
    | with_reducible apply State.settle_same
    | with_reducible apply State.refLose_same
    | with_reducible apply State.refInternal_same
    | with_reducible apply Same.ite
    | with_reducible refine Same.step (within_trans (by decide) hk) (Same.set_ref _ _) ?_
    | split
    | dsimp only

theorem execPpsoutPulse_same {kl : List Kind} (hk : within [.tb, .ref, .ic, .perf, .pwr] kl = true) {s0 s : State} (hs : Same kl s0 s) :
    OSame kl s0 (execPpsoutPulse s) := by
  unfold execPpsoutPulse
  repeat' first
    | with_reducible assumption
    | intro _
    | exact within_trans (by decide) hk
    | with_reducible apply OSame.next
    | with_reducible apply OSame.fault
    | with_reducible apply OSame.ite
    | with_reducible apply State.runTo_same
    | with_reducible apply Same.ite
    | with_reducible refine Same.step (within_trans (by decide) hk) (Same.set_ref _ _) ?_
    | split
    | dsimp only

end Sys2Proof.Machine
end

