-- ==== Sys2Proof/Laws/SameTimeScale.lean ====
section
/-! SUPPORT. Frames of the operations of Machine/TimeScale.lean. -/
namespace Sys2Proof.Machine

theorem State.capture3_same {kl : List Kind} (hk : within [.tb, .ic, .perf, .pwr] kl = true) {s0 s : State} (hs : Same kl s0 s) :
    Same kl s0 (State.capture3 s) := by
  unfold State.capture3
  repeat' first
    | with_reducible assumption
    | intro _
    | exact within_trans (by decide) hk
    | with_reducible apply State.runTo_same
    | with_reducible apply Same.ite
    | with_reducible refine Same.step (within_trans (by decide) hk) (Same.set_tb _ _) ?_
    | split
    | dsimp only

theorem execTsCapture_same {kl : List Kind} (hk : within [.tb, .ic, .perf, .pwr] kl = true) {s0 s : State} (hs : Same kl s0 s) :
    OSame kl s0 (execTsCapture s) := by
  unfold execTsCapture
  repeat' first
    | with_reducible assumption
    | intro _
    | exact within_trans (by decide) hk
    | with_reducible apply OSame.next
    | with_reducible apply OSame.fault
    | with_reducible apply OSame.ite
    | with_reducible apply State.capture3_same
    | with_reducible apply Same.ite
    | split
    | dsimp only

theorem execDtcWrap_same {kl : List Kind} (hk : within [.tb, .ic, .perf, .pwr] kl = true) {s0 s : State} (hs : Same kl s0 s) :
    OSame kl s0 (execDtcWrap s) := by
  unfold execDtcWrap
  repeat' first
    | with_reducible assumption
    | intro _
    | exact within_trans (by decide) hk
    | with_reducible apply OSame.next
    | with_reducible apply OSame.fault
    | with_reducible apply OSame.ite
    | with_reducible apply State.advance_same
    | with_reducible apply Same.ite
    | split
    | dsimp only

theorem State.startSlew_same {kl : List Kind} (hk : within [.tb] kl = true) {s0 s : State} (hs : Same kl s0 s) (r : Int) :
    Same kl s0 (State.startSlew s r) := by
  unfold State.startSlew
  repeat' first
    | with_reducible assumption
    | intro _
    | exact within_trans (by decide) hk
    | with_reducible apply Same.ite
    | with_reducible refine Same.step (within_trans (by decide) hk) (Same.set_tb _ _) ?_
    | split
    | dsimp only

theorem State.startTrack_same {kl : List Kind} (hk : within [.tb] kl = true) {s0 s : State} (hs : Same kl s0 s) (r : Int) :
    Same kl s0 (State.startTrack s r) := by
  unfold State.startTrack
  repeat' first
    | with_reducible assumption
    | intro _
    | exact within_trans (by decide) hk
    | with_reducible apply Same.ite
    | with_reducible refine Same.step (within_trans (by decide) hk) (Same.set_tb _ _) ?_
    | split
    | dsimp only

theorem State.endSlew_same {kl : List Kind} (hk : within [.tb] kl = true) {s0 s : State} (hs : Same kl s0 s) (tq : Int) :
    Same kl s0 (State.endSlew s tq) := by
  unfold State.endSlew
  repeat' first
    | with_reducible assumption
    | intro _
    | exact within_trans (by decide) hk
    | with_reducible apply Same.ite
    | with_reducible refine Same.step (within_trans (by decide) hk) (Same.set_tb _ _) ?_
    | split
    | dsimp only

theorem execPhaseSlewDone_same {kl : List Kind} (hk : within [.tb, .ic, .perf, .pwr] kl = true) {s0 s : State} (hs : Same kl s0 s) :
    OSame kl s0 (execPhaseSlewDone s) := by
  unfold execPhaseSlewDone
  repeat' first
    | with_reducible assumption
    | intro _
    | exact within_trans (by decide) hk
    | with_reducible apply OSame.next
    | with_reducible apply OSame.fault
    | with_reducible apply OSame.ite
    | with_reducible apply State.runTo_same
    | with_reducible apply State.endSlew_same
    | with_reducible apply Same.ite
    | split
    | dsimp only

theorem State.ctl_same {kl : List Kind} (hk : within [.bx] kl = true) {s0 s : State} (hs : Same kl s0 s) (f : BxCtl) :
    Same kl s0 (State.ctl s f) := by
  unfold State.ctl
  repeat' first
    | with_reducible assumption
    | intro _
    | exact within_trans (by decide) hk
    | with_reducible apply Same.ite
    | with_reducible refine Same.step (within_trans (by decide) hk) (Same.set_bx _ _) ?_
    | split
    | dsimp only

theorem State.carry_same {kl : List Kind} (hk : within [.bx] kl = true) {s0 s : State} (hs : Same kl s0 s) (f : BxCtl) :
    Same kl s0 (State.carry s f) := by
  unfold State.carry
  repeat' first
    | with_reducible assumption
    | intro _
    | exact within_trans (by decide) hk
    | with_reducible apply State.ctl_same
    | with_reducible apply Same.ite
    | split
    | dsimp only

theorem State.stampStep_same {kl : List Kind} (hk : within [.tb, .bx] kl = true) {s0 s : State} (hs : Same kl s0 s) (c : Int) :
    Same kl s0 (State.stampStep s c) := by
  unfold State.stampStep
  repeat' first
    | with_reducible assumption
    | intro _
    | exact within_trans (by decide) hk
    | with_reducible apply Same.iteFst
    | with_reducible apply State.carry_same
    | with_reducible apply Same.ite
    | split
    | with_reducible refine Same.step (within_trans (by decide) hk) (Same.set_tb _ _) ?_
    | dsimp only

theorem State.steerBy_same {kl : List Kind} (hk : within [.ref] kl = true) {s0 s : State} (hs : Same kl s0 s) (ofs : Int) :
    Same kl s0 (State.steerBy s ofs) := by
  unfold State.steerBy
  repeat' first
    | with_reducible assumption
    | intro _
    | exact within_trans (by decide) hk
    | with_reducible apply Same.iteFst
    | with_reducible apply Same.ite
    | with_reducible refine Same.step (within_trans (by decide) hk) (Same.set_ref _ _) ?_
    | split
    | dsimp only

theorem State.ppsEdge_same {kl : List Kind} (hk : within [.tb, .ref, .pps, .bx, .ic, .pwr] kl = true) {s0 s : State} (hs : Same kl s0 s) (high : Bool) :
    Same kl s0 (State.ppsEdge s high) := by
  unfold State.ppsEdge
  repeat' first
    | with_reducible assumption
    | intro _
    | exact within_trans (by decide) hk
    | with_reducible apply State.wakeBy_same
    | with_reducible apply State.raise_same
    | with_reducible apply State.stampStep_same
    | with_reducible apply State.steerBy_same
    | with_reducible apply Same.ite
    | with_reducible refine Same.step (within_trans (by decide) hk) (Same.set_pps _ _) ?_
    | split
    | dsimp only

theorem execPpsLoss_same {kl : List Kind} (hk : within [.tb, .pps, .ic, .err, .perf, .pwr] kl = true) {s0 s : State} (hs : Same kl s0 s) :
    OSame kl s0 (execPpsLoss s) := by
  unfold execPpsLoss
  repeat' first
    | with_reducible assumption
    | intro _
    | exact within_trans (by decide) hk
    | with_reducible apply OSame.next
    | with_reducible apply OSame.fault
    | with_reducible apply OSame.ite
    | with_reducible apply State.wakeBy_same
    | with_reducible apply State.raise_same
    | with_reducible apply State.runTo_same
    | with_reducible apply State.timeReport_same
    | with_reducible apply Same.ite
    | split
    | with_reducible refine Same.step (within_trans (by decide) hk) (Same.set_pps _ _) ?_
    | dsimp only

theorem cmdTsSetTick_same {kl : List Kind} (hk : within [.tb, .bx] kl = true) {s0 s : State} (hs : Same kl s0 s) (env : Env) (p : List W32) :
    Same kl s0 (cmdTsSetTick s env p).state := by
  unfold cmdTsSetTick
  repeat' first
    | with_reducible assumption
    | intro _
    | exact within_trans (by decide) hk
    | with_reducible apply fail_same
    | with_reducible apply okay_same
    | with_reducible apply done_same
    | with_reducible apply wait_same
    | with_reducible apply Same.iteRes
    | with_reducible apply Same.iteFst
    | with_reducible apply State.carry_same
    | with_reducible apply Same.ite
    | with_reducible refine Same.step (within_trans (by decide) hk) (Same.set_tb _ _) ?_
    | split
    | dsimp only

theorem State.moveAnchor_same {kl : List Kind} (hk : within [.tb] kl = true) {s0 s : State} (hs : Same kl s0 s) :
    Same kl s0 (State.moveAnchor s) := by
  unfold State.moveAnchor
  repeat' first
    | with_reducible assumption
    | intro _
    | exact within_trans (by decide) hk
    | with_reducible apply Same.ite
    | with_reducible refine Same.step (within_trans (by decide) hk) (Same.set_tb _ _) ?_
    | split
    | dsimp only

theorem State.setDiscipline_same {kl : List Kind} (hk : within [.tb, .ref, .pps, .ch, .cl, .env, .st, .qp, .ic, .pwr] kl = true) {s0 s : State} (hs : Same kl s0 s) (mode window : Nat) (comp : Int) :
    Same kl s0 (State.setDiscipline s mode window comp) := by
  unfold State.setDiscipline
  repeat' first
    | with_reducible assumption
    | intro _
    | exact within_trans (by decide) hk
    | with_reducible apply State.wakeBy_same
    | with_reducible apply State.raise_same
    | with_reducible apply State.settle_same
    | with_reducible apply State.moveAnchor_same
    | with_reducible apply Same.ite
    | with_reducible refine Same.step (within_trans (by decide) hk) (Same.set_ref_pps _ _ _) ?_
    | split
    | dsimp only

theorem cmdTsDiscipline_same {kl : List Kind} (hk : within [.tb, .ref, .pps, .bx, .ch, .cl, .env, .st, .qp, .ic, .pwr] kl = true) {s0 s : State} (hs : Same kl s0 s) (env : Env) (p : List W32) :
    Same kl s0 (cmdTsDiscipline s env p).state := by
  unfold cmdTsDiscipline
  repeat' first
    | with_reducible assumption
    | intro _
    | exact within_trans (by decide) hk
    | with_reducible apply fail_same
    | with_reducible apply okay_same
    | with_reducible apply done_same
    | with_reducible apply wait_same
    | with_reducible apply Same.iteRes
    | with_reducible apply Same.iteFst
    | with_reducible apply State.carry_same
    | with_reducible apply State.setDiscipline_same
    | with_reducible apply Same.ite
    | split
    | dsimp only

theorem cmdTsSetTime_same {kl : List Kind} (hk : within [.tb, .bx] kl = true) {s0 s : State} (hs : Same kl s0 s) (env : Env) (p : List W32) :
    Same kl s0 (cmdTsSetTime s env p).state := by
  unfold cmdTsSetTime
  repeat' first
    | with_reducible assumption
    | intro _
    | exact within_trans (by decide) hk
    | with_reducible apply fail_same
    | with_reducible apply okay_same
    | with_reducible apply done_same
    | with_reducible apply wait_same
    | with_reducible apply Same.iteRes
    | with_reducible apply State.carry_same
    | with_reducible apply Same.ite
    | split
    | with_reducible refine Same.step (within_trans (by decide) hk) (Same.set_tb _ _) ?_
    | dsimp only

end Sys2Proof.Machine
end

