-- ==== Sys2Proof/Laws/SameLink.lean ====
section
/-! SUPPORT. Frames of the operations of Machine/Link.lean. -/
namespace Sys2Proof.Machine

theorem State.modBx_same {kl : List Kind} (hk : within [.bx] kl = true) {s0 s : State} (hs : Same kl s0 s) (f : Basxus → Basxus) :
    Same kl s0 (State.modBx s f) := by
  unfold State.modBx
  repeat' first
    | with_reducible assumption
    | intro _
    | exact within_trans (by decide) hk
    | with_reducible apply Same.ite
    | with_reducible refine Same.step (within_trans (by decide) hk) (Same.set_bx _ _) ?_
    | split
    | dsimp only

theorem State.modPort_same {kl : List Kind} (hk : within [.bx] kl = true) {s0 s : State} (hs : Same kl s0 s) (up : Bool) (f : BxPort → BxPort) :
    Same kl s0 (State.modPort s up f) := by
  unfold State.modPort
  repeat' first
    | with_reducible assumption
    | intro _
    | exact within_trans (by decide) hk
    | with_reducible apply State.modBx_same
    | with_reducible apply Same.ite
    | split
    | dsimp only

theorem State.linkTo_same {kl : List Kind} (hk : within [.bx, .ic, .pwr] kl = true) {s0 s : State} (hs : Same kl s0 s) (up : Bool) (x : LinkState) :
    Same kl s0 (State.linkTo s up x) := by
  unfold State.linkTo
  repeat' first
    | with_reducible assumption
    | intro _
    | exact within_trans (by decide) hk
    | with_reducible apply State.raise_same
    | with_reducible apply State.modPort_same
    | with_reducible apply Same.ite
    | split
    | dsimp only

theorem State.alignTo_same {kl : List Kind} (hk : within [.tb, .bx, .ic, .pwr] kl = true) {s0 s : State} (hs : Same kl s0 s) (x : AlignState) :
    Same kl s0 (State.alignTo s x) := by
  unfold State.alignTo
  repeat' first
    | with_reducible assumption
    | intro _
    | exact within_trans (by decide) hk
    | with_reducible apply State.raise_same
    | with_reducible apply State.startTrack_same
    | with_reducible apply State.modBx_same
    | with_reducible apply Same.ite
    | split
    | dsimp only

theorem State.alignFault_same {kl : List Kind} (hk : within [.tb, .bx, .ic, .pwr] kl = true) {s0 s : State} (hs : Same kl s0 s) (cause : Nat) :
    Same kl s0 (State.alignFault s cause) := by
  unfold State.alignFault
  repeat' first
    | with_reducible assumption
    | intro _
    | exact within_trans (by decide) hk
    | with_reducible apply State.modBx_same
    | with_reducible apply State.alignTo_same
    | with_reducible apply Same.ite
    | split
    | dsimp only

theorem State.number_same {kl : List Kind} (hk : within [.tb, .bx, .ic, .pwr] kl = true) {s0 s : State} (hs : Same kl s0 s) :
    Same kl s0 (State.number s) := by
  unfold State.number
  repeat' first
    | with_reducible assumption
    | intro _
    | exact within_trans (by decide) hk
    | with_reducible apply State.modBx_same
    | with_reducible apply State.linkTo_same
    | with_reducible apply State.alignTo_same
    | with_reducible apply Same.ite
    | split
    | dsimp only

theorem State.tickCheck_same {kl : List Kind} (hk : within [.tb, .bx, .ic, .pwr] kl = true) {s0 s : State} (hs : Same kl s0 s) :
    Same kl s0 (State.tickCheck s) := by
  unfold State.tickCheck
  repeat' first
    | with_reducible assumption
    | intro _
    | exact within_trans (by decide) hk
    | with_reducible apply State.alignFault_same
    | with_reducible apply Same.ite
    | split
    | dsimp only

theorem State.badBlocks_same {kl : List Kind} (hk : within [.bx] kl = true) {s0 s : State} (hs : Same kl s0 s) (up : Bool) (n : Nat) :
    Same kl s0 (State.badBlocks s up n) := by
  unfold State.badBlocks
  repeat' first
    | with_reducible assumption
    | intro _
    | exact within_trans (by decide) hk
    | with_reducible apply State.modPort_same
    | with_reducible apply Same.ite
    | split
    | dsimp only

theorem State.lanesOf_same {kl : List Kind} (hk : within [.bx] kl = true) {s0 s : State} (hs : Same kl s0 s) (up : Bool) (rx : BxRx) :
    Same kl s0 (State.lanesOf s up rx) := by
  unfold State.lanesOf
  repeat' first
    | with_reducible assumption
    | intro _
    | exact within_trans (by decide) hk
    | with_reducible apply State.modPort_same
    | with_reducible apply State.badBlocks_same
    | with_reducible apply Same.ite
    | split
    | dsimp only

theorem execBxPortUp_same {kl : List Kind} (hk : within [.tb, .bx, .ch, .cl, .env, .st, .qp, .ic, .pwr] kl = true) {s0 s : State} (hs : Same kl s0 s) (up : Bool) (bad : Nat) :
    OSame kl s0 (execBxPortUp up bad s) := by
  unfold execBxPortUp
  repeat' first
    | with_reducible assumption
    | intro _
    | exact within_trans (by decide) hk
    | with_reducible apply OSame.next
    | with_reducible apply OSame.fault
    | with_reducible apply OSame.ite
    | with_reducible apply State.settle_same
    | with_reducible apply State.hold_same
    | with_reducible apply State.ctl_same
    | with_reducible apply State.modBx_same
    | with_reducible apply State.modPort_same
    | with_reducible apply State.linkTo_same
    | with_reducible apply State.alignTo_same
    | with_reducible apply State.number_same
    | with_reducible apply State.tickCheck_same
    | with_reducible apply State.badBlocks_same
    | with_reducible apply Same.ite
    | split
    | dsimp only

theorem execBxLeaderTimeout_same {kl : List Kind} (hk : within [.tb, .bx, .ch, .cl, .env, .st, .qp, .ic, .pwr] kl = true) {s0 s : State} (hs : Same kl s0 s) (rx : BxRx) :
    OSame kl s0 (execBxLeaderTimeout rx s) := by
  unfold execBxLeaderTimeout
  repeat' first
    | with_reducible assumption
    | intro _
    | exact within_trans (by decide) hk
    | with_reducible apply OSame.next
    | with_reducible apply OSame.fault
    | with_reducible apply OSame.ite
    | with_reducible apply State.settle_same
    | with_reducible apply State.hold_same
    | with_reducible apply State.modBx_same
    | with_reducible apply State.alignTo_same
    | with_reducible apply State.lanesOf_same
    | with_reducible apply Same.ite
    | split
    | dsimp only

theorem State.portGone_same {kl : List Kind} (hk : within [.tb, .ref, .bx, .ch, .cl, .env, .st, .qp, .ic, .err, .perf, .pwr] kl = true) {s0 s : State} (hs : Same kl s0 s) (up : Bool) (x : LinkState) :
    Same kl s0 (State.portGone s up x) := by
  unfold State.portGone
  repeat' first
    | with_reducible assumption
    | intro _
    | exact within_trans (by decide) hk
    | with_reducible apply State.hold_same
    | with_reducible apply State.refLose_same
    | with_reducible apply State.modBx_same
    | with_reducible apply State.modPort_same
    | with_reducible apply State.linkTo_same
    | with_reducible apply State.alignTo_same
    | with_reducible apply Same.ite
    | split
    | dsimp only

theorem execBxPortLost_same {kl : List Kind} (hk : within [.tb, .ref, .bx, .ch, .cl, .env, .st, .qp, .ic, .err, .perf, .pwr] kl = true) {s0 s : State} (hs : Same kl s0 s) (up : Bool) (failed : Nat) :
    OSame kl s0 (execBxPortLost up failed s) := by
  unfold execBxPortLost
  repeat' first
    | with_reducible assumption
    | intro _
    | exact within_trans (by decide) hk
    | with_reducible apply OSame.next
    | with_reducible apply OSame.fault
    | with_reducible apply OSame.ite
    | with_reducible apply State.report_same
    | with_reducible apply State.badBlocks_same
    | with_reducible apply State.portGone_same
    | with_reducible apply Same.ite
    | split
    | dsimp only

theorem execBxCapReceived_same {kl : List Kind} (hk : within [.tb, .ref, .bx, .ch, .cl, .env, .st, .qp, .ic, .err, .perf, .pwr] kl = true) {s0 s : State} (hs : Same kl s0 s) (up : Bool) (cap : W64) (rx : BxRx) :
    OSame kl s0 (execBxCapReceived up cap rx s) := by
  unfold execBxCapReceived
  repeat' first
    | with_reducible assumption
    | intro _
    | exact within_trans (by decide) hk
    | with_reducible apply OSame.next
    | with_reducible apply OSame.fault
    | with_reducible apply OSame.ite
    | with_reducible apply State.report_same
    | with_reducible apply State.settle_same
    | with_reducible apply State.refLose_same
    | with_reducible apply State.modPort_same
    | with_reducible apply State.linkTo_same
    | with_reducible apply State.number_same
    | with_reducible apply State.tickCheck_same
    | with_reducible apply State.lanesOf_same
    | with_reducible apply State.portGone_same
    | with_reducible apply Same.ite
    | split
    | dsimp only

theorem execBxTimeFrame_same {kl : List Kind} (hk : within [.bx] kl = true) {s0 s : State} (hs : Same kl s0 s) (up : Bool) (t : BxTimes) (bad : Nat) :
    OSame kl s0 (execBxTimeFrame up t bad s) := by
  unfold execBxTimeFrame
  repeat' first
    | with_reducible assumption
    | intro _
    | exact within_trans (by decide) hk
    | with_reducible apply OSame.next
    | with_reducible apply OSame.fault
    | with_reducible apply OSame.ite
    | with_reducible apply State.modPort_same
    | with_reducible apply State.badBlocks_same
    | with_reducible apply Same.ite
    | split
    | dsimp only

theorem State.alignOn_same {kl : List Kind} (hk : within [.tb, .bx, .ic, .pwr] kl = true) {s0 s : State} (hs : Same kl s0 s) (θ : Int) :
    Same kl s0 (State.alignOn s θ) := by
  unfold State.alignOn
  repeat' first
    | with_reducible assumption
    | intro _
    | exact within_trans (by decide) hk
    | with_reducible apply Same.iteFst
    | with_reducible apply State.startSlew_same
    | with_reducible apply State.startTrack_same
    | with_reducible apply State.modBx_same
    | with_reducible apply State.alignTo_same
    | with_reducible apply State.alignFault_same
    | with_reducible apply Same.ite
    | split
    | dsimp only

theorem execBxOffsetUpdate_same {kl : List Kind} (hk : within [.tb, .bx, .ic, .pwr] kl = true) {s0 s : State} (hs : Same kl s0 s) (up : Bool) :
    OSame kl s0 (execBxOffsetUpdate up s) := by
  unfold execBxOffsetUpdate
  repeat' first
    | with_reducible assumption
    | intro _
    | exact within_trans (by decide) hk
    | with_reducible apply OSame.next
    | with_reducible apply OSame.fault
    | with_reducible apply OSame.ite
    | with_reducible apply State.modBx_same
    | with_reducible apply State.modPort_same
    | with_reducible apply State.tickCheck_same
    | with_reducible apply State.alignOn_same
    | with_reducible apply Same.ite
    | split
    | dsimp only

theorem State.takeControl_same {kl : List Kind} (hk : within [.tb, .ref, .pps, .bx, .ch, .cl, .env, .st, .qp, .ic, .pwr] kl = true) {s0 s : State} (hs : Same kl s0 s) (f : BxCtl) :
    Same kl s0 (State.takeControl s f) := by
  unfold State.takeControl
  repeat' first
    | with_reducible assumption
    | intro _
    | exact within_trans (by decide) hk
    | with_reducible apply State.setDiscipline_same
    | with_reducible apply State.modBx_same
    | with_reducible apply Same.ite
    | split
    | with_reducible refine Same.step (within_trans (by decide) hk) (Same.set_tb _ _) ?_
    | dsimp only

theorem execBxControlFrame_same {kl : List Kind} (hk : within [.tb, .ref, .pps, .bx, .ch, .cl, .env, .st, .qp, .ic, .pwr] kl = true) {s0 s : State} (hs : Same kl s0 s) (f : BxCtl) :
    OSame kl s0 (execBxControlFrame f s) := by
  unfold execBxControlFrame
  repeat' first
    | with_reducible assumption
    | intro _
    | exact within_trans (by decide) hk
    | with_reducible apply OSame.next
    | with_reducible apply OSame.fault
    | with_reducible apply OSame.ite
    | with_reducible apply State.ctl_same
    | with_reducible apply State.takeControl_same
    | with_reducible apply Same.ite
    | split
    | dsimp only

theorem State.fwdRecord_same {kl : List Kind} (hk : within [.bx] kl = true) {s0 s : State} (hs : Same kl s0 s) (up : Bool) (src : Nat) (v : W64) :
    Same kl s0 (State.fwdRecord s up src v) := by
  unfold State.fwdRecord
  repeat' first
    | with_reducible assumption
    | intro _
    | exact within_trans (by decide) hk
    | with_reducible apply State.modPort_same
    | with_reducible apply Same.ite
    | split
    | dsimp only

theorem State.fwdLosses_same {kl : List Kind} (hk : within [.bx] kl = true) {s0 s : State} (hs : Same kl s0 s) (up : Bool) (src : Nat) :
    Same kl s0 (State.fwdLosses s up src) := by
  unfold State.fwdLosses
  repeat' first
    | with_reducible assumption
    | intro _
    | exact within_trans (by decide) hk
    | with_reducible apply Same.iteFst
    | with_reducible apply State.modPort_same
    | with_reducible apply Same.ite
    | split
    | dsimp only

theorem State.fwdTag_same {kl : List Kind} (hk : within [.bx] kl = true) {s0 s : State} (hs : Same kl s0 s) (up : Bool) (src ch : Nat) (v : W64) :
    Same kl s0 (State.fwdTag s up src ch v) := by
  unfold State.fwdTag
  repeat' first
    | with_reducible assumption
    | intro _
    | exact within_trans (by decide) hk
    | with_reducible apply Same.iteFst
    | with_reducible apply State.modPort_same
    | with_reducible apply Same.ite
    | split
    | dsimp only

theorem State.forward_same {kl : List Kind} (hk : within [.bx] kl = true) {s0 s : State} (hs : Same kl s0 s) (c : Nat) (w : PWord) :
    Same kl s0 (State.forward s c w) := by
  unfold State.forward
  repeat' first
    | with_reducible assumption
    | intro _
    | exact within_trans (by decide) hk
    | with_reducible apply State.fwdRecord_same
    | with_reducible apply State.fwdLosses_same
    | with_reducible apply State.fwdTag_same
    | with_reducible apply Same.ite
    | with_reducible apply Same.foldl
    | with_reducible apply Same.foldlFst
    | split
    | dsimp only

theorem State.relayWord_same {kl : List Kind} (hk : within [.bx] kl = true) {s0 s : State} (hs : Same kl s0 s) (src : Nat) (v : W64) :
    Same kl s0 (State.relayWord s src v) := by
  unfold State.relayWord
  repeat' first
    | with_reducible assumption
    | intro _
    | exact within_trans (by decide) hk
    | with_reducible apply State.fwdRecord_same
    | with_reducible apply State.fwdLosses_same
    | with_reducible apply State.fwdTag_same
    | with_reducible apply Same.ite
    | split
    | dsimp only

theorem execBxTagFrame_same {kl : List Kind} (hk : within [.tb, .bx, .ch, .cl, .mem, .ue, .dma, .noStream, .ic, .perf, .pwr] kl = true) {s0 s : State} (hs : Same kl s0 s) (up : Bool) (src : Fin 16) (words : List W64) :
    OSame kl s0 (execBxTagFrame up src words s) := by
  unfold execBxTagFrame
  repeat' first
    | with_reducible assumption
    | intro _
    | exact within_trans (by decide) hk
    | with_reducible apply OSame.next
    | with_reducible apply OSame.fault
    | with_reducible apply OSame.ite
    | with_reducible apply State.remoteWord_same
    | with_reducible apply State.relayWord_same
    | with_reducible apply Same.ite
    | with_reducible apply Same.foldl
    | with_reducible apply Same.foldlFst
    | split
    | dsimp only

theorem State.enablePort_same {kl : List Kind} (hk : within [.tb, .ref, .bx, .ch, .cl, .env, .st, .qp, .ic, .err, .perf, .pwr] kl = true) {s0 s : State} (hs : Same kl s0 s) (up on : Bool) (fwd : Nat) :
    Same kl s0 (State.enablePort s up on fwd) := by
  unfold State.enablePort
  repeat' first
    | with_reducible assumption
    | intro _
    | exact within_trans (by decide) hk
    | with_reducible apply State.modPort_same
    | with_reducible apply State.linkTo_same
    | with_reducible apply State.portGone_same
    | with_reducible apply Same.ite
    | split
    | dsimp only

theorem cmdBxLink_same {kl : List Kind} (hk : within [.tb, .ref, .bx, .ch, .cl, .env, .st, .qp, .ic, .err, .perf, .pwr] kl = true) {s0 s : State} (hs : Same kl s0 s) (p : List W32) :
    Same kl s0 (cmdBxLink s p).state := by
  unfold cmdBxLink
  repeat' first
    | with_reducible assumption
    | intro _
    | exact within_trans (by decide) hk
    | with_reducible apply fail_same
    | with_reducible apply okay_same
    | with_reducible apply done_same
    | with_reducible apply wait_same
    | with_reducible apply Same.iteRes
    | with_reducible apply State.settle_same
    | with_reducible apply State.modBx_same
    | with_reducible apply State.enablePort_same
    | with_reducible apply Same.ite
    | split
    | dsimp only

theorem cmdBxAlign_same {kl : List Kind} (hk : within [.tb, .bx, .ic, .pwr] kl = true) {s0 s : State} (hs : Same kl s0 s) (p : List W32) :
    Same kl s0 (cmdBxAlign s p).state := by
  unfold cmdBxAlign
  repeat' first
    | with_reducible assumption
    | intro _
    | exact within_trans (by decide) hk
    | with_reducible apply fail_same
    | with_reducible apply okay_same
    | with_reducible apply done_same
    | with_reducible apply wait_same
    | with_reducible apply Same.iteRes
    | with_reducible apply State.modBx_same
    | with_reducible apply State.alignTo_same
    | with_reducible apply State.tickCheck_same
    | with_reducible apply Same.ite
    | split
    | dsimp only

end Sys2Proof.Machine
end

