-- ==== Sys2Proof/Laws/SameMerge.lean ====
section
/-! SUPPORT. Frames of the operations of Machine/Merge.lean. -/
namespace Sys2Proof.Machine

theorem State.decoderWord_same {kl : List Kind} (hk : within [.dec] kl = true) {s0 s : State} (hs : Same kl s0 s) (c : Nat) (w : PWord) :
    Same kl s0 (State.decoderWord s c w) := by
  unfold State.decoderWord
  repeat' first
    | with_reducible assumption
    | intro _
    | exact within_trans (by decide) hk
    | with_reducible apply State.modDec_same
    | with_reducible apply Same.ite
    | with_reducible apply Same.each
    | split
    | dsimp only

theorem State.export__same {kl : List Kind} (hk : within [.cl] kl = true) {s0 s : State} (hs : Same kl s0 s) (c : Nat) (w : PWord) :
    Same kl s0 (State.export_ s c w) := by
  unfold State.export_
  repeat' first
    | with_reducible assumption
    | intro _
    | exact within_trans (by decide) hk
    | with_reducible apply State.modCl_same
    | with_reducible apply Same.ite
    | with_reducible apply Same.each
    | split
    | dsimp only

theorem State.closers_same {kl : List Kind} (hk : within [.ch, .cl, .bank, .dma, .posted, .env, .st, .qp, .ic, .err, .perf, .pwr] kl = true) {s0 s : State} (hs : Same kl s0 s) (c : Nat) :
    Same kl s0 (State.closers s c) := by
  unfold State.closers
  repeat' first
    | with_reducible assumption
    | intro _
    | exact within_trans (by decide) hk
    | with_reducible apply State.dmaFinish_same
    | with_reducible apply Same.ite
    | with_reducible apply Same.each
    | split
    | dsimp only

theorem State.mergeCounts_same {kl : List Kind} (hk : within [.ic, .perf, .pwr] kl = true) {s0 s : State} (hs : Same kl s0 s) (c : Nat) (w : PWord) :
    Same kl s0 (State.mergeCounts s c w) := by
  unfold State.mergeCounts
  repeat' first
    | with_reducible assumption
    | intro _
    | exact within_trans (by decide) hk
    | with_reducible apply State.pcAdd_same
    | with_reducible apply Same.ite
    | split
    | dsimp only

theorem State.distribute_same {kl : List Kind} (hk : within [.bx, .ch, .cl, .slot, .dec, .bank, .mem, .ue, .dma, .posted, .env, .st, .qp, .ic, .err, .perf, .pwr] kl = true) {s0 s : State} (hs : Same kl s0 s) (c : Nat) (w : PWord) :
    Same kl s0 (State.distribute s c w) := by
  unfold State.distribute
  repeat' first
    | with_reducible assumption
    | intro _
    | exact within_trans (by decide) hk
    | with_reducible apply State.modMe_same
    | with_reducible apply State.slotsWord_same
    | with_reducible apply State.ringsWord_same
    | with_reducible apply State.forward_same
    | with_reducible apply State.decoderWord_same
    | with_reducible apply State.export__same
    | with_reducible apply State.closers_same
    | with_reducible apply Same.ite
    | split
    | dsimp only

theorem execMergeRelease_same {kl : List Kind} (hk : within [.tb, .bx, .ch, .cl, .slot, .dec, .bank, .mem, .ue, .dma, .posted, .env, .st, .qp, .ic, .err, .perf, .pwr] kl = true) {s0 s : State} (hs : Same kl s0 s) (c : Fin 4) :
    OSame kl s0 (execMergeRelease c s) := by
  unfold execMergeRelease
  repeat' first
    | with_reducible assumption
    | intro _
    | exact within_trans (by decide) hk
    | with_reducible apply OSame.next
    | with_reducible apply OSame.fault
    | with_reducible apply OSame.ite
    | with_reducible apply State.modCl_same
    | with_reducible apply State.runTo_same
    | with_reducible apply State.mergeCounts_same
    | with_reducible apply State.distribute_same
    | with_reducible apply Same.ite
    | split
    | dsimp only

theorem execTagImport_same {kl : List Kind} (hk : within [.tb, .cl, .ic, .perf, .pwr] kl = true) {s0 s : State} (hs : Same kl s0 s) (c : Fin 4) :
    OSame kl s0 (execTagImport c s) := by
  unfold execTagImport
  repeat' first
    | with_reducible assumption
    | intro _
    | exact within_trans (by decide) hk
    | with_reducible apply OSame.next
    | with_reducible apply OSame.fault
    | with_reducible apply OSame.ite
    | with_reducible apply State.modCl_same
    | with_reducible apply State.takeLane_same
    | with_reducible apply Same.ite
    | split
    | dsimp only

end Sys2Proof.Machine
end

