-- ==== Sys2Proof/Laws/SameQuad.lean ====
section
/-! SUPPORT. Frames of the operations of Machine/Quad.lean. -/
namespace Sys2Proof.Machine

theorem State.qdEvent_same {kl : List Kind} (hk : within [.cl, .tim, .ic, .pwr] kl = true) {s0 s : State} (hs : Same kl s0 s) (d code : Nat) :
    Same kl s0 (State.qdEvent s d code) := by
  unfold State.qdEvent
  repeat' first
    | with_reducible assumption
    | intro _
    | exact within_trans (by decide) hk
    | with_reducible apply State.raise_same
    | with_reducible apply State.event_same
    | with_reducible apply Same.ite
    | split
    | dsimp only

theorem State.qdWrap_same {kl : List Kind} (hk : within [.cl, .tim, .ic, .pwr] kl = true) {s0 s : State} (hs : Same kl s0 s) (d : Nat) (before : W32) :
    Same kl s0 (State.qdWrap s d before) := by
  unfold State.qdWrap
  repeat' first
    | with_reducible assumption
    | intro _
    | exact within_trans (by decide) hk
    | with_reducible apply State.qdEvent_same
    | with_reducible apply Same.ite
    | split
    | dsimp only

theorem State.qdIndex_same {kl : List Kind} (hk : within [.cl, .dec, .tim, .ic, .pwr] kl = true) {s0 s : State} (hs : Same kl s0 s) (d time : Nat) (fl : Bool) :
    Same kl s0 (State.qdIndex s d time fl) := by
  unfold State.qdIndex
  repeat' first
    | with_reducible assumption
    | intro _
    | exact within_trans (by decide) hk
    | with_reducible apply State.modDec_same
    | with_reducible apply State.qdEvent_same
    | with_reducible apply State.qdWrap_same
    | with_reducible apply Same.ite
    | split
    | dsimp only

theorem State.qdStrobe_same {kl : List Kind} (hk : within [.cl, .dec, .tim, .ic, .pwr] kl = true) {s0 s : State} (hs : Same kl s0 s) (d : Nat) (p : Int) (time : Nat) (fl : Bool) :
    Same kl s0 (State.qdStrobe s d p time fl) := by
  unfold State.qdStrobe
  repeat' first
    | with_reducible assumption
    | intro _
    | exact within_trans (by decide) hk
    | with_reducible apply Same.iteFst
    | with_reducible apply State.modDec_same
    | with_reducible apply State.qdEvent_same
    | with_reducible apply Same.ite
    | split
    | dsimp only

theorem State.qdLoss_same {kl : List Kind} (hk : within [.cl, .dec, .tim, .ic, .pwr] kl = true) {s0 s : State} (hs : Same kl s0 s) (d role n time : Nat) (fl : Bool) :
    Same kl s0 (State.qdLoss s d role n time fl) := by
  unfold State.qdLoss
  repeat' first
    | with_reducible assumption
    | intro _
    | exact within_trans (by decide) hk
    | with_reducible apply State.modDec_same
    | with_reducible apply State.qdEvent_same
    | with_reducible apply Same.ite
    | split
    | dsimp only

theorem State.qdIllegal_same {kl : List Kind} (hk : within [.cl, .dec, .tim, .ic, .pwr] kl = true) {s0 s : State} (hs : Same kl s0 s) (d : Nat) (a b : QdItem) :
    Same kl s0 (State.qdIllegal s d a b) := by
  unfold State.qdIllegal
  repeat' first
    | with_reducible assumption
    | intro _
    | exact within_trans (by decide) hk
    | with_reducible apply State.modDec_same
    | with_reducible apply State.qdEvent_same
    | with_reducible apply Same.ite
    | split
    | dsimp only

theorem State.qdTag_same {kl : List Kind} (hk : within [.ch, .cl, .dec, .tim, .ic, .pwr] kl = true) {s0 s : State} (hs : Same kl s0 s) (d role : Nat) (p : Int) (time : Nat) (up fl : Bool) :
    Same kl s0 (State.qdTag s d role p time up fl) := by
  unfold State.qdTag
  repeat' first
    | with_reducible assumption
    | intro _
    | exact within_trans (by decide) hk
    | with_reducible apply State.modDec_same
    | with_reducible apply State.transition_same
    | with_reducible apply State.qdWrap_same
    | with_reducible apply State.qdIndex_same
    | with_reducible apply State.qdStrobe_same
    | with_reducible apply Same.ite
    | split
    | dsimp only

theorem State.qdHandle_same {kl : List Kind} (hk : within [.ch, .cl, .dec, .tim, .ic, .pwr] kl = true) {s0 s : State} (hs : Same kl s0 s) (d : Nat) (i : QdItem) (l : List QdItem) :
    Same kl s0 (State.qdHandle s d i l) := by
  unfold State.qdHandle
  repeat' first
    | with_reducible assumption
    | intro _
    | exact within_trans (by decide) hk
    | with_reducible apply State.modDec_same
    | with_reducible apply State.qdLoss_same
    | with_reducible apply State.qdIllegal_same
    | with_reducible apply State.qdTag_same
    | with_reducible apply Same.ite
    | split
    | dsimp only

theorem execQdTagHandle_same {kl : List Kind} (hk : within [.tb, .ch, .cl, .dec, .tim, .ic, .perf, .pwr] kl = true) {s0 s : State} (hs : Same kl s0 s) (d : Fin 32) :
    OSame kl s0 (execQdTagHandle d s) := by
  unfold execQdTagHandle
  repeat' first
    | with_reducible assumption
    | intro _
    | exact within_trans (by decide) hk
    | with_reducible apply OSame.next
    | with_reducible apply OSame.fault
    | with_reducible apply OSame.ite
    | with_reducible apply State.runTo_same
    | with_reducible apply State.qdHandle_same
    | with_reducible apply Same.ite
    | split
    | dsimp only

theorem execQdSnapshotPublish_same {kl : List Kind} (hk : within [.tb, .dec, .ic, .perf, .pwr] kl = true) {s0 s : State} (hs : Same kl s0 s) (d : Fin 32) :
    OSame kl s0 (execQdSnapshotPublish d s) := by
  unfold execQdSnapshotPublish
  repeat' first
    | with_reducible assumption
    | intro _
    | exact within_trans (by decide) hk
    | with_reducible apply OSame.next
    | with_reducible apply OSame.fault
    | with_reducible apply OSame.ite
    | with_reducible apply State.modDec_same
    | with_reducible apply State.runTo_same
    | with_reducible apply Same.ite
    | split
    | dsimp only

theorem cmdQdDefine_same {kl : List Kind} (hk : within [.deferred] kl = true) {s0 s : State} (hs : Same kl s0 s) (p : List W32) :
    Same kl s0 (cmdQdDefine s p).state := by
  unfold cmdQdDefine
  repeat' first
    | with_reducible assumption
    | intro _
    | exact within_trans (by decide) hk
    | with_reducible apply fail_same
    | with_reducible apply okay_same
    | with_reducible apply done_same
    | with_reducible apply wait_same
    | with_reducible apply Same.iteRes
    | with_reducible apply State.defer_same
    | with_reducible apply Same.ite
    | split
    | dsimp only

theorem State.applyQd_same {kl : List Kind} (hk : within [.cl, .dec, .tim, .ic, .pwr] kl = true) {s0 s : State} (hs : Same kl s0 s) (p : List W32) :
    Same kl s0 (State.applyQd s p) := by
  unfold State.applyQd
  repeat' first
    | with_reducible assumption
    | intro _
    | exact within_trans (by decide) hk
    | with_reducible apply State.modDec_same
    | with_reducible apply State.qdWrap_same
    | with_reducible apply Same.ite
    | split
    | dsimp only

theorem cmdQdRead_same {kl : List Kind} (hk : within [] kl = true) {s0 s : State} (hs : Same kl s0 s) (p : List W32) :
    Same kl s0 (cmdQdRead s p).state := by
  unfold cmdQdRead
  repeat' first
    | with_reducible assumption
    | intro _
    | exact within_trans (by decide) hk
    | with_reducible apply fail_same
    | with_reducible apply okay_same
    | with_reducible apply done_same
    | with_reducible apply wait_same
    | with_reducible apply Same.iteRes
    | with_reducible apply Same.ite
    | split
    | dsimp only

end Sys2Proof.Machine
end

