-- ==== Sys2Proof/Laws/SameRtc.lean ====
section
/-! SUPPORT. Frames of the operations of Machine/Rtc.lean. -/
namespace Sys2Proof.Machine

theorem State.modRtc_same {kl : List Kind} (hk : within [.rtc] kl = true) {s0 s : State} (hs : Same kl s0 s) (f : Rtc → Rtc) :
    Same kl s0 (State.modRtc s f) := by
  unfold State.modRtc
  repeat' first
    | with_reducible assumption
    | intro _
    | exact within_trans (by decide) hk
    | with_reducible apply Same.ite
    | with_reducible refine Same.step (within_trans (by decide) hk) (Same.set_rtc _ _) ?_
    | split
    | dsimp only

theorem State.rtcFree_same {kl : List Kind} (hk : within [.rtc] kl = true) {s0 s : State} (hs : Same kl s0 s) :
    Same kl s0 (State.rtcFree s) := by
  unfold State.rtcFree
  repeat' first
    | with_reducible assumption
    | intro _
    | exact within_trans (by decide) hk
    | with_reducible apply Same.iteFst
    | with_reducible apply State.modRtc_same
    | with_reducible apply Same.ite
    | split
    | dsimp only

theorem State.rtcLatch_same {kl : List Kind} (hk : within [.rtc] kl = true) {s0 s : State} (hs : Same kl s0 s) :
    Same kl s0 (State.rtcLatch s).1 := by
  unfold State.rtcLatch
  repeat' first
    | with_reducible assumption
    | intro _
    | exact within_trans (by decide) hk
    | with_reducible apply Same.iteFst
    | with_reducible apply State.modRtc_same
    | with_reducible apply Same.ite
    | split
    | dsimp only

theorem execRtcSubRead_same {kl : List Kind} (hk : within [.rtc, .lastRead] kl = true) {s0 s : State} (hs : Same kl s0 s) :
    OSame kl s0 (execRtcSubRead s) := by
  unfold execRtcSubRead
  repeat' first
    | with_reducible assumption
    | intro _
    | exact within_trans (by decide) hk
    | with_reducible apply OSame.next
    | with_reducible apply OSame.fault
    | with_reducible apply OSame.ite
    | with_reducible apply Same.iteFst
    | with_reducible apply State.readReturns_same
    | with_reducible apply State.rtcLatch_same
    | with_reducible apply Same.ite
    | split
    | dsimp only

theorem State.rtcWasSet_same {kl : List Kind} (hk : within [.rtc] kl = true) {s0 s : State} (hs : Same kl s0 s) (ofs : Option (BitVec 16)) :
    Same kl s0 (State.rtcWasSet s ofs) := by
  unfold State.rtcWasSet
  repeat' first
    | with_reducible assumption
    | intro _
    | exact within_trans (by decide) hk
    | with_reducible apply State.modRtc_same
    | with_reducible apply Same.ite
    | split
    | dsimp only

theorem State.rtcSlave_same {kl : List Kind} (hk : within [.rtc] kl = true) {s0 s : State} (hs : Same kl s0 s) (sec : Nat) (mark : Int) (ofs : Option (BitVec 16)) :
    Same kl s0 (State.rtcSlave s sec mark ofs) := by
  unfold State.rtcSlave
  repeat' first
    | with_reducible assumption
    | intro _
    | exact within_trans (by decide) hk
    | with_reducible apply State.modRtc_same
    | with_reducible apply State.rtcWasSet_same
    | with_reducible apply Same.ite
    | split
    | dsimp only

theorem State.rtcApply_same {kl : List Kind} (hk : within [.rtc] kl = true) {s0 s : State} (hs : Same kl s0 s) (a : RtcArmed) (mark : Int) :
    Same kl s0 (State.rtcApply s a mark) := by
  unfold State.rtcApply
  repeat' first
    | with_reducible assumption
    | intro _
    | exact within_trans (by decide) hk
    | with_reducible apply State.rtcSlave_same
    | with_reducible apply Same.ite
    | split
    | dsimp only

theorem execSecondMark_same {kl : List Kind} (hk : within [.tb, .ic, .perf, .pwr, .rtc] kl = true) {s0 s : State} (hs : Same kl s0 s) :
    OSame kl s0 (execSecondMark s) := by
  unfold execSecondMark
  repeat' first
    | with_reducible assumption
    | intro _
    | exact within_trans (by decide) hk
    | with_reducible apply OSame.next
    | with_reducible apply OSame.fault
    | with_reducible apply OSame.ite
    | with_reducible apply State.runTo_same
    | with_reducible apply State.rtcApply_same
    | with_reducible apply Same.ite
    | split
    | dsimp only

theorem State.rtcPps_same {kl : List Kind} (hk : within [.rtc] kl = true) {s0 s : State} (hs : Same kl s0 s) (c : Nat) :
    Same kl s0 (State.rtcPps s c) := by
  unfold State.rtcPps
  repeat' first
    | with_reducible assumption
    | intro _
    | exact within_trans (by decide) hk
    | with_reducible apply State.rtcApply_same
    | with_reducible apply Same.ite
    | split
    | dsimp only

theorem execPpsEdge_same {kl : List Kind} (hk : within [.tb, .ref, .pps, .bx, .ic, .perf, .pwr, .rtc] kl = true) {s0 s : State} (hs : Same kl s0 s) (dt : Nat) (high : Bool) :
    OSame kl s0 (execPpsEdge dt high s) := by
  unfold execPpsEdge
  repeat' first
    | with_reducible assumption
    | intro _
    | exact within_trans (by decide) hk
    | with_reducible apply OSame.next
    | with_reducible apply OSame.fault
    | with_reducible apply OSame.ite
    | with_reducible apply State.advance_same
    | with_reducible apply State.ppsEdge_same
    | with_reducible apply State.rtcPps_same
    | with_reducible apply Same.ite
    | split
    | dsimp only

theorem execRtcOffsetApply_same {kl : List Kind} (hk : within [.tb, .ic, .perf, .pwr, .rtc] kl = true) {s0 s : State} (hs : Same kl s0 s) :
    OSame kl s0 (execRtcOffsetApply s) := by
  unfold execRtcOffsetApply
  repeat' first
    | with_reducible assumption
    | intro _
    | exact within_trans (by decide) hk
    | with_reducible apply OSame.next
    | with_reducible apply OSame.fault
    | with_reducible apply OSame.ite
    | with_reducible apply State.runTo_same
    | with_reducible apply State.modRtc_same
    | with_reducible apply Same.ite
    | split
    | dsimp only

theorem execRtcTrimMeasure_same {kl : List Kind} (hk : within [.tb, .ic, .perf, .pwr, .rtc] kl = true) {s0 s : State} (hs : Same kl s0 s) (trim : Int) :
    OSame kl s0 (execRtcTrimMeasure trim s) := by
  unfold execRtcTrimMeasure
  repeat' first
    | with_reducible assumption
    | intro _
    | exact within_trans (by decide) hk
    | with_reducible apply OSame.next
    | with_reducible apply OSame.fault
    | with_reducible apply OSame.ite
    | with_reducible apply State.runTo_same
    | with_reducible apply State.modRtc_same
    | with_reducible apply Same.ite
    | split
    | dsimp only

theorem execXtalFail_same {kl : List Kind} (hk : within [.rtc] kl = true) {s0 s : State} (hs : Same kl s0 s) :
    OSame kl s0 (execXtalFail s) := by
  unfold execXtalFail
  repeat' first
    | with_reducible assumption
    | intro _
    | exact within_trans (by decide) hk
    | with_reducible apply OSame.next
    | with_reducible apply OSame.fault
    | with_reducible apply OSame.ite
    | with_reducible apply State.modRtc_same
    | with_reducible apply State.rtcFree_same
    | with_reducible apply Same.ite
    | split
    | dsimp only

theorem execBackupSwitch_same {kl : List Kind} (hk : within [.rtc] kl = true) {s0 s : State} (hs : Same kl s0 s) (vbat : Bool) :
    OSame kl s0 (execBackupSwitch vbat s) := by
  unfold execBackupSwitch
  repeat' first
    | with_reducible assumption
    | intro _
    | exact within_trans (by decide) hk
    | with_reducible apply OSame.next
    | with_reducible apply OSame.fault
    | with_reducible apply OSame.ite
    | with_reducible apply State.modRtc_same
    | with_reducible apply Same.ite
    | split
    | dsimp only

theorem cmdTsRtcSet_same {kl : List Kind} (hk : within [.rtc] kl = true) {s0 s : State} (hs : Same kl s0 s) (p : List W32) :
    Same kl s0 (cmdTsRtcSet s p).state := by
  unfold cmdTsRtcSet
  repeat' first
    | with_reducible assumption
    | intro _
    | exact within_trans (by decide) hk
    | with_reducible apply fail_same
    | with_reducible apply okay_same
    | with_reducible apply done_same
    | with_reducible apply wait_same
    | with_reducible apply Same.iteRes
    | with_reducible apply State.modRtc_same
    | with_reducible apply State.rtcWasSet_same
    | with_reducible apply Same.ite
    | split
    | dsimp only

theorem cmdTsRtcRead_same {kl : List Kind} (hk : within [.rtc] kl = true) {s0 s : State} (hs : Same kl s0 s) :
    Same kl s0 (cmdTsRtcRead s).state := by
  unfold cmdTsRtcRead
  repeat' first
    | with_reducible assumption
    | intro _
    | exact within_trans (by decide) hk
    | with_reducible apply fail_same
    | with_reducible apply okay_same
    | with_reducible apply done_same
    | with_reducible apply wait_same
    | with_reducible apply Same.iteRes
    | with_reducible apply Same.iteFst
    | with_reducible apply State.rtcLatch_same
    | with_reducible apply Same.ite
    | split
    | dsimp only

end Sys2Proof.Machine
end

