-- ==== Sys2Proof/Laws/SameSecure.lean ====
section
/-! SUPPORT. Frames of the operations of Machine/Secure.lean. -/
namespace Sys2Proof.Machine

theorem State.modSec_same {kl : List Kind} (hk : within [.sec] kl = true) {s0 s : State} (hs : Same kl s0 s) (f : Sec → Sec) :
    Same kl s0 (State.modSec s f) := by
  unfold State.modSec
  repeat' first
    | with_reducible assumption
    | intro _
    | exact within_trans (by decide) hk
    | with_reducible apply Same.ite
    | with_reducible refine Same.step (within_trans (by decide) hk) (Same.set_sec _ _) ?_
    | split
    | dsimp only

theorem State.secReport_same {kl : List Kind} (hk : within [.ic, .err, .perf, .pwr] kl = true) {s0 s : State} (hs : Same kl s0 s) (code mb : Nat) :
    Same kl s0 (State.secReport s code mb) := by
  unfold State.secReport
  repeat' first
    | with_reducible assumption
    | intro _
    | exact within_trans (by decide) hk
    | with_reducible apply State.report_same
    | with_reducible apply Same.ite
    | split
    | dsimp only

theorem State.audit_same {kl : List Kind} (hk : within [.sec] kl = true) {s0 s : State} (hs : Same kl s0 s) (kind role key code : Nat) (arg0 arg1 : W32) :
    Same kl s0 (State.audit s kind role key code arg0 arg1) := by
  unfold State.audit
  repeat' first
    | with_reducible assumption
    | intro _
    | exact within_trans (by decide) hk
    | with_reducible apply Same.iteFst
    | with_reducible apply State.modSec_same
    | with_reducible apply Same.ite
    | split
    | dsimp only

theorem State.auditReq_same {kl : List Kind} (hk : within [.sec] kl = true) {s0 s : State} (hs : Same kl s0 s) (r : SecReq) (kind role key code : Nat) :
    Same kl s0 (State.auditReq s r kind role key code) := by
  unfold State.auditReq
  repeat' first
    | with_reducible assumption
    | intro _
    | exact within_trans (by decide) hk
    | with_reducible apply State.audit_same
    | with_reducible apply Same.ite
    | split
    | dsimp only

theorem State.h2dLeft_same {kl : List Kind} (hk : within [.qp] kl = true) {s0 s : State} (hs : Same kl s0 s) (l : List W32) :
    Same kl s0 (State.h2dLeft s l) := by
  unfold State.h2dLeft
  repeat' first
    | with_reducible assumption
    | intro _
    | exact within_trans (by decide) hk
    | with_reducible apply State.modQp_same
    | with_reducible apply Same.ite
    | split
    | dsimp only

theorem State.dropOthers_same {kl : List Kind} (hk : within [.qp] kl = true) {s0 s : State} (hs : Same kl s0 s) (r : SecReq) :
    Same kl s0 (State.dropOthers s r) := by
  unfold State.dropOthers
  repeat' first
    | with_reducible assumption
    | intro _
    | exact within_trans (by decide) hk
    | with_reducible apply Same.iteFst
    | with_reducible apply State.modQp_same
    | with_reducible apply State.h2dLeft_same
    | with_reducible apply Same.ite
    | split
    | dsimp only

theorem State.takeFrame_same {kl : List Kind} (hk : within [.qp] kl = true) {s0 s : State} (hs : Same kl s0 s) (f : List W32) :
    Same kl s0 (State.takeFrame s f) := by
  unfold State.takeFrame
  repeat' first
    | with_reducible assumption
    | intro _
    | exact within_trans (by decide) hk
    | with_reducible apply State.h2dLeft_same
    | with_reducible apply Same.ite
    | split
    | dsimp only

theorem State.replyFrame_same {kl : List Kind} (hk : within [.qp] kl = true) {s0 s : State} (hs : Same kl s0 s) (r : SecReq) (l : List W32) :
    Same kl s0 (State.replyFrame s r l) := by
  unfold State.replyFrame
  repeat' first
    | with_reducible assumption
    | intro _
    | exact within_trans (by decide) hk
    | with_reducible apply State.modQp_same
    | with_reducible apply Same.ite
    | split
    | dsimp only

theorem State.setSess_same {kl : List Kind} (hk : within [.sec] kl = true) {s0 s : State} (hs : Same kl s0 s) (k : Nat) (x : Option Session) :
    Same kl s0 (State.setSess s k x) := by
  unfold State.setSess
  repeat' first
    | with_reducible assumption
    | intro _
    | exact within_trans (by decide) hk
    | with_reducible apply State.modSec_same
    | with_reducible apply Same.ite
    | split
    | dsimp only

theorem State.closeSess_same {kl : List Kind} (hk : within [.sec] kl = true) {s0 s : State} (hs : Same kl s0 s) (k code : Nat) (arg0 arg1 : W32) :
    Same kl s0 (State.closeSess s k code arg0 arg1) := by
  unfold State.closeSess
  repeat' first
    | with_reducible assumption
    | intro _
    | exact within_trans (by decide) hk
    | with_reducible apply State.audit_same
    | with_reducible apply State.setSess_same
    | with_reducible apply Same.ite
    | split
    | dsimp only

theorem refuse_same {kl : List Kind} (hk : within [] kl = true) {s0 s : State} (hs : Same kl s0 s) (code : Nat) :
    Same kl s0 (refuse s code).1 := by
  unfold refuse
  repeat' first
    | with_reducible assumption
    | intro _
    | exact within_trans (by decide) hk
    | with_reducible apply Same.iteFst
    | with_reducible apply Same.ite
    | split
    | dsimp only

theorem State.inSession_same {kl : List Kind} (hk : within [.qp, .ic, .err, .perf, .sec, .pwr] kl = true) {s0 s : State} (h : Same kl s0 s) (r : SecReq) (user needs : Bool) (code : Nat)
    {f : State → Session → List W32 → Answer} (hf : ∀ t x v, Same kl s0 t → Same kl s0 (f t x v).1) :
    Same kl s0 (s.inSession r user needs code f).1 := by
  unfold State.inSession
  repeat' first
    | with_reducible assumption
    | intro _
    | exact within_trans (by decide) hk
    | with_reducible apply Same.iteFst
    | with_reducible apply hf
    | with_reducible apply refuse_same
    | with_reducible apply State.setSess_same
    | with_reducible apply State.takeFrame_same
    | with_reducible apply State.closeSess_same
    | with_reducible apply State.secReport_same
    | split
    | dsimp only


theorem secChallenge_same {kl : List Kind} (hk : within [.sec] kl = true) {s0 s : State} (hs : Same kl s0 s) (r : SecReq) :
    Same kl s0 (secChallenge s r).1 := by
  unfold secChallenge
  repeat' first
    | with_reducible assumption
    | intro _
    | exact within_trans (by decide) hk
    | with_reducible apply Same.iteFst
    | with_reducible apply State.modSec_same
    | with_reducible apply refuse_same
    | with_reducible apply Same.ite
    | split
    | dsimp only

theorem State.openFailed_same {kl : List Kind} (hk : within [.sec] kl = true) {s0 s : State} (hs : Same kl s0 s) (i : Nat) :
    Same kl s0 (State.openFailed s i) := by
  unfold State.openFailed
  repeat' first
    | with_reducible assumption
    | intro _
    | exact within_trans (by decide) hk
    | with_reducible apply Same.iteFst
    | with_reducible apply State.modSec_same
    | with_reducible apply Same.ite
    | split
    | dsimp only

theorem State.openSess_same {kl : List Kind} (hk : within [.qp, .sec] kl = true) {s0 s : State} (h : Same kl s0 s) (r : SecReq) (role key : Nat) (nonce : BitVec 384) (eph : List W32) :
    Same kl s0 (s.openSess r role key nonce eph).1 := by
  unfold State.openSess
  lift_lets
  intro n own t sig hd x s1 s2
  have k1 : Same kl s0 s1 := State.modSec_same (within_trans (by decide) hk) h _
  have k2 : Same kl s0 s2 := State.auditReq_same (within_trans (by decide) hk) (State.setSess_same (within_trans (by decide) hk) k1 _ _) _ _ _ _ _
  exact Same.fst (State.replyFrame_same (within_trans (by decide) hk) k2 _ _)


theorem secOpenFailed_same {kl : List Kind} (hk : within [.qp, .ic, .err, .perf, .sec, .pwr] kl = true) {s0 s : State} (h : Same kl s0 s) (r : SecReq) (i role key : Nat) : Same kl s0 (secOpen.failed r s i role key).1 :=
  refuse_same rfl (State.auditReq_same (within_trans (by decide) hk) (State.secReport_same (within_trans (by decide) hk) (State.openFailed_same (within_trans (by decide) hk) h _) _ _) _ _ _ _ _) _

theorem secOpenRefused_same {kl : List Kind} (hk : within [.qp, .ic, .err, .perf, .sec, .pwr] kl = true) {s0 s : State} (h : Same kl s0 s) (r : SecReq) (role key c : Nat) : Same kl s0 (secOpen.refused r s role key c) :=
  Same.ite (State.auditReq_same (within_trans (by decide) hk) h _ _ _ _ _) h

theorem secOpen_same {kl : List Kind} (hk : within [.qp, .ic, .err, .perf, .sec, .pwr] kl = true) {s0 s : State} (h : Same kl s0 s) (r : SecReq) : Same kl s0 (secOpen s r).1 := by
  unfold secOpen
  repeat' first
    | with_reducible assumption
    | intro _
    | exact within_trans (by decide) hk
    | with_reducible apply Same.iteFst
    | with_reducible apply refuse_same
    | with_reducible apply secOpenFailed_same
    | with_reducible apply secOpenRefused_same
    | with_reducible apply State.openSess_same
    | with_reducible apply State.auditReq_same
    | with_reducible apply State.takeFrame_same
    | with_reducible apply State.modSec_same
    | with_reducible apply Same.ite
    | split
    | dsimp only


theorem secClose_same {kl : List Kind} (hk : within [.qp, .ic, .err, .perf, .sec, .pwr] kl = true) {s0 s : State} (hs : Same kl s0 s) (r : SecReq) :
    Same kl s0 (secClose s r).1 := by
  unfold secClose
  repeat' first
    | with_reducible assumption
    | intro _
    | exact within_trans (by decide) hk
    | with_reducible apply Same.iteFst
    | with_reducible apply State.closeSess_same
    | with_reducible apply State.inSession_same
    | with_reducible apply Same.ite
    | split
    | dsimp only

theorem secEnroll_same {kl : List Kind} (hk : within [.qp, .ic, .err, .perf, .sec, .pwr] kl = true) {s0 s : State} (hs : Same kl s0 s) (r : SecReq) :
    Same kl s0 (secEnroll s r).1 := by
  unfold secEnroll
  repeat' first
    | with_reducible assumption
    | intro _
    | exact within_trans (by decide) hk
    | with_reducible apply Same.iteFst
    | with_reducible apply State.modSec_same
    | with_reducible apply State.auditReq_same
    | with_reducible apply State.inSession_same
    | with_reducible apply Same.ite
    | split
    | dsimp only

theorem secRemove_same {kl : List Kind} (hk : within [.qp, .ic, .err, .perf, .sec, .pwr] kl = true) {s0 s : State} (hs : Same kl s0 s) (r : SecReq) :
    Same kl s0 (secRemove s r).1 := by
  unfold secRemove
  repeat' first
    | with_reducible assumption
    | intro _
    | exact within_trans (by decide) hk
    | with_reducible apply Same.iteFst
    | with_reducible apply State.modSec_same
    | with_reducible apply State.auditReq_same
    | with_reducible apply State.inSession_same
    | with_reducible apply Same.ite
    | split
    | dsimp only

theorem State.signRecord_same {kl : List Kind} (hk : within [.qp, .sec] kl = true) {s0 s : State} (hs : Same kl s0 s) (r : SecReq) (x : Session) (type mask : Nat) (since : Int) (start : Nat) (data before : List W32) (embed : Bool) :
    Same kl s0 (State.signRecord s r x type mask since start data before embed).1 := by
  unfold State.signRecord
  repeat' first
    | with_reducible assumption
    | intro _
    | exact within_trans (by decide) hk
    | with_reducible apply Same.iteFst
    | with_reducible apply State.modSec_same
    | with_reducible apply State.audit_same
    | with_reducible apply State.replyFrame_same
    | with_reducible apply Same.ite
    | split
    | dsimp only

theorem secSignSlot_same {kl : List Kind} (hk : within [.qp, .ic, .err, .perf, .sec, .pwr] kl = true) {s0 s : State} (hs : Same kl s0 s) (r : SecReq) :
    Same kl s0 (secSignSlot s r).1 := by
  unfold secSignSlot
  repeat' first
    | with_reducible assumption
    | intro _
    | exact within_trans (by decide) hk
    | with_reducible apply Same.iteFst
    | with_reducible apply State.inSession_same
    | with_reducible apply State.signRecord_same
    | with_reducible apply Same.ite
    | split
    | dsimp only

theorem secBlobPart_same {kl : List Kind} (hk : within [.qp, .ic, .err, .perf, .sec, .pwr] kl = true) {s0 s : State} (hs : Same kl s0 s) (r : SecReq) :
    Same kl s0 (secBlobPart s r).1 := by
  unfold secBlobPart
  repeat' first
    | with_reducible assumption
    | intro _
    | exact within_trans (by decide) hk
    | with_reducible apply Same.iteFst
    | with_reducible apply State.setSess_same
    | with_reducible apply State.inSession_same
    | with_reducible apply Same.ite
    | split
    | dsimp only

theorem secBlobEnd_same {kl : List Kind} (hk : within [.qp, .ic, .err, .perf, .sec, .pwr] kl = true) {s0 s : State} (hs : Same kl s0 s) (r : SecReq) :
    Same kl s0 (secBlobEnd s r).1 := by
  unfold secBlobEnd
  repeat' first
    | with_reducible assumption
    | intro _
    | exact within_trans (by decide) hk
    | with_reducible apply Same.iteFst
    | with_reducible apply State.setSess_same
    | with_reducible apply State.inSession_same
    | with_reducible apply State.signRecord_same
    | with_reducible apply Same.ite
    | split
    | dsimp only

theorem secSeal_same {kl : List Kind} (hk : within [.ch, .cl, .env, .st, .qp, .ic, .err, .perf, .sec, .pwr] kl = true) {s0 s : State} (hs : Same kl s0 s) (r : SecReq) :
    Same kl s0 (secSeal s r).1 := by
  unfold secSeal
  repeat' first
    | with_reducible assumption
    | intro _
    | exact within_trans (by decide) hk
    | with_reducible apply Same.iteFst
    | with_reducible apply State.settle_same
    | with_reducible apply State.modSec_same
    | with_reducible apply State.auditReq_same
    | with_reducible apply State.inSession_same
    | with_reducible apply State.signRecord_same
    | with_reducible apply Same.ite
    | split
    | dsimp only

theorem secSealClear_same {kl : List Kind} (hk : within [.ch, .cl, .env, .st, .qp, .ic, .err, .perf, .sec, .pwr] kl = true) {s0 s : State} (hs : Same kl s0 s) (r : SecReq) :
    Same kl s0 (secSealClear s r).1 := by
  unfold secSealClear
  repeat' first
    | with_reducible assumption
    | intro _
    | exact within_trans (by decide) hk
    | with_reducible apply Same.iteFst
    | with_reducible apply State.settle_same
    | with_reducible apply State.modSec_same
    | with_reducible apply State.auditReq_same
    | with_reducible apply State.inSession_same
    | with_reducible apply State.signRecord_same
    | with_reducible apply Same.ite
    | split
    | dsimp only

theorem secAuditRead_same {kl : List Kind} (hk : within [.qp, .ic, .err, .perf, .sec, .pwr] kl = true) {s0 s : State} (hs : Same kl s0 s) (r : SecReq) :
    Same kl s0 (secAuditRead s r).1 := by
  unfold secAuditRead
  repeat' first
    | with_reducible assumption
    | intro _
    | exact within_trans (by decide) hk
    | with_reducible apply Same.iteFst
    | with_reducible apply State.audit_same
    | with_reducible apply State.inSession_same
    | with_reducible apply State.signRecord_same
    | with_reducible apply Same.ite
    | split
    | dsimp only

theorem State.zeroise_same {kl : List Kind} (hk : within [.ch, .cl, .env, .st, .qp, .ic, .err, .perf, .sec, .tamper, .pwr] kl = true) {s0 s : State} (hs : Same kl s0 s) (cause mb : Nat) :
    Same kl s0 (State.zeroise s cause mb) := by
  unfold State.zeroise
  repeat' first
    | with_reducible assumption
    | intro _
    | exact within_trans (by decide) hk
    | with_reducible apply Same.iteFst
    | with_reducible apply State.settle_same
    | with_reducible apply State.modSec_same
    | with_reducible apply State.secReport_same
    | with_reducible apply Same.ite
    | with_reducible refine Same.step (within_trans (by decide) hk) (Same.set_tamper _ _) ?_
    | split
    | dsimp only

theorem secZeroize_same {kl : List Kind} (hk : within [.ch, .cl, .env, .st, .qp, .ic, .err, .perf, .sec, .tamper, .pwr] kl = true) {s0 s : State} (hs : Same kl s0 s) (r : SecReq) :
    Same kl s0 (secZeroize s r).1 := by
  unfold secZeroize
  repeat' first
    | with_reducible assumption
    | intro _
    | exact within_trans (by decide) hk
    | with_reducible apply Same.iteFst
    | with_reducible apply refuse_same
    | with_reducible apply State.inSession_same
    | with_reducible apply State.zeroise_same
    | with_reducible apply Same.ite
    | split
    | dsimp only

theorem secTamperCfg_same {kl : List Kind} (hk : within [.qp, .ic, .err, .perf, .sec, .tamper, .pwr] kl = true) {s0 s : State} (hs : Same kl s0 s) (r : SecReq) :
    Same kl s0 (secTamperCfg s r).1 := by
  unfold secTamperCfg
  repeat' first
    | with_reducible assumption
    | intro _
    | exact within_trans (by decide) hk
    | with_reducible apply Same.iteFst
    | with_reducible apply State.lines_same
    | with_reducible apply State.auditReq_same
    | with_reducible apply State.inSession_same
    | with_reducible apply Same.ite
    | with_reducible refine Same.step (within_trans (by decide) hk) (Same.set_tamper _ _) ?_
    | split
    | dsimp only

theorem execTamperDetect_same {kl : List Kind} (hk : within [.ch, .cl, .env, .st, .qp, .ic, .err, .perf, .sec, .tamper, .pwr] kl = true) {s0 s : State} (hs : Same kl s0 s) (k : Fin 8) (on : Bool) :
    OSame kl s0 (execTamperDetect k on s) := by
  unfold execTamperDetect
  repeat' first
    | with_reducible assumption
    | intro _
    | exact within_trans (by decide) hk
    | with_reducible apply OSame.next
    | with_reducible apply OSame.fault
    | with_reducible apply OSame.ite
    | with_reducible apply State.lines_same
    | with_reducible apply State.audit_same
    | with_reducible apply State.zeroise_same
    | with_reducible apply Same.ite
    | with_reducible refine Same.step (within_trans (by decide) hk) (Same.set_tamper _ _) ?_
    | split
    | dsimp only

theorem State.setSpare_same {kl : List Kind} (hk : within [.sec] kl = true) {s0 s : State} (hs : Same kl s0 s) (f : FwSlot) :
    Same kl s0 (State.setSpare s f) := by
  unfold State.setSpare
  repeat' first
    | with_reducible assumption
    | intro _
    | exact within_trans (by decide) hk
    | with_reducible apply State.modSec_same
    | with_reducible apply Same.ite
    | split
    | dsimp only

theorem State.dropUpdate_same {kl : List Kind} (hk : within [.sec] kl = true) {s0 s : State} (hs : Same kl s0 s) :
    Same kl s0 (State.dropUpdate s) := by
  unfold State.dropUpdate
  repeat' first
    | with_reducible assumption
    | intro _
    | exact within_trans (by decide) hk
    | with_reducible apply State.modSec_same
    | with_reducible apply State.setSpare_same
    | with_reducible apply Same.ite
    | split
    | dsimp only

theorem secFwBegin_same {kl : List Kind} (hk : within [.qp, .ic, .err, .perf, .sec, .pwr] kl = true) {s0 s : State} (hs : Same kl s0 s) (r : SecReq) :
    Same kl s0 (secFwBegin s r).1 := by
  unfold secFwBegin
  repeat' first
    | with_reducible assumption
    | intro _
    | exact within_trans (by decide) hk
    | with_reducible apply Same.iteFst
    | with_reducible apply State.modSec_same
    | with_reducible apply State.inSession_same
    | with_reducible apply State.setSpare_same
    | with_reducible apply Same.ite
    | split
    | dsimp only

theorem secFwData_same {kl : List Kind} (hk : within [.qp, .ic, .err, .perf, .sec, .pwr] kl = true) {s0 s : State} (hs : Same kl s0 s) (r : SecReq) :
    Same kl s0 (secFwData s r).1 := by
  unfold secFwData
  repeat' first
    | with_reducible assumption
    | intro _
    | exact within_trans (by decide) hk
    | with_reducible apply Same.iteFst
    | with_reducible apply State.modSec_same
    | with_reducible apply refuse_same
    | with_reducible apply State.inSession_same
    | with_reducible apply Same.ite
    | split
    | dsimp only

theorem secFwCommit_same {kl : List Kind} (hk : within [.qp, .ic, .err, .perf, .sec, .pwr] kl = true) {s0 s : State} (hs : Same kl s0 s) (r : SecReq) :
    Same kl s0 (secFwCommit s r).1 := by
  unfold secFwCommit
  repeat' first
    | with_reducible assumption
    | intro _
    | exact within_trans (by decide) hk
    | with_reducible apply Same.iteFst
    | with_reducible apply State.modSec_same
    | with_reducible apply State.secReport_same
    | with_reducible apply State.auditReq_same
    | with_reducible apply refuse_same
    | with_reducible apply State.inSession_same
    | with_reducible apply State.setSpare_same
    | with_reducible apply State.dropUpdate_same
    | with_reducible apply Same.ite
    | split
    | dsimp only

theorem secFwAbort_same {kl : List Kind} (hk : within [.qp, .ic, .err, .perf, .sec, .pwr] kl = true) {s0 s : State} (hs : Same kl s0 s) (r : SecReq) :
    Same kl s0 (secFwAbort s r).1 := by
  unfold secFwAbort
  repeat' first
    | with_reducible assumption
    | intro _
    | exact within_trans (by decide) hk
    | with_reducible apply Same.iteFst
    | with_reducible apply State.inSession_same
    | with_reducible apply State.dropUpdate_same
    | with_reducible apply Same.ite
    | split
    | dsimp only

theorem secDebugUnlock_same {kl : List Kind} (hk : within [.ch, .cl, .env, .st, .qp, .ic, .err, .perf, .sec, .tamper, .pwr] kl = true) {s0 s : State} (hs : Same kl s0 s) (r : SecReq) :
    Same kl s0 (secDebugUnlock s r).1 := by
  unfold secDebugUnlock
  repeat' first
    | with_reducible assumption
    | intro _
    | exact within_trans (by decide) hk
    | with_reducible apply Same.iteFst
    | with_reducible apply State.settle_same
    | with_reducible apply State.modSec_same
    | with_reducible apply State.secReport_same
    | with_reducible apply State.auditReq_same
    | with_reducible apply refuse_same
    | with_reducible apply State.inSession_same
    | with_reducible apply State.zeroise_same
    | with_reducible apply Same.ite
    | split
    | dsimp only

theorem secExportCert_same {kl : List Kind} (hk : within [.qp] kl = true) {s0 s : State} (hs : Same kl s0 s) (r : SecReq) :
    Same kl s0 (secExportCert s r).1 := by
  unfold secExportCert
  repeat' first
    | with_reducible assumption
    | intro _
    | exact within_trans (by decide) hk
    | with_reducible apply Same.iteFst
    | with_reducible apply State.replyFrame_same
    | with_reducible apply refuse_same
    | with_reducible apply Same.ite
    | split
    | dsimp only

theorem secService_same {kl : List Kind} (hk : within [.ch, .cl, .env, .st, .qp, .ic, .err, .perf, .sec, .tamper, .pwr] kl = true) {s0 s : State} (h : Same kl s0 s) (r : SecReq) : Same kl s0 (secService s r).1 := by
  unfold secService
  dsimp only
  split
  · exact refuse_same rfl h _
  apply Same.iteFst
  · exact refuse_same rfl h _
  have k := State.dropOthers_same (within_trans (by decide) hk) h r
  split
  · exact secChallenge_same (within_trans (by decide) hk) k r
  · exact secOpen_same (within_trans (by decide) hk) k r
  · exact secClose_same (within_trans (by decide) hk) k r
  · exact secEnroll_same (within_trans (by decide) hk) k r
  · exact secRemove_same (within_trans (by decide) hk) k r
  · exact secSignSlot_same (within_trans (by decide) hk) k r
  · exact secBlobPart_same (within_trans (by decide) hk) k r
  · exact secBlobEnd_same (within_trans (by decide) hk) k r
  · exact secSeal_same (within_trans (by decide) hk) k r
  · exact secSealClear_same (within_trans (by decide) hk) k r
  · exact secAuditRead_same (within_trans (by decide) hk) k r
  · exact secZeroize_same (within_trans (by decide) hk) k r
  · exact secTamperCfg_same (within_trans (by decide) hk) k r
  · exact secFwBegin_same (within_trans (by decide) hk) k r
  · exact secFwData_same (within_trans (by decide) hk) k r
  · exact secFwCommit_same (within_trans (by decide) hk) k r
  · exact secFwAbort_same (within_trans (by decide) hk) k r
  · exact secDebugUnlock_same (within_trans (by decide) hk) k r
  · exact secExportCert_same (within_trans (by decide) hk) k r
  · exact refuse_same rfl k _


theorem secRunGo_same {kl : List Kind} (hk : within [.ch, .cl, .env, .st, .qp, .ic, .err, .perf, .sec, .tamper, .pwr] kl = true) {s0 : State} : ∀ (n : Nat) {s : State} (_ : Same kl s0 s), Same kl s0 (State.secRun.go n s)
  | 0, _, h => h
  | n + 1, s, h => by
    unfold State.secRun.go
    split
    · exact h
    · exact secRunGo_same hk n (State.modSec_same (within_trans (by decide) hk) (secService_same (within_trans (by decide) hk) (State.modSec_same (within_trans (by decide) hk) h _) _) _)

theorem State.secRun_same {kl : List Kind} (hk : within [.ch, .cl, .env, .st, .qp, .ic, .err, .perf, .sec, .tamper, .pwr] kl = true) {s0 s : State} (h : Same kl s0 s) : Same kl s0 s.secRun :=
  State.lines_same (within_trans (by decide) hk) (secRunGo_same hk _ h)


theorem State.secGive_same {kl : List Kind} (hk : within [.mb, .ic, .perf, .pwr] kl = true) {s0 : State} : ∀ (v : List SecAnswer) {s : State} (_ : Same kl s0 s), Same kl s0 (s.secGive v)
  | [], _, h => h
  | a :: v, s, h => by
    unfold State.secGive
    apply Same.ite
    · exact State.secGive_same hk v (State.mbDone_same (within_trans (by decide) hk) h _ _ _)
    · exact State.secGive_same hk v h


theorem State.secReturn_same {kl : List Kind} (hk : within [.mb, .ic, .perf, .sec, .pwr] kl = true) {s0 s : State} (hs : Same kl s0 s) :
    Same kl s0 (State.secReturn s) := by
  unfold State.secReturn
  repeat' first
    | with_reducible assumption
    | intro _
    | exact within_trans (by decide) hk
    | with_reducible apply State.lines_same
    | with_reducible apply State.modSec_same
    | with_reducible apply State.secGive_same
    | with_reducible apply Same.ite
    | split
    | dsimp only

theorem State.secDeliver_same {kl : List Kind} (hk : within [.ch, .cl, .env, .st, .mb, .qp, .ic, .err, .perf, .sec, .tamper, .pwr] kl = true) {s0 s : State} (hs : Same kl s0 s) (r : SecReq) (silent : Bool) :
    Same kl s0 (State.secDeliver s r silent) := by
  unfold State.secDeliver
  repeat' first
    | with_reducible assumption
    | intro _
    | exact within_trans (by decide) hk
    | with_reducible apply State.lines_same
    | with_reducible apply State.modSec_same
    | with_reducible apply State.secRun_same
    | with_reducible apply State.secReturn_same
    | with_reducible apply Same.ite
    | split
    | dsimp only

theorem State.ring_same {kl : List Kind} (hk : within [.ic, .pwr] kl = true) {s0 s : State} (hs : Same kl s0 s) (k : Nat) :
    Same kl s0 (State.ring s k) := by
  unfold State.ring
  repeat' first
    | with_reducible assumption
    | intro _
    | exact within_trans (by decide) hk
    | with_reducible apply State.raise_same
    | with_reducible apply Same.ite
    | split
    | dsimp only

theorem execDoorbellFrame_same {kl : List Kind} (hk : within [.ic, .pwr] kl = true) {s0 s : State} (hs : Same kl s0 s) :
    OSame kl s0 (execDoorbellFrame s) := by
  unfold execDoorbellFrame
  repeat' first
    | with_reducible assumption
    | intro _
    | exact within_trans (by decide) hk
    | with_reducible apply OSame.next
    | with_reducible apply OSame.fault
    | with_reducible apply OSame.ite
    | with_reducible apply State.ring_same
    | with_reducible apply Same.ite
    | split
    | dsimp only

theorem State.selfTest_same {kl : List Kind} (hk : within [.ch, .cl, .env, .st, .qp, .ic, .err, .perf, .sec, .pwr] kl = true) {s0 s : State} (hs : Same kl s0 s) (pass : Bool) :
    Same kl s0 (State.selfTest s pass) := by
  unfold State.selfTest
  repeat' first
    | with_reducible assumption
    | intro _
    | exact within_trans (by decide) hk
    | with_reducible apply State.settle_same
    | with_reducible apply State.modSec_same
    | with_reducible apply State.secReport_same
    | with_reducible apply State.audit_same
    | with_reducible apply Same.ite
    | split
    | dsimp only

theorem execDoorbellSelfTest_same {kl : List Kind} (hk : within [.ch, .cl, .env, .st, .qp, .ic, .err, .perf, .sec, .pwr] kl = true) {s0 s : State} (hs : Same kl s0 s) (pass : Bool) :
    OSame kl s0 (execDoorbellSelfTest pass s) := by
  unfold execDoorbellSelfTest
  repeat' first
    | with_reducible assumption
    | intro _
    | exact within_trans (by decide) hk
    | with_reducible apply OSame.next
    | with_reducible apply OSame.fault
    | with_reducible apply OSame.ite
    | with_reducible apply State.ring_same
    | with_reducible apply State.selfTest_same
    | with_reducible apply Same.ite
    | split
    | dsimp only

theorem execDoorbellCloseSessions_same {kl : List Kind} (hk : within [.ic, .sec, .pwr] kl = true) {s0 s : State} (hs : Same kl s0 s) :
    OSame kl s0 (execDoorbellCloseSessions s) := by
  unfold execDoorbellCloseSessions
  repeat' first
    | with_reducible assumption
    | intro _
    | exact within_trans (by decide) hk
    | with_reducible apply OSame.next
    | with_reducible apply OSame.fault
    | with_reducible apply OSame.ite
    | with_reducible apply State.closeSess_same
    | with_reducible apply State.ring_same
    | with_reducible apply Same.ite
    | split
    | dsimp only

theorem State.lockDebug_same {kl : List Kind} (hk : within [.ch, .cl, .tim, .env, .st, .qp, .ic, .sec, .pwr] kl = true) {s0 s : State} (hs : Same kl s0 s) :
    Same kl s0 (State.lockDebug s) := by
  unfold State.lockDebug
  repeat' first
    | with_reducible assumption
    | intro _
    | exact within_trans (by decide) hk
    | with_reducible apply State.settle_same
    | with_reducible apply State.timSyncAll_same
    | with_reducible apply State.modSec_same
    | with_reducible apply State.audit_same
    | with_reducible apply Same.ite
    | with_reducible refine Same.step (within_trans (by decide) hk) (Same.set_pwr _ _) ?_
    | split
    | dsimp only

theorem execDoorbellLockDebug_same {kl : List Kind} (hk : within [.ch, .cl, .tim, .env, .st, .qp, .ic, .sec, .pwr] kl = true) {s0 s : State} (hs : Same kl s0 s) :
    OSame kl s0 (execDoorbellLockDebug s) := by
  unfold execDoorbellLockDebug
  repeat' first
    | with_reducible assumption
    | intro _
    | exact within_trans (by decide) hk
    | with_reducible apply OSame.next
    | with_reducible apply OSame.fault
    | with_reducible apply OSame.ite
    | with_reducible apply State.ring_same
    | with_reducible apply State.lockDebug_same
    | with_reducible apply Same.ite
    | split
    | dsimp only

theorem execSessionTimeout_same {kl : List Kind} (hk : within [.tb, .ic, .perf, .sec, .pwr] kl = true) {s0 s : State} (hs : Same kl s0 s) (mb7 : Bool) :
    OSame kl s0 (execSessionTimeout mb7 s) := by
  unfold execSessionTimeout
  repeat' first
    | with_reducible assumption
    | intro _
    | exact within_trans (by decide) hk
    | with_reducible apply OSame.next
    | with_reducible apply OSame.fault
    | with_reducible apply OSame.ite
    | with_reducible apply State.runTo_same
    | with_reducible apply State.closeSess_same
    | with_reducible apply Same.ite
    | split
    | dsimp only

theorem execLockoutExpire_same {kl : List Kind} (hk : within [.tb, .ic, .perf, .sec, .pwr] kl = true) {s0 s : State} (hs : Same kl s0 s) (i : Nat) :
    OSame kl s0 (execLockoutExpire i s) := by
  unfold execLockoutExpire
  repeat' first
    | with_reducible assumption
    | intro _
    | exact within_trans (by decide) hk
    | with_reducible apply OSame.next
    | with_reducible apply OSame.fault
    | with_reducible apply OSame.ite
    | with_reducible apply Same.iteFst
    | with_reducible apply State.runTo_same
    | with_reducible apply State.modSec_same
    | with_reducible apply Same.ite
    | split
    | dsimp only

end Sys2Proof.Machine
end

