-- ==== Sys2Proof/Laws/SameHostIf.lean ====
section
/-! SUPPORT. Frames of the operations of Machine/HostIf.lean. -/
namespace Sys2Proof.Machine

theorem execBusMasterEnable_same {kl : List Kind} (hk : within [.pcie] kl = true) {s0 s : State} (hs : Same kl s0 s) (en : Bool) :
    OSame kl s0 (execBusMasterEnable en s) := by
  unfold execBusMasterEnable
  repeat' first
    | with_reducible assumption
    | intro _
    | exact within_trans (by decide) hk
    | with_reducible apply OSame.next
    | with_reducible apply OSame.fault
    | with_reducible apply OSame.ite
    | with_reducible apply Same.ite
    | with_reducible refine Same.step (within_trans (by decide) hk) (Same.set_pcie _ _) ?_
    | split
    | dsimp only

theorem execPcieRetrain_same {kl : List Kind} (hk : within [.pcie, .ic, .err, .perf, .pwr] kl = true) {s0 s : State} (hs : Same kl s0 s) (width speed : Nat) :
    OSame kl s0 (execPcieRetrain width speed s) := by
  unfold execPcieRetrain
  repeat' first
    | with_reducible assumption
    | intro _
    | exact within_trans (by decide) hk
    | with_reducible apply OSame.next
    | with_reducible apply OSame.fault
    | with_reducible apply OSame.ite
    | with_reducible apply State.report_same
    | with_reducible apply Same.ite
    | with_reducible refine Same.step (within_trans (by decide) hk) (Same.set_pcie _ _) ?_
    | split
    | dsimp only

theorem execDataLinkUp_same {kl : List Kind} (hk : within [.tb, .pcie, .ic, .perf, .pwr] kl = true) {s0 s : State} (hs : Same kl s0 s) (width speed : Nat) :
    OSame kl s0 (execDataLinkUp width speed s) := by
  unfold execDataLinkUp
  repeat' first
    | with_reducible assumption
    | intro _
    | exact within_trans (by decide) hk
    | with_reducible apply OSame.next
    | with_reducible apply OSame.fault
    | with_reducible apply OSame.ite
    | with_reducible apply State.raise_same
    | with_reducible apply State.runTo_same
    | with_reducible apply Same.ite
    | with_reducible refine Same.step (within_trans (by decide) hk) (Same.set_pcie _ _) ?_
    | split
    | dsimp only

theorem State.mirrorWrite_same {kl : List Kind} (hk : within [.posted, .mir, .ic, .perf, .pwr] kl = true) {s0 s : State} (hs : Same kl s0 s) :
    Same kl s0 (State.mirrorWrite s) := by
  unfold State.mirrorWrite
  repeat' first
    | with_reducible assumption
    | intro _
    | exact within_trans (by decide) hk
    | with_reducible apply State.pcAdd_same
    | with_reducible apply State.post_same
    | with_reducible apply Same.ite
    | split
    | with_reducible refine Same.step (within_trans (by decide) hk) (Same.set_mir _ _) ?_
    | dsimp only

theorem State.mirrorTick_same {kl : List Kind} (hk : within [.posted, .mir, .ic, .perf, .pwr] kl = true) {s0 s : State} (hs : Same kl s0 s) :
    Same kl s0 (State.mirrorTick s) := by
  unfold State.mirrorTick
  repeat' first
    | with_reducible assumption
    | intro _
    | exact within_trans (by decide) hk
    | with_reducible apply State.mirrorWrite_same
    | with_reducible apply Same.ite
    | split
    | with_reducible refine Same.step (within_trans (by decide) hk) (Same.set_mir _ _) ?_
    | dsimp only

theorem execMirrorWrite_same {kl : List Kind} (hk : within [.posted, .mir, .ic, .perf, .pwr] kl = true) {s0 s : State} (hs : Same kl s0 s) :
    OSame kl s0 (execMirrorWrite s) := by
  unfold execMirrorWrite
  repeat' first
    | with_reducible assumption
    | intro _
    | exact within_trans (by decide) hk
    | with_reducible apply OSame.next
    | with_reducible apply OSame.fault
    | with_reducible apply OSame.ite
    | with_reducible apply State.mirrorWrite_same
    | with_reducible apply Same.ite
    | split
    | dsimp only

theorem State.mirrorStop_same {kl : List Kind} (hk : within [.mir, .deferred] kl = true) {s0 s : State} (hs : Same kl s0 s) :
    Same kl s0 (State.mirrorStop s) := by
  unfold State.mirrorStop
  repeat' first
    | with_reducible assumption
    | intro _
    | exact within_trans (by decide) hk
    | with_reducible apply Same.ite
    | with_reducible refine Same.step (within_trans (by decide) hk) (Same.set_mir_deferred _ _ _) ?_
    | split
    | dsimp only

theorem execMirrorDisable_same {kl : List Kind} (hk : within [.mir, .deferred] kl = true) {s0 s : State} (hs : Same kl s0 s) :
    OSame kl s0 (execMirrorDisable s) := by
  unfold execMirrorDisable
  repeat' first
    | with_reducible assumption
    | intro _
    | exact within_trans (by decide) hk
    | with_reducible apply OSame.next
    | with_reducible apply OSame.fault
    | with_reducible apply OSame.ite
    | with_reducible apply State.mirrorStop_same
    | with_reducible apply Same.ite
    | split
    | dsimp only

theorem cmdSysSetMirror_same {kl : List Kind} (hk : within [.mir, .deferred] kl = true) {s0 s : State} (hs : Same kl s0 s) (p : List W32) :
    Same kl s0 (cmdSysSetMirror s p).state := by
  unfold cmdSysSetMirror
  repeat' first
    | with_reducible assumption
    | intro _
    | exact within_trans (by decide) hk
    | with_reducible apply fail_same
    | with_reducible apply okay_same
    | with_reducible apply done_same
    | with_reducible apply wait_same
    | with_reducible apply Same.iteRes
    | with_reducible apply State.defer_same
    | with_reducible apply State.mirrorStop_same
    | with_reducible apply Same.ite
    | with_reducible refine Same.step (within_trans (by decide) hk) (Same.set_mir _ _) ?_
    | split
    | dsimp only

theorem State.applyMirror_same {kl : List Kind} (hk : within [.mir] kl = true) {s0 s : State} (hs : Same kl s0 s) :
    Same kl s0 (State.applyMirror s) := by
  unfold State.applyMirror
  repeat' first
    | with_reducible assumption
    | intro _
    | exact within_trans (by decide) hk
    | with_reducible apply Same.ite
    | with_reducible refine Same.step (within_trans (by decide) hk) (Same.set_mir _ _) ?_
    | split
    | dsimp only

end Sys2Proof.Machine
end

