-- ==== Sys2Proof/Laws/SameIrq.lean ====
section
/-! SUPPORT. Frames of the operations of Machine/Irq.lean. -/
namespace Sys2Proof.Machine

theorem State.dicDeliver_same {kl : List Kind} (hk : within [.ic, .perf, .pwr] kl = true) {s0 s : State} (hs : Same kl s0 s) (sec : Bool) (k : Nat) (direct : Bool) :
    Same kl s0 (State.dicDeliver s sec k direct) := by
  unfold State.dicDeliver
  repeat' first
    | with_reducible assumption
    | intro _
    | exact within_trans (by decide) hk
    | with_reducible apply State.modSrc_same
    | with_reducible apply State.pcAdd_same
    | with_reducible apply Same.ite
    | with_reducible refine Same.step (within_trans (by decide) hk) (Same.set_ic _ _) ?_
    | split
    | dsimp only

theorem execDicDelivery_same {kl : List Kind} (hk : within [.tb, .ic, .perf, .pwr] kl = true) {s0 s : State} (hs : Same kl s0 s) (sec : Bool) :
    OSame kl s0 (execDicDelivery sec s) := by
  unfold execDicDelivery
  repeat' first
    | with_reducible assumption
    | intro _
    | exact within_trans (by decide) hk
    | with_reducible apply OSame.next
    | with_reducible apply OSame.fault
    | with_reducible apply OSame.ite
    | with_reducible apply State.runTo_same
    | with_reducible apply State.dicDeliver_same
    | with_reducible apply Same.ite
    | split
    | with_reducible refine Same.step (within_trans (by decide) hk) (Same.set_ic _ _) ?_
    | dsimp only

theorem icEoiSpurious_same {kl : List Kind} (hk : within [.ic] kl = true) {s0 s : State} (h : Same kl s0 s) (sec : Bool) (n : Fin 256) : Same kl s0 (execIcEoi.spurious sec n s) := by
  exact Same.step hk (Same.set_ic _ _) h

theorem execIcEoi_same {kl : List Kind} (hk : within [.ic] kl = true) {s0 s : State} (h : Same kl s0 s) (sec : Bool) (n : Fin 256) : OSame kl s0 (execIcEoi sec n s) := by
  unfold execIcEoi
  split
  · apply OSame.ite
    · have k : Same kl s0 { s with ic := s.ic.setStack sec ‹_› } :=
        Same.step hk (Same.set_ic _ _) h
      refine OSame.next (Same.ite (State.modSrc_same hk k _ (Source.complete s.now)) ?_)
      exact Same.step hk (Same.set_ic _ _) (State.modSrc_same hk k _ (Source.complete s.now))
    · exact OSame.next (icEoiSpurious_same hk h _ _)
  · exact OSame.next (icEoiSpurious_same hk h _ _)


theorem execCoalTimeout_same {kl : List Kind} (hk : within [.tb, .ic, .perf, .pwr] kl = true) {s0 s : State} (hs : Same kl s0 s) (k : Fin 256) :
    OSame kl s0 (execCoalTimeout k s) := by
  unfold execCoalTimeout
  repeat' first
    | with_reducible assumption
    | intro _
    | exact within_trans (by decide) hk
    | with_reducible apply OSame.next
    | with_reducible apply OSame.fault
    | with_reducible apply OSame.ite
    | with_reducible apply State.modSrc_same
    | with_reducible apply State.runTo_same
    | with_reducible apply Same.ite
    | split
    | dsimp only

theorem State.lostDue_same {kl : List Kind} (hk : within [.err] kl = true) {s0 s : State} (hs : Same kl s0 s) (cyc : Nat) :
    Same kl s0 (State.lostDue s cyc) := by
  unfold State.lostDue
  repeat' first
    | with_reducible assumption
    | intro _
    | exact within_trans (by decide) hk
    | with_reducible apply Same.ite
    | with_reducible refine Same.step (within_trans (by decide) hk) (Same.set_err _ _) ?_
    | split
    | dsimp only

theorem execErrlogWrite_same {kl : List Kind} (hk : within [.tb, .ic, .err, .perf, .pwr] kl = true) {s0 s : State} (hs : Same kl s0 s) :
    OSame kl s0 (execErrlogWrite s) := by
  unfold execErrlogWrite
  repeat' first
    | with_reducible assumption
    | intro _
    | exact within_trans (by decide) hk
    | with_reducible apply OSame.next
    | with_reducible apply OSame.fault
    | with_reducible apply OSame.ite
    | with_reducible apply State.raise_same
    | with_reducible apply State.runTo_same
    | with_reducible apply State.report_same
    | with_reducible apply State.lostDue_same
    | with_reducible apply Same.ite
    | split
    | with_reducible refine Same.step (within_trans (by decide) hk) (Same.set_err _ _) ?_
    | dsimp only

theorem State.snapRead_same {kl : List Kind} (hk : within [.perf] kl = true) {s0 s : State} (hs : Same kl s0 s) (n : Nat) (host : Bool) :
    Same kl s0 (State.snapRead s n host).1 := by
  unfold State.snapRead
  repeat' first
    | with_reducible assumption
    | intro _
    | exact within_trans (by decide) hk
    | with_reducible apply Same.iteFst
    | with_reducible apply Same.ite
    | with_reducible apply Same.foldl
    | with_reducible apply Same.foldlFst
    | with_reducible refine Same.step (within_trans (by decide) hk) (Same.set_perf _ _) ?_
    | split
    | dsimp only

theorem execPcSnapRead_same {kl : List Kind} (hk : within [.perf, .lastRead] kl = true) {s0 s : State} (hs : Same kl s0 s) (n : Fin 64) (host : Bool) :
    OSame kl s0 (execPcSnapRead n host s) := by
  unfold execPcSnapRead
  repeat' first
    | with_reducible assumption
    | intro _
    | exact within_trans (by decide) hk
    | with_reducible apply OSame.next
    | with_reducible apply OSame.fault
    | with_reducible apply OSame.ite
    | with_reducible apply Same.iteFst
    | with_reducible apply State.readReturns_same
    | with_reducible apply State.snapRead_same
    | with_reducible apply Same.ite
    | split
    | dsimp only

theorem execCounterWrap_same {kl : List Kind} (hk : within [.ic, .perf, .pwr] kl = true) {s0 s : State} (hs : Same kl s0 s) (n : Fin 64) :
    OSame kl s0 (execCounterWrap n s) := by
  unfold execCounterWrap
  repeat' first
    | with_reducible assumption
    | intro _
    | exact within_trans (by decide) hk
    | with_reducible apply OSame.next
    | with_reducible apply OSame.fault
    | with_reducible apply OSame.ite
    | with_reducible apply State.pcAdd_same
    | with_reducible apply Same.ite
    | split
    | dsimp only

end Sys2Proof.Machine
end

