-- ==== Sys2Proof/Laws/SamePower.lean ====
section
/-! SUPPORT. Frames of the operations of Machine/Power.lean. -/
namespace Sys2Proof.Machine

theorem State.modPwr_same {kl : List Kind} (hk : within [.pwr] kl = true) {s0 s : State} (hs : Same kl s0 s) (f : Power → Power) :
    Same kl s0 (State.modPwr s f) := by
  unfold State.modPwr
  repeat' first
    | with_reducible assumption
    | intro _
    | exact within_trans (by decide) hk
    | with_reducible apply Same.ite
    | with_reducible refine Same.step (within_trans (by decide) hk) (Same.set_pwr _ _) ?_
    | split
    | dsimp only

theorem State.gateCluster_same {kl : List Kind} (hk : within [.bx, .ch, .cl, .slot, .dec, .bank, .env, .ic] kl = true) {s0 s : State} (hs : Same kl s0 s) (c : Nat) :
    Same kl s0 (State.gateCluster s c) := by
  unfold State.gateCluster
  repeat' first
    | with_reducible assumption
    | intro _
    | exact within_trans (by decide) hk
    | with_reducible apply State.modIn_same
    | with_reducible apply State.modCl_same
    | with_reducible apply State.modMe_same
    | with_reducible apply State.modSlot_same
    | with_reducible apply State.modDec_same
    | with_reducible apply State.modSrc_same
    | with_reducible apply State.refreshUse_same
    | with_reducible apply State.hold_same
    | with_reducible apply State.carry_same
    | with_reducible apply Same.ite
    | with_reducible apply Same.each
    | with_reducible apply Same.foldl
    | with_reducible apply Same.foldlFst
    | with_reducible refine Same.step (within_trans (by decide) hk) (Same.set_ic _ _) ?_
    | split
    | dsimp only

theorem State.ungateCluster_same {kl : List Kind} (hk : within [.bx, .ch, .cl, .dec, .pwr] kl = true) {s0 s : State} (hs : Same kl s0 s) (c : Nat) :
    Same kl s0 (State.ungateCluster s c) := by
  unfold State.ungateCluster
  repeat' first
    | with_reducible assumption
    | intro _
    | exact within_trans (by decide) hk
    | with_reducible apply State.modIn_same
    | with_reducible apply State.modCl_same
    | with_reducible apply State.modDec_same
    | with_reducible apply State.beginInts_same
    | with_reducible apply State.carry_same
    | with_reducible apply State.modPwr_same
    | with_reducible apply Same.ite
    | with_reducible apply Same.each
    | split
    | dsimp only

theorem State.setGated_same {kl : List Kind} (hk : within [.bx, .ch, .cl, .slot, .dec, .bank, .env, .ic, .pwr] kl = true) {s0 s : State} (hs : Same kl s0 s) (mask : Nat) :
    Same kl s0 (State.setGated s mask) := by
  unfold State.setGated
  repeat' first
    | with_reducible assumption
    | intro _
    | exact within_trans (by decide) hk
    | with_reducible apply State.modPwr_same
    | with_reducible apply State.gateCluster_same
    | with_reducible apply State.ungateCluster_same
    | with_reducible apply Same.ite
    | with_reducible apply Same.each
    | split
    | dsimp only

theorem State.applyPower_same {kl : List Kind} (hk : within [.bx, .ch, .cl, .slot, .dec, .bank, .env, .st, .qp, .ic, .pwr] kl = true) {s0 s : State} (hs : Same kl s0 s) (p : List W32) :
    Same kl s0 (State.applyPower s p) := by
  unfold State.applyPower
  repeat' first
    | with_reducible assumption
    | intro _
    | exact within_trans (by decide) hk
    | with_reducible apply State.raise_same
    | with_reducible apply State.settle_same
    | with_reducible apply State.accrue_same
    | with_reducible apply State.modPwr_same
    | with_reducible apply State.setGated_same
    | with_reducible apply Same.ite
    | split
    | dsimp only

theorem cmdPwrSetState_same {kl : List Kind} (hk : within [.pwr, .deferred] kl = true) {s0 s : State} (hs : Same kl s0 s) (mb : Nat) (p : List W32) :
    Same kl s0 (cmdPwrSetState s mb p).state := by
  unfold cmdPwrSetState
  repeat' first
    | with_reducible assumption
    | intro _
    | exact within_trans (by decide) hk
    | with_reducible apply fail_same
    | with_reducible apply okay_same
    | with_reducible apply done_same
    | with_reducible apply wait_same
    | with_reducible apply Same.iteRes
    | with_reducible apply State.defer_same
    | with_reducible apply State.modPwr_same
    | with_reducible apply Same.ite
    | split
    | dsimp only

theorem cmdPwrRetainBanks_same {kl : List Kind} (hk : within [.pwr] kl = true) {s0 s : State} (hs : Same kl s0 s) (p : List W32) :
    Same kl s0 (cmdPwrRetainBanks s p).state := by
  unfold cmdPwrRetainBanks
  repeat' first
    | with_reducible assumption
    | intro _
    | exact within_trans (by decide) hk
    | with_reducible apply fail_same
    | with_reducible apply okay_same
    | with_reducible apply done_same
    | with_reducible apply wait_same
    | with_reducible apply Same.iteRes
    | with_reducible apply State.modPwr_same
    | with_reducible apply Same.ite
    | split
    | dsimp only

theorem State.retainAbort_same {kl : List Kind} (hk : within [.mb, .ic, .perf, .pwr] kl = true) {s0 s : State} (hs : Same kl s0 s) (r : RetainPend) :
    Same kl s0 (State.retainAbort s r) := by
  unfold State.retainAbort
  repeat' first
    | with_reducible assumption
    | intro _
    | exact within_trans (by decide) hk
    | with_reducible apply State.mbDone_same
    | with_reducible apply State.modPwr_same
    | with_reducible apply Same.ite
    | split
    | dsimp only

theorem State.retainCommit_same {kl : List Kind} (hk : within [.bx, .ch, .cl, .slot, .dec, .bank, .env, .st, .mb, .ic, .perf, .pwr] kl = true) {s0 s : State} (hs : Same kl s0 s) (r : RetainPend) :
    Same kl s0 (State.retainCommit s r) := by
  unfold State.retainCommit
  repeat' first
    | with_reducible assumption
    | intro _
    | exact within_trans (by decide) hk
    | with_reducible apply State.modMb_same
    | with_reducible apply State.raise_same
    | with_reducible apply State.accrue_same
    | with_reducible apply State.vddmWindow_same
    | with_reducible apply State.mbDone_same
    | with_reducible apply State.modPwr_same
    | with_reducible apply State.setGated_same
    | with_reducible apply Same.ite
    | split
    | dsimp only

theorem execRetainCommit_same {kl : List Kind} (hk : within [.tb, .bx, .ch, .cl, .slot, .dec, .bank, .env, .st, .mb, .ic, .perf, .pwr] kl = true) {s0 s : State} (hs : Same kl s0 s) :
    OSame kl s0 (execRetainCommit s) := by
  unfold execRetainCommit
  repeat' first
    | with_reducible assumption
    | intro _
    | exact within_trans (by decide) hk
    | with_reducible apply OSame.next
    | with_reducible apply OSame.fault
    | with_reducible apply OSame.ite
    | with_reducible apply State.runTo_same
    | with_reducible apply State.mbDone_same
    | with_reducible apply State.modPwr_same
    | with_reducible apply State.retainAbort_same
    | with_reducible apply State.retainCommit_same
    | with_reducible apply Same.ite
    | split
    | dsimp only

theorem State.wakeBank_same {kl : List Kind} (hk : within [.bank, .mem, .ue] kl = true) {s0 s : State} (hs : Same kl s0 s) (b : Nat) :
    Same kl s0 (State.wakeBank s b) := by
  unfold State.wakeBank
  repeat' first
    | with_reducible assumption
    | intro _
    | exact within_trans (by decide) hk
    | with_reducible apply State.modBank_same
    | with_reducible apply State.zeroBank_same
    | with_reducible apply Same.ite
    | split
    | dsimp only

theorem State.mcBack_same {kl : List Kind} (hk : within [.ch, .cl, .env, .st, .mb, .qp, .ic, .err, .perf, .sec, .tamper, .pwr] kl = true) {s0 s : State} (hs : Same kl s0 s) :
    Same kl s0 (State.mcBack s) := by
  unfold State.mcBack
  repeat' first
    | with_reducible assumption
    | intro _
    | exact within_trans (by decide) hk
    | with_reducible apply State.secRun_same
    | with_reducible apply State.secReturn_same
    | with_reducible apply Same.ite
    | split
    | dsimp only

theorem State.mbHostReset_same {kl : List Kind} (hk : within [.mb, .ic] kl = true) {s0 s : State} (hs : Same kl s0 s) (m : Nat) :
    Same kl s0 (State.mbHostReset s m) := by
  unfold State.mbHostReset
  repeat' first
    | with_reducible assumption
    | intro _
    | exact within_trans (by decide) hk
    | with_reducible apply State.modMb_same
    | with_reducible apply State.mbUntaken_same
    | with_reducible apply Same.ite
    | split
    | dsimp only

theorem State.dropGroups_same {kl : List Kind} (hk : within [.grp] kl = true) {s0 s : State} (hs : Same kl s0 s) :
    Same kl s0 (State.dropGroups s) := by
  unfold State.dropGroups
  repeat' first
    | with_reducible assumption
    | intro _
    | exact within_trans (by decide) hk
    | with_reducible apply Same.ite
    | with_reducible refine Same.step (within_trans (by decide) hk) (Same.set_grp _ _) ?_
    | split
    | dsimp only

theorem State.cmdHostReset_same {kl : List Kind} (hk : within [.st, .mb, .qp, .grp, .ic, .sec, .pwr] kl = true) {s0 s : State} (hs : Same kl s0 s) :
    Same kl s0 (State.cmdHostReset s) := by
  unfold State.cmdHostReset
  repeat' first
    | with_reducible assumption
    | intro _
    | exact within_trans (by decide) hk
    | with_reducible apply State.modQp_same
    | with_reducible apply State.lines_same
    | with_reducible apply State.modSec_same
    | with_reducible apply State.closeSess_same
    | with_reducible apply State.dropUpdate_same
    | with_reducible apply State.modPwr_same
    | with_reducible apply State.mbHostReset_same
    | with_reducible apply State.dropGroups_same
    | with_reducible apply Same.ite
    | with_reducible apply Same.each
    | with_reducible refine Same.step (within_trans (by decide) hk) (Same.set_st _ _) ?_
    | split
    | dsimp only

theorem State.lateHostReset_same {kl : List Kind} (hk : within [.st, .mb, .qp, .grp, .ic, .sec, .pwr] kl = true) {s0 s : State} (hs : Same kl s0 s) :
    Same kl s0 (State.lateHostReset s) := by
  unfold State.lateHostReset
  repeat' first
    | with_reducible assumption
    | intro _
    | exact within_trans (by decide) hk
    | with_reducible apply State.cmdHostReset_same
    | with_reducible apply Same.ite
    | split
    | dsimp only

theorem execHostReset_same {kl : List Kind} (hk : within [.bank, .dma, .mir, .pcie, .st, .mb, .qp, .grp, .ic, .sec, .pwr, .deferred] kl = true) {s0 s : State} (hs : Same kl s0 s) (linkDown : Bool) :
    OSame kl s0 (execHostReset linkDown s) := by
  unfold execHostReset
  repeat' first
    | with_reducible assumption
    | intro _
    | exact within_trans (by decide) hk
    | with_reducible apply OSame.next
    | with_reducible apply OSame.fault
    | with_reducible apply OSame.ite
    | with_reducible apply State.wakeBy_same
    | with_reducible apply State.raise_same
    | with_reducible apply State.dmaHostReset_same
    | with_reducible apply State.mirrorStop_same
    | with_reducible apply State.modPwr_same
    | with_reducible apply State.cmdHostReset_same
    | with_reducible apply Same.ite
    | with_reducible refine Same.step (within_trans (by decide) hk) (Same.set_mir_pcie _ _ _) ?_
    | split
    | dsimp only

theorem execWake_same {kl : List Kind} (hk : within [.ch, .cl, .bank, .mem, .ue, .env, .st, .mb, .qp, .grp, .ic, .err, .perf, .sec, .tamper, .pwr, .deferred] kl = true) {s0 s : State} (hs : Same kl s0 s) :
    OSame kl s0 (execWake s) := by
  unfold execWake
  repeat' first
    | with_reducible assumption
    | intro _
    | exact within_trans (by decide) hk
    | with_reducible apply OSame.next
    | with_reducible apply OSame.fault
    | with_reducible apply OSame.ite
    | with_reducible apply State.raise_same
    | with_reducible apply State.defer_same
    | with_reducible apply State.accrue_same
    | with_reducible apply State.vddmWindow_same
    | with_reducible apply State.modPwr_same
    | with_reducible apply State.retainAbort_same
    | with_reducible apply State.wakeBank_same
    | with_reducible apply State.mcBack_same
    | with_reducible apply State.lateHostReset_same
    | with_reducible apply Same.ite
    | with_reducible apply Same.each
    | split
    | dsimp only

theorem State.mbAbort_same {kl : List Kind} (hk : within [.mb, .ic, .perf, .pwr] kl = true) {s0 s : State} (hs : Same kl s0 s) (m : Nat) :
    Same kl s0 (State.mbAbort s m) := by
  unfold State.mbAbort
  repeat' first
    | with_reducible assumption
    | intro _
    | exact within_trans (by decide) hk
    | with_reducible apply State.modMb_same
    | with_reducible apply State.mbDone_same
    | with_reducible apply Same.ite
    | split
    | dsimp only

theorem State.mcRestart_same {kl : List Kind} (hk : within [.mb, .grp, .ic, .err, .perf, .pwr] kl = true) {s0 s : State} (hs : Same kl s0 s) (cause arg : Nat) :
    Same kl s0 (State.mcRestart s cause arg) := by
  unfold State.mcRestart
  repeat' first
    | with_reducible assumption
    | intro _
    | exact within_trans (by decide) hk
    | with_reducible apply State.report_same
    | with_reducible apply State.lines_same
    | with_reducible apply State.modPwr_same
    | with_reducible apply State.dropGroups_same
    | with_reducible apply State.mbAbort_same
    | with_reducible apply Same.ite
    | with_reducible apply Same.each
    | split
    | dsimp only

theorem execMcWatchdog_same {kl : List Kind} (hk : within [.mb, .grp, .ic, .err, .perf, .pwr] kl = true) {s0 s : State} (hs : Same kl s0 s) :
    OSame kl s0 (execMcWatchdog s) := by
  unfold execMcWatchdog
  repeat' first
    | with_reducible assumption
    | intro _
    | exact within_trans (by decide) hk
    | with_reducible apply OSame.next
    | with_reducible apply OSame.fault
    | with_reducible apply OSame.ite
    | with_reducible apply State.mcRestart_same
    | with_reducible apply Same.ite
    | split
    | dsimp only

theorem execMcRestartComplete_same {kl : List Kind} (hk : within [.ch, .cl, .env, .st, .mb, .qp, .grp, .ic, .err, .perf, .sec, .tamper, .pwr] kl = true) {s0 s : State} (hs : Same kl s0 s) :
    OSame kl s0 (execMcRestartComplete s) := by
  unfold execMcRestartComplete
  repeat' first
    | with_reducible assumption
    | intro _
    | exact within_trans (by decide) hk
    | with_reducible apply OSame.next
    | with_reducible apply OSame.fault
    | with_reducible apply OSame.ite
    | with_reducible apply State.modPwr_same
    | with_reducible apply State.mcBack_same
    | with_reducible apply State.lateHostReset_same
    | with_reducible apply Same.ite
    | split
    | dsimp only

theorem State.porAssert_same {kl : List Kind} (hk : within [.tb, .ref, .pps, .bx, .ch, .cl, .slot, .dec, .tim, .timWr, .brk, .bank, .mem, .ue, .dma, .noStream, .mir, .pcie, .env, .st, .mb, .goNext, .qp, .grp, .ic, .err, .perf, .sec, .tamper, .pwr, .rtc, .deferred] kl = true) {s0 s : State} (hs : Same kl s0 s) (cause jtag : Nat) : Same kl s0 (State.porAssert s cause jtag) := by
  refine Same.step (t := s.rtcFree) hk ?_ (State.rtcFree_same (within_trans (by decide) hk) hs)
  constructor <;> first | exact .inl (by decide) | exact .inr rfl


theorem execRailExcursion_same {kl : List Kind} (hk : within [.tb, .ref, .pps, .bx, .ch, .cl, .slot, .dec, .tim, .timWr, .brk, .bank, .mem, .ue, .dma, .noStream, .mir, .pcie, .env, .st, .mb, .goNext, .qp, .grp, .ic, .err, .perf, .sec, .tamper, .pwr, .rtc, .deferred] kl = true) {s0 s : State} (hs : Same kl s0 s) :
    OSame kl s0 (execRailExcursion s) := by
  unfold execRailExcursion
  repeat' first
    | with_reducible assumption
    | intro _
    | exact within_trans (by decide) hk
    | with_reducible apply OSame.next
    | with_reducible apply OSame.fault
    | with_reducible apply OSame.ite
    | with_reducible apply State.porAssert_same
    | with_reducible apply Same.ite
    | split
    | dsimp only

theorem execPorN_same {kl : List Kind} (hk : within [.tb, .ref, .pps, .bx, .ch, .cl, .slot, .dec, .tim, .timWr, .brk, .bank, .mem, .ue, .dma, .noStream, .mir, .pcie, .env, .st, .mb, .goNext, .qp, .grp, .ic, .err, .perf, .sec, .tamper, .pwr, .rtc, .deferred] kl = true) {s0 s : State} (hs : Same kl s0 s) :
    OSame kl s0 (execPorN s) := by
  unfold execPorN
  repeat' first
    | with_reducible assumption
    | intro _
    | exact within_trans (by decide) hk
    | with_reducible apply OSame.next
    | with_reducible apply OSame.fault
    | with_reducible apply OSame.ite
    | with_reducible apply State.porAssert_same
    | with_reducible apply Same.ite
    | split
    | dsimp only

theorem execJtagInstruction_same {kl : List Kind} (hk : within [.tb, .ref, .pps, .bx, .ch, .cl, .slot, .dec, .tim, .timWr, .brk, .bank, .mem, .ue, .dma, .noStream, .mir, .pcie, .env, .st, .mb, .goNext, .qp, .grp, .ic, .err, .perf, .sec, .tamper, .pwr, .rtc, .deferred] kl = true) {s0 s : State} (hs : Same kl s0 s) (i : Nat) :
    OSame kl s0 (execJtagInstruction i s) := by
  unfold execJtagInstruction
  repeat' first
    | with_reducible assumption
    | intro _
    | exact within_trans (by decide) hk
    | with_reducible apply OSame.next
    | with_reducible apply OSame.fault
    | with_reducible apply OSame.ite
    | with_reducible apply State.timSyncAll_same
    | with_reducible apply State.modPwr_same
    | with_reducible apply State.porAssert_same
    | with_reducible apply Same.ite
    | split
    | dsimp only

theorem State.moduleBoot_same {kl : List Kind} (hk : within [.ch, .cl, .env, .st, .mb, .qp, .grp, .ic, .err, .perf, .sec, .tamper, .pwr] kl = true) {s0 s : State} (hs : Same kl s0 s) (pass : Bool) :
    Same kl s0 (State.moduleBoot s pass) := by
  unfold State.moduleBoot
  repeat' first
    | with_reducible assumption
    | intro _
    | exact within_trans (by decide) hk
    | with_reducible apply State.settle_same
    | with_reducible apply State.selfTest_same
    | with_reducible apply State.modPwr_same
    | with_reducible apply State.mcBack_same
    | with_reducible apply State.lateHostReset_same
    | with_reducible apply Same.ite
    | with_reducible refine Same.step (within_trans (by decide) hk) (Same.set_st_sec _ _ _) ?_
    | split
    | dsimp only

theorem execPowerOnReset_same {kl : List Kind} (hk : within [.tb, .ch, .cl, .env, .st, .mb, .qp, .grp, .ic, .err, .perf, .sec, .tamper, .pwr, .rtc] kl = true) {s0 s : State} (hs : Same kl s0 s) (dt : Nat) (b : Boot) :
    OSame kl s0 (execPowerOnReset dt b s) := by
  unfold execPowerOnReset
  repeat' first
    | with_reducible assumption
    | intro _
    | exact within_trans (by decide) hk
    | with_reducible apply OSame.next
    | with_reducible apply OSame.fault
    | with_reducible apply OSame.ite
    | with_reducible apply State.advance_same
    | with_reducible apply State.runTo_same
    | with_reducible apply State.modSec_same
    | with_reducible apply State.modPwr_same
    | with_reducible apply State.moduleBoot_same
    | with_reducible apply Same.ite
    | with_reducible refine Same.step (within_trans (by decide) hk) (Same.set_tamper_rtc _ _ _) ?_
    | split
    | dsimp only

theorem State.startCal_same {kl : List Kind} (hk : within [.cl, .st] kl = true) {s0 s : State} (hs : Same kl s0 s) :
    Same kl s0 (State.startCal s) := by
  unfold State.startCal
  repeat' first
    | with_reducible assumption
    | intro _
    | exact within_trans (by decide) hk
    | with_reducible apply Same.iteFst
    | with_reducible apply State.modCl_same
    | with_reducible apply Same.ite
    | with_reducible apply Same.each
    | with_reducible refine Same.step (within_trans (by decide) hk) (Same.set_st _ _) ?_
    | split
    | dsimp only

theorem State.checkSeal_same {kl : List Kind} (hk : within [.ic, .err, .perf, .sec, .pwr] kl = true) {s0 s : State} (hs : Same kl s0 s) (ok : Bool) :
    Same kl s0 (State.checkSeal s ok) := by
  unfold State.checkSeal
  repeat' first
    | with_reducible assumption
    | intro _
    | exact within_trans (by decide) hk
    | with_reducible apply State.modSec_same
    | with_reducible apply State.secReport_same
    | with_reducible apply Same.ite
    | split
    | dsimp only

theorem execReady_same {kl : List Kind} (hk : within [.tb, .ref, .ch, .cl, .mem, .ue, .env, .st, .qp, .ic, .err, .perf, .sec, .pwr] kl = true) {s0 s : State} (hs : Same kl s0 s) (dt : Nat) (cut : Option HistCut) (sealOk : Bool) :
    OSame kl s0 (execReady dt cut sealOk s) := by
  unfold execReady
  repeat' first
    | with_reducible assumption
    | intro _
    | exact within_trans (by decide) hk
    | with_reducible apply OSame.next
    | with_reducible apply OSame.fault
    | with_reducible apply OSame.ite
    | with_reducible apply State.advance_same
    | with_reducible apply State.runTo_same
    | with_reducible apply State.zeroBank_same
    | with_reducible apply State.settle_same
    | with_reducible apply State.cutHistory_same
    | with_reducible apply State.beginCal_same
    | with_reducible apply State.slowSlew_same
    | with_reducible apply State.modSec_same
    | with_reducible apply State.modPwr_same
    | with_reducible apply State.startCal_same
    | with_reducible apply State.checkSeal_same
    | with_reducible apply Same.ite
    | with_reducible apply Same.each
    | split
    | with_reducible refine Same.step (within_trans (by decide) hk) (Same.set_st_ic_perf _ _ _ _) ?_
    | dsimp only

theorem State.deviceCleared_same {kl : List Kind} (hk : within [.ch, .cl, .slot, .dec, .tim, .timWr, .bank, .mem, .ue, .env, .st, .grp, .ic, .perf, .sec, .pwr, .deferred] kl = true) {s0 s : State} (hs : Same kl s0 s) :
    Same kl s0 (State.deviceCleared s) := by
  unfold State.deviceCleared
  repeat' first
    | with_reducible assumption
    | intro _
    | exact within_trans (by decide) hk
    | with_reducible apply Same.ite
    | with_reducible refine Same.step (within_trans (by decide) hk) (Same.set_ch_cl_slot_dec_tim_timWr_bank_mem_ue_env_st_grp_ic_perf_sec_pwr_deferred _ _ _ _ _ _ _ _ _ _ _ _ _ _ _ _ _ _) ?_
    | split
    | dsimp only

theorem State.deviceReset_same {kl : List Kind} (hk : within [.ch, .cl, .slot, .dec, .tim, .timWr, .bank, .mem, .ue, .dma, .env, .st, .mb, .qp, .grp, .ic, .err, .perf, .sec, .tamper, .pwr, .deferred] kl = true) {s0 s : State} (hs : Same kl s0 s) (pass : Bool) :
    Same kl s0 (State.deviceReset s pass) := by
  unfold State.deviceReset
  repeat' first
    | with_reducible assumption
    | intro _
    | exact within_trans (by decide) hk
    | with_reducible apply State.report_same
    | with_reducible apply State.settle_same
    | with_reducible apply State.presentLevel_same
    | with_reducible apply State.dmaIdle_same
    | with_reducible apply State.mbAbort_same
    | with_reducible apply State.moduleBoot_same
    | with_reducible apply State.deviceCleared_same
    | with_reducible apply Same.ite
    | with_reducible apply Same.each
    | split
    | dsimp only

theorem State.sysReset_same {kl : List Kind} (hk : within [.ch, .cl, .slot, .dec, .tim, .timWr, .bank, .mem, .ue, .dma, .env, .st, .mb, .qp, .grp, .ic, .err, .perf, .sec, .tamper, .pwr, .deferred] kl = true) {s0 s : State} (hs : Same kl s0 s) (p : List W32) (silent : Bool) :
    Same kl s0 (State.sysReset s p silent) := by
  unfold State.sysReset
  repeat' first
    | with_reducible assumption
    | intro _
    | exact within_trans (by decide) hk
    | with_reducible apply State.mcRestart_same
    | with_reducible apply State.deviceReset_same
    | with_reducible apply Same.ite
    | split
    | dsimp only

theorem execBackupDomainLost_same {kl : List Kind} (hk : within [.ch, .cl, .env, .st, .qp, .ic, .sec, .tamper, .pwr, .rtc] kl = true) {s0 s : State} (hs : Same kl s0 s) :
    OSame kl s0 (execBackupDomainLost s) := by
  unfold execBackupDomainLost
  repeat' first
    | with_reducible assumption
    | intro _
    | exact within_trans (by decide) hk
    | with_reducible apply OSame.next
    | with_reducible apply OSame.fault
    | with_reducible apply OSame.ite
    | with_reducible apply State.settle_same
    | with_reducible apply State.modSec_same
    | with_reducible apply Same.ite
    | with_reducible refine Same.step (within_trans (by decide) hk) (Same.set_tamper_rtc _ _ _) ?_
    | split
    | dsimp only

end Sys2Proof.Machine
end

