-- ==== Sys2Proof/Laws/SameRegMap.lean ====
section
/-! SUPPORT. Frames of the operations of Machine/RegMap.lean. -/
namespace Sys2Proof.Machine

theorem State.readChannel_same {kl : List Kind} (hk : within [.ch] kl = true) {s0 s : State} (hs : Same kl s0 s) (n o : Nat) :
    Same kl s0 (State.readChannel s n o) := by
  unfold State.readChannel
  repeat' first
    | with_reducible assumption
    | intro _
    | exact within_trans (by decide) hk
    | with_reducible apply State.modIn_same
    | with_reducible apply State.modOut_same
    | with_reducible apply State.modPu_same
    | with_reducible apply Same.ite
    | split
    | dsimp only

theorem State.readCluster_same {kl : List Kind} (hk : within [.ch, .cl] kl = true) {s0 s : State} (hs : Same kl s0 s) (c o : Nat) :
    Same kl s0 (State.readCluster s c o) := by
  unfold State.readCluster
  repeat' first
    | with_reducible assumption
    | intro _
    | exact within_trans (by decide) hk
    | with_reducible apply State.modSch_same
    | with_reducible apply State.modInt_same
    | with_reducible apply Same.ite
    | split
    | dsimp only

theorem State.readEffect_same {kl : List Kind} (hk : within [.ch, .cl, .bank, .dma, .mb, .qp, .ic, .perf, .rtc] kl = true) {s0 s : State} (hs : Same kl s0 s) (o : Nat) :
    Same kl s0 (State.readEffect s o) := by
  unfold State.readEffect
  repeat' first
    | with_reducible assumption
    | intro _
    | exact within_trans (by decide) hk
    | with_reducible apply Same.iteFst
    | with_reducible apply State.modBank_same
    | with_reducible apply State.modDma_same
    | with_reducible apply State.modMb_same
    | with_reducible apply State.modSrc_same
    | with_reducible apply State.d2hRead_same
    | with_reducible apply State.modRtc_same
    | with_reducible apply State.rtcLatch_same
    | with_reducible apply State.snapRead_same
    | with_reducible apply State.readChannel_same
    | with_reducible apply State.readCluster_same
    | with_reducible apply Same.ite
    | with_reducible refine Same.step (within_trans (by decide) hk) (Same.set_perf _ _) ?_
    | split
    | dsimp only

theorem State.regRead_same {kl : List Kind} (hk : within [.ch, .cl, .bank, .dma, .mb, .qp, .ic, .perf, .rtc] kl = true) {s0 s : State} (hs : Same kl s0 s) (o : Nat) :
    Same kl s0 (State.regRead s o).1 := by
  unfold State.regRead
  repeat' first
    | with_reducible assumption
    | intro _
    | exact within_trans (by decide) hk
    | with_reducible apply Same.iteFst
    | with_reducible apply State.readEffect_same
    | with_reducible apply Same.ite
    | split
    | dsimp only

theorem State.bar4Read_same {kl : List Kind} (hk : within [.perf] kl = true) {s0 s : State} (hs : Same kl s0 s) (o : Nat) :
    Same kl s0 (State.bar4Read s o).1 := by
  unfold State.bar4Read
  repeat' first
    | with_reducible assumption
    | intro _
    | exact within_trans (by decide) hk
    | with_reducible apply Same.iteFst
    | with_reducible apply State.snapRead_same
    | with_reducible apply Same.ite
    | split
    | dsimp only

theorem State.readBytes_same {kl : List Kind} (hk : within [.ch, .cl, .bank, .dma, .mb, .qp, .ic, .perf, .rtc] kl = true) {s0 s : State} (hs : Same kl s0 s) (bar4 : Bool) (off len : Nat) :
    Same kl s0 (State.readBytes s bar4 off len).1 := by
  unfold State.readBytes
  repeat' first
    | with_reducible assumption
    | intro _
    | exact within_trans (by decide) hk
    | with_reducible apply Same.iteFst
    | with_reducible apply State.regRead_same
    | with_reducible apply State.bar4Read_same
    | with_reducible apply Same.ite
    | with_reducible apply Same.foldl
    | with_reducible apply Same.foldlFst
    | split
    | dsimp only

theorem execReadClear_same {kl : List Kind} (hk : within [.ch, .cl, .bank, .dma, .mb, .qp, .ic, .perf, .rtc, .lastRead] kl = true) {s0 s : State} (hs : Same kl s0 s) (off : Nat) :
    OSame kl s0 (execReadClear off s) := by
  unfold execReadClear
  repeat' first
    | with_reducible assumption
    | intro _
    | exact within_trans (by decide) hk
    | with_reducible apply OSame.next
    | with_reducible apply OSame.fault
    | with_reducible apply OSame.ite
    | with_reducible apply Same.iteFst
    | with_reducible apply State.readBytes_same
    | with_reducible apply Same.ite
    | with_reducible refine Same.step (within_trans (by decide) hk) (Same.set_lastRead _ _) ?_
    | split
    | dsimp only

theorem State.readOnly_same {kl : List Kind} (hk : within [.ic, .err, .perf, .pwr] kl = true) {s0 s : State} (hs : Same kl s0 s) (o : Nat) (v : W32) :
    Same kl s0 (State.readOnly s o v) := by
  unfold State.readOnly
  repeat' first
    | with_reducible assumption
    | intro _
    | exact within_trans (by decide) hk
    | with_reducible apply State.report_same
    | with_reducible apply Same.ite
    | split
    | dsimp only

theorem State.mixed_same {kl : List Kind} (hk : within [.ic, .err, .perf, .pwr] kl = true) {s0 s : State} (hs : Same kl s0 s) (o : Nat) (v cur : W32) (mask : Nat) :
    Same kl s0 (State.mixed s o v cur mask) := by
  unfold State.mixed
  repeat' first
    | with_reducible assumption
    | intro _
    | exact within_trans (by decide) hk
    | with_reducible apply State.readOnly_same
    | with_reducible apply Same.ite
    | split
    | dsimp only

theorem State.sysWrite_same {kl : List Kind} (hk : within [.mir, .ic, .err, .perf, .pwr, .deferred] kl = true) {s0 s : State} (hs : Same kl s0 s) (o : Nat) (v : W32) :
    Same kl s0 (State.sysWrite s o v) := by
  unfold State.sysWrite
  repeat' first
    | with_reducible assumption
    | intro _
    | exact within_trans (by decide) hk
    | with_reducible apply State.report_same
    | with_reducible apply State.mirrorStop_same
    | with_reducible apply State.readOnly_same
    | with_reducible apply State.mixed_same
    | with_reducible apply Same.ite
    | split
    | with_reducible refine Same.step (within_trans (by decide) hk) (Same.set_mir _ _) ?_
    | dsimp only

theorem State.mbRegWrite_same {kl : List Kind} (hk : within [.mb, .goNext, .qp, .ic, .err, .perf, .pwr] kl = true) {s0 s : State} (hs : Same kl s0 s) (o : Nat) (v : W32) :
    Same kl s0 (State.mbRegWrite s o v) := by
  unfold State.mbRegWrite
  repeat' first
    | with_reducible assumption
    | intro _
    | exact within_trans (by decide) hk
    | with_reducible apply State.modQp_same
    | with_reducible apply State.mbWrite_same
    | with_reducible apply State.mbTimeoutWrite_same
    | with_reducible apply State.mbCtrl_same
    | with_reducible apply State.h2dPush_same
    | with_reducible apply State.readOnly_same
    | with_reducible apply State.mixed_same
    | with_reducible apply Same.ite
    | split
    | dsimp only

theorem State.dmaWrite_same {kl : List Kind} (hk : within [.tb, .ch, .cl, .bank, .dma, .posted, .env, .st, .qp, .ic, .err, .perf, .pwr] kl = true) {s0 s : State} (hs : Same kl s0 s) (o : Nat) (v : W32) :
    Same kl s0 (State.dmaWrite s o v) := by
  unfold State.dmaWrite
  repeat' first
    | with_reducible assumption
    | intro _
    | exact within_trans (by decide) hk
    | with_reducible apply State.runTo_same
    | with_reducible apply State.dmaFlush_same
    | with_reducible apply State.tailWrite_same
    | with_reducible apply State.headWrite_same
    | with_reducible apply State.ringRegWrite_same
    | with_reducible apply State.readOnly_same
    | with_reducible apply State.mixed_same
    | with_reducible apply Same.ite
    | split
    | dsimp only

theorem State.doorbell_same {kl : List Kind} (hk : within [.ch, .cl, .tim, .env, .st, .qp, .ic, .err, .perf, .sec, .pwr, .freeCnt] kl = true) {s0 s : State} (hs : Same kl s0 s) (k : Nat) :
    Same kl s0 (State.doorbell s k) := by
  unfold State.doorbell
  repeat' first
    | with_reducible assumption
    | intro _
    | exact within_trans (by decide) hk
    | with_reducible apply State.useFree_same
    | with_reducible apply State.closeSess_same
    | with_reducible apply State.ring_same
    | with_reducible apply State.selfTest_same
    | with_reducible apply State.lockDebug_same
    | with_reducible apply Same.ite
    | split
    | dsimp only

theorem State.regWrite_same {kl : List Kind} (hk : within [.tb, .ch, .cl, .tim, .bank, .dma, .posted, .mir, .env, .st, .mb, .goNext, .qp, .ic, .err, .perf, .sec, .pwr, .deferred, .freeCnt] kl = true) {s0 s : State} (hs : Same kl s0 s) (o : Nat) (v : W32) :
    Same kl s0 (State.regWrite s o v) := by
  unfold State.regWrite
  repeat' first
    | with_reducible assumption
    | intro _
    | exact within_trans (by decide) hk
    | with_reducible apply State.capture3_same
    | with_reducible apply State.readOnly_same
    | with_reducible apply State.mixed_same
    | with_reducible apply State.sysWrite_same
    | with_reducible apply State.mbRegWrite_same
    | with_reducible apply State.dmaWrite_same
    | with_reducible apply State.doorbell_same
    | with_reducible apply Same.ite
    | split
    | dsimp only

theorem execHostRegisterWrite_same {kl : List Kind} (hk : within [.tb, .ch, .cl, .tim, .bank, .dma, .posted, .mir, .env, .st, .mb, .goNext, .qp, .ic, .err, .perf, .sec, .pwr, .deferred, .freeCnt] kl = true) {s0 s : State} (hs : Same kl s0 s) (off : Nat) (v : W32) :
    OSame kl s0 (execHostRegisterWrite off v s) := by
  unfold execHostRegisterWrite
  repeat' first
    | with_reducible assumption
    | intro _
    | exact within_trans (by decide) hk
    | with_reducible apply OSame.next
    | with_reducible apply OSame.fault
    | with_reducible apply OSame.ite
    | with_reducible apply State.report_same
    | with_reducible apply State.regWrite_same
    | with_reducible apply Same.ite
    | split
    | dsimp only

theorem execHostOddSizeAccess_same {kl : List Kind} (hk : within [.ch, .cl, .bank, .dma, .mb, .qp, .ic, .err, .perf, .pwr, .rtc, .lastRead] kl = true) {s0 s : State} (hs : Same kl s0 s) (bar4 : Bool) (off len : Nat) (data : Option W32) :
    OSame kl s0 (execHostOddSizeAccess bar4 off len data s) := by
  unfold execHostOddSizeAccess
  repeat' first
    | with_reducible assumption
    | intro _
    | exact within_trans (by decide) hk
    | with_reducible apply OSame.next
    | with_reducible apply OSame.fault
    | with_reducible apply OSame.ite
    | with_reducible apply Same.iteFst
    | with_reducible apply State.report_same
    | with_reducible apply State.readBytes_same
    | with_reducible apply Same.ite
    | split
    | with_reducible refine Same.step (within_trans (by decide) hk) (Same.set_lastRead _ _) ?_
    | dsimp only

end Sys2Proof.Machine
end

