-- ==== Sys2Proof/Laws/SameMicroIo.lean ====
section
/-! SUPPORT. Frames of the operations of Machine/MicroIo.lean. -/
namespace Sys2Proof.Machine

theorem State.tagRead_same {kl : List Kind} (hk : within [.cl] kl = true) {s0 s : State} (hs : Same kl s0 s) (c : Nat) (w : BitVec 128) (t : Nat) (pop : Bool) :
    Same kl s0 (State.tagRead s c w t pop) := by
  unfold State.tagRead
  repeat' first
    | with_reducible assumption
    | intro _
    | exact within_trans (by decide) hk
    | with_reducible apply State.modMe_same
    | with_reducible apply Same.ite
    | split
    | dsimp only

theorem dpTag_same {kl : List Kind} (hk : within [.cl] kl = true) {s0 s : State} (hs : Same kl s0 s) (c : Nat) (w : BitVec 128) (t : Nat) :
    Same kl s0 (dpTag c s w t).state := by
  unfold dpTag
  repeat' first
    | with_reducible assumption
    | intro _
    | exact within_trans (by decide) hk
    | with_reducible apply didOk_same
    | with_reducible apply didFault_same
    | with_reducible apply didHandled_same
    | with_reducible apply Same.iteDid
    | with_reducible apply State.modMe_same
    | with_reducible apply State.tagRead_same
    | with_reducible apply Same.ite
    | split
    | dsimp only

theorem dpEdge_same {kl : List Kind} (hk : within [.tb, .ch, .cl, .ic, .err, .perf, .pwr] kl = true) {s0 s : State} (hs : Same kl s0 s) (c : Nat) (w : BitVec 128) (t : Nat) :
    Same kl s0 (dpEdge c s w t).state := by
  unfold dpEdge
  repeat' first
    | with_reducible assumption
    | intro _
    | exact within_trans (by decide) hk
    | with_reducible apply didOk_same
    | with_reducible apply didFault_same
    | with_reducible apply didHandled_same
    | with_reducible apply Same.iteDid
    | with_reducible apply Same.iteFst
    | with_reducible apply State.modMe_same
    | with_reducible apply State.eqPush_same
    | with_reducible apply Same.ite
    | split
    | dsimp only

theorem State.ioRead_same {kl : List Kind} (hk : within [.ch, .cl, .bank, .dma, .mb, .qp, .ic, .perf, .rtc] kl = true) {s0 s : State} (hs : Same kl s0 s) (c sel : Nat) :
    Same kl s0 (State.ioRead s c sel).1 := by
  unfold State.ioRead
  repeat' first
    | with_reducible assumption
    | intro _
    | exact within_trans (by decide) hk
    | with_reducible apply Same.iteFst
    | with_reducible apply State.regRead_same
    | with_reducible apply Same.ite
    | split
    | dsimp only

theorem State.ioWrite_same {kl : List Kind} (hk : within [.tb, .ch, .cl, .tim, .timWr, .ic, .err, .perf, .pwr] kl = true) {s0 s u : State} (h : Same kl s0 s) (c sel t : Nat) (v : W32) (e : s.ioWrite c sel t v = some u) : Same kl s0 u := by
  unfold State.ioWrite at e
  dsimp only at e
  repeat' split at e
  all_goals (try cases e)
  · exact State.puWrite_same (within_trans (by decide) hk) h _ _ _
  · exact State.puCtrl_same (within_trans (by decide) hk) h _ _
  · exact State.modOut_same (within_trans (by decide) hk) h _ _
  · exact State.modOut_same (within_trans (by decide) hk) h _ _
  · exact State.modOut_same (within_trans (by decide) hk) h _ _
  · exact State.eqPush_same (within_trans (by decide) hk) h _ _ _ _ _
  · exact Same.step (within_trans (by decide) hk) (Same.set_timWr _ _) h


theorem dpIo_same {kl : List Kind} (hk : within [.tb, .ch, .cl, .tim, .timWr, .bank, .dma, .mb, .qp, .ic, .err, .perf, .pwr, .rtc] kl = true) {s0 s : State} (h : Same kl s0 s) (c : Nat) (w : BitVec 128) (t : Nat) : Same kl s0 (dpIo c s w t).state := by
  unfold dpIo
  extract_lets sel r n e a u
  have k : Same kl s0 u := State.modMe_same (within_trans (by decide) hk) (State.ioRead_same (within_trans (by decide) hk) h _ _) _ _
  apply Same.iteDid
  · exact didHandled_same (Same.ite (State.nextAddr_same (within_trans (by decide) hk) k _ _ _ _) (State.charge_same (within_trans (by decide) hk) k _ _))
  split
  · rename_i e
    have k := State.ioWrite_same (within_trans (by decide) hk) h _ _ _ _ e
    exact didOk_same (Same.ite (State.modMe_same (within_trans (by decide) hk) k _ _) k)
  · exact h


theorem dpBank_same {kl : List Kind} (hk : within [.cl, .bank, .mem, .ue, .ic, .err, .perf, .pwr] kl = true) {s0 s : State} (hs : Same kl s0 s) (c : Nat) (e : Ecc) (w : BitVec 128) (t : Nat) :
    Same kl s0 (dpBank c e s w t).state := by
  unfold dpBank
  repeat' first
    | with_reducible assumption
    | intro _
    | exact within_trans (by decide) hk
    | with_reducible apply didOk_same
    | with_reducible apply didFault_same
    | with_reducible apply didHandled_same
    | with_reducible apply Same.iteDid
    | with_reducible apply Same.iteFst
    | with_reducible apply State.modMe_same
    | with_reducible apply State.pcAdd_same
    | with_reducible apply State.deny_same
    | with_reducible apply State.readWord_same
    | with_reducible apply State.writeWord_same
    | with_reducible apply Same.ite
    | split
    | dsimp only

theorem dpEvent_same {kl : List Kind} (hk : within [.cl, .qp, .ic, .pwr] kl = true) {s0 s : State} (hs : Same kl s0 s) (c : Nat) (w : BitVec 128) (t : Nat) :
    Same kl s0 (dpEvent c s w t).state := by
  unfold dpEvent
  repeat' first
    | with_reducible assumption
    | intro _
    | exact within_trans (by decide) hk
    | with_reducible apply didOk_same
    | with_reducible apply didFault_same
    | with_reducible apply didHandled_same
    | with_reducible apply Same.iteDid
    | with_reducible apply State.modMe_same
    | with_reducible apply State.raise_same
    | with_reducible apply State.notice_same
    | with_reducible apply Same.ite
    | split
    | dsimp only

theorem execUNop_same {kl : List Kind} (hk : within [.tb, .cl, .qp, .ic, .err, .perf, .pwr] kl = true) {s0 s : State} (hs : Same kl s0 s) (c : Fin 4) (ue : Bool) :
    OSame kl s0 (execUNop c ue s) := by
  unfold execUNop
  repeat' first
    | with_reducible assumption
    | intro _
    | exact within_trans (by decide) hk
    | with_reducible apply OSame.next
    | with_reducible apply OSame.fault
    | with_reducible apply OSame.ite
    | with_reducible apply State.issue_same
    | with_reducible apply dpCtrl_same
    | with_reducible apply Same.ite
    | split
    | dsimp only

theorem execUReti_same {kl : List Kind} (hk : within [.tb, .cl, .qp, .ic, .err, .perf, .pwr] kl = true) {s0 s : State} (hs : Same kl s0 s) (c : Fin 4) (ue : Bool) :
    OSame kl s0 (execUReti c ue s) := by
  unfold execUReti
  repeat' first
    | with_reducible assumption
    | intro _
    | exact within_trans (by decide) hk
    | with_reducible apply OSame.next
    | with_reducible apply OSame.fault
    | with_reducible apply OSame.ite
    | with_reducible apply State.issue_same
    | with_reducible apply dpCtrl_same
    | with_reducible apply Same.ite
    | split
    | dsimp only

theorem execUEi_same {kl : List Kind} (hk : within [.tb, .cl, .qp, .ic, .err, .perf, .pwr] kl = true) {s0 s : State} (hs : Same kl s0 s) (c : Fin 4) (ue : Bool) :
    OSame kl s0 (execUEi c ue s) := by
  unfold execUEi
  repeat' first
    | with_reducible assumption
    | intro _
    | exact within_trans (by decide) hk
    | with_reducible apply OSame.next
    | with_reducible apply OSame.fault
    | with_reducible apply OSame.ite
    | with_reducible apply State.issue_same
    | with_reducible apply dpCtrl_same
    | with_reducible apply Same.ite
    | split
    | dsimp only

theorem execUDi_same {kl : List Kind} (hk : within [.tb, .cl, .qp, .ic, .err, .perf, .pwr] kl = true) {s0 s : State} (hs : Same kl s0 s) (c : Fin 4) (ue : Bool) :
    OSame kl s0 (execUDi c ue s) := by
  unfold execUDi
  repeat' first
    | with_reducible assumption
    | intro _
    | exact within_trans (by decide) hk
    | with_reducible apply OSame.next
    | with_reducible apply OSame.fault
    | with_reducible apply OSame.ite
    | with_reducible apply State.issue_same
    | with_reducible apply dpCtrl_same
    | with_reducible apply Same.ite
    | split
    | dsimp only

theorem execULdlc_same {kl : List Kind} (hk : within [.tb, .cl, .qp, .ic, .err, .perf, .pwr] kl = true) {s0 s : State} (hs : Same kl s0 s) (c : Fin 4) (ue : Bool) :
    OSame kl s0 (execULdlc c ue s) := by
  unfold execULdlc
  repeat' first
    | with_reducible assumption
    | intro _
    | exact within_trans (by decide) hk
    | with_reducible apply OSame.next
    | with_reducible apply OSame.fault
    | with_reducible apply OSame.ite
    | with_reducible apply State.issue_same
    | with_reducible apply dpCtrl_same
    | with_reducible apply Same.ite
    | split
    | dsimp only

theorem execUSetf_same {kl : List Kind} (hk : within [.tb, .cl, .qp, .ic, .err, .perf, .pwr] kl = true) {s0 s : State} (hs : Same kl s0 s) (c : Fin 4) (ue : Bool) :
    OSame kl s0 (execUSetf c ue s) := by
  unfold execUSetf
  repeat' first
    | with_reducible assumption
    | intro _
    | exact within_trans (by decide) hk
    | with_reducible apply OSame.next
    | with_reducible apply OSame.fault
    | with_reducible apply OSame.ite
    | with_reducible apply State.issue_same
    | with_reducible apply dpCtrl_same
    | with_reducible apply Same.ite
    | split
    | dsimp only

theorem execUFault_same {kl : List Kind} (hk : within [.tb, .cl, .qp, .ic, .err, .perf, .pwr] kl = true) {s0 s : State} (hs : Same kl s0 s) (c : Fin 4) (ue : Bool) :
    OSame kl s0 (execUFault c ue s) := by
  unfold execUFault
  repeat' first
    | with_reducible assumption
    | intro _
    | exact within_trans (by decide) hk
    | with_reducible apply OSame.next
    | with_reducible apply OSame.fault
    | with_reducible apply OSame.ite
    | with_reducible apply State.issue_same
    | with_reducible apply dpCtrl_same
    | with_reducible apply Same.ite
    | split
    | dsimp only

theorem execUAdd_same {kl : List Kind} (hk : within [.tb, .cl, .qp, .ic, .err, .perf, .pwr] kl = true) {s0 s : State} (hs : Same kl s0 s) (c : Fin 4) (ue : Bool) :
    OSame kl s0 (execUAdd c ue s) := by
  unfold execUAdd
  repeat' first
    | with_reducible assumption
    | intro _
    | exact within_trans (by decide) hk
    | with_reducible apply OSame.next
    | with_reducible apply OSame.fault
    | with_reducible apply OSame.ite
    | with_reducible apply State.issue_same
    | with_reducible apply dpAlu_same
    | with_reducible apply Same.ite
    | split
    | dsimp only

theorem execUAdc_same {kl : List Kind} (hk : within [.tb, .cl, .qp, .ic, .err, .perf, .pwr] kl = true) {s0 s : State} (hs : Same kl s0 s) (c : Fin 4) (ue : Bool) :
    OSame kl s0 (execUAdc c ue s) := by
  unfold execUAdc
  repeat' first
    | with_reducible assumption
    | intro _
    | exact within_trans (by decide) hk
    | with_reducible apply OSame.next
    | with_reducible apply OSame.fault
    | with_reducible apply OSame.ite
    | with_reducible apply State.issue_same
    | with_reducible apply dpAlu_same
    | with_reducible apply Same.ite
    | split
    | dsimp only

theorem execUSub_same {kl : List Kind} (hk : within [.tb, .cl, .qp, .ic, .err, .perf, .pwr] kl = true) {s0 s : State} (hs : Same kl s0 s) (c : Fin 4) (ue : Bool) :
    OSame kl s0 (execUSub c ue s) := by
  unfold execUSub
  repeat' first
    | with_reducible assumption
    | intro _
    | exact within_trans (by decide) hk
    | with_reducible apply OSame.next
    | with_reducible apply OSame.fault
    | with_reducible apply OSame.ite
    | with_reducible apply State.issue_same
    | with_reducible apply dpAlu_same
    | with_reducible apply Same.ite
    | split
    | dsimp only

theorem execUSbc_same {kl : List Kind} (hk : within [.tb, .cl, .qp, .ic, .err, .perf, .pwr] kl = true) {s0 s : State} (hs : Same kl s0 s) (c : Fin 4) (ue : Bool) :
    OSame kl s0 (execUSbc c ue s) := by
  unfold execUSbc
  repeat' first
    | with_reducible assumption
    | intro _
    | exact within_trans (by decide) hk
    | with_reducible apply OSame.next
    | with_reducible apply OSame.fault
    | with_reducible apply OSame.ite
    | with_reducible apply State.issue_same
    | with_reducible apply dpAlu_same
    | with_reducible apply Same.ite
    | split
    | dsimp only

theorem execUAnd_same {kl : List Kind} (hk : within [.tb, .cl, .qp, .ic, .err, .perf, .pwr] kl = true) {s0 s : State} (hs : Same kl s0 s) (c : Fin 4) (ue : Bool) :
    OSame kl s0 (execUAnd c ue s) := by
  unfold execUAnd
  repeat' first
    | with_reducible assumption
    | intro _
    | exact within_trans (by decide) hk
    | with_reducible apply OSame.next
    | with_reducible apply OSame.fault
    | with_reducible apply OSame.ite
    | with_reducible apply State.issue_same
    | with_reducible apply dpAlu_same
    | with_reducible apply Same.ite
    | split
    | dsimp only

theorem execUOr_same {kl : List Kind} (hk : within [.tb, .cl, .qp, .ic, .err, .perf, .pwr] kl = true) {s0 s : State} (hs : Same kl s0 s) (c : Fin 4) (ue : Bool) :
    OSame kl s0 (execUOr c ue s) := by
  unfold execUOr
  repeat' first
    | with_reducible assumption
    | intro _
    | exact within_trans (by decide) hk
    | with_reducible apply OSame.next
    | with_reducible apply OSame.fault
    | with_reducible apply OSame.ite
    | with_reducible apply State.issue_same
    | with_reducible apply dpAlu_same
    | with_reducible apply Same.ite
    | split
    | dsimp only

theorem execUXor_same {kl : List Kind} (hk : within [.tb, .cl, .qp, .ic, .err, .perf, .pwr] kl = true) {s0 s : State} (hs : Same kl s0 s) (c : Fin 4) (ue : Bool) :
    OSame kl s0 (execUXor c ue s) := by
  unfold execUXor
  repeat' first
    | with_reducible assumption
    | intro _
    | exact within_trans (by decide) hk
    | with_reducible apply OSame.next
    | with_reducible apply OSame.fault
    | with_reducible apply OSame.ite
    | with_reducible apply State.issue_same
    | with_reducible apply dpAlu_same
    | with_reducible apply Same.ite
    | split
    | dsimp only

theorem execUAndn_same {kl : List Kind} (hk : within [.tb, .cl, .qp, .ic, .err, .perf, .pwr] kl = true) {s0 s : State} (hs : Same kl s0 s) (c : Fin 4) (ue : Bool) :
    OSame kl s0 (execUAndn c ue s) := by
  unfold execUAndn
  repeat' first
    | with_reducible assumption
    | intro _
    | exact within_trans (by decide) hk
    | with_reducible apply OSame.next
    | with_reducible apply OSame.fault
    | with_reducible apply OSame.ite
    | with_reducible apply State.issue_same
    | with_reducible apply dpAlu_same
    | with_reducible apply Same.ite
    | split
    | dsimp only

theorem execUMin_same {kl : List Kind} (hk : within [.tb, .cl, .qp, .ic, .err, .perf, .pwr] kl = true) {s0 s : State} (hs : Same kl s0 s) (c : Fin 4) (ue : Bool) :
    OSame kl s0 (execUMin c ue s) := by
  unfold execUMin
  repeat' first
    | with_reducible assumption
    | intro _
    | exact within_trans (by decide) hk
    | with_reducible apply OSame.next
    | with_reducible apply OSame.fault
    | with_reducible apply OSame.ite
    | with_reducible apply State.issue_same
    | with_reducible apply dpAlu_same
    | with_reducible apply Same.ite
    | split
    | dsimp only

theorem execUMax_same {kl : List Kind} (hk : within [.tb, .cl, .qp, .ic, .err, .perf, .pwr] kl = true) {s0 s : State} (hs : Same kl s0 s) (c : Fin 4) (ue : Bool) :
    OSame kl s0 (execUMax c ue s) := by
  unfold execUMax
  repeat' first
    | with_reducible assumption
    | intro _
    | exact within_trans (by decide) hk
    | with_reducible apply OSame.next
    | with_reducible apply OSame.fault
    | with_reducible apply OSame.ite
    | with_reducible apply State.issue_same
    | with_reducible apply dpAlu_same
    | with_reducible apply Same.ite
    | split
    | dsimp only

theorem execUMinu_same {kl : List Kind} (hk : within [.tb, .cl, .qp, .ic, .err, .perf, .pwr] kl = true) {s0 s : State} (hs : Same kl s0 s) (c : Fin 4) (ue : Bool) :
    OSame kl s0 (execUMinu c ue s) := by
  unfold execUMinu
  repeat' first
    | with_reducible assumption
    | intro _
    | exact within_trans (by decide) hk
    | with_reducible apply OSame.next
    | with_reducible apply OSame.fault
    | with_reducible apply OSame.ite
    | with_reducible apply State.issue_same
    | with_reducible apply dpAlu_same
    | with_reducible apply Same.ite
    | split
    | dsimp only

theorem execUMaxu_same {kl : List Kind} (hk : within [.tb, .cl, .qp, .ic, .err, .perf, .pwr] kl = true) {s0 s : State} (hs : Same kl s0 s) (c : Fin 4) (ue : Bool) :
    OSame kl s0 (execUMaxu c ue s) := by
  unfold execUMaxu
  repeat' first
    | with_reducible assumption
    | intro _
    | exact within_trans (by decide) hk
    | with_reducible apply OSame.next
    | with_reducible apply OSame.fault
    | with_reducible apply OSame.ite
    | with_reducible apply State.issue_same
    | with_reducible apply dpAlu_same
    | with_reducible apply Same.ite
    | split
    | dsimp only

theorem execUAddsat_same {kl : List Kind} (hk : within [.tb, .cl, .qp, .ic, .err, .perf, .pwr] kl = true) {s0 s : State} (hs : Same kl s0 s) (c : Fin 4) (ue : Bool) :
    OSame kl s0 (execUAddsat c ue s) := by
  unfold execUAddsat
  repeat' first
    | with_reducible assumption
    | intro _
    | exact within_trans (by decide) hk
    | with_reducible apply OSame.next
    | with_reducible apply OSame.fault
    | with_reducible apply OSame.ite
    | with_reducible apply State.issue_same
    | with_reducible apply dpAlu_same
    | with_reducible apply Same.ite
    | split
    | dsimp only

theorem execUSubsat_same {kl : List Kind} (hk : within [.tb, .cl, .qp, .ic, .err, .perf, .pwr] kl = true) {s0 s : State} (hs : Same kl s0 s) (c : Fin 4) (ue : Bool) :
    OSame kl s0 (execUSubsat c ue s) := by
  unfold execUSubsat
  repeat' first
    | with_reducible assumption
    | intro _
    | exact within_trans (by decide) hk
    | with_reducible apply OSame.next
    | with_reducible apply OSame.fault
    | with_reducible apply OSame.ite
    | with_reducible apply State.issue_same
    | with_reducible apply dpAlu_same
    | with_reducible apply Same.ite
    | split
    | dsimp only

theorem execUCmp_same {kl : List Kind} (hk : within [.tb, .cl, .qp, .ic, .err, .perf, .pwr] kl = true) {s0 s : State} (hs : Same kl s0 s) (c : Fin 4) (ue : Bool) :
    OSame kl s0 (execUCmp c ue s) := by
  unfold execUCmp
  repeat' first
    | with_reducible assumption
    | intro _
    | exact within_trans (by decide) hk
    | with_reducible apply OSame.next
    | with_reducible apply OSame.fault
    | with_reducible apply OSame.ite
    | with_reducible apply State.issue_same
    | with_reducible apply dpAlu_same
    | with_reducible apply Same.ite
    | split
    | dsimp only

theorem execUTst_same {kl : List Kind} (hk : within [.tb, .cl, .qp, .ic, .err, .perf, .pwr] kl = true) {s0 s : State} (hs : Same kl s0 s) (c : Fin 4) (ue : Bool) :
    OSame kl s0 (execUTst c ue s) := by
  unfold execUTst
  repeat' first
    | with_reducible assumption
    | intro _
    | exact within_trans (by decide) hk
    | with_reducible apply OSame.next
    | with_reducible apply OSame.fault
    | with_reducible apply OSame.ite
    | with_reducible apply State.issue_same
    | with_reducible apply dpAlu_same
    | with_reducible apply Same.ite
    | split
    | dsimp only

theorem execUShl_same {kl : List Kind} (hk : within [.tb, .cl, .qp, .ic, .err, .perf, .pwr] kl = true) {s0 s : State} (hs : Same kl s0 s) (c : Fin 4) (ue : Bool) :
    OSame kl s0 (execUShl c ue s) := by
  unfold execUShl
  repeat' first
    | with_reducible assumption
    | intro _
    | exact within_trans (by decide) hk
    | with_reducible apply OSame.next
    | with_reducible apply OSame.fault
    | with_reducible apply OSame.ite
    | with_reducible apply State.issue_same
    | with_reducible apply dpShift_same
    | with_reducible apply Same.ite
    | split
    | dsimp only

theorem execUShr_same {kl : List Kind} (hk : within [.tb, .cl, .qp, .ic, .err, .perf, .pwr] kl = true) {s0 s : State} (hs : Same kl s0 s) (c : Fin 4) (ue : Bool) :
    OSame kl s0 (execUShr c ue s) := by
  unfold execUShr
  repeat' first
    | with_reducible assumption
    | intro _
    | exact within_trans (by decide) hk
    | with_reducible apply OSame.next
    | with_reducible apply OSame.fault
    | with_reducible apply OSame.ite
    | with_reducible apply State.issue_same
    | with_reducible apply dpShift_same
    | with_reducible apply Same.ite
    | split
    | dsimp only

theorem execUSar_same {kl : List Kind} (hk : within [.tb, .cl, .qp, .ic, .err, .perf, .pwr] kl = true) {s0 s : State} (hs : Same kl s0 s) (c : Fin 4) (ue : Bool) :
    OSame kl s0 (execUSar c ue s) := by
  unfold execUSar
  repeat' first
    | with_reducible assumption
    | intro _
    | exact within_trans (by decide) hk
    | with_reducible apply OSame.next
    | with_reducible apply OSame.fault
    | with_reducible apply OSame.ite
    | with_reducible apply State.issue_same
    | with_reducible apply dpShift_same
    | with_reducible apply Same.ite
    | split
    | dsimp only

theorem execURol_same {kl : List Kind} (hk : within [.tb, .cl, .qp, .ic, .err, .perf, .pwr] kl = true) {s0 s : State} (hs : Same kl s0 s) (c : Fin 4) (ue : Bool) :
    OSame kl s0 (execURol c ue s) := by
  unfold execURol
  repeat' first
    | with_reducible assumption
    | intro _
    | exact within_trans (by decide) hk
    | with_reducible apply OSame.next
    | with_reducible apply OSame.fault
    | with_reducible apply OSame.ite
    | with_reducible apply State.issue_same
    | with_reducible apply dpShift_same
    | with_reducible apply Same.ite
    | split
    | dsimp only

theorem execUExt_same {kl : List Kind} (hk : within [.tb, .cl, .qp, .ic, .err, .perf, .pwr] kl = true) {s0 s : State} (hs : Same kl s0 s) (c : Fin 4) (ue : Bool) :
    OSame kl s0 (execUExt c ue s) := by
  unfold execUExt
  repeat' first
    | with_reducible assumption
    | intro _
    | exact within_trans (by decide) hk
    | with_reducible apply OSame.next
    | with_reducible apply OSame.fault
    | with_reducible apply OSame.ite
    | with_reducible apply State.issue_same
    | with_reducible apply dpShift_same
    | with_reducible apply Same.ite
    | split
    | dsimp only

theorem execUIns_same {kl : List Kind} (hk : within [.tb, .cl, .qp, .ic, .err, .perf, .pwr] kl = true) {s0 s : State} (hs : Same kl s0 s) (c : Fin 4) (ue : Bool) :
    OSame kl s0 (execUIns c ue s) := by
  unfold execUIns
  repeat' first
    | with_reducible assumption
    | intro _
    | exact within_trans (by decide) hk
    | with_reducible apply OSame.next
    | with_reducible apply OSame.fault
    | with_reducible apply OSame.ite
    | with_reducible apply State.issue_same
    | with_reducible apply dpShift_same
    | with_reducible apply Same.ite
    | split
    | dsimp only

theorem execUClz_same {kl : List Kind} (hk : within [.tb, .cl, .qp, .ic, .err, .perf, .pwr] kl = true) {s0 s : State} (hs : Same kl s0 s) (c : Fin 4) (ue : Bool) :
    OSame kl s0 (execUClz c ue s) := by
  unfold execUClz
  repeat' first
    | with_reducible assumption
    | intro _
    | exact within_trans (by decide) hk
    | with_reducible apply OSame.next
    | with_reducible apply OSame.fault
    | with_reducible apply OSame.ite
    | with_reducible apply State.issue_same
    | with_reducible apply dpShift_same
    | with_reducible apply Same.ite
    | split
    | dsimp only

theorem execUPopc_same {kl : List Kind} (hk : within [.tb, .cl, .qp, .ic, .err, .perf, .pwr] kl = true) {s0 s : State} (hs : Same kl s0 s) (c : Fin 4) (ue : Bool) :
    OSame kl s0 (execUPopc c ue s) := by
  unfold execUPopc
  repeat' first
    | with_reducible assumption
    | intro _
    | exact within_trans (by decide) hk
    | with_reducible apply OSame.next
    | with_reducible apply OSame.fault
    | with_reducible apply OSame.ite
    | with_reducible apply State.issue_same
    | with_reducible apply dpShift_same
    | with_reducible apply Same.ite
    | split
    | dsimp only

theorem execUMull_same {kl : List Kind} (hk : within [.tb, .cl, .qp, .ic, .err, .perf, .pwr] kl = true) {s0 s : State} (hs : Same kl s0 s) (c : Fin 4) (ue : Bool) :
    OSame kl s0 (execUMull c ue s) := by
  unfold execUMull
  repeat' first
    | with_reducible assumption
    | intro _
    | exact within_trans (by decide) hk
    | with_reducible apply OSame.next
    | with_reducible apply OSame.fault
    | with_reducible apply OSame.ite
    | with_reducible apply State.issue_same
    | with_reducible apply dpMul_same
    | with_reducible apply Same.ite
    | split
    | dsimp only

theorem execUMulhu_same {kl : List Kind} (hk : within [.tb, .cl, .qp, .ic, .err, .perf, .pwr] kl = true) {s0 s : State} (hs : Same kl s0 s) (c : Fin 4) (ue : Bool) :
    OSame kl s0 (execUMulhu c ue s) := by
  unfold execUMulhu
  repeat' first
    | with_reducible assumption
    | intro _
    | exact within_trans (by decide) hk
    | with_reducible apply OSame.next
    | with_reducible apply OSame.fault
    | with_reducible apply OSame.ite
    | with_reducible apply State.issue_same
    | with_reducible apply dpMul_same
    | with_reducible apply Same.ite
    | split
    | dsimp only

theorem execUMulhs_same {kl : List Kind} (hk : within [.tb, .cl, .qp, .ic, .err, .perf, .pwr] kl = true) {s0 s : State} (hs : Same kl s0 s) (c : Fin 4) (ue : Bool) :
    OSame kl s0 (execUMulhs c ue s) := by
  unfold execUMulhs
  repeat' first
    | with_reducible assumption
    | intro _
    | exact within_trans (by decide) hk
    | with_reducible apply OSame.next
    | with_reducible apply OSame.fault
    | with_reducible apply OSame.ite
    | with_reducible apply State.issue_same
    | with_reducible apply dpMul_same
    | with_reducible apply Same.ite
    | split
    | dsimp only

theorem execUTadd_same {kl : List Kind} (hk : within [.tb, .cl, .qp, .ic, .err, .perf, .pwr] kl = true) {s0 s : State} (hs : Same kl s0 s) (c : Fin 4) (ue : Bool) :
    OSame kl s0 (execUTadd c ue s) := by
  unfold execUTadd
  repeat' first
    | with_reducible assumption
    | intro _
    | exact within_trans (by decide) hk
    | with_reducible apply OSame.next
    | with_reducible apply OSame.fault
    | with_reducible apply OSame.ite
    | with_reducible apply State.issue_same
    | with_reducible apply dpTime_same
    | with_reducible apply Same.ite
    | split
    | dsimp only

theorem execUTsub_same {kl : List Kind} (hk : within [.tb, .cl, .qp, .ic, .err, .perf, .pwr] kl = true) {s0 s : State} (hs : Same kl s0 s) (c : Fin 4) (ue : Bool) :
    OSame kl s0 (execUTsub c ue s) := by
  unfold execUTsub
  repeat' first
    | with_reducible assumption
    | intro _
    | exact within_trans (by decide) hk
    | with_reducible apply OSame.next
    | with_reducible apply OSame.fault
    | with_reducible apply OSame.ite
    | with_reducible apply State.issue_same
    | with_reducible apply dpTime_same
    | with_reducible apply Same.ite
    | split
    | dsimp only

theorem execUTaddi_same {kl : List Kind} (hk : within [.tb, .cl, .qp, .ic, .err, .perf, .pwr] kl = true) {s0 s : State} (hs : Same kl s0 s) (c : Fin 4) (ue : Bool) :
    OSame kl s0 (execUTaddi c ue s) := by
  unfold execUTaddi
  repeat' first
    | with_reducible assumption
    | intro _
    | exact within_trans (by decide) hk
    | with_reducible apply OSame.next
    | with_reducible apply OSame.fault
    | with_reducible apply OSame.ite
    | with_reducible apply State.issue_same
    | with_reducible apply dpTime_same
    | with_reducible apply Same.ite
    | split
    | dsimp only

theorem execUTdiff_same {kl : List Kind} (hk : within [.tb, .cl, .qp, .ic, .err, .perf, .pwr] kl = true) {s0 s : State} (hs : Same kl s0 s) (c : Fin 4) (ue : Bool) :
    OSame kl s0 (execUTdiff c ue s) := by
  unfold execUTdiff
  repeat' first
    | with_reducible assumption
    | intro _
    | exact within_trans (by decide) hk
    | with_reducible apply OSame.next
    | with_reducible apply OSame.fault
    | with_reducible apply OSame.ite
    | with_reducible apply State.issue_same
    | with_reducible apply dpTime_same
    | with_reducible apply Same.ite
    | split
    | dsimp only

theorem execUTcmp_same {kl : List Kind} (hk : within [.tb, .cl, .qp, .ic, .err, .perf, .pwr] kl = true) {s0 s : State} (hs : Same kl s0 s) (c : Fin 4) (ue : Bool) :
    OSame kl s0 (execUTcmp c ue s) := by
  unfold execUTcmp
  repeat' first
    | with_reducible assumption
    | intro _
    | exact within_trans (by decide) hk
    | with_reducible apply OSame.next
    | with_reducible apply OSame.fault
    | with_reducible apply OSame.ite
    | with_reducible apply State.issue_same
    | with_reducible apply dpTime_same
    | with_reducible apply Same.ite
    | split
    | dsimp only

theorem execUTld_same {kl : List Kind} (hk : within [.tb, .cl, .qp, .ic, .err, .perf, .pwr] kl = true) {s0 s : State} (hs : Same kl s0 s) (c : Fin 4) (ue : Bool) :
    OSame kl s0 (execUTld c ue s) := by
  unfold execUTld
  repeat' first
    | with_reducible assumption
    | intro _
    | exact within_trans (by decide) hk
    | with_reducible apply OSame.next
    | with_reducible apply OSame.fault
    | with_reducible apply OSame.ite
    | with_reducible apply State.issue_same
    | with_reducible apply dpTime_same
    | with_reducible apply Same.ite
    | split
    | dsimp only

theorem execUTset_same {kl : List Kind} (hk : within [.tb, .cl, .qp, .ic, .err, .perf, .pwr] kl = true) {s0 s : State} (hs : Same kl s0 s) (c : Fin 4) (ue : Bool) :
    OSame kl s0 (execUTset c ue s) := by
  unfold execUTset
  repeat' first
    | with_reducible assumption
    | intro _
    | exact within_trans (by decide) hk
    | with_reducible apply OSame.next
    | with_reducible apply OSame.fault
    | with_reducible apply OSame.ite
    | with_reducible apply State.issue_same
    | with_reducible apply dpTime_same
    | with_reducible apply Same.ite
    | split
    | dsimp only

theorem execUTlow_same {kl : List Kind} (hk : within [.tb, .cl, .qp, .ic, .err, .perf, .pwr] kl = true) {s0 s : State} (hs : Same kl s0 s) (c : Fin 4) (ue : Bool) :
    OSame kl s0 (execUTlow c ue s) := by
  unfold execUTlow
  repeat' first
    | with_reducible assumption
    | intro _
    | exact within_trans (by decide) hk
    | with_reducible apply OSame.next
    | with_reducible apply OSame.fault
    | with_reducible apply OSame.ite
    | with_reducible apply State.issue_same
    | with_reducible apply dpTime_same
    | with_reducible apply Same.ite
    | split
    | dsimp only

theorem execUThigh_same {kl : List Kind} (hk : within [.tb, .cl, .qp, .ic, .err, .perf, .pwr] kl = true) {s0 s : State} (hs : Same kl s0 s) (c : Fin 4) (ue : Bool) :
    OSame kl s0 (execUThigh c ue s) := by
  unfold execUThigh
  repeat' first
    | with_reducible assumption
    | intro _
    | exact within_trans (by decide) hk
    | with_reducible apply OSame.next
    | with_reducible apply OSame.fault
    | with_reducible apply OSame.ite
    | with_reducible apply State.issue_same
    | with_reducible apply dpTime_same
    | with_reducible apply Same.ite
    | split
    | dsimp only

theorem execUTmov_same {kl : List Kind} (hk : within [.tb, .cl, .qp, .ic, .err, .perf, .pwr] kl = true) {s0 s : State} (hs : Same kl s0 s) (c : Fin 4) (ue : Bool) :
    OSame kl s0 (execUTmov c ue s) := by
  unfold execUTmov
  repeat' first
    | with_reducible assumption
    | intro _
    | exact within_trans (by decide) hk
    | with_reducible apply OSame.next
    | with_reducible apply OSame.fault
    | with_reducible apply OSame.ite
    | with_reducible apply State.issue_same
    | with_reducible apply dpTime_same
    | with_reducible apply Same.ite
    | split
    | dsimp only

theorem execUMovi_same {kl : List Kind} (hk : within [.tb, .cl, .qp, .ic, .err, .perf, .pwr] kl = true) {s0 s : State} (hs : Same kl s0 s) (c : Fin 4) (ue : Bool) :
    OSame kl s0 (execUMovi c ue s) := by
  unfold execUMovi
  repeat' first
    | with_reducible assumption
    | intro _
    | exact within_trans (by decide) hk
    | with_reducible apply OSame.next
    | with_reducible apply OSame.fault
    | with_reducible apply OSame.ite
    | with_reducible apply State.issue_same
    | with_reducible apply dpMove_same
    | with_reducible apply Same.ite
    | split
    | dsimp only

theorem execUMov_same {kl : List Kind} (hk : within [.tb, .cl, .qp, .ic, .err, .perf, .pwr] kl = true) {s0 s : State} (hs : Same kl s0 s) (c : Fin 4) (ue : Bool) :
    OSame kl s0 (execUMov c ue s) := by
  unfold execUMov
  repeat' first
    | with_reducible assumption
    | intro _
    | exact within_trans (by decide) hk
    | with_reducible apply OSame.next
    | with_reducible apply OSame.fault
    | with_reducible apply OSame.ite
    | with_reducible apply State.issue_same
    | with_reducible apply dpMove_same
    | with_reducible apply Same.ite
    | split
    | dsimp only

theorem execURdspec_same {kl : List Kind} (hk : within [.tb, .cl, .qp, .ic, .err, .perf, .pwr] kl = true) {s0 s : State} (hs : Same kl s0 s) (c : Fin 4) (ue : Bool) :
    OSame kl s0 (execURdspec c ue s) := by
  unfold execURdspec
  repeat' first
    | with_reducible assumption
    | intro _
    | exact within_trans (by decide) hk
    | with_reducible apply OSame.next
    | with_reducible apply OSame.fault
    | with_reducible apply OSame.ite
    | with_reducible apply State.issue_same
    | with_reducible apply dpMove_same
    | with_reducible apply Same.ite
    | split
    | dsimp only

theorem execUWrspec_same {kl : List Kind} (hk : within [.tb, .cl, .qp, .ic, .err, .perf, .pwr] kl = true) {s0 s : State} (hs : Same kl s0 s) (c : Fin 4) (ue : Bool) :
    OSame kl s0 (execUWrspec c ue s) := by
  unfold execUWrspec
  repeat' first
    | with_reducible assumption
    | intro _
    | exact within_trans (by decide) hk
    | with_reducible apply OSame.next
    | with_reducible apply OSame.fault
    | with_reducible apply OSame.ite
    | with_reducible apply State.issue_same
    | with_reducible apply dpMove_same
    | with_reducible apply Same.ite
    | split
    | dsimp only

theorem execUTagPop_same {kl : List Kind} (hk : within [.tb, .cl, .qp, .ic, .err, .perf, .pwr] kl = true) {s0 s : State} (hs : Same kl s0 s) (c : Fin 4) (ue : Bool) :
    OSame kl s0 (execUTagPop c ue s) := by
  unfold execUTagPop
  repeat' first
    | with_reducible assumption
    | intro _
    | exact within_trans (by decide) hk
    | with_reducible apply OSame.next
    | with_reducible apply OSame.fault
    | with_reducible apply OSame.ite
    | with_reducible apply State.issue_same
    | with_reducible apply dpTag_same
    | with_reducible apply Same.ite
    | split
    | dsimp only

theorem execUTagPeek_same {kl : List Kind} (hk : within [.tb, .cl, .qp, .ic, .err, .perf, .pwr] kl = true) {s0 s : State} (hs : Same kl s0 s) (c : Fin 4) (ue : Bool) :
    OSame kl s0 (execUTagPeek c ue s) := by
  unfold execUTagPeek
  repeat' first
    | with_reducible assumption
    | intro _
    | exact within_trans (by decide) hk
    | with_reducible apply OSame.next
    | with_reducible apply OSame.fault
    | with_reducible apply OSame.ite
    | with_reducible apply State.issue_same
    | with_reducible apply dpTag_same
    | with_reducible apply Same.ite
    | split
    | dsimp only

theorem execUTagLevel_same {kl : List Kind} (hk : within [.tb, .cl, .qp, .ic, .err, .perf, .pwr] kl = true) {s0 s : State} (hs : Same kl s0 s) (c : Fin 4) (ue : Bool) :
    OSame kl s0 (execUTagLevel c ue s) := by
  unfold execUTagLevel
  repeat' first
    | with_reducible assumption
    | intro _
    | exact within_trans (by decide) hk
    | with_reducible apply OSame.next
    | with_reducible apply OSame.fault
    | with_reducible apply OSame.ite
    | with_reducible apply State.issue_same
    | with_reducible apply dpTag_same
    | with_reducible apply Same.ite
    | split
    | dsimp only

theorem execUTagClrloss_same {kl : List Kind} (hk : within [.tb, .cl, .qp, .ic, .err, .perf, .pwr] kl = true) {s0 s : State} (hs : Same kl s0 s) (c : Fin 4) (ue : Bool) :
    OSame kl s0 (execUTagClrloss c ue s) := by
  unfold execUTagClrloss
  repeat' first
    | with_reducible assumption
    | intro _
    | exact within_trans (by decide) hk
    | with_reducible apply OSame.next
    | with_reducible apply OSame.fault
    | with_reducible apply OSame.ite
    | with_reducible apply State.issue_same
    | with_reducible apply dpTag_same
    | with_reducible apply Same.ite
    | split
    | dsimp only

theorem execUEdgePush_same {kl : List Kind} (hk : within [.tb, .ch, .cl, .qp, .ic, .err, .perf, .pwr] kl = true) {s0 s : State} (hs : Same kl s0 s) (c : Fin 4) (ue : Bool) :
    OSame kl s0 (execUEdgePush c ue s) := by
  unfold execUEdgePush
  repeat' first
    | with_reducible assumption
    | intro _
    | exact within_trans (by decide) hk
    | with_reducible apply OSame.next
    | with_reducible apply OSame.fault
    | with_reducible apply OSame.ite
    | with_reducible apply State.issue_same
    | with_reducible apply dpEdge_same
    | with_reducible apply Same.ite
    | split
    | dsimp only

theorem execUEdgeQlevel_same {kl : List Kind} (hk : within [.tb, .ch, .cl, .qp, .ic, .err, .perf, .pwr] kl = true) {s0 s : State} (hs : Same kl s0 s) (c : Fin 4) (ue : Bool) :
    OSame kl s0 (execUEdgeQlevel c ue s) := by
  unfold execUEdgeQlevel
  repeat' first
    | with_reducible assumption
    | intro _
    | exact within_trans (by decide) hk
    | with_reducible apply OSame.next
    | with_reducible apply OSame.fault
    | with_reducible apply OSame.ite
    | with_reducible apply State.issue_same
    | with_reducible apply dpEdge_same
    | with_reducible apply Same.ite
    | split
    | dsimp only

theorem execUIoRd_same {kl : List Kind} (hk : within [.tb, .ch, .cl, .tim, .timWr, .bank, .dma, .mb, .qp, .ic, .err, .perf, .pwr, .rtc] kl = true) {s0 s : State} (hs : Same kl s0 s) (c : Fin 4) (ue : Bool) :
    OSame kl s0 (execUIoRd c ue s) := by
  unfold execUIoRd
  repeat' first
    | with_reducible assumption
    | intro _
    | exact within_trans (by decide) hk
    | with_reducible apply OSame.next
    | with_reducible apply OSame.fault
    | with_reducible apply OSame.ite
    | with_reducible apply State.issue_same
    | with_reducible apply dpIo_same
    | with_reducible apply Same.ite
    | split
    | dsimp only

theorem execUIoWr_same {kl : List Kind} (hk : within [.tb, .ch, .cl, .tim, .timWr, .bank, .dma, .mb, .qp, .ic, .err, .perf, .pwr, .rtc] kl = true) {s0 s : State} (hs : Same kl s0 s) (c : Fin 4) (ue : Bool) :
    OSame kl s0 (execUIoWr c ue s) := by
  unfold execUIoWr
  repeat' first
    | with_reducible assumption
    | intro _
    | exact within_trans (by decide) hk
    | with_reducible apply OSame.next
    | with_reducible apply OSame.fault
    | with_reducible apply OSame.ite
    | with_reducible apply State.issue_same
    | with_reducible apply dpIo_same
    | with_reducible apply Same.ite
    | split
    | dsimp only

theorem execUBankLd_same {kl : List Kind} (hk : within [.tb, .cl, .bank, .mem, .ue, .qp, .ic, .err, .perf, .pwr] kl = true) {s0 s : State} (hs : Same kl s0 s) (c : Fin 4) (ue : Bool) (e : Ecc) :
    OSame kl s0 (execUBankLd c ue e s) := by
  unfold execUBankLd
  repeat' first
    | with_reducible assumption
    | intro _
    | exact within_trans (by decide) hk
    | with_reducible apply OSame.next
    | with_reducible apply OSame.fault
    | with_reducible apply OSame.ite
    | with_reducible apply State.issue_same
    | with_reducible apply dpBank_same
    | with_reducible apply Same.ite
    | split
    | dsimp only

theorem execUBankSt_same {kl : List Kind} (hk : within [.tb, .cl, .bank, .mem, .ue, .qp, .ic, .err, .perf, .pwr] kl = true) {s0 s : State} (hs : Same kl s0 s) (c : Fin 4) (ue : Bool) (e : Ecc) :
    OSame kl s0 (execUBankSt c ue e s) := by
  unfold execUBankSt
  repeat' first
    | with_reducible assumption
    | intro _
    | exact within_trans (by decide) hk
    | with_reducible apply OSame.next
    | with_reducible apply OSame.fault
    | with_reducible apply OSame.ite
    | with_reducible apply State.issue_same
    | with_reducible apply dpBank_same
    | with_reducible apply Same.ite
    | split
    | dsimp only

theorem execUBankAdd_same {kl : List Kind} (hk : within [.tb, .cl, .bank, .mem, .ue, .qp, .ic, .err, .perf, .pwr] kl = true) {s0 s : State} (hs : Same kl s0 s) (c : Fin 4) (ue : Bool) (e : Ecc) :
    OSame kl s0 (execUBankAdd c ue e s) := by
  unfold execUBankAdd
  repeat' first
    | with_reducible assumption
    | intro _
    | exact within_trans (by decide) hk
    | with_reducible apply OSame.next
    | with_reducible apply OSame.fault
    | with_reducible apply OSame.ite
    | with_reducible apply State.issue_same
    | with_reducible apply dpBank_same
    | with_reducible apply Same.ite
    | split
    | dsimp only

theorem execUBankSwap_same {kl : List Kind} (hk : within [.tb, .cl, .bank, .mem, .ue, .qp, .ic, .err, .perf, .pwr] kl = true) {s0 s : State} (hs : Same kl s0 s) (c : Fin 4) (ue : Bool) (e : Ecc) :
    OSame kl s0 (execUBankSwap c ue e s) := by
  unfold execUBankSwap
  repeat' first
    | with_reducible assumption
    | intro _
    | exact within_trans (by decide) hk
    | with_reducible apply OSame.next
    | with_reducible apply OSame.fault
    | with_reducible apply OSame.ite
    | with_reducible apply State.issue_same
    | with_reducible apply dpBank_same
    | with_reducible apply Same.ite
    | split
    | dsimp only

theorem execUSig_same {kl : List Kind} (hk : within [.tb, .cl, .qp, .ic, .err, .perf, .pwr] kl = true) {s0 s : State} (hs : Same kl s0 s) (c : Fin 4) (ue : Bool) :
    OSame kl s0 (execUSig c ue s) := by
  unfold execUSig
  repeat' first
    | with_reducible assumption
    | intro _
    | exact within_trans (by decide) hk
    | with_reducible apply OSame.next
    | with_reducible apply OSame.fault
    | with_reducible apply OSame.ite
    | with_reducible apply State.issue_same
    | with_reducible apply dpEvent_same
    | with_reducible apply Same.ite
    | split
    | dsimp only

theorem execUEvclr_same {kl : List Kind} (hk : within [.tb, .cl, .qp, .ic, .err, .perf, .pwr] kl = true) {s0 s : State} (hs : Same kl s0 s) (c : Fin 4) (ue : Bool) :
    OSame kl s0 (execUEvclr c ue s) := by
  unfold execUEvclr
  repeat' first
    | with_reducible assumption
    | intro _
    | exact within_trans (by decide) hk
    | with_reducible apply OSame.next
    | with_reducible apply OSame.fault
    | with_reducible apply OSame.ite
    | with_reducible apply State.issue_same
    | with_reducible apply dpEvent_same
    | with_reducible apply Same.ite
    | split
    | dsimp only

theorem execUEvclrm_same {kl : List Kind} (hk : within [.tb, .cl, .qp, .ic, .err, .perf, .pwr] kl = true) {s0 s : State} (hs : Same kl s0 s) (c : Fin 4) (ue : Bool) :
    OSame kl s0 (execUEvclrm c ue s) := by
  unfold execUEvclrm
  repeat' first
    | with_reducible assumption
    | intro _
    | exact within_trans (by decide) hk
    | with_reducible apply OSame.next
    | with_reducible apply OSame.fault
    | with_reducible apply OSame.ite
    | with_reducible apply State.issue_same
    | with_reducible apply dpEvent_same
    | with_reducible apply Same.ite
    | split
    | dsimp only

theorem execUWait_same {kl : List Kind} (hk : within [.tb, .cl, .qp, .ic, .err, .perf, .pwr] kl = true) {s0 s : State} (hs : Same kl s0 s) (c : Fin 4) (ue : Bool) :
    OSame kl s0 (execUWait c ue s) := by
  unfold execUWait
  repeat' first
    | with_reducible assumption
    | intro _
    | exact within_trans (by decide) hk
    | with_reducible apply OSame.next
    | with_reducible apply OSame.fault
    | with_reducible apply OSame.ite
    | with_reducible apply State.issue_same
    | with_reducible apply dpWait_same
    | with_reducible apply Same.ite
    | split
    | dsimp only

theorem datapath_same {kl : List Kind} (hk : within [.tb, .ch, .cl, .tim, .timWr, .bank, .mem, .ue, .dma, .mb, .qp, .ic, .err, .perf, .pwr, .rtc] kl = true) {s0 s : State} (hs : Same kl s0 s) (c : Nat) (w : BitVec 128) (t : Nat) :
    Same kl s0 (datapath c s w t).state := by
  unfold datapath
  repeat' first
    | with_reducible assumption
    | intro _
    | exact within_trans (by decide) hk
    | with_reducible apply didOk_same
    | with_reducible apply didFault_same
    | with_reducible apply didHandled_same
    | with_reducible apply Same.iteDid
    | with_reducible apply dpCtrl_same
    | with_reducible apply dpAlu_same
    | with_reducible apply dpShift_same
    | with_reducible apply dpMul_same
    | with_reducible apply dpTime_same
    | with_reducible apply dpMove_same
    | with_reducible apply dpWait_same
    | with_reducible apply dpTag_same
    | with_reducible apply dpEdge_same
    | with_reducible apply dpIo_same
    | with_reducible apply dpBank_same
    | with_reducible apply dpEvent_same
    | with_reducible apply Same.ite
    | split
    | dsimp only

theorem execUJump_same {kl : List Kind} (hk : within [.tb, .ch, .cl, .tim, .timWr, .bank, .mem, .ue, .dma, .mb, .qp, .ic, .err, .perf, .pwr, .rtc] kl = true) {s0 s : State} (hs : Same kl s0 s) (c : Fin 4) (ue : Bool) :
    OSame kl s0 (execUJump c ue s) := by
  unfold execUJump
  repeat' first
    | with_reducible assumption
    | intro _
    | exact within_trans (by decide) hk
    | with_reducible apply OSame.next
    | with_reducible apply OSame.fault
    | with_reducible apply OSame.ite
    | with_reducible apply State.issue_same
    | with_reducible apply datapath_same
    | with_reducible apply Same.ite
    | split
    | dsimp only

theorem execUCall_same {kl : List Kind} (hk : within [.tb, .ch, .cl, .tim, .timWr, .bank, .mem, .ue, .dma, .mb, .qp, .ic, .err, .perf, .pwr, .rtc] kl = true) {s0 s : State} (hs : Same kl s0 s) (c : Fin 4) (ue : Bool) :
    OSame kl s0 (execUCall c ue s) := by
  unfold execUCall
  repeat' first
    | with_reducible assumption
    | intro _
    | exact within_trans (by decide) hk
    | with_reducible apply OSame.next
    | with_reducible apply OSame.fault
    | with_reducible apply OSame.ite
    | with_reducible apply State.issue_same
    | with_reducible apply datapath_same
    | with_reducible apply Same.ite
    | split
    | dsimp only

theorem execURet_same {kl : List Kind} (hk : within [.tb, .ch, .cl, .tim, .timWr, .bank, .mem, .ue, .dma, .mb, .qp, .ic, .err, .perf, .pwr, .rtc] kl = true) {s0 s : State} (hs : Same kl s0 s) (c : Fin 4) (ue : Bool) :
    OSame kl s0 (execURet c ue s) := by
  unfold execURet
  repeat' first
    | with_reducible assumption
    | intro _
    | exact within_trans (by decide) hk
    | with_reducible apply OSame.next
    | with_reducible apply OSame.fault
    | with_reducible apply OSame.ite
    | with_reducible apply State.issue_same
    | with_reducible apply datapath_same
    | with_reducible apply Same.ite
    | split
    | dsimp only

theorem execULoop_same {kl : List Kind} (hk : within [.tb, .ch, .cl, .tim, .timWr, .bank, .mem, .ue, .dma, .mb, .qp, .ic, .err, .perf, .pwr, .rtc] kl = true) {s0 s : State} (hs : Same kl s0 s) (c : Fin 4) (ue : Bool) :
    OSame kl s0 (execULoop c ue s) := by
  unfold execULoop
  repeat' first
    | with_reducible assumption
    | intro _
    | exact within_trans (by decide) hk
    | with_reducible apply OSame.next
    | with_reducible apply OSame.fault
    | with_reducible apply OSame.ite
    | with_reducible apply State.issue_same
    | with_reducible apply datapath_same
    | with_reducible apply Same.ite
    | split
    | dsimp only

theorem execUDispatch_same {kl : List Kind} (hk : within [.tb, .ch, .cl, .tim, .timWr, .bank, .mem, .ue, .dma, .mb, .qp, .ic, .err, .perf, .pwr, .rtc] kl = true) {s0 s : State} (hs : Same kl s0 s) (c : Fin 4) (ue : Bool) :
    OSame kl s0 (execUDispatch c ue s) := by
  unfold execUDispatch
  repeat' first
    | with_reducible assumption
    | intro _
    | exact within_trans (by decide) hk
    | with_reducible apply OSame.next
    | with_reducible apply OSame.fault
    | with_reducible apply OSame.ite
    | with_reducible apply State.issue_same
    | with_reducible apply datapath_same
    | with_reducible apply Same.ite
    | split
    | dsimp only

theorem execUEnd_same {kl : List Kind} (hk : within [.tb, .ch, .cl, .tim, .timWr, .bank, .mem, .ue, .dma, .mb, .qp, .ic, .err, .perf, .pwr, .rtc] kl = true) {s0 s : State} (hs : Same kl s0 s) (c : Fin 4) (ue : Bool) :
    OSame kl s0 (execUEnd c ue s) := by
  unfold execUEnd
  repeat' first
    | with_reducible assumption
    | intro _
    | exact within_trans (by decide) hk
    | with_reducible apply OSame.next
    | with_reducible apply OSame.fault
    | with_reducible apply OSame.ite
    | with_reducible apply State.issue_same
    | with_reducible apply datapath_same
    | with_reducible apply Same.ite
    | split
    | dsimp only

end Sys2Proof.Machine
end

