-- ==== Sys2Proof/Laws/SameLoad.lean ====
section
/-! SUPPORT. Frames of the operations of Machine/Load.lean. -/
namespace Sys2Proof.Machine

theorem State.vectorSources_same {kl : List Kind} (hk : within [.ic, .err, .perf, .pwr] kl = true) {s0 s : State} (hs : Same kl s0 s) (c : Fin 4) (vs : List W32) :
    Same kl s0 (State.vectorSources s c vs) := by
  unfold State.vectorSources
  repeat' first
    | with_reducible assumption
    | intro _
    | exact within_trans (by decide) hk
    | with_reducible apply State.modSrc_same
    | with_reducible apply State.report_same
    | with_reducible apply Same.ite
    | with_reducible apply Same.each
    | with_reducible apply Same.foldl
    | with_reducible apply Same.foldlFst
    | split
    | dsimp only

theorem State.loadImage_same {kl : List Kind} (hk : within [.cl, .ic, .err, .perf, .pwr] kl = true) {s0 s : State} (hs : Same kl s0 s) (c : Fin 4) (l : List W64) (h : BitVec 384) :
    Same kl s0 (State.loadImage s c l h) := by
  unfold State.loadImage
  repeat' first
    | with_reducible assumption
    | intro _
    | exact within_trans (by decide) hk
    | with_reducible apply State.modMe_same
    | with_reducible apply State.modSrc_same
    | with_reducible apply State.vectorSources_same
    | with_reducible apply Same.ite
    | with_reducible apply Same.foldl
    | with_reducible apply Same.foldlFst
    | with_reducible refine Same.step (within_trans (by decide) hk) (Same.set_ic _ _) ?_
    | split
    | dsimp only

theorem cmdUcLoad_same {kl : List Kind} (hk : within [.ch, .cl, .bank, .env, .st, .qp, .ic, .err, .perf, .pwr] kl = true) {s0 s : State} (hs : Same kl s0 s) (p : List W32) :
    Same kl s0 (cmdUcLoad s p).state := by
  unfold cmdUcLoad
  repeat' first
    | with_reducible assumption
    | intro _
    | exact within_trans (by decide) hk
    | with_reducible apply fail_same
    | with_reducible apply okay_same
    | with_reducible apply done_same
    | with_reducible apply wait_same
    | with_reducible apply Same.iteRes
    | with_reducible apply State.modMe_same
    | with_reducible apply State.settle_same
    | with_reducible apply State.countIdle_same
    | with_reducible apply State.giveBank_same
    | with_reducible apply State.loadImage_same
    | with_reducible apply Same.ite
    | with_reducible apply Same.each
    | with_reducible apply Same.foldl
    | with_reducible apply Same.foldlFst
    | split
    | dsimp only

end Sys2Proof.Machine
end

