-- ==== Sys2Proof/Laws/SameMail.lean ====
section
/-! SUPPORT. Frames of the operations of Machine/Mail.lean. -/
namespace Sys2Proof.Machine

theorem cmdSysPing_same {kl : List Kind} (hk : within [] kl = true) {s0 s : State} (hs : Same kl s0 s) (p : List W32) :
    Same kl s0 (cmdSysPing s p).state := by
  unfold cmdSysPing
  repeat' first
    | with_reducible assumption
    | intro _
    | exact within_trans (by decide) hk
    | with_reducible apply fail_same
    | with_reducible apply okay_same
    | with_reducible apply done_same
    | with_reducible apply wait_same
    | with_reducible apply Same.iteRes
    | with_reducible apply Same.ite
    | split
    | dsimp only

theorem cmdSysGetInfo_same {kl : List Kind} (hk : within [] kl = true) {s0 s : State} (hs : Same kl s0 s) (p : List W32) :
    Same kl s0 (cmdSysGetInfo s p).state := by
  unfold cmdSysGetInfo
  repeat' first
    | with_reducible assumption
    | intro _
    | exact within_trans (by decide) hk
    | with_reducible apply fail_same
    | with_reducible apply okay_same
    | with_reducible apply done_same
    | with_reducible apply wait_same
    | with_reducible apply Same.iteRes
    | with_reducible apply Same.ite
    | split
    | dsimp only

theorem cmdSysGetHealth_same {kl : List Kind} (hk : within [] kl = true) {s0 s : State} (hs : Same kl s0 s) :
    Same kl s0 (cmdSysGetHealth s).state := by
  unfold cmdSysGetHealth
  repeat' first
    | with_reducible assumption
    | intro _
    | exact within_trans (by decide) hk
    | with_reducible apply fail_same
    | with_reducible apply okay_same
    | with_reducible apply done_same
    | with_reducible apply wait_same
    | with_reducible apply Same.iteRes
    | with_reducible apply Same.ite
    | split
    | dsimp only

theorem State.command_same {kl : List Kind} (hk : within [.tb, .ref, .pps, .bx, .ch, .cl, .slot, .tim, .timWr, .brk, .bank, .mem, .ue, .dma, .mir, .env, .st, .qp, .ic, .err, .perf, .pwr, .rtc, .deferred, .freeCnt] kl = true) {s0 s : State} (hs : Same kl s0 s) (mb op : Nat) (env : Env) (p : List W32) :
    Same kl s0 (State.command s mb op env p).state := by
  unfold State.command
  repeat' first
    | with_reducible assumption
    | intro _
    | exact within_trans (by decide) hk
    | with_reducible apply fail_same
    | with_reducible apply okay_same
    | with_reducible apply done_same
    | with_reducible apply wait_same
    | with_reducible apply Same.iteRes
    | with_reducible apply cmdChSetInput_same
    | with_reducible apply cmdTimerSet_same
    | with_reducible apply cmdTaskSet_same
    | with_reducible apply cmdTaskRemove_same
    | with_reducible apply cmdSchedCheck_same
    | with_reducible apply cmdCalRun_same
    | with_reducible apply cmdCalStatus_same
    | with_reducible apply cmdCalPolicy_same
    | with_reducible apply cmdEnvTdr_same
    | with_reducible apply cmdEnvMonitors_same
    | with_reducible apply cmdMeasDefine_same
    | with_reducible apply cmdMeasArm_same
    | with_reducible apply cmdMeasStop_same
    | with_reducible apply cmdMeasRead_same
    | with_reducible apply cmdHistDefine_same
    | with_reducible apply cmdChSetOutput_same
    | with_reducible apply cmdChEnable_same
    | with_reducible apply cmdChDisable_same
    | with_reducible apply cmdSynPattern_same
    | with_reducible apply cmdSynBrakeCfg_same
    | with_reducible apply cmdSynBrakeClear_same
    | with_reducible apply cmdSynPair_same
    | with_reducible apply cmdBankAssign_same
    | with_reducible apply cmdStreamOpen_same
    | with_reducible apply cmdStreamClose_same
    | with_reducible apply cmdTsSetReference_same
    | with_reducible apply cmdTsSetTick_same
    | with_reducible apply cmdTsDiscipline_same
    | with_reducible apply cmdTsSetTime_same
    | with_reducible apply cmdBxLink_same
    | with_reducible apply cmdBxAlign_same
    | with_reducible apply cmdQdDefine_same
    | with_reducible apply cmdQdRead_same
    | with_reducible apply cmdTsRtcSet_same
    | with_reducible apply cmdTsRtcRead_same
    | with_reducible apply cmdSysSetMirror_same
    | with_reducible apply cmdPwrSetState_same
    | with_reducible apply cmdPwrRetainBanks_same
    | with_reducible apply cmdUcLoad_same
    | with_reducible apply cmdSysPing_same
    | with_reducible apply cmdSysGetInfo_same
    | with_reducible apply cmdSysGetHealth_same
    | with_reducible apply Same.ite
    | split
    | dsimp only

theorem State.applyAt_same {kl : List Kind} (hk : within [.bx, .ch, .cl, .slot, .dec, .tim, .timWr, .bank, .mem, .ue, .dma, .posted, .mir, .env, .st, .qp, .ic, .err, .perf, .pwr] kl = true) {s0 s : State} (hs : Same kl s0 s) (op : Nat) (p : List W32) (b : Nat) :
    Same kl s0 (State.applyAt s op p b) := by
  unfold State.applyAt
  repeat' first
    | with_reducible assumption
    | intro _
    | exact within_trans (by decide) hk
    | with_reducible apply applySetInput_same
    | with_reducible apply applyTimerStart_same
    | with_reducible apply applyTaskSet_same
    | with_reducible apply applyTaskRemove_same
    | with_reducible apply applyCalPolicy_same
    | with_reducible apply State.applyTdr_same
    | with_reducible apply armSlots_same
    | with_reducible apply stopSlots_same
    | with_reducible apply applySetOutput_same
    | with_reducible apply applyEnable_same
    | with_reducible apply applyDisable_same
    | with_reducible apply applyPattern_same
    | with_reducible apply applyBrakeGuard_same
    | with_reducible apply applySynPair_same
    | with_reducible apply applyStreamStart_same
    | with_reducible apply applyStreamClose_same
    | with_reducible apply State.applyQd_same
    | with_reducible apply State.applyMirror_same
    | with_reducible apply State.applyPower_same
    | with_reducible apply Same.ite
    | split
    | dsimp only

theorem State.guarded_same {kl : List Kind} (hk : within [.tb, .ref, .pps, .bx, .ch, .cl, .slot, .tim, .timWr, .brk, .bank, .mem, .ue, .dma, .mir, .env, .st, .qp, .ic, .err, .perf, .pwr, .rtc, .deferred, .freeCnt] kl = true) {s0 s : State} (hs : Same kl s0 s) (but mb op : Nat) (env : Env) (p : List W32) :
    Same kl s0 (State.guarded s but mb op env p).state := by
  unfold State.guarded
  repeat' first
    | with_reducible assumption
    | intro _
    | exact within_trans (by decide) hk
    | with_reducible apply fail_same
    | with_reducible apply okay_same
    | with_reducible apply done_same
    | with_reducible apply wait_same
    | with_reducible apply Same.iteRes
    | with_reducible apply State.command_same
    | with_reducible apply Same.ite
    | split
    | dsimp only

end Sys2Proof.Machine
end

