-- ==== Sys2Proof/Laws/SameGroup.lean ====
section
/-! SUPPORT. Frames of the operations of Machine/Group.lean. -/
namespace Sys2Proof.Machine

theorem State.modGrp_same {kl : List Kind} (hk : within [.grp] kl = true) {s0 s : State} (hs : Same kl s0 s) (k : Nat) (f : Group → Group) :
    Same kl s0 (State.modGrp s k f) := by
  unfold State.modGrp
  repeat' first
    | with_reducible assumption
    | intro _
    | exact within_trans (by decide) hk
    | with_reducible apply Same.ite
    | with_reducible refine Same.step (within_trans (by decide) hk) (Same.set_grp _ _) ?_
    | split
    | dsimp only

theorem State.groupAhead_same {kl : List Kind} (hk : within [.bx, .ch, .cl, .slot, .dec, .tim, .timWr, .bank, .mem, .ue, .dma, .posted, .mir, .env, .st, .qp, .grp, .ic, .err, .perf, .pwr] kl = true) {s0 s : State} (hs : Same kl s0 s) (k : Option Nat) :
    Same kl s0 (State.groupAhead s k) := by
  unfold State.groupAhead
  repeat' first
    | with_reducible assumption
    | intro _
    | exact within_trans (by decide) hk
    | with_reducible apply State.applyAt_same
    | with_reducible apply State.modGrp_same
    | with_reducible apply Same.ite
    | with_reducible apply Same.foldl
    | with_reducible apply Same.foldlFst
    | split
    | dsimp only

theorem cmdGrpPrepare_same {kl : List Kind} (hk : within [.bx, .ch, .cl, .slot, .dec, .tim, .timWr, .bank, .mem, .ue, .dma, .posted, .mir, .env, .st, .qp, .grp, .ic, .err, .perf, .pwr] kl = true) {s0 s : State} (hs : Same kl s0 s) (env : Env) (p : List W32) :
    Same kl s0 (cmdGrpPrepare s env p).state := by
  unfold cmdGrpPrepare
  repeat' first
    | with_reducible assumption
    | intro _
    | exact within_trans (by decide) hk
    | with_reducible apply fail_same
    | with_reducible apply okay_same
    | with_reducible apply done_same
    | with_reducible apply wait_same
    | with_reducible apply Same.iteRes
    | with_reducible apply State.modGrp_same
    | with_reducible apply State.groupAhead_same
    | with_reducible apply Same.ite
    | split
    | dsimp only

theorem State.stageMember_same {kl : List Kind} (hk : within [.ch, .cl, .tim, .env, .st, .qp, .ic, .err, .perf, .pwr, .deferred] kl = true) {s0 s : State} (hs : Same kl s0 s) (b : Nat) (m : Member) :
    Same kl s0 (State.stageMember s b m) := by
  unfold State.stageMember
  repeat' first
    | with_reducible assumption
    | intro _
    | exact within_trans (by decide) hk
    | with_reducible apply State.defer_same
    | with_reducible apply applyPattern_same
    | with_reducible apply Same.ite
    | split
    | dsimp only

theorem cmdGrpCommit_same {kl : List Kind} (hk : within [.ch, .cl, .tim, .env, .st, .qp, .grp, .ic, .err, .perf, .pwr, .deferred] kl = true) {s0 s : State} (hs : Same kl s0 s) (p : List W32) :
    Same kl s0 (cmdGrpCommit s p).state := by
  unfold cmdGrpCommit
  repeat' first
    | with_reducible assumption
    | intro _
    | exact within_trans (by decide) hk
    | with_reducible apply fail_same
    | with_reducible apply okay_same
    | with_reducible apply done_same
    | with_reducible apply wait_same
    | with_reducible apply Same.iteRes
    | with_reducible apply State.modGrp_same
    | with_reducible apply State.stageMember_same
    | with_reducible apply Same.ite
    | with_reducible apply Same.foldl
    | with_reducible apply Same.foldlFst
    | split
    | dsimp only

theorem cmdGrpAbandon_same {kl : List Kind} (hk : within [.grp] kl = true) {s0 s : State} (hs : Same kl s0 s) (p : List W32) :
    Same kl s0 (cmdGrpAbandon s p).state := by
  unfold cmdGrpAbandon
  repeat' first
    | with_reducible assumption
    | intro _
    | exact within_trans (by decide) hk
    | with_reducible apply fail_same
    | with_reducible apply okay_same
    | with_reducible apply done_same
    | with_reducible apply wait_same
    | with_reducible apply Same.iteRes
    | with_reducible apply State.modGrp_same
    | with_reducible apply Same.ite
    | split
    | dsimp only

theorem State.releaseGroups_same {kl : List Kind} (hk : within [.grp] kl = true) {s0 s : State} (hs : Same kl s0 s) (b : Nat) :
    Same kl s0 (State.releaseGroups s b) := by
  unfold State.releaseGroups
  repeat' first
    | with_reducible assumption
    | intro _
    | exact within_trans (by decide) hk
    | with_reducible apply Same.ite
    | with_reducible refine Same.step (within_trans (by decide) hk) (Same.set_grp _ _) ?_
    | split
    | dsimp only

end Sys2Proof.Machine
end

