-- ==== Sys2Proof/Laws/SameTake.lean ====
section
/-! SUPPORT. Frames of the operations of Machine/Take.lean. -/
namespace Sys2Proof.Machine

theorem State.finish_same {kl : List Kind} (hk : within [.mb, .ic, .perf, .pwr] kl = true) {s0 : State} {r : Res} (h : Same kl s0 r.state) (mb : Nat) : Same kl s0 (State.finish r mb) := by
  unfold State.finish
  split
  · exact State.mbDone_same (within_trans (by decide) hk) (Same.ite (State.modMb_same (within_trans (by decide) hk) h _ _) h) _ _ _
  · exact State.modMb_same (within_trans (by decide) hk) h _ _

theorem State.runPacket_same {kl : List Kind} (hk : within [.tb, .ref, .pps, .bx, .ch, .cl, .slot, .dec, .tim, .timWr, .brk, .bank, .mem, .ue, .dma, .posted, .mir, .env, .st, .mb, .qp, .grp, .ic, .err, .perf, .sec, .tamper, .pwr, .rtc, .deferred, .freeCnt] kl = true) {s0 s : State} (hs : Same kl s0 s) (mb : Nat) (env : Env) :
    Same kl s0 (State.runPacket s mb env) := by
  unfold State.runPacket
  repeat' first
    | with_reducible assumption
    | intro _
    | exact within_trans (by decide) hk
    | with_reducible apply State.mbDone_same
    | with_reducible apply State.sysReset_same
    | with_reducible apply State.guarded_same
    | with_reducible apply cmdGrpPrepare_same
    | with_reducible apply cmdGrpCommit_same
    | with_reducible apply cmdGrpAbandon_same
    | with_reducible apply Same.ite
    | split
    | with_reducible apply State.finish_same
    | with_reducible apply okay_same
    | dsimp only

theorem State.runSecure_same {kl : List Kind} (hk : within [.ch, .cl, .env, .st, .mb, .qp, .ic, .err, .perf, .sec, .tamper, .pwr] kl = true) {s0 s : State} (hs : Same kl s0 s) (mb : Nat) (env : Env) :
    Same kl s0 (State.runSecure s mb env) := by
  unfold State.runSecure
  repeat' first
    | with_reducible assumption
    | intro _
    | exact within_trans (by decide) hk
    | with_reducible apply State.modMb_same
    | with_reducible apply State.mbDone_same
    | with_reducible apply State.secDeliver_same
    | with_reducible apply Same.ite
    | split
    | dsimp only

theorem State.take_same {kl : List Kind} (hk : within [.tb, .ref, .pps, .bx, .ch, .cl, .slot, .dec, .tim, .timWr, .brk, .bank, .mem, .ue, .dma, .posted, .mir, .env, .st, .mb, .qp, .grp, .ic, .err, .perf, .sec, .tamper, .pwr, .rtc, .deferred, .freeCnt] kl = true) {s0 s : State} (hs : Same kl s0 s) (mb : Nat) (env : Env) :
    Same kl s0 (State.take s mb env) := by
  unfold State.take
  repeat' first
    | with_reducible assumption
    | intro _
    | exact within_trans (by decide) hk
    | with_reducible apply State.mbTake_same
    | with_reducible apply State.runPacket_same
    | with_reducible apply State.runSecure_same
    | with_reducible apply Same.ite
    | split
    | dsimp only

theorem execMessageTake_same {kl : List Kind} (hk : within [.tb, .ref, .pps, .bx, .ch, .cl, .slot, .dec, .tim, .timWr, .brk, .bank, .mem, .ue, .dma, .posted, .mir, .env, .st, .mb, .qp, .grp, .ic, .err, .perf, .sec, .tamper, .pwr, .rtc, .deferred, .freeCnt] kl = true) {s0 s : State} (hs : Same kl s0 s) (mb : Fin 8) (e : Env) :
    OSame kl s0 (execMessageTake mb e s) := by
  unfold execMessageTake
  repeat' first
    | with_reducible assumption
    | intro _
    | exact within_trans (by decide) hk
    | with_reducible apply OSame.next
    | with_reducible apply OSame.fault
    | with_reducible apply OSame.ite
    | with_reducible apply State.take_same
    | with_reducible apply Same.ite
    | split
    | dsimp only

theorem execGo_same {kl : List Kind} (hk : within [.mb, .goNext, .ic, .err, .perf, .pwr] kl = true) {s0 s : State} (hs : Same kl s0 s) (mb : Fin 8) :
    OSame kl s0 (execGo mb s) := by
  unfold execGo
  repeat' first
    | with_reducible assumption
    | intro _
    | exact within_trans (by decide) hk
    | with_reducible apply OSame.next
    | with_reducible apply OSame.fault
    | with_reducible apply OSame.ite
    | with_reducible apply State.mbGo_same
    | with_reducible apply Same.ite
    | split
    | dsimp only

theorem execSecureTimeout_same {kl : List Kind} (hk : within [.tb, .mb, .ic, .perf, .pwr] kl = true) {s0 s : State} (hs : Same kl s0 s) (mb : Fin 8) :
    OSame kl s0 (execSecureTimeout mb s) := by
  unfold execSecureTimeout
  repeat' first
    | with_reducible assumption
    | intro _
    | exact within_trans (by decide) hk
    | with_reducible apply OSame.next
    | with_reducible apply OSame.fault
    | with_reducible apply OSame.ite
    | with_reducible apply State.runTo_same
    | with_reducible apply State.mbDone_same
    | with_reducible apply Same.ite
    | split
    | dsimp only

theorem State.hostPost_same {kl : List Kind} (hk : within [.mb, .goNext, .ic, .err, .perf, .pwr] kl = true) {s0 s : State} (hs : Same kl s0 s) (m : Msg) (op : Nat) (p : List W32) :
    Same kl s0 (State.hostPost s m op p) := by
  unfold State.hostPost
  repeat' first
    | with_reducible assumption
    | intro _
    | exact within_trans (by decide) hk
    | with_reducible apply State.mbWrite_same
    | with_reducible apply State.mbGo_same
    | with_reducible apply Same.ite
    | with_reducible apply Same.each
    | split
    | dsimp only

theorem State.send_same {kl : List Kind} (hk : within [.tb, .ref, .pps, .bx, .ch, .cl, .slot, .dec, .tim, .timWr, .brk, .bank, .mem, .ue, .dma, .posted, .mir, .env, .st, .mb, .goNext, .qp, .grp, .ic, .err, .perf, .sec, .tamper, .pwr, .rtc, .deferred, .freeCnt] kl = true) {s0 s : State} (hs : Same kl s0 s) (m : Msg) (op : Nat) (p : List W32) :
    Same kl s0 (State.send s m op p) := by
  unfold State.send
  repeat' first
    | with_reducible assumption
    | intro _
    | exact within_trans (by decide) hk
    | with_reducible apply State.take_same
    | with_reducible apply State.hostPost_same
    | with_reducible apply Same.ite
    | split
    | dsimp only

theorem execSysPing_same {kl : List Kind} (hk : within [.tb, .ref, .pps, .bx, .ch, .cl, .slot, .dec, .tim, .timWr, .brk, .bank, .mem, .ue, .dma, .posted, .mir, .env, .st, .mb, .goNext, .qp, .grp, .ic, .err, .perf, .sec, .tamper, .pwr, .rtc, .deferred, .freeCnt] kl = true) {s0 s : State} (hs : Same kl s0 s) (m : Msg) :
    OSame kl s0 (execSysPing m s) := by
  unfold execSysPing
  repeat' first
    | with_reducible assumption
    | intro _
    | exact within_trans (by decide) hk
    | with_reducible apply OSame.next
    | with_reducible apply OSame.fault
    | with_reducible apply OSame.ite
    | with_reducible apply State.send_same
    | with_reducible apply Same.ite
    | split
    | dsimp only

theorem execSysGetInfo_same {kl : List Kind} (hk : within [.tb, .ref, .pps, .bx, .ch, .cl, .slot, .dec, .tim, .timWr, .brk, .bank, .mem, .ue, .dma, .posted, .mir, .env, .st, .mb, .goNext, .qp, .grp, .ic, .err, .perf, .sec, .tamper, .pwr, .rtc, .deferred, .freeCnt] kl = true) {s0 s : State} (hs : Same kl s0 s) (m : Msg) :
    OSame kl s0 (execSysGetInfo m s) := by
  unfold execSysGetInfo
  repeat' first
    | with_reducible assumption
    | intro _
    | exact within_trans (by decide) hk
    | with_reducible apply OSame.next
    | with_reducible apply OSame.fault
    | with_reducible apply OSame.ite
    | with_reducible apply State.send_same
    | with_reducible apply Same.ite
    | split
    | dsimp only

theorem execSysGetHealth_same {kl : List Kind} (hk : within [.tb, .ref, .pps, .bx, .ch, .cl, .slot, .dec, .tim, .timWr, .brk, .bank, .mem, .ue, .dma, .posted, .mir, .env, .st, .mb, .goNext, .qp, .grp, .ic, .err, .perf, .sec, .tamper, .pwr, .rtc, .deferred, .freeCnt] kl = true) {s0 s : State} (hs : Same kl s0 s) (m : Msg) :
    OSame kl s0 (execSysGetHealth m s) := by
  unfold execSysGetHealth
  repeat' first
    | with_reducible assumption
    | intro _
    | exact within_trans (by decide) hk
    | with_reducible apply OSame.next
    | with_reducible apply OSame.fault
    | with_reducible apply OSame.ite
    | with_reducible apply State.send_same
    | with_reducible apply Same.ite
    | split
    | dsimp only

theorem execSysResetFirmware_same {kl : List Kind} (hk : within [.tb, .ref, .pps, .bx, .ch, .cl, .slot, .dec, .tim, .timWr, .brk, .bank, .mem, .ue, .dma, .posted, .mir, .env, .st, .mb, .goNext, .qp, .grp, .ic, .err, .perf, .sec, .tamper, .pwr, .rtc, .deferred, .freeCnt] kl = true) {s0 s : State} (hs : Same kl s0 s) (m : Msg) :
    OSame kl s0 (execSysResetFirmware m s) := by
  unfold execSysResetFirmware
  repeat' first
    | with_reducible assumption
    | intro _
    | exact within_trans (by decide) hk
    | with_reducible apply OSame.next
    | with_reducible apply OSame.fault
    | with_reducible apply OSame.ite
    | with_reducible apply State.send_same
    | with_reducible apply Same.ite
    | split
    | dsimp only

theorem execSysResetDevice_same {kl : List Kind} (hk : within [.tb, .ref, .pps, .bx, .ch, .cl, .slot, .dec, .tim, .timWr, .brk, .bank, .mem, .ue, .dma, .posted, .mir, .env, .st, .mb, .goNext, .qp, .grp, .ic, .err, .perf, .sec, .tamper, .pwr, .rtc, .deferred, .freeCnt] kl = true) {s0 s : State} (hs : Same kl s0 s) (m : Msg) :
    OSame kl s0 (execSysResetDevice m s) := by
  unfold execSysResetDevice
  repeat' first
    | with_reducible assumption
    | intro _
    | exact within_trans (by decide) hk
    | with_reducible apply OSame.next
    | with_reducible apply OSame.fault
    | with_reducible apply OSame.ite
    | with_reducible apply State.send_same
    | with_reducible apply Same.ite
    | split
    | dsimp only

theorem execSysSetMirror_same {kl : List Kind} (hk : within [.tb, .ref, .pps, .bx, .ch, .cl, .slot, .dec, .tim, .timWr, .brk, .bank, .mem, .ue, .dma, .posted, .mir, .env, .st, .mb, .goNext, .qp, .grp, .ic, .err, .perf, .sec, .tamper, .pwr, .rtc, .deferred, .freeCnt] kl = true) {s0 s : State} (hs : Same kl s0 s) (m : Msg) :
    OSame kl s0 (execSysSetMirror m s) := by
  unfold execSysSetMirror
  repeat' first
    | with_reducible assumption
    | intro _
    | exact within_trans (by decide) hk
    | with_reducible apply OSame.next
    | with_reducible apply OSame.fault
    | with_reducible apply OSame.ite
    | with_reducible apply State.send_same
    | with_reducible apply Same.ite
    | split
    | dsimp only

theorem execTsSetReference_same {kl : List Kind} (hk : within [.tb, .ref, .pps, .bx, .ch, .cl, .slot, .dec, .tim, .timWr, .brk, .bank, .mem, .ue, .dma, .posted, .mir, .env, .st, .mb, .goNext, .qp, .grp, .ic, .err, .perf, .sec, .tamper, .pwr, .rtc, .deferred, .freeCnt] kl = true) {s0 s : State} (hs : Same kl s0 s) (m : Msg) :
    OSame kl s0 (execTsSetReference m s) := by
  unfold execTsSetReference
  repeat' first
    | with_reducible assumption
    | intro _
    | exact within_trans (by decide) hk
    | with_reducible apply OSame.next
    | with_reducible apply OSame.fault
    | with_reducible apply OSame.ite
    | with_reducible apply State.send_same
    | with_reducible apply Same.ite
    | split
    | dsimp only

theorem execTsSetTick_same {kl : List Kind} (hk : within [.tb, .ref, .pps, .bx, .ch, .cl, .slot, .dec, .tim, .timWr, .brk, .bank, .mem, .ue, .dma, .posted, .mir, .env, .st, .mb, .goNext, .qp, .grp, .ic, .err, .perf, .sec, .tamper, .pwr, .rtc, .deferred, .freeCnt] kl = true) {s0 s : State} (hs : Same kl s0 s) (m : Msg) :
    OSame kl s0 (execTsSetTick m s) := by
  unfold execTsSetTick
  repeat' first
    | with_reducible assumption
    | intro _
    | exact within_trans (by decide) hk
    | with_reducible apply OSame.next
    | with_reducible apply OSame.fault
    | with_reducible apply OSame.ite
    | with_reducible apply State.send_same
    | with_reducible apply Same.ite
    | split
    | dsimp only

theorem execTsDiscipline_same {kl : List Kind} (hk : within [.tb, .ref, .pps, .bx, .ch, .cl, .slot, .dec, .tim, .timWr, .brk, .bank, .mem, .ue, .dma, .posted, .mir, .env, .st, .mb, .goNext, .qp, .grp, .ic, .err, .perf, .sec, .tamper, .pwr, .rtc, .deferred, .freeCnt] kl = true) {s0 s : State} (hs : Same kl s0 s) (m : Msg) :
    OSame kl s0 (execTsDiscipline m s) := by
  unfold execTsDiscipline
  repeat' first
    | with_reducible assumption
    | intro _
    | exact within_trans (by decide) hk
    | with_reducible apply OSame.next
    | with_reducible apply OSame.fault
    | with_reducible apply OSame.ite
    | with_reducible apply State.send_same
    | with_reducible apply Same.ite
    | split
    | dsimp only

theorem execTsSetTimeAtTick_same {kl : List Kind} (hk : within [.tb, .ref, .pps, .bx, .ch, .cl, .slot, .dec, .tim, .timWr, .brk, .bank, .mem, .ue, .dma, .posted, .mir, .env, .st, .mb, .goNext, .qp, .grp, .ic, .err, .perf, .sec, .tamper, .pwr, .rtc, .deferred, .freeCnt] kl = true) {s0 s : State} (hs : Same kl s0 s) (m : Msg) :
    OSame kl s0 (execTsSetTimeAtTick m s) := by
  unfold execTsSetTimeAtTick
  repeat' first
    | with_reducible assumption
    | intro _
    | exact within_trans (by decide) hk
    | with_reducible apply OSame.next
    | with_reducible apply OSame.fault
    | with_reducible apply OSame.ite
    | with_reducible apply State.send_same
    | with_reducible apply Same.ite
    | split
    | dsimp only

theorem execTsSetTimeAtPps_same {kl : List Kind} (hk : within [.tb, .ref, .pps, .bx, .ch, .cl, .slot, .dec, .tim, .timWr, .brk, .bank, .mem, .ue, .dma, .posted, .mir, .env, .st, .mb, .goNext, .qp, .grp, .ic, .err, .perf, .sec, .tamper, .pwr, .rtc, .deferred, .freeCnt] kl = true) {s0 s : State} (hs : Same kl s0 s) (m : Msg) :
    OSame kl s0 (execTsSetTimeAtPps m s) := by
  unfold execTsSetTimeAtPps
  repeat' first
    | with_reducible assumption
    | intro _
    | exact within_trans (by decide) hk
    | with_reducible apply OSame.next
    | with_reducible apply OSame.fault
    | with_reducible apply OSame.ite
    | with_reducible apply State.send_same
    | with_reducible apply Same.ite
    | split
    | dsimp only

theorem execTsSetTimeCancel_same {kl : List Kind} (hk : within [.tb, .ref, .pps, .bx, .ch, .cl, .slot, .dec, .tim, .timWr, .brk, .bank, .mem, .ue, .dma, .posted, .mir, .env, .st, .mb, .goNext, .qp, .grp, .ic, .err, .perf, .sec, .tamper, .pwr, .rtc, .deferred, .freeCnt] kl = true) {s0 s : State} (hs : Same kl s0 s) (m : Msg) :
    OSame kl s0 (execTsSetTimeCancel m s) := by
  unfold execTsSetTimeCancel
  repeat' first
    | with_reducible assumption
    | intro _
    | exact within_trans (by decide) hk
    | with_reducible apply OSame.next
    | with_reducible apply OSame.fault
    | with_reducible apply OSame.ite
    | with_reducible apply State.send_same
    | with_reducible apply Same.ite
    | split
    | dsimp only

theorem execTsRtcSetNow_same {kl : List Kind} (hk : within [.tb, .ref, .pps, .bx, .ch, .cl, .slot, .dec, .tim, .timWr, .brk, .bank, .mem, .ue, .dma, .posted, .mir, .env, .st, .mb, .goNext, .qp, .grp, .ic, .err, .perf, .sec, .tamper, .pwr, .rtc, .deferred, .freeCnt] kl = true) {s0 s : State} (hs : Same kl s0 s) (m : Msg) :
    OSame kl s0 (execTsRtcSetNow m s) := by
  unfold execTsRtcSetNow
  repeat' first
    | with_reducible assumption
    | intro _
    | exact within_trans (by decide) hk
    | with_reducible apply OSame.next
    | with_reducible apply OSame.fault
    | with_reducible apply OSame.ite
    | with_reducible apply State.send_same
    | with_reducible apply Same.ite
    | split
    | dsimp only

theorem execTsRtcSetAtNextMark_same {kl : List Kind} (hk : within [.tb, .ref, .pps, .bx, .ch, .cl, .slot, .dec, .tim, .timWr, .brk, .bank, .mem, .ue, .dma, .posted, .mir, .env, .st, .mb, .goNext, .qp, .grp, .ic, .err, .perf, .sec, .tamper, .pwr, .rtc, .deferred, .freeCnt] kl = true) {s0 s : State} (hs : Same kl s0 s) (m : Msg) :
    OSame kl s0 (execTsRtcSetAtNextMark m s) := by
  unfold execTsRtcSetAtNextMark
  repeat' first
    | with_reducible assumption
    | intro _
    | exact within_trans (by decide) hk
    | with_reducible apply OSame.next
    | with_reducible apply OSame.fault
    | with_reducible apply OSame.ite
    | with_reducible apply State.send_same
    | with_reducible apply Same.ite
    | split
    | dsimp only

theorem execTsRtcSetAtPps_same {kl : List Kind} (hk : within [.tb, .ref, .pps, .bx, .ch, .cl, .slot, .dec, .tim, .timWr, .brk, .bank, .mem, .ue, .dma, .posted, .mir, .env, .st, .mb, .goNext, .qp, .grp, .ic, .err, .perf, .sec, .tamper, .pwr, .rtc, .deferred, .freeCnt] kl = true) {s0 s : State} (hs : Same kl s0 s) (m : Msg) :
    OSame kl s0 (execTsRtcSetAtPps m s) := by
  unfold execTsRtcSetAtPps
  repeat' first
    | with_reducible assumption
    | intro _
    | exact within_trans (by decide) hk
    | with_reducible apply OSame.next
    | with_reducible apply OSame.fault
    | with_reducible apply OSame.ite
    | with_reducible apply State.send_same
    | with_reducible apply Same.ite
    | split
    | dsimp only

theorem execTsRtcSetOffsetOnly_same {kl : List Kind} (hk : within [.tb, .ref, .pps, .bx, .ch, .cl, .slot, .dec, .tim, .timWr, .brk, .bank, .mem, .ue, .dma, .posted, .mir, .env, .st, .mb, .goNext, .qp, .grp, .ic, .err, .perf, .sec, .tamper, .pwr, .rtc, .deferred, .freeCnt] kl = true) {s0 s : State} (hs : Same kl s0 s) (m : Msg) :
    OSame kl s0 (execTsRtcSetOffsetOnly m s) := by
  unfold execTsRtcSetOffsetOnly
  repeat' first
    | with_reducible assumption
    | intro _
    | exact within_trans (by decide) hk
    | with_reducible apply OSame.next
    | with_reducible apply OSame.fault
    | with_reducible apply OSame.ite
    | with_reducible apply State.send_same
    | with_reducible apply Same.ite
    | split
    | dsimp only

theorem execTsRtcRead_same {kl : List Kind} (hk : within [.tb, .ref, .pps, .bx, .ch, .cl, .slot, .dec, .tim, .timWr, .brk, .bank, .mem, .ue, .dma, .posted, .mir, .env, .st, .mb, .goNext, .qp, .grp, .ic, .err, .perf, .sec, .tamper, .pwr, .rtc, .deferred, .freeCnt] kl = true) {s0 s : State} (hs : Same kl s0 s) (m : Msg) :
    OSame kl s0 (execTsRtcRead m s) := by
  unfold execTsRtcRead
  repeat' first
    | with_reducible assumption
    | intro _
    | exact within_trans (by decide) hk
    | with_reducible apply OSame.next
    | with_reducible apply OSame.fault
    | with_reducible apply OSame.ite
    | with_reducible apply State.send_same
    | with_reducible apply Same.ite
    | split
    | dsimp only

theorem execChSetInput_same {kl : List Kind} (hk : within [.tb, .ref, .pps, .bx, .ch, .cl, .slot, .dec, .tim, .timWr, .brk, .bank, .mem, .ue, .dma, .posted, .mir, .env, .st, .mb, .goNext, .qp, .grp, .ic, .err, .perf, .sec, .tamper, .pwr, .rtc, .deferred, .freeCnt] kl = true) {s0 s : State} (hs : Same kl s0 s) (m : Msg) :
    OSame kl s0 (execChSetInput m s) := by
  unfold execChSetInput
  repeat' first
    | with_reducible assumption
    | intro _
    | exact within_trans (by decide) hk
    | with_reducible apply OSame.next
    | with_reducible apply OSame.fault
    | with_reducible apply OSame.ite
    | with_reducible apply State.send_same
    | with_reducible apply Same.ite
    | split
    | dsimp only

theorem execChSetOutput_same {kl : List Kind} (hk : within [.tb, .ref, .pps, .bx, .ch, .cl, .slot, .dec, .tim, .timWr, .brk, .bank, .mem, .ue, .dma, .posted, .mir, .env, .st, .mb, .goNext, .qp, .grp, .ic, .err, .perf, .sec, .tamper, .pwr, .rtc, .deferred, .freeCnt] kl = true) {s0 s : State} (hs : Same kl s0 s) (m : Msg) :
    OSame kl s0 (execChSetOutput m s) := by
  unfold execChSetOutput
  repeat' first
    | with_reducible assumption
    | intro _
    | exact within_trans (by decide) hk
    | with_reducible apply OSame.next
    | with_reducible apply OSame.fault
    | with_reducible apply OSame.ite
    | with_reducible apply State.send_same
    | with_reducible apply Same.ite
    | split
    | dsimp only

theorem execChEnable_same {kl : List Kind} (hk : within [.tb, .ref, .pps, .bx, .ch, .cl, .slot, .dec, .tim, .timWr, .brk, .bank, .mem, .ue, .dma, .posted, .mir, .env, .st, .mb, .goNext, .qp, .grp, .ic, .err, .perf, .sec, .tamper, .pwr, .rtc, .deferred, .freeCnt] kl = true) {s0 s : State} (hs : Same kl s0 s) (m : Msg) :
    OSame kl s0 (execChEnable m s) := by
  unfold execChEnable
  repeat' first
    | with_reducible assumption
    | intro _
    | exact within_trans (by decide) hk
    | with_reducible apply OSame.next
    | with_reducible apply OSame.fault
    | with_reducible apply OSame.ite
    | with_reducible apply State.send_same
    | with_reducible apply Same.ite
    | split
    | dsimp only

theorem execChDisable_same {kl : List Kind} (hk : within [.tb, .ref, .pps, .bx, .ch, .cl, .slot, .dec, .tim, .timWr, .brk, .bank, .mem, .ue, .dma, .posted, .mir, .env, .st, .mb, .goNext, .qp, .grp, .ic, .err, .perf, .sec, .tamper, .pwr, .rtc, .deferred, .freeCnt] kl = true) {s0 s : State} (hs : Same kl s0 s) (m : Msg) :
    OSame kl s0 (execChDisable m s) := by
  unfold execChDisable
  repeat' first
    | with_reducible assumption
    | intro _
    | exact within_trans (by decide) hk
    | with_reducible apply OSame.next
    | with_reducible apply OSame.fault
    | with_reducible apply OSame.ite
    | with_reducible apply State.send_same
    | with_reducible apply Same.ite
    | split
    | dsimp only

theorem execMeasDefine_same {kl : List Kind} (hk : within [.tb, .ref, .pps, .bx, .ch, .cl, .slot, .dec, .tim, .timWr, .brk, .bank, .mem, .ue, .dma, .posted, .mir, .env, .st, .mb, .goNext, .qp, .grp, .ic, .err, .perf, .sec, .tamper, .pwr, .rtc, .deferred, .freeCnt] kl = true) {s0 s : State} (hs : Same kl s0 s) (m : Msg) :
    OSame kl s0 (execMeasDefine m s) := by
  unfold execMeasDefine
  repeat' first
    | with_reducible assumption
    | intro _
    | exact within_trans (by decide) hk
    | with_reducible apply OSame.next
    | with_reducible apply OSame.fault
    | with_reducible apply OSame.ite
    | with_reducible apply State.send_same
    | with_reducible apply Same.ite
    | split
    | dsimp only

theorem execMeasArm_same {kl : List Kind} (hk : within [.tb, .ref, .pps, .bx, .ch, .cl, .slot, .dec, .tim, .timWr, .brk, .bank, .mem, .ue, .dma, .posted, .mir, .env, .st, .mb, .goNext, .qp, .grp, .ic, .err, .perf, .sec, .tamper, .pwr, .rtc, .deferred, .freeCnt] kl = true) {s0 s : State} (hs : Same kl s0 s) (m : Msg) :
    OSame kl s0 (execMeasArm m s) := by
  unfold execMeasArm
  repeat' first
    | with_reducible assumption
    | intro _
    | exact within_trans (by decide) hk
    | with_reducible apply OSame.next
    | with_reducible apply OSame.fault
    | with_reducible apply OSame.ite
    | with_reducible apply State.send_same
    | with_reducible apply Same.ite
    | split
    | dsimp only

theorem execMeasStop_same {kl : List Kind} (hk : within [.tb, .ref, .pps, .bx, .ch, .cl, .slot, .dec, .tim, .timWr, .brk, .bank, .mem, .ue, .dma, .posted, .mir, .env, .st, .mb, .goNext, .qp, .grp, .ic, .err, .perf, .sec, .tamper, .pwr, .rtc, .deferred, .freeCnt] kl = true) {s0 s : State} (hs : Same kl s0 s) (m : Msg) :
    OSame kl s0 (execMeasStop m s) := by
  unfold execMeasStop
  repeat' first
    | with_reducible assumption
    | intro _
    | exact within_trans (by decide) hk
    | with_reducible apply OSame.next
    | with_reducible apply OSame.fault
    | with_reducible apply OSame.ite
    | with_reducible apply State.send_same
    | with_reducible apply Same.ite
    | split
    | dsimp only

theorem execMeasRead_same {kl : List Kind} (hk : within [.tb, .ref, .pps, .bx, .ch, .cl, .slot, .dec, .tim, .timWr, .brk, .bank, .mem, .ue, .dma, .posted, .mir, .env, .st, .mb, .goNext, .qp, .grp, .ic, .err, .perf, .sec, .tamper, .pwr, .rtc, .deferred, .freeCnt] kl = true) {s0 s : State} (hs : Same kl s0 s) (m : Msg) :
    OSame kl s0 (execMeasRead m s) := by
  unfold execMeasRead
  repeat' first
    | with_reducible assumption
    | intro _
    | exact within_trans (by decide) hk
    | with_reducible apply OSame.next
    | with_reducible apply OSame.fault
    | with_reducible apply OSame.ite
    | with_reducible apply State.send_same
    | with_reducible apply Same.ite
    | split
    | dsimp only

theorem execHistDefine_same {kl : List Kind} (hk : within [.tb, .ref, .pps, .bx, .ch, .cl, .slot, .dec, .tim, .timWr, .brk, .bank, .mem, .ue, .dma, .posted, .mir, .env, .st, .mb, .goNext, .qp, .grp, .ic, .err, .perf, .sec, .tamper, .pwr, .rtc, .deferred, .freeCnt] kl = true) {s0 s : State} (hs : Same kl s0 s) (m : Msg) :
    OSame kl s0 (execHistDefine m s) := by
  unfold execHistDefine
  repeat' first
    | with_reducible assumption
    | intro _
    | exact within_trans (by decide) hk
    | with_reducible apply OSame.next
    | with_reducible apply OSame.fault
    | with_reducible apply OSame.ite
    | with_reducible apply State.send_same
    | with_reducible apply Same.ite
    | split
    | dsimp only

theorem execSynPattern_same {kl : List Kind} (hk : within [.tb, .ref, .pps, .bx, .ch, .cl, .slot, .dec, .tim, .timWr, .brk, .bank, .mem, .ue, .dma, .posted, .mir, .env, .st, .mb, .goNext, .qp, .grp, .ic, .err, .perf, .sec, .tamper, .pwr, .rtc, .deferred, .freeCnt] kl = true) {s0 s : State} (hs : Same kl s0 s) (m : Msg) :
    OSame kl s0 (execSynPattern m s) := by
  unfold execSynPattern
  repeat' first
    | with_reducible assumption
    | intro _
    | exact within_trans (by decide) hk
    | with_reducible apply OSame.next
    | with_reducible apply OSame.fault
    | with_reducible apply OSame.ite
    | with_reducible apply State.send_same
    | with_reducible apply Same.ite
    | split
    | dsimp only

theorem execSynPatternShadow_same {kl : List Kind} (hk : within [.tb, .ref, .pps, .bx, .ch, .cl, .slot, .dec, .tim, .timWr, .brk, .bank, .mem, .ue, .dma, .posted, .mir, .env, .st, .mb, .goNext, .qp, .grp, .ic, .err, .perf, .sec, .tamper, .pwr, .rtc, .deferred, .freeCnt] kl = true) {s0 s : State} (hs : Same kl s0 s) (m : Msg) :
    OSame kl s0 (execSynPatternShadow m s) := by
  unfold execSynPatternShadow
  repeat' first
    | with_reducible assumption
    | intro _
    | exact within_trans (by decide) hk
    | with_reducible apply OSame.next
    | with_reducible apply OSame.fault
    | with_reducible apply OSame.ite
    | with_reducible apply State.send_same
    | with_reducible apply Same.ite
    | split
    | dsimp only

theorem execSynPair_same {kl : List Kind} (hk : within [.tb, .ref, .pps, .bx, .ch, .cl, .slot, .dec, .tim, .timWr, .brk, .bank, .mem, .ue, .dma, .posted, .mir, .env, .st, .mb, .goNext, .qp, .grp, .ic, .err, .perf, .sec, .tamper, .pwr, .rtc, .deferred, .freeCnt] kl = true) {s0 s : State} (hs : Same kl s0 s) (m : Msg) :
    OSame kl s0 (execSynPair m s) := by
  unfold execSynPair
  repeat' first
    | with_reducible assumption
    | intro _
    | exact within_trans (by decide) hk
    | with_reducible apply OSame.next
    | with_reducible apply OSame.fault
    | with_reducible apply OSame.ite
    | with_reducible apply State.send_same
    | with_reducible apply Same.ite
    | split
    | dsimp only

theorem execSynBrakeCfgSetInput_same {kl : List Kind} (hk : within [.tb, .ref, .pps, .bx, .ch, .cl, .slot, .dec, .tim, .timWr, .brk, .bank, .mem, .ue, .dma, .posted, .mir, .env, .st, .mb, .goNext, .qp, .grp, .ic, .err, .perf, .sec, .tamper, .pwr, .rtc, .deferred, .freeCnt] kl = true) {s0 s : State} (hs : Same kl s0 s) (m : Msg) :
    OSame kl s0 (execSynBrakeCfgSetInput m s) := by
  unfold execSynBrakeCfgSetInput
  repeat' first
    | with_reducible assumption
    | intro _
    | exact within_trans (by decide) hk
    | with_reducible apply OSame.next
    | with_reducible apply OSame.fault
    | with_reducible apply OSame.ite
    | with_reducible apply State.send_same
    | with_reducible apply Same.ite
    | split
    | dsimp only

theorem execSynBrakeCfgSetGuard_same {kl : List Kind} (hk : within [.tb, .ref, .pps, .bx, .ch, .cl, .slot, .dec, .tim, .timWr, .brk, .bank, .mem, .ue, .dma, .posted, .mir, .env, .st, .mb, .goNext, .qp, .grp, .ic, .err, .perf, .sec, .tamper, .pwr, .rtc, .deferred, .freeCnt] kl = true) {s0 s : State} (hs : Same kl s0 s) (m : Msg) :
    OSame kl s0 (execSynBrakeCfgSetGuard m s) := by
  unfold execSynBrakeCfgSetGuard
  repeat' first
    | with_reducible assumption
    | intro _
    | exact within_trans (by decide) hk
    | with_reducible apply OSame.next
    | with_reducible apply OSame.fault
    | with_reducible apply OSame.ite
    | with_reducible apply State.send_same
    | with_reducible apply Same.ite
    | split
    | dsimp only

theorem execSynBrakeClear_same {kl : List Kind} (hk : within [.tb, .ref, .pps, .bx, .ch, .cl, .slot, .dec, .tim, .timWr, .brk, .bank, .mem, .ue, .dma, .posted, .mir, .env, .st, .mb, .goNext, .qp, .grp, .ic, .err, .perf, .sec, .tamper, .pwr, .rtc, .deferred, .freeCnt] kl = true) {s0 s : State} (hs : Same kl s0 s) (m : Msg) :
    OSame kl s0 (execSynBrakeClear m s) := by
  unfold execSynBrakeClear
  repeat' first
    | with_reducible assumption
    | intro _
    | exact within_trans (by decide) hk
    | with_reducible apply OSame.next
    | with_reducible apply OSame.fault
    | with_reducible apply OSame.ite
    | with_reducible apply State.send_same
    | with_reducible apply Same.ite
    | split
    | dsimp only

theorem execQdDefine_same {kl : List Kind} (hk : within [.tb, .ref, .pps, .bx, .ch, .cl, .slot, .dec, .tim, .timWr, .brk, .bank, .mem, .ue, .dma, .posted, .mir, .env, .st, .mb, .goNext, .qp, .grp, .ic, .err, .perf, .sec, .tamper, .pwr, .rtc, .deferred, .freeCnt] kl = true) {s0 s : State} (hs : Same kl s0 s) (m : Msg) :
    OSame kl s0 (execQdDefine m s) := by
  unfold execQdDefine
  repeat' first
    | with_reducible assumption
    | intro _
    | exact within_trans (by decide) hk
    | with_reducible apply OSame.next
    | with_reducible apply OSame.fault
    | with_reducible apply OSame.ite
    | with_reducible apply State.send_same
    | with_reducible apply Same.ite
    | split
    | dsimp only

theorem execQdRead_same {kl : List Kind} (hk : within [.tb, .ref, .pps, .bx, .ch, .cl, .slot, .dec, .tim, .timWr, .brk, .bank, .mem, .ue, .dma, .posted, .mir, .env, .st, .mb, .goNext, .qp, .grp, .ic, .err, .perf, .sec, .tamper, .pwr, .rtc, .deferred, .freeCnt] kl = true) {s0 s : State} (hs : Same kl s0 s) (m : Msg) :
    OSame kl s0 (execQdRead m s) := by
  unfold execQdRead
  repeat' first
    | with_reducible assumption
    | intro _
    | exact within_trans (by decide) hk
    | with_reducible apply OSame.next
    | with_reducible apply OSame.fault
    | with_reducible apply OSame.ite
    | with_reducible apply State.send_same
    | with_reducible apply Same.ite
    | split
    | dsimp only

theorem execUcLoad_same {kl : List Kind} (hk : within [.tb, .ref, .pps, .bx, .ch, .cl, .slot, .dec, .tim, .timWr, .brk, .bank, .mem, .ue, .dma, .posted, .mir, .env, .st, .mb, .goNext, .qp, .grp, .ic, .err, .perf, .sec, .tamper, .pwr, .rtc, .deferred, .freeCnt] kl = true) {s0 s : State} (hs : Same kl s0 s) (m : Msg) :
    OSame kl s0 (execUcLoad m s) := by
  unfold execUcLoad
  repeat' first
    | with_reducible assumption
    | intro _
    | exact within_trans (by decide) hk
    | with_reducible apply OSame.next
    | with_reducible apply OSame.fault
    | with_reducible apply OSame.ite
    | with_reducible apply State.send_same
    | with_reducible apply Same.ite
    | split
    | dsimp only

theorem execTaskSet_same {kl : List Kind} (hk : within [.tb, .ref, .pps, .bx, .ch, .cl, .slot, .dec, .tim, .timWr, .brk, .bank, .mem, .ue, .dma, .posted, .mir, .env, .st, .mb, .goNext, .qp, .grp, .ic, .err, .perf, .sec, .tamper, .pwr, .rtc, .deferred, .freeCnt] kl = true) {s0 s : State} (hs : Same kl s0 s) (m : Msg) :
    OSame kl s0 (execTaskSet m s) := by
  unfold execTaskSet
  repeat' first
    | with_reducible assumption
    | intro _
    | exact within_trans (by decide) hk
    | with_reducible apply OSame.next
    | with_reducible apply OSame.fault
    | with_reducible apply OSame.ite
    | with_reducible apply State.send_same
    | with_reducible apply Same.ite
    | split
    | dsimp only

theorem execTaskRemove_same {kl : List Kind} (hk : within [.tb, .ref, .pps, .bx, .ch, .cl, .slot, .dec, .tim, .timWr, .brk, .bank, .mem, .ue, .dma, .posted, .mir, .env, .st, .mb, .goNext, .qp, .grp, .ic, .err, .perf, .sec, .tamper, .pwr, .rtc, .deferred, .freeCnt] kl = true) {s0 s : State} (hs : Same kl s0 s) (m : Msg) :
    OSame kl s0 (execTaskRemove m s) := by
  unfold execTaskRemove
  repeat' first
    | with_reducible assumption
    | intro _
    | exact within_trans (by decide) hk
    | with_reducible apply OSame.next
    | with_reducible apply OSame.fault
    | with_reducible apply OSame.ite
    | with_reducible apply State.send_same
    | with_reducible apply Same.ite
    | split
    | dsimp only

theorem execSchedCheck_same {kl : List Kind} (hk : within [.tb, .ref, .pps, .bx, .ch, .cl, .slot, .dec, .tim, .timWr, .brk, .bank, .mem, .ue, .dma, .posted, .mir, .env, .st, .mb, .goNext, .qp, .grp, .ic, .err, .perf, .sec, .tamper, .pwr, .rtc, .deferred, .freeCnt] kl = true) {s0 s : State} (hs : Same kl s0 s) (m : Msg) :
    OSame kl s0 (execSchedCheck m s) := by
  unfold execSchedCheck
  repeat' first
    | with_reducible assumption
    | intro _
    | exact within_trans (by decide) hk
    | with_reducible apply OSame.next
    | with_reducible apply OSame.fault
    | with_reducible apply OSame.ite
    | with_reducible apply State.send_same
    | with_reducible apply Same.ite
    | split
    | dsimp only

theorem execTimerSet_same {kl : List Kind} (hk : within [.tb, .ref, .pps, .bx, .ch, .cl, .slot, .dec, .tim, .timWr, .brk, .bank, .mem, .ue, .dma, .posted, .mir, .env, .st, .mb, .goNext, .qp, .grp, .ic, .err, .perf, .sec, .tamper, .pwr, .rtc, .deferred, .freeCnt] kl = true) {s0 s : State} (hs : Same kl s0 s) (m : Msg) :
    OSame kl s0 (execTimerSet m s) := by
  unfold execTimerSet
  repeat' first
    | with_reducible assumption
    | intro _
    | exact within_trans (by decide) hk
    | with_reducible apply OSame.next
    | with_reducible apply OSame.fault
    | with_reducible apply OSame.ite
    | with_reducible apply State.send_same
    | with_reducible apply Same.ite
    | split
    | dsimp only

theorem execCalRun_same {kl : List Kind} (hk : within [.tb, .ref, .pps, .bx, .ch, .cl, .slot, .dec, .tim, .timWr, .brk, .bank, .mem, .ue, .dma, .posted, .mir, .env, .st, .mb, .goNext, .qp, .grp, .ic, .err, .perf, .sec, .tamper, .pwr, .rtc, .deferred, .freeCnt] kl = true) {s0 s : State} (hs : Same kl s0 s) (m : Msg) :
    OSame kl s0 (execCalRun m s) := by
  unfold execCalRun
  repeat' first
    | with_reducible assumption
    | intro _
    | exact within_trans (by decide) hk
    | with_reducible apply OSame.next
    | with_reducible apply OSame.fault
    | with_reducible apply OSame.ite
    | with_reducible apply State.send_same
    | with_reducible apply Same.ite
    | split
    | dsimp only

theorem execCalStatus_same {kl : List Kind} (hk : within [.tb, .ref, .pps, .bx, .ch, .cl, .slot, .dec, .tim, .timWr, .brk, .bank, .mem, .ue, .dma, .posted, .mir, .env, .st, .mb, .goNext, .qp, .grp, .ic, .err, .perf, .sec, .tamper, .pwr, .rtc, .deferred, .freeCnt] kl = true) {s0 s : State} (hs : Same kl s0 s) (m : Msg) :
    OSame kl s0 (execCalStatus m s) := by
  unfold execCalStatus
  repeat' first
    | with_reducible assumption
    | intro _
    | exact within_trans (by decide) hk
    | with_reducible apply OSame.next
    | with_reducible apply OSame.fault
    | with_reducible apply OSame.ite
    | with_reducible apply State.send_same
    | with_reducible apply Same.ite
    | split
    | dsimp only

theorem execCalPolicy_same {kl : List Kind} (hk : within [.tb, .ref, .pps, .bx, .ch, .cl, .slot, .dec, .tim, .timWr, .brk, .bank, .mem, .ue, .dma, .posted, .mir, .env, .st, .mb, .goNext, .qp, .grp, .ic, .err, .perf, .sec, .tamper, .pwr, .rtc, .deferred, .freeCnt] kl = true) {s0 s : State} (hs : Same kl s0 s) (m : Msg) :
    OSame kl s0 (execCalPolicy m s) := by
  unfold execCalPolicy
  repeat' first
    | with_reducible assumption
    | intro _
    | exact within_trans (by decide) hk
    | with_reducible apply OSame.next
    | with_reducible apply OSame.fault
    | with_reducible apply OSame.ite
    | with_reducible apply State.send_same
    | with_reducible apply Same.ite
    | split
    | dsimp only

theorem execEnvTdrMeasure_same {kl : List Kind} (hk : within [.tb, .ref, .pps, .bx, .ch, .cl, .slot, .dec, .tim, .timWr, .brk, .bank, .mem, .ue, .dma, .posted, .mir, .env, .st, .mb, .goNext, .qp, .grp, .ic, .err, .perf, .sec, .tamper, .pwr, .rtc, .deferred, .freeCnt] kl = true) {s0 s : State} (hs : Same kl s0 s) (m : Msg) :
    OSame kl s0 (execEnvTdrMeasure m s) := by
  unfold execEnvTdrMeasure
  repeat' first
    | with_reducible assumption
    | intro _
    | exact within_trans (by decide) hk
    | with_reducible apply OSame.next
    | with_reducible apply OSame.fault
    | with_reducible apply OSame.ite
    | with_reducible apply State.send_same
    | with_reducible apply Same.ite
    | split
    | dsimp only

theorem execEnvTdrApply_same {kl : List Kind} (hk : within [.tb, .ref, .pps, .bx, .ch, .cl, .slot, .dec, .tim, .timWr, .brk, .bank, .mem, .ue, .dma, .posted, .mir, .env, .st, .mb, .goNext, .qp, .grp, .ic, .err, .perf, .sec, .tamper, .pwr, .rtc, .deferred, .freeCnt] kl = true) {s0 s : State} (hs : Same kl s0 s) (m : Msg) :
    OSame kl s0 (execEnvTdrApply m s) := by
  unfold execEnvTdrApply
  repeat' first
    | with_reducible assumption
    | intro _
    | exact within_trans (by decide) hk
    | with_reducible apply OSame.next
    | with_reducible apply OSame.fault
    | with_reducible apply OSame.ite
    | with_reducible apply State.send_same
    | with_reducible apply Same.ite
    | split
    | dsimp only

theorem execEnvTdrSet_same {kl : List Kind} (hk : within [.tb, .ref, .pps, .bx, .ch, .cl, .slot, .dec, .tim, .timWr, .brk, .bank, .mem, .ue, .dma, .posted, .mir, .env, .st, .mb, .goNext, .qp, .grp, .ic, .err, .perf, .sec, .tamper, .pwr, .rtc, .deferred, .freeCnt] kl = true) {s0 s : State} (hs : Same kl s0 s) (m : Msg) :
    OSame kl s0 (execEnvTdrSet m s) := by
  unfold execEnvTdrSet
  repeat' first
    | with_reducible assumption
    | intro _
    | exact within_trans (by decide) hk
    | with_reducible apply OSame.next
    | with_reducible apply OSame.fault
    | with_reducible apply OSame.ite
    | with_reducible apply State.send_same
    | with_reducible apply Same.ite
    | split
    | dsimp only

theorem execEnvTdrClear_same {kl : List Kind} (hk : within [.tb, .ref, .pps, .bx, .ch, .cl, .slot, .dec, .tim, .timWr, .brk, .bank, .mem, .ue, .dma, .posted, .mir, .env, .st, .mb, .goNext, .qp, .grp, .ic, .err, .perf, .sec, .tamper, .pwr, .rtc, .deferred, .freeCnt] kl = true) {s0 s : State} (hs : Same kl s0 s) (m : Msg) :
    OSame kl s0 (execEnvTdrClear m s) := by
  unfold execEnvTdrClear
  repeat' first
    | with_reducible assumption
    | intro _
    | exact within_trans (by decide) hk
    | with_reducible apply OSame.next
    | with_reducible apply OSame.fault
    | with_reducible apply OSame.ite
    | with_reducible apply State.send_same
    | with_reducible apply Same.ite
    | split
    | dsimp only

theorem execEnvMonitors_same {kl : List Kind} (hk : within [.tb, .ref, .pps, .bx, .ch, .cl, .slot, .dec, .tim, .timWr, .brk, .bank, .mem, .ue, .dma, .posted, .mir, .env, .st, .mb, .goNext, .qp, .grp, .ic, .err, .perf, .sec, .tamper, .pwr, .rtc, .deferred, .freeCnt] kl = true) {s0 s : State} (hs : Same kl s0 s) (m : Msg) :
    OSame kl s0 (execEnvMonitors m s) := by
  unfold execEnvMonitors
  repeat' first
    | with_reducible assumption
    | intro _
    | exact within_trans (by decide) hk
    | with_reducible apply OSame.next
    | with_reducible apply OSame.fault
    | with_reducible apply OSame.ite
    | with_reducible apply State.send_same
    | with_reducible apply Same.ite
    | split
    | dsimp only

theorem execEnvMonitorsSetWin_same {kl : List Kind} (hk : within [.tb, .ref, .pps, .bx, .ch, .cl, .slot, .dec, .tim, .timWr, .brk, .bank, .mem, .ue, .dma, .posted, .mir, .env, .st, .mb, .goNext, .qp, .grp, .ic, .err, .perf, .sec, .tamper, .pwr, .rtc, .deferred, .freeCnt] kl = true) {s0 s : State} (hs : Same kl s0 s) (m : Msg) :
    OSame kl s0 (execEnvMonitorsSetWin m s) := by
  unfold execEnvMonitorsSetWin
  repeat' first
    | with_reducible assumption
    | intro _
    | exact within_trans (by decide) hk
    | with_reducible apply OSame.next
    | with_reducible apply OSame.fault
    | with_reducible apply OSame.ite
    | with_reducible apply State.send_same
    | with_reducible apply Same.ite
    | split
    | dsimp only

theorem execEnvMonitorsClearTrip_same {kl : List Kind} (hk : within [.tb, .ref, .pps, .bx, .ch, .cl, .slot, .dec, .tim, .timWr, .brk, .bank, .mem, .ue, .dma, .posted, .mir, .env, .st, .mb, .goNext, .qp, .grp, .ic, .err, .perf, .sec, .tamper, .pwr, .rtc, .deferred, .freeCnt] kl = true) {s0 s : State} (hs : Same kl s0 s) (m : Msg) :
    OSame kl s0 (execEnvMonitorsClearTrip m s) := by
  unfold execEnvMonitorsClearTrip
  repeat' first
    | with_reducible assumption
    | intro _
    | exact within_trans (by decide) hk
    | with_reducible apply OSame.next
    | with_reducible apply OSame.fault
    | with_reducible apply OSame.ite
    | with_reducible apply State.send_same
    | with_reducible apply Same.ite
    | split
    | dsimp only

theorem execStreamOpenCapture_same {kl : List Kind} (hk : within [.tb, .ref, .pps, .bx, .ch, .cl, .slot, .dec, .tim, .timWr, .brk, .bank, .mem, .ue, .dma, .posted, .mir, .env, .st, .mb, .goNext, .qp, .grp, .ic, .err, .perf, .sec, .tamper, .pwr, .rtc, .deferred, .freeCnt] kl = true) {s0 s : State} (hs : Same kl s0 s) (m : Msg) :
    OSame kl s0 (execStreamOpenCapture m s) := by
  unfold execStreamOpenCapture
  repeat' first
    | with_reducible assumption
    | intro _
    | exact within_trans (by decide) hk
    | with_reducible apply OSame.next
    | with_reducible apply OSame.fault
    | with_reducible apply OSame.ite
    | with_reducible apply State.send_same
    | with_reducible apply Same.ite
    | split
    | dsimp only

theorem execStreamOpenBlock_same {kl : List Kind} (hk : within [.tb, .ref, .pps, .bx, .ch, .cl, .slot, .dec, .tim, .timWr, .brk, .bank, .mem, .ue, .dma, .posted, .mir, .env, .st, .mb, .goNext, .qp, .grp, .ic, .err, .perf, .sec, .tamper, .pwr, .rtc, .deferred, .freeCnt] kl = true) {s0 s : State} (hs : Same kl s0 s) (m : Msg) :
    OSame kl s0 (execStreamOpenBlock m s) := by
  unfold execStreamOpenBlock
  repeat' first
    | with_reducible assumption
    | intro _
    | exact within_trans (by decide) hk
    | with_reducible apply OSame.next
    | with_reducible apply OSame.fault
    | with_reducible apply OSame.ite
    | with_reducible apply State.send_same
    | with_reducible apply Same.ite
    | split
    | dsimp only

theorem execStreamOpenCopy_same {kl : List Kind} (hk : within [.tb, .ref, .pps, .bx, .ch, .cl, .slot, .dec, .tim, .timWr, .brk, .bank, .mem, .ue, .dma, .posted, .mir, .env, .st, .mb, .goNext, .qp, .grp, .ic, .err, .perf, .sec, .tamper, .pwr, .rtc, .deferred, .freeCnt] kl = true) {s0 s : State} (hs : Same kl s0 s) (m : Msg) :
    OSame kl s0 (execStreamOpenCopy m s) := by
  unfold execStreamOpenCopy
  repeat' first
    | with_reducible assumption
    | intro _
    | exact within_trans (by decide) hk
    | with_reducible apply OSame.next
    | with_reducible apply OSame.fault
    | with_reducible apply OSame.ite
    | with_reducible apply State.send_same
    | with_reducible apply Same.ite
    | split
    | dsimp only

theorem execStreamClose_same {kl : List Kind} (hk : within [.tb, .ref, .pps, .bx, .ch, .cl, .slot, .dec, .tim, .timWr, .brk, .bank, .mem, .ue, .dma, .posted, .mir, .env, .st, .mb, .goNext, .qp, .grp, .ic, .err, .perf, .sec, .tamper, .pwr, .rtc, .deferred, .freeCnt] kl = true) {s0 s : State} (hs : Same kl s0 s) (m : Msg) :
    OSame kl s0 (execStreamClose m s) := by
  unfold execStreamClose
  repeat' first
    | with_reducible assumption
    | intro _
    | exact within_trans (by decide) hk
    | with_reducible apply OSame.next
    | with_reducible apply OSame.fault
    | with_reducible apply OSame.ite
    | with_reducible apply State.send_same
    | with_reducible apply Same.ite
    | split
    | dsimp only

theorem execStreamCloseDiscard_same {kl : List Kind} (hk : within [.tb, .ref, .pps, .bx, .ch, .cl, .slot, .dec, .tim, .timWr, .brk, .bank, .mem, .ue, .dma, .posted, .mir, .env, .st, .mb, .goNext, .qp, .grp, .ic, .err, .perf, .sec, .tamper, .pwr, .rtc, .deferred, .freeCnt] kl = true) {s0 s : State} (hs : Same kl s0 s) (m : Msg) :
    OSame kl s0 (execStreamCloseDiscard m s) := by
  unfold execStreamCloseDiscard
  repeat' first
    | with_reducible assumption
    | intro _
    | exact within_trans (by decide) hk
    | with_reducible apply OSame.next
    | with_reducible apply OSame.fault
    | with_reducible apply OSame.ite
    | with_reducible apply State.send_same
    | with_reducible apply Same.ite
    | split
    | dsimp only

theorem execBankAssign_same {kl : List Kind} (hk : within [.tb, .ref, .pps, .bx, .ch, .cl, .slot, .dec, .tim, .timWr, .brk, .bank, .mem, .ue, .dma, .posted, .mir, .env, .st, .mb, .goNext, .qp, .grp, .ic, .err, .perf, .sec, .tamper, .pwr, .rtc, .deferred, .freeCnt] kl = true) {s0 s : State} (hs : Same kl s0 s) (m : Msg) :
    OSame kl s0 (execBankAssign m s) := by
  unfold execBankAssign
  repeat' first
    | with_reducible assumption
    | intro _
    | exact within_trans (by decide) hk
    | with_reducible apply OSame.next
    | with_reducible apply OSame.fault
    | with_reducible apply OSame.ite
    | with_reducible apply State.send_same
    | with_reducible apply Same.ite
    | split
    | dsimp only

theorem execPwrSetStateTrim_same {kl : List Kind} (hk : within [.tb, .ref, .pps, .bx, .ch, .cl, .slot, .dec, .tim, .timWr, .brk, .bank, .mem, .ue, .dma, .posted, .mir, .env, .st, .mb, .goNext, .qp, .grp, .ic, .err, .perf, .sec, .tamper, .pwr, .rtc, .deferred, .freeCnt] kl = true) {s0 s : State} (hs : Same kl s0 s) (m : Msg) :
    OSame kl s0 (execPwrSetStateTrim m s) := by
  unfold execPwrSetStateTrim
  repeat' first
    | with_reducible assumption
    | intro _
    | exact within_trans (by decide) hk
    | with_reducible apply OSame.next
    | with_reducible apply OSame.fault
    | with_reducible apply OSame.ite
    | with_reducible apply State.send_same
    | with_reducible apply Same.ite
    | split
    | dsimp only

theorem execPwrSetStateRetain_same {kl : List Kind} (hk : within [.tb, .ref, .pps, .bx, .ch, .cl, .slot, .dec, .tim, .timWr, .brk, .bank, .mem, .ue, .dma, .posted, .mir, .env, .st, .mb, .goNext, .qp, .grp, .ic, .err, .perf, .sec, .tamper, .pwr, .rtc, .deferred, .freeCnt] kl = true) {s0 s : State} (hs : Same kl s0 s) (m : Msg) :
    OSame kl s0 (execPwrSetStateRetain m s) := by
  unfold execPwrSetStateRetain
  repeat' first
    | with_reducible assumption
    | intro _
    | exact within_trans (by decide) hk
    | with_reducible apply OSame.next
    | with_reducible apply OSame.fault
    | with_reducible apply OSame.ite
    | with_reducible apply State.send_same
    | with_reducible apply Same.ite
    | split
    | dsimp only

theorem execPwrSetStateBackupOnly_same {kl : List Kind} (hk : within [.tb, .ref, .pps, .bx, .ch, .cl, .slot, .dec, .tim, .timWr, .brk, .bank, .mem, .ue, .dma, .posted, .mir, .env, .st, .mb, .goNext, .qp, .grp, .ic, .err, .perf, .sec, .tamper, .pwr, .rtc, .deferred, .freeCnt] kl = true) {s0 s : State} (hs : Same kl s0 s) (m : Msg) :
    OSame kl s0 (execPwrSetStateBackupOnly m s) := by
  unfold execPwrSetStateBackupOnly
  repeat' first
    | with_reducible assumption
    | intro _
    | exact within_trans (by decide) hk
    | with_reducible apply OSame.next
    | with_reducible apply OSame.fault
    | with_reducible apply OSame.ite
    | with_reducible apply State.send_same
    | with_reducible apply Same.ite
    | split
    | dsimp only

theorem execPwrRetainBanks_same {kl : List Kind} (hk : within [.tb, .ref, .pps, .bx, .ch, .cl, .slot, .dec, .tim, .timWr, .brk, .bank, .mem, .ue, .dma, .posted, .mir, .env, .st, .mb, .goNext, .qp, .grp, .ic, .err, .perf, .sec, .tamper, .pwr, .rtc, .deferred, .freeCnt] kl = true) {s0 s : State} (hs : Same kl s0 s) (m : Msg) :
    OSame kl s0 (execPwrRetainBanks m s) := by
  unfold execPwrRetainBanks
  repeat' first
    | with_reducible assumption
    | intro _
    | exact within_trans (by decide) hk
    | with_reducible apply OSame.next
    | with_reducible apply OSame.fault
    | with_reducible apply OSame.ite
    | with_reducible apply State.send_same
    | with_reducible apply Same.ite
    | split
    | dsimp only

theorem execGrpPrepare_same {kl : List Kind} (hk : within [.tb, .ref, .pps, .bx, .ch, .cl, .slot, .dec, .tim, .timWr, .brk, .bank, .mem, .ue, .dma, .posted, .mir, .env, .st, .mb, .goNext, .qp, .grp, .ic, .err, .perf, .sec, .tamper, .pwr, .rtc, .deferred, .freeCnt] kl = true) {s0 s : State} (hs : Same kl s0 s) (m : Msg) :
    OSame kl s0 (execGrpPrepare m s) := by
  unfold execGrpPrepare
  repeat' first
    | with_reducible assumption
    | intro _
    | exact within_trans (by decide) hk
    | with_reducible apply OSame.next
    | with_reducible apply OSame.fault
    | with_reducible apply OSame.ite
    | with_reducible apply State.send_same
    | with_reducible apply Same.ite
    | split
    | dsimp only

theorem execGrpCommit_same {kl : List Kind} (hk : within [.tb, .ref, .pps, .bx, .ch, .cl, .slot, .dec, .tim, .timWr, .brk, .bank, .mem, .ue, .dma, .posted, .mir, .env, .st, .mb, .goNext, .qp, .grp, .ic, .err, .perf, .sec, .tamper, .pwr, .rtc, .deferred, .freeCnt] kl = true) {s0 s : State} (hs : Same kl s0 s) (m : Msg) :
    OSame kl s0 (execGrpCommit m s) := by
  unfold execGrpCommit
  repeat' first
    | with_reducible assumption
    | intro _
    | exact within_trans (by decide) hk
    | with_reducible apply OSame.next
    | with_reducible apply OSame.fault
    | with_reducible apply OSame.ite
    | with_reducible apply State.send_same
    | with_reducible apply Same.ite
    | split
    | dsimp only

theorem execGrpAbandon_same {kl : List Kind} (hk : within [.tb, .ref, .pps, .bx, .ch, .cl, .slot, .dec, .tim, .timWr, .brk, .bank, .mem, .ue, .dma, .posted, .mir, .env, .st, .mb, .goNext, .qp, .grp, .ic, .err, .perf, .sec, .tamper, .pwr, .rtc, .deferred, .freeCnt] kl = true) {s0 s : State} (hs : Same kl s0 s) (m : Msg) :
    OSame kl s0 (execGrpAbandon m s) := by
  unfold execGrpAbandon
  repeat' first
    | with_reducible assumption
    | intro _
    | exact within_trans (by decide) hk
    | with_reducible apply OSame.next
    | with_reducible apply OSame.fault
    | with_reducible apply OSame.ite
    | with_reducible apply State.send_same
    | with_reducible apply Same.ite
    | split
    | dsimp only

theorem execBxLink_same {kl : List Kind} (hk : within [.tb, .ref, .pps, .bx, .ch, .cl, .slot, .dec, .tim, .timWr, .brk, .bank, .mem, .ue, .dma, .posted, .mir, .env, .st, .mb, .goNext, .qp, .grp, .ic, .err, .perf, .sec, .tamper, .pwr, .rtc, .deferred, .freeCnt] kl = true) {s0 s : State} (hs : Same kl s0 s) (m : Msg) :
    OSame kl s0 (execBxLink m s) := by
  unfold execBxLink
  repeat' first
    | with_reducible assumption
    | intro _
    | exact within_trans (by decide) hk
    | with_reducible apply OSame.next
    | with_reducible apply OSame.fault
    | with_reducible apply OSame.ite
    | with_reducible apply State.send_same
    | with_reducible apply Same.ite
    | split
    | dsimp only

theorem execBxAlign_same {kl : List Kind} (hk : within [.tb, .ref, .pps, .bx, .ch, .cl, .slot, .dec, .tim, .timWr, .brk, .bank, .mem, .ue, .dma, .posted, .mir, .env, .st, .mb, .goNext, .qp, .grp, .ic, .err, .perf, .sec, .tamper, .pwr, .rtc, .deferred, .freeCnt] kl = true) {s0 s : State} (hs : Same kl s0 s) (m : Msg) :
    OSame kl s0 (execBxAlign m s) := by
  unfold execBxAlign
  repeat' first
    | with_reducible assumption
    | intro _
    | exact within_trans (by decide) hk
    | with_reducible apply OSame.next
    | with_reducible apply OSame.fault
    | with_reducible apply OSame.ite
    | with_reducible apply State.send_same
    | with_reducible apply Same.ite
    | split
    | dsimp only

theorem execSecChallenge_same {kl : List Kind} (hk : within [.tb, .ref, .pps, .bx, .ch, .cl, .slot, .dec, .tim, .timWr, .brk, .bank, .mem, .ue, .dma, .posted, .mir, .env, .st, .mb, .goNext, .qp, .grp, .ic, .err, .perf, .sec, .tamper, .pwr, .rtc, .deferred, .freeCnt] kl = true) {s0 s : State} (hs : Same kl s0 s) (m : Msg) :
    OSame kl s0 (execSecChallenge m s) := by
  unfold execSecChallenge
  repeat' first
    | with_reducible assumption
    | intro _
    | exact within_trans (by decide) hk
    | with_reducible apply OSame.next
    | with_reducible apply OSame.fault
    | with_reducible apply OSame.ite
    | with_reducible apply State.send_same
    | with_reducible apply Same.ite
    | split
    | dsimp only

theorem execSecOpen_same {kl : List Kind} (hk : within [.tb, .ref, .pps, .bx, .ch, .cl, .slot, .dec, .tim, .timWr, .brk, .bank, .mem, .ue, .dma, .posted, .mir, .env, .st, .mb, .goNext, .qp, .grp, .ic, .err, .perf, .sec, .tamper, .pwr, .rtc, .deferred, .freeCnt] kl = true) {s0 s : State} (hs : Same kl s0 s) (m : Msg) :
    OSame kl s0 (execSecOpen m s) := by
  unfold execSecOpen
  repeat' first
    | with_reducible assumption
    | intro _
    | exact within_trans (by decide) hk
    | with_reducible apply OSame.next
    | with_reducible apply OSame.fault
    | with_reducible apply OSame.ite
    | with_reducible apply State.send_same
    | with_reducible apply Same.ite
    | split
    | dsimp only

theorem execSecClose_same {kl : List Kind} (hk : within [.tb, .ref, .pps, .bx, .ch, .cl, .slot, .dec, .tim, .timWr, .brk, .bank, .mem, .ue, .dma, .posted, .mir, .env, .st, .mb, .goNext, .qp, .grp, .ic, .err, .perf, .sec, .tamper, .pwr, .rtc, .deferred, .freeCnt] kl = true) {s0 s : State} (hs : Same kl s0 s) (m : Msg) :
    OSame kl s0 (execSecClose m s) := by
  unfold execSecClose
  repeat' first
    | with_reducible assumption
    | intro _
    | exact within_trans (by decide) hk
    | with_reducible apply OSame.next
    | with_reducible apply OSame.fault
    | with_reducible apply OSame.ite
    | with_reducible apply State.send_same
    | with_reducible apply Same.ite
    | split
    | dsimp only

theorem execSecEnroll_same {kl : List Kind} (hk : within [.tb, .ref, .pps, .bx, .ch, .cl, .slot, .dec, .tim, .timWr, .brk, .bank, .mem, .ue, .dma, .posted, .mir, .env, .st, .mb, .goNext, .qp, .grp, .ic, .err, .perf, .sec, .tamper, .pwr, .rtc, .deferred, .freeCnt] kl = true) {s0 s : State} (hs : Same kl s0 s) (m : Msg) :
    OSame kl s0 (execSecEnroll m s) := by
  unfold execSecEnroll
  repeat' first
    | with_reducible assumption
    | intro _
    | exact within_trans (by decide) hk
    | with_reducible apply OSame.next
    | with_reducible apply OSame.fault
    | with_reducible apply OSame.ite
    | with_reducible apply State.send_same
    | with_reducible apply Same.ite
    | split
    | dsimp only

theorem execSecRemove_same {kl : List Kind} (hk : within [.tb, .ref, .pps, .bx, .ch, .cl, .slot, .dec, .tim, .timWr, .brk, .bank, .mem, .ue, .dma, .posted, .mir, .env, .st, .mb, .goNext, .qp, .grp, .ic, .err, .perf, .sec, .tamper, .pwr, .rtc, .deferred, .freeCnt] kl = true) {s0 s : State} (hs : Same kl s0 s) (m : Msg) :
    OSame kl s0 (execSecRemove m s) := by
  unfold execSecRemove
  repeat' first
    | with_reducible assumption
    | intro _
    | exact within_trans (by decide) hk
    | with_reducible apply OSame.next
    | with_reducible apply OSame.fault
    | with_reducible apply OSame.ite
    | with_reducible apply State.send_same
    | with_reducible apply Same.ite
    | split
    | dsimp only

theorem execSecSignRecordSlot_same {kl : List Kind} (hk : within [.tb, .ref, .pps, .bx, .ch, .cl, .slot, .dec, .tim, .timWr, .brk, .bank, .mem, .ue, .dma, .posted, .mir, .env, .st, .mb, .goNext, .qp, .grp, .ic, .err, .perf, .sec, .tamper, .pwr, .rtc, .deferred, .freeCnt] kl = true) {s0 s : State} (hs : Same kl s0 s) (m : Msg) :
    OSame kl s0 (execSecSignRecordSlot m s) := by
  unfold execSecSignRecordSlot
  repeat' first
    | with_reducible assumption
    | intro _
    | exact within_trans (by decide) hk
    | with_reducible apply OSame.next
    | with_reducible apply OSame.fault
    | with_reducible apply OSame.ite
    | with_reducible apply State.send_same
    | with_reducible apply Same.ite
    | split
    | dsimp only

theorem execSecSignRecordBlobPart_same {kl : List Kind} (hk : within [.tb, .ref, .pps, .bx, .ch, .cl, .slot, .dec, .tim, .timWr, .brk, .bank, .mem, .ue, .dma, .posted, .mir, .env, .st, .mb, .goNext, .qp, .grp, .ic, .err, .perf, .sec, .tamper, .pwr, .rtc, .deferred, .freeCnt] kl = true) {s0 s : State} (hs : Same kl s0 s) (m : Msg) :
    OSame kl s0 (execSecSignRecordBlobPart m s) := by
  unfold execSecSignRecordBlobPart
  repeat' first
    | with_reducible assumption
    | intro _
    | exact within_trans (by decide) hk
    | with_reducible apply OSame.next
    | with_reducible apply OSame.fault
    | with_reducible apply OSame.ite
    | with_reducible apply State.send_same
    | with_reducible apply Same.ite
    | split
    | dsimp only

theorem execSecSignRecordBlobEnd_same {kl : List Kind} (hk : within [.tb, .ref, .pps, .bx, .ch, .cl, .slot, .dec, .tim, .timWr, .brk, .bank, .mem, .ue, .dma, .posted, .mir, .env, .st, .mb, .goNext, .qp, .grp, .ic, .err, .perf, .sec, .tamper, .pwr, .rtc, .deferred, .freeCnt] kl = true) {s0 s : State} (hs : Same kl s0 s) (m : Msg) :
    OSame kl s0 (execSecSignRecordBlobEnd m s) := by
  unfold execSecSignRecordBlobEnd
  repeat' first
    | with_reducible assumption
    | intro _
    | exact within_trans (by decide) hk
    | with_reducible apply OSame.next
    | with_reducible apply OSame.fault
    | with_reducible apply OSame.ite
    | with_reducible apply State.send_same
    | with_reducible apply Same.ite
    | split
    | dsimp only

theorem execSecSealCalSeal_same {kl : List Kind} (hk : within [.tb, .ref, .pps, .bx, .ch, .cl, .slot, .dec, .tim, .timWr, .brk, .bank, .mem, .ue, .dma, .posted, .mir, .env, .st, .mb, .goNext, .qp, .grp, .ic, .err, .perf, .sec, .tamper, .pwr, .rtc, .deferred, .freeCnt] kl = true) {s0 s : State} (hs : Same kl s0 s) (m : Msg) :
    OSame kl s0 (execSecSealCalSeal m s) := by
  unfold execSecSealCalSeal
  repeat' first
    | with_reducible assumption
    | intro _
    | exact within_trans (by decide) hk
    | with_reducible apply OSame.next
    | with_reducible apply OSame.fault
    | with_reducible apply OSame.ite
    | with_reducible apply State.send_same
    | with_reducible apply Same.ite
    | split
    | dsimp only

theorem execSecSealCalClear_same {kl : List Kind} (hk : within [.tb, .ref, .pps, .bx, .ch, .cl, .slot, .dec, .tim, .timWr, .brk, .bank, .mem, .ue, .dma, .posted, .mir, .env, .st, .mb, .goNext, .qp, .grp, .ic, .err, .perf, .sec, .tamper, .pwr, .rtc, .deferred, .freeCnt] kl = true) {s0 s : State} (hs : Same kl s0 s) (m : Msg) :
    OSame kl s0 (execSecSealCalClear m s) := by
  unfold execSecSealCalClear
  repeat' first
    | with_reducible assumption
    | intro _
    | exact within_trans (by decide) hk
    | with_reducible apply OSame.next
    | with_reducible apply OSame.fault
    | with_reducible apply OSame.ite
    | with_reducible apply State.send_same
    | with_reducible apply Same.ite
    | split
    | dsimp only

theorem execSecAuditRead_same {kl : List Kind} (hk : within [.tb, .ref, .pps, .bx, .ch, .cl, .slot, .dec, .tim, .timWr, .brk, .bank, .mem, .ue, .dma, .posted, .mir, .env, .st, .mb, .goNext, .qp, .grp, .ic, .err, .perf, .sec, .tamper, .pwr, .rtc, .deferred, .freeCnt] kl = true) {s0 s : State} (hs : Same kl s0 s) (m : Msg) :
    OSame kl s0 (execSecAuditRead m s) := by
  unfold execSecAuditRead
  repeat' first
    | with_reducible assumption
    | intro _
    | exact within_trans (by decide) hk
    | with_reducible apply OSame.next
    | with_reducible apply OSame.fault
    | with_reducible apply OSame.ite
    | with_reducible apply State.send_same
    | with_reducible apply Same.ite
    | split
    | dsimp only

theorem execSecZeroize_same {kl : List Kind} (hk : within [.tb, .ref, .pps, .bx, .ch, .cl, .slot, .dec, .tim, .timWr, .brk, .bank, .mem, .ue, .dma, .posted, .mir, .env, .st, .mb, .goNext, .qp, .grp, .ic, .err, .perf, .sec, .tamper, .pwr, .rtc, .deferred, .freeCnt] kl = true) {s0 s : State} (hs : Same kl s0 s) (m : Msg) :
    OSame kl s0 (execSecZeroize m s) := by
  unfold execSecZeroize
  repeat' first
    | with_reducible assumption
    | intro _
    | exact within_trans (by decide) hk
    | with_reducible apply OSame.next
    | with_reducible apply OSame.fault
    | with_reducible apply OSame.ite
    | with_reducible apply State.send_same
    | with_reducible apply Same.ite
    | split
    | dsimp only

theorem execTamperCfg_same {kl : List Kind} (hk : within [.tb, .ref, .pps, .bx, .ch, .cl, .slot, .dec, .tim, .timWr, .brk, .bank, .mem, .ue, .dma, .posted, .mir, .env, .st, .mb, .goNext, .qp, .grp, .ic, .err, .perf, .sec, .tamper, .pwr, .rtc, .deferred, .freeCnt] kl = true) {s0 s : State} (hs : Same kl s0 s) (m : Msg) :
    OSame kl s0 (execTamperCfg m s) := by
  unfold execTamperCfg
  repeat' first
    | with_reducible assumption
    | intro _
    | exact within_trans (by decide) hk
    | with_reducible apply OSame.next
    | with_reducible apply OSame.fault
    | with_reducible apply OSame.ite
    | with_reducible apply State.send_same
    | with_reducible apply Same.ite
    | split
    | dsimp only

theorem execSecFwUpdateBegin_same {kl : List Kind} (hk : within [.tb, .ref, .pps, .bx, .ch, .cl, .slot, .dec, .tim, .timWr, .brk, .bank, .mem, .ue, .dma, .posted, .mir, .env, .st, .mb, .goNext, .qp, .grp, .ic, .err, .perf, .sec, .tamper, .pwr, .rtc, .deferred, .freeCnt] kl = true) {s0 s : State} (hs : Same kl s0 s) (m : Msg) :
    OSame kl s0 (execSecFwUpdateBegin m s) := by
  unfold execSecFwUpdateBegin
  repeat' first
    | with_reducible assumption
    | intro _
    | exact within_trans (by decide) hk
    | with_reducible apply OSame.next
    | with_reducible apply OSame.fault
    | with_reducible apply OSame.ite
    | with_reducible apply State.send_same
    | with_reducible apply Same.ite
    | split
    | dsimp only

theorem execSecFwUpdateData_same {kl : List Kind} (hk : within [.tb, .ref, .pps, .bx, .ch, .cl, .slot, .dec, .tim, .timWr, .brk, .bank, .mem, .ue, .dma, .posted, .mir, .env, .st, .mb, .goNext, .qp, .grp, .ic, .err, .perf, .sec, .tamper, .pwr, .rtc, .deferred, .freeCnt] kl = true) {s0 s : State} (hs : Same kl s0 s) (m : Msg) :
    OSame kl s0 (execSecFwUpdateData m s) := by
  unfold execSecFwUpdateData
  repeat' first
    | with_reducible assumption
    | intro _
    | exact within_trans (by decide) hk
    | with_reducible apply OSame.next
    | with_reducible apply OSame.fault
    | with_reducible apply OSame.ite
    | with_reducible apply State.send_same
    | with_reducible apply Same.ite
    | split
    | dsimp only

theorem execSecFwUpdateCommit_same {kl : List Kind} (hk : within [.tb, .ref, .pps, .bx, .ch, .cl, .slot, .dec, .tim, .timWr, .brk, .bank, .mem, .ue, .dma, .posted, .mir, .env, .st, .mb, .goNext, .qp, .grp, .ic, .err, .perf, .sec, .tamper, .pwr, .rtc, .deferred, .freeCnt] kl = true) {s0 s : State} (hs : Same kl s0 s) (m : Msg) :
    OSame kl s0 (execSecFwUpdateCommit m s) := by
  unfold execSecFwUpdateCommit
  repeat' first
    | with_reducible assumption
    | intro _
    | exact within_trans (by decide) hk
    | with_reducible apply OSame.next
    | with_reducible apply OSame.fault
    | with_reducible apply OSame.ite
    | with_reducible apply State.send_same
    | with_reducible apply Same.ite
    | split
    | dsimp only

theorem execSecFwUpdateAbort_same {kl : List Kind} (hk : within [.tb, .ref, .pps, .bx, .ch, .cl, .slot, .dec, .tim, .timWr, .brk, .bank, .mem, .ue, .dma, .posted, .mir, .env, .st, .mb, .goNext, .qp, .grp, .ic, .err, .perf, .sec, .tamper, .pwr, .rtc, .deferred, .freeCnt] kl = true) {s0 s : State} (hs : Same kl s0 s) (m : Msg) :
    OSame kl s0 (execSecFwUpdateAbort m s) := by
  unfold execSecFwUpdateAbort
  repeat' first
    | with_reducible assumption
    | intro _
    | exact within_trans (by decide) hk
    | with_reducible apply OSame.next
    | with_reducible apply OSame.fault
    | with_reducible apply OSame.ite
    | with_reducible apply State.send_same
    | with_reducible apply Same.ite
    | split
    | dsimp only

theorem execSecDebugUnlock_same {kl : List Kind} (hk : within [.tb, .ref, .pps, .bx, .ch, .cl, .slot, .dec, .tim, .timWr, .brk, .bank, .mem, .ue, .dma, .posted, .mir, .env, .st, .mb, .goNext, .qp, .grp, .ic, .err, .perf, .sec, .tamper, .pwr, .rtc, .deferred, .freeCnt] kl = true) {s0 s : State} (hs : Same kl s0 s) (m : Msg) :
    OSame kl s0 (execSecDebugUnlock m s) := by
  unfold execSecDebugUnlock
  repeat' first
    | with_reducible assumption
    | intro _
    | exact within_trans (by decide) hk
    | with_reducible apply OSame.next
    | with_reducible apply OSame.fault
    | with_reducible apply OSame.ite
    | with_reducible apply State.send_same
    | with_reducible apply Same.ite
    | split
    | dsimp only

theorem execSecExportCert_same {kl : List Kind} (hk : within [.tb, .ref, .pps, .bx, .ch, .cl, .slot, .dec, .tim, .timWr, .brk, .bank, .mem, .ue, .dma, .posted, .mir, .env, .st, .mb, .goNext, .qp, .grp, .ic, .err, .perf, .sec, .tamper, .pwr, .rtc, .deferred, .freeCnt] kl = true) {s0 s : State} (hs : Same kl s0 s) (m : Msg) :
    OSame kl s0 (execSecExportCert m s) := by
  unfold execSecExportCert
  repeat' first
    | with_reducible assumption
    | intro _
    | exact within_trans (by decide) hk
    | with_reducible apply OSame.next
    | with_reducible apply OSame.fault
    | with_reducible apply OSame.ite
    | with_reducible apply State.send_same
    | with_reducible apply Same.ite
    | split
    | dsimp only

end Sys2Proof.Machine
end

