-- ==== Sys2Proof/Laws/SameTick.lean ====
section
/-! SUPPORT. Frames of the operations of Machine/Tick.lean. -/
namespace Sys2Proof.Machine

theorem State.moveScale_same {kl : List Kind} (hk : within [.tb, .ref, .ch, .dec, .rtc] kl = true) {s0 s : State} (hs : Same kl s0 s) (d : Int) :
    Same kl s0 (State.moveScale s d) := by
  unfold State.moveScale
  repeat' first
    | with_reducible assumption
    | intro _
    | exact within_trans (by decide) hk
    | with_reducible apply Same.ite
    | with_reducible refine Same.step (within_trans (by decide) hk) (Same.set_tb_ref_ch_dec_rtc _ _ _ _ _ _) ?_
    | split
    | dsimp only

theorem State.stepTick_same {kl : List Kind} (hk : within [.tb, .ref, .bx, .ch, .dec, .ic, .err, .perf, .pwr, .rtc] kl = true) {s0 s : State} (hs : Same kl s0 s) (x : Nat) :
    Same kl s0 (State.stepTick s x).1 := by
  unfold State.stepTick
  repeat' first
    | with_reducible assumption
    | intro _
    | exact within_trans (by decide) hk
    | with_reducible apply Same.iteFst
    | with_reducible apply State.timeReport_same
    | with_reducible apply State.startSlew_same
    | with_reducible apply State.carry_same
    | with_reducible apply State.modBx_same
    | with_reducible apply State.moveScale_same
    | with_reducible apply Same.ite
    | split
    | with_reducible refine Same.step (within_trans (by decide) hk) (Same.set_tb _ _) ?_
    | dsimp only

theorem State.newTick_same {kl : List Kind} (hk : within [.tb, .bx] kl = true) {s0 s : State} (hs : Same kl s0 s) (m : Option Int) (b len : Nat) :
    Same kl s0 (State.newTick s m b len) := by
  unfold State.newTick
  repeat' first
    | with_reducible assumption
    | intro _
    | exact within_trans (by decide) hk
    | with_reducible apply State.ctl_same
    | with_reducible apply State.modBx_same
    | with_reducible apply Same.ite
    | split
    | with_reducible refine Same.step (within_trans (by decide) hk) (Same.set_tb _ _) ?_
    | dsimp only

theorem State.deferTick_same {kl : List Kind} (hk : within [.bx, .ch, .cl, .slot, .dec, .tim, .timWr, .bank, .mem, .ue, .dma, .posted, .mir, .env, .st, .qp, .grp, .ic, .err, .perf, .pwr, .deferred] kl = true) {s0 s : State} (hs : Same kl s0 s) (b : Nat) (at_ : Int) :
    Same kl s0 (State.deferTick s b at_) := by
  unfold State.deferTick
  repeat' first
    | with_reducible assumption
    | intro _
    | exact within_trans (by decide) hk
    | with_reducible apply State.applyAt_same
    | with_reducible apply State.releaseGroups_same
    | with_reducible apply Same.ite
    | with_reducible apply Same.foldl
    | with_reducible apply Same.foldlFst
    | with_reducible refine Same.step (within_trans (by decide) hk) (Same.set_deferred _ _) ?_
    | split
    | dsimp only

theorem State.recordTick_same {kl : List Kind} (hk : within [.cl] kl = true) {s0 s : State} (hs : Same kl s0 s) (stepped : Bool) (len : Option Nat) (b : Nat) (at_ : Int) :
    Same kl s0 (State.recordTick s stepped len b at_) := by
  unfold State.recordTick
  repeat' first
    | with_reducible assumption
    | intro _
    | exact within_trans (by decide) hk
    | with_reducible apply State.emitAll_same
    | with_reducible apply Same.ite
    | split
    | dsimp only

theorem State.eventTick_same {kl : List Kind} (hk : within [.cl, .tim, .ic, .perf, .pwr] kl = true) {s0 s : State} (hs : Same kl s0 s) :
    Same kl s0 (State.eventTick s) := by
  unfold State.eventTick
  repeat' first
    | with_reducible assumption
    | intro _
    | exact within_trans (by decide) hk
    | with_reducible apply State.raise_same
    | with_reducible apply State.pcAdd_same
    | with_reducible apply State.event_same
    | with_reducible apply Same.ite
    | with_reducible apply Same.each
    | split
    | dsimp only

theorem State.boundary_same {kl : List Kind} (hk : within [.tb, .ref, .bx, .ch, .cl, .slot, .dec, .tim, .timWr, .bank, .mem, .ue, .dma, .posted, .mir, .env, .st, .qp, .grp, .ic, .err, .perf, .pwr, .rtc, .deferred, .lastRead] kl = true) {s0 s : State} (hs : Same kl s0 s) :
    Same kl s0 (State.boundary s) := by
  unfold State.boundary
  repeat' first
    | with_reducible assumption
    | intro _
    | exact within_trans (by decide) hk
    | with_reducible apply Same.iteFst
    | with_reducible apply State.raiseAll_same
    | with_reducible apply State.settle_same
    | with_reducible apply State.lossAtBoundary_same
    | with_reducible apply State.schTick_same
    | with_reducible apply State.stealTick_same
    | with_reducible apply State.tempTick_same
    | with_reducible apply State.baseTick_same
    | with_reducible apply State.applyPlan_same
    | with_reducible apply State.slotTick_same
    | with_reducible apply State.importTick_same
    | with_reducible apply State.serveHeld_same
    | with_reducible apply State.streamTick_same
    | with_reducible apply State.dmaAge_same
    | with_reducible apply State.mirrorTick_same
    | with_reducible apply State.stepTick_same
    | with_reducible apply State.newTick_same
    | with_reducible apply State.deferTick_same
    | with_reducible apply State.recordTick_same
    | with_reducible apply State.eventTick_same
    | with_reducible apply Same.ite
    | with_reducible apply Same.each
    | split
    | dsimp only

theorem execTickBoundary_same {kl : List Kind} (hk : within [.tb, .ref, .bx, .ch, .cl, .slot, .dec, .tim, .timWr, .bank, .mem, .ue, .dma, .posted, .mir, .env, .st, .qp, .grp, .ic, .err, .perf, .pwr, .rtc, .deferred, .lastRead] kl = true) {s0 s : State} (hs : Same kl s0 s) :
    OSame kl s0 (execTickBoundary s) := by
  unfold execTickBoundary
  repeat' first
    | with_reducible assumption
    | intro _
    | exact within_trans (by decide) hk
    | with_reducible apply OSame.next
    | with_reducible apply OSame.fault
    | with_reducible apply OSame.ite
    | with_reducible apply State.runTo_same
    | with_reducible apply State.boundary_same
    | with_reducible apply Same.ite
    | split
    | dsimp only

end Sys2Proof.Machine
end

