-- ==== Sys2Proof/Laws/State.lean ====
section
/-! SUPPORT. What the updates of one part of State leave alone, and what the part holds after one; each true by rfl or by one fact about vectors. -/
namespace Sys2Proof.Machine

/-! Elements of vectors. -/

@[simp] theorem vget_vset_self {α : Type} {n : Nat} [NeZero n] (v : Vector α n) (i : Nat) (a : α) : vget (vset v i a) i = a := by
  simp [vget, vset]

theorem vget_vset_ne {α : Type} {n : Nat} [NeZero n] (v : Vector α n) {i j : Nat} (a : α) (h : i % n ≠ j % n) :
    vget (vset v i a) j = vget v j := by
  simp [vget, vset, h]

@[simp] theorem vget_vmod_self {α : Type} {n : Nat} [NeZero n] (v : Vector α n) (i : Nat) (f : α → α) :
    vget (vmod v i f) i = f (vget v i) := by
  simp [vmod]

theorem vget_vmod_ne {α : Type} {n : Nat} [NeZero n] (v : Vector α n) {i j : Nat} (f : α → α) (h : i % n ≠ j % n) :
    vget (vmod v i f) j = vget v j := vget_vset_ne v _ h

/-! Fields that an update does not touch. -/

@[simp] theorem State.modCh_pending (s : State) (n : Nat) (f : Channel → Channel) : (s.modCh n f).pending = s.pending := rfl
@[simp] theorem State.modCh_tb (s : State) (n : Nat) (f : Channel → Channel) : (s.modCh n f).tb = s.tb := rfl
@[simp] theorem State.modCh_ref (s : State) (n : Nat) (f : Channel → Channel) : (s.modCh n f).ref = s.ref := rfl
@[simp] theorem State.modCh_pps (s : State) (n : Nat) (f : Channel → Channel) : (s.modCh n f).pps = s.pps := rfl
@[simp] theorem State.modCh_bx (s : State) (n : Nat) (f : Channel → Channel) : (s.modCh n f).bx = s.bx := rfl
@[simp] theorem State.modCh_cl (s : State) (n : Nat) (f : Channel → Channel) : (s.modCh n f).cl = s.cl := rfl
@[simp] theorem State.modCh_slot (s : State) (n : Nat) (f : Channel → Channel) : (s.modCh n f).slot = s.slot := rfl
@[simp] theorem State.modCh_dec (s : State) (n : Nat) (f : Channel → Channel) : (s.modCh n f).dec = s.dec := rfl
@[simp] theorem State.modCh_tim (s : State) (n : Nat) (f : Channel → Channel) : (s.modCh n f).tim = s.tim := rfl
@[simp] theorem State.modCh_timWr (s : State) (n : Nat) (f : Channel → Channel) : (s.modCh n f).timWr = s.timWr := rfl
@[simp] theorem State.modCh_brk (s : State) (n : Nat) (f : Channel → Channel) : (s.modCh n f).brk = s.brk := rfl
@[simp] theorem State.modCh_bank (s : State) (n : Nat) (f : Channel → Channel) : (s.modCh n f).bank = s.bank := rfl
@[simp] theorem State.modCh_mem (s : State) (n : Nat) (f : Channel → Channel) : (s.modCh n f).mem = s.mem := rfl
@[simp] theorem State.modCh_ue (s : State) (n : Nat) (f : Channel → Channel) : (s.modCh n f).ue = s.ue := rfl
@[simp] theorem State.modCh_dma (s : State) (n : Nat) (f : Channel → Channel) : (s.modCh n f).dma = s.dma := rfl
@[simp] theorem State.modCh_noStream (s : State) (n : Nat) (f : Channel → Channel) : (s.modCh n f).noStream = s.noStream := rfl
@[simp] theorem State.modCh_posted (s : State) (n : Nat) (f : Channel → Channel) : (s.modCh n f).posted = s.posted := rfl
@[simp] theorem State.modCh_mir (s : State) (n : Nat) (f : Channel → Channel) : (s.modCh n f).mir = s.mir := rfl
@[simp] theorem State.modCh_pcie (s : State) (n : Nat) (f : Channel → Channel) : (s.modCh n f).pcie = s.pcie := rfl
@[simp] theorem State.modCh_env (s : State) (n : Nat) (f : Channel → Channel) : (s.modCh n f).env = s.env := rfl
@[simp] theorem State.modCh_st (s : State) (n : Nat) (f : Channel → Channel) : (s.modCh n f).st = s.st := rfl
@[simp] theorem State.modCh_mb (s : State) (n : Nat) (f : Channel → Channel) : (s.modCh n f).mb = s.mb := rfl
@[simp] theorem State.modCh_goNext (s : State) (n : Nat) (f : Channel → Channel) : (s.modCh n f).goNext = s.goNext := rfl
@[simp] theorem State.modCh_qp (s : State) (n : Nat) (f : Channel → Channel) : (s.modCh n f).qp = s.qp := rfl
@[simp] theorem State.modCh_grp (s : State) (n : Nat) (f : Channel → Channel) : (s.modCh n f).grp = s.grp := rfl
@[simp] theorem State.modCh_ic (s : State) (n : Nat) (f : Channel → Channel) : (s.modCh n f).ic = s.ic := rfl
@[simp] theorem State.modCh_err (s : State) (n : Nat) (f : Channel → Channel) : (s.modCh n f).err = s.err := rfl
@[simp] theorem State.modCh_perf (s : State) (n : Nat) (f : Channel → Channel) : (s.modCh n f).perf = s.perf := rfl
@[simp] theorem State.modCh_sec (s : State) (n : Nat) (f : Channel → Channel) : (s.modCh n f).sec = s.sec := rfl
@[simp] theorem State.modCh_tamper (s : State) (n : Nat) (f : Channel → Channel) : (s.modCh n f).tamper = s.tamper := rfl
@[simp] theorem State.modCh_pwr (s : State) (n : Nat) (f : Channel → Channel) : (s.modCh n f).pwr = s.pwr := rfl
@[simp] theorem State.modCh_rtc (s : State) (n : Nat) (f : Channel → Channel) : (s.modCh n f).rtc = s.rtc := rfl
@[simp] theorem State.modCh_deferred (s : State) (n : Nat) (f : Channel → Channel) : (s.modCh n f).deferred = s.deferred := rfl
@[simp] theorem State.modCh_lastRead (s : State) (n : Nat) (f : Channel → Channel) : (s.modCh n f).lastRead = s.lastRead := rfl
@[simp] theorem State.modCh_freeCnt (s : State) (n : Nat) (f : Channel → Channel) : (s.modCh n f).freeCnt = s.freeCnt := rfl

@[simp] theorem State.modIn_pending (s : State) (n : Nat) (f : ChIn → ChIn) : (s.modIn n f).pending = s.pending := rfl
@[simp] theorem State.modIn_tb (s : State) (n : Nat) (f : ChIn → ChIn) : (s.modIn n f).tb = s.tb := rfl
@[simp] theorem State.modIn_ref (s : State) (n : Nat) (f : ChIn → ChIn) : (s.modIn n f).ref = s.ref := rfl
@[simp] theorem State.modIn_pps (s : State) (n : Nat) (f : ChIn → ChIn) : (s.modIn n f).pps = s.pps := rfl
@[simp] theorem State.modIn_bx (s : State) (n : Nat) (f : ChIn → ChIn) : (s.modIn n f).bx = s.bx := rfl
@[simp] theorem State.modIn_cl (s : State) (n : Nat) (f : ChIn → ChIn) : (s.modIn n f).cl = s.cl := rfl
@[simp] theorem State.modIn_slot (s : State) (n : Nat) (f : ChIn → ChIn) : (s.modIn n f).slot = s.slot := rfl
@[simp] theorem State.modIn_dec (s : State) (n : Nat) (f : ChIn → ChIn) : (s.modIn n f).dec = s.dec := rfl
@[simp] theorem State.modIn_tim (s : State) (n : Nat) (f : ChIn → ChIn) : (s.modIn n f).tim = s.tim := rfl
@[simp] theorem State.modIn_timWr (s : State) (n : Nat) (f : ChIn → ChIn) : (s.modIn n f).timWr = s.timWr := rfl
@[simp] theorem State.modIn_brk (s : State) (n : Nat) (f : ChIn → ChIn) : (s.modIn n f).brk = s.brk := rfl
@[simp] theorem State.modIn_bank (s : State) (n : Nat) (f : ChIn → ChIn) : (s.modIn n f).bank = s.bank := rfl
@[simp] theorem State.modIn_mem (s : State) (n : Nat) (f : ChIn → ChIn) : (s.modIn n f).mem = s.mem := rfl
@[simp] theorem State.modIn_ue (s : State) (n : Nat) (f : ChIn → ChIn) : (s.modIn n f).ue = s.ue := rfl
@[simp] theorem State.modIn_dma (s : State) (n : Nat) (f : ChIn → ChIn) : (s.modIn n f).dma = s.dma := rfl
@[simp] theorem State.modIn_noStream (s : State) (n : Nat) (f : ChIn → ChIn) : (s.modIn n f).noStream = s.noStream := rfl
@[simp] theorem State.modIn_posted (s : State) (n : Nat) (f : ChIn → ChIn) : (s.modIn n f).posted = s.posted := rfl
@[simp] theorem State.modIn_mir (s : State) (n : Nat) (f : ChIn → ChIn) : (s.modIn n f).mir = s.mir := rfl
@[simp] theorem State.modIn_pcie (s : State) (n : Nat) (f : ChIn → ChIn) : (s.modIn n f).pcie = s.pcie := rfl
@[simp] theorem State.modIn_env (s : State) (n : Nat) (f : ChIn → ChIn) : (s.modIn n f).env = s.env := rfl
@[simp] theorem State.modIn_st (s : State) (n : Nat) (f : ChIn → ChIn) : (s.modIn n f).st = s.st := rfl
@[simp] theorem State.modIn_mb (s : State) (n : Nat) (f : ChIn → ChIn) : (s.modIn n f).mb = s.mb := rfl
@[simp] theorem State.modIn_goNext (s : State) (n : Nat) (f : ChIn → ChIn) : (s.modIn n f).goNext = s.goNext := rfl
@[simp] theorem State.modIn_qp (s : State) (n : Nat) (f : ChIn → ChIn) : (s.modIn n f).qp = s.qp := rfl
@[simp] theorem State.modIn_grp (s : State) (n : Nat) (f : ChIn → ChIn) : (s.modIn n f).grp = s.grp := rfl
@[simp] theorem State.modIn_ic (s : State) (n : Nat) (f : ChIn → ChIn) : (s.modIn n f).ic = s.ic := rfl
@[simp] theorem State.modIn_err (s : State) (n : Nat) (f : ChIn → ChIn) : (s.modIn n f).err = s.err := rfl
@[simp] theorem State.modIn_perf (s : State) (n : Nat) (f : ChIn → ChIn) : (s.modIn n f).perf = s.perf := rfl
@[simp] theorem State.modIn_sec (s : State) (n : Nat) (f : ChIn → ChIn) : (s.modIn n f).sec = s.sec := rfl
@[simp] theorem State.modIn_tamper (s : State) (n : Nat) (f : ChIn → ChIn) : (s.modIn n f).tamper = s.tamper := rfl
@[simp] theorem State.modIn_pwr (s : State) (n : Nat) (f : ChIn → ChIn) : (s.modIn n f).pwr = s.pwr := rfl
@[simp] theorem State.modIn_rtc (s : State) (n : Nat) (f : ChIn → ChIn) : (s.modIn n f).rtc = s.rtc := rfl
@[simp] theorem State.modIn_deferred (s : State) (n : Nat) (f : ChIn → ChIn) : (s.modIn n f).deferred = s.deferred := rfl
@[simp] theorem State.modIn_lastRead (s : State) (n : Nat) (f : ChIn → ChIn) : (s.modIn n f).lastRead = s.lastRead := rfl
@[simp] theorem State.modIn_freeCnt (s : State) (n : Nat) (f : ChIn → ChIn) : (s.modIn n f).freeCnt = s.freeCnt := rfl

@[simp] theorem State.modCal_pending (s : State) (n : Nat) (f : ChCal → ChCal) : (s.modCal n f).pending = s.pending := rfl
@[simp] theorem State.modCal_tb (s : State) (n : Nat) (f : ChCal → ChCal) : (s.modCal n f).tb = s.tb := rfl
@[simp] theorem State.modCal_ref (s : State) (n : Nat) (f : ChCal → ChCal) : (s.modCal n f).ref = s.ref := rfl
@[simp] theorem State.modCal_pps (s : State) (n : Nat) (f : ChCal → ChCal) : (s.modCal n f).pps = s.pps := rfl
@[simp] theorem State.modCal_bx (s : State) (n : Nat) (f : ChCal → ChCal) : (s.modCal n f).bx = s.bx := rfl
@[simp] theorem State.modCal_cl (s : State) (n : Nat) (f : ChCal → ChCal) : (s.modCal n f).cl = s.cl := rfl
@[simp] theorem State.modCal_slot (s : State) (n : Nat) (f : ChCal → ChCal) : (s.modCal n f).slot = s.slot := rfl
@[simp] theorem State.modCal_dec (s : State) (n : Nat) (f : ChCal → ChCal) : (s.modCal n f).dec = s.dec := rfl
@[simp] theorem State.modCal_tim (s : State) (n : Nat) (f : ChCal → ChCal) : (s.modCal n f).tim = s.tim := rfl
@[simp] theorem State.modCal_timWr (s : State) (n : Nat) (f : ChCal → ChCal) : (s.modCal n f).timWr = s.timWr := rfl
@[simp] theorem State.modCal_brk (s : State) (n : Nat) (f : ChCal → ChCal) : (s.modCal n f).brk = s.brk := rfl
@[simp] theorem State.modCal_bank (s : State) (n : Nat) (f : ChCal → ChCal) : (s.modCal n f).bank = s.bank := rfl
@[simp] theorem State.modCal_mem (s : State) (n : Nat) (f : ChCal → ChCal) : (s.modCal n f).mem = s.mem := rfl
@[simp] theorem State.modCal_ue (s : State) (n : Nat) (f : ChCal → ChCal) : (s.modCal n f).ue = s.ue := rfl
@[simp] theorem State.modCal_dma (s : State) (n : Nat) (f : ChCal → ChCal) : (s.modCal n f).dma = s.dma := rfl
@[simp] theorem State.modCal_noStream (s : State) (n : Nat) (f : ChCal → ChCal) : (s.modCal n f).noStream = s.noStream := rfl
@[simp] theorem State.modCal_posted (s : State) (n : Nat) (f : ChCal → ChCal) : (s.modCal n f).posted = s.posted := rfl
@[simp] theorem State.modCal_mir (s : State) (n : Nat) (f : ChCal → ChCal) : (s.modCal n f).mir = s.mir := rfl
@[simp] theorem State.modCal_pcie (s : State) (n : Nat) (f : ChCal → ChCal) : (s.modCal n f).pcie = s.pcie := rfl
@[simp] theorem State.modCal_env (s : State) (n : Nat) (f : ChCal → ChCal) : (s.modCal n f).env = s.env := rfl
@[simp] theorem State.modCal_st (s : State) (n : Nat) (f : ChCal → ChCal) : (s.modCal n f).st = s.st := rfl
@[simp] theorem State.modCal_mb (s : State) (n : Nat) (f : ChCal → ChCal) : (s.modCal n f).mb = s.mb := rfl
@[simp] theorem State.modCal_goNext (s : State) (n : Nat) (f : ChCal → ChCal) : (s.modCal n f).goNext = s.goNext := rfl
@[simp] theorem State.modCal_qp (s : State) (n : Nat) (f : ChCal → ChCal) : (s.modCal n f).qp = s.qp := rfl
@[simp] theorem State.modCal_grp (s : State) (n : Nat) (f : ChCal → ChCal) : (s.modCal n f).grp = s.grp := rfl
@[simp] theorem State.modCal_ic (s : State) (n : Nat) (f : ChCal → ChCal) : (s.modCal n f).ic = s.ic := rfl
@[simp] theorem State.modCal_err (s : State) (n : Nat) (f : ChCal → ChCal) : (s.modCal n f).err = s.err := rfl
@[simp] theorem State.modCal_perf (s : State) (n : Nat) (f : ChCal → ChCal) : (s.modCal n f).perf = s.perf := rfl
@[simp] theorem State.modCal_sec (s : State) (n : Nat) (f : ChCal → ChCal) : (s.modCal n f).sec = s.sec := rfl
@[simp] theorem State.modCal_tamper (s : State) (n : Nat) (f : ChCal → ChCal) : (s.modCal n f).tamper = s.tamper := rfl
@[simp] theorem State.modCal_pwr (s : State) (n : Nat) (f : ChCal → ChCal) : (s.modCal n f).pwr = s.pwr := rfl
@[simp] theorem State.modCal_rtc (s : State) (n : Nat) (f : ChCal → ChCal) : (s.modCal n f).rtc = s.rtc := rfl
@[simp] theorem State.modCal_deferred (s : State) (n : Nat) (f : ChCal → ChCal) : (s.modCal n f).deferred = s.deferred := rfl
@[simp] theorem State.modCal_lastRead (s : State) (n : Nat) (f : ChCal → ChCal) : (s.modCal n f).lastRead = s.lastRead := rfl
@[simp] theorem State.modCal_freeCnt (s : State) (n : Nat) (f : ChCal → ChCal) : (s.modCal n f).freeCnt = s.freeCnt := rfl

@[simp] theorem State.modOut_pending (s : State) (n : Nat) (f : ChOut → ChOut) : (s.modOut n f).pending = s.pending := rfl
@[simp] theorem State.modOut_tb (s : State) (n : Nat) (f : ChOut → ChOut) : (s.modOut n f).tb = s.tb := rfl
@[simp] theorem State.modOut_ref (s : State) (n : Nat) (f : ChOut → ChOut) : (s.modOut n f).ref = s.ref := rfl
@[simp] theorem State.modOut_pps (s : State) (n : Nat) (f : ChOut → ChOut) : (s.modOut n f).pps = s.pps := rfl
@[simp] theorem State.modOut_bx (s : State) (n : Nat) (f : ChOut → ChOut) : (s.modOut n f).bx = s.bx := rfl
@[simp] theorem State.modOut_cl (s : State) (n : Nat) (f : ChOut → ChOut) : (s.modOut n f).cl = s.cl := rfl
@[simp] theorem State.modOut_slot (s : State) (n : Nat) (f : ChOut → ChOut) : (s.modOut n f).slot = s.slot := rfl
@[simp] theorem State.modOut_dec (s : State) (n : Nat) (f : ChOut → ChOut) : (s.modOut n f).dec = s.dec := rfl
@[simp] theorem State.modOut_tim (s : State) (n : Nat) (f : ChOut → ChOut) : (s.modOut n f).tim = s.tim := rfl
@[simp] theorem State.modOut_timWr (s : State) (n : Nat) (f : ChOut → ChOut) : (s.modOut n f).timWr = s.timWr := rfl
@[simp] theorem State.modOut_brk (s : State) (n : Nat) (f : ChOut → ChOut) : (s.modOut n f).brk = s.brk := rfl
@[simp] theorem State.modOut_bank (s : State) (n : Nat) (f : ChOut → ChOut) : (s.modOut n f).bank = s.bank := rfl
@[simp] theorem State.modOut_mem (s : State) (n : Nat) (f : ChOut → ChOut) : (s.modOut n f).mem = s.mem := rfl
@[simp] theorem State.modOut_ue (s : State) (n : Nat) (f : ChOut → ChOut) : (s.modOut n f).ue = s.ue := rfl
@[simp] theorem State.modOut_dma (s : State) (n : Nat) (f : ChOut → ChOut) : (s.modOut n f).dma = s.dma := rfl
@[simp] theorem State.modOut_noStream (s : State) (n : Nat) (f : ChOut → ChOut) : (s.modOut n f).noStream = s.noStream := rfl
@[simp] theorem State.modOut_posted (s : State) (n : Nat) (f : ChOut → ChOut) : (s.modOut n f).posted = s.posted := rfl
@[simp] theorem State.modOut_mir (s : State) (n : Nat) (f : ChOut → ChOut) : (s.modOut n f).mir = s.mir := rfl
@[simp] theorem State.modOut_pcie (s : State) (n : Nat) (f : ChOut → ChOut) : (s.modOut n f).pcie = s.pcie := rfl
@[simp] theorem State.modOut_env (s : State) (n : Nat) (f : ChOut → ChOut) : (s.modOut n f).env = s.env := rfl
@[simp] theorem State.modOut_st (s : State) (n : Nat) (f : ChOut → ChOut) : (s.modOut n f).st = s.st := rfl
@[simp] theorem State.modOut_mb (s : State) (n : Nat) (f : ChOut → ChOut) : (s.modOut n f).mb = s.mb := rfl
@[simp] theorem State.modOut_goNext (s : State) (n : Nat) (f : ChOut → ChOut) : (s.modOut n f).goNext = s.goNext := rfl
@[simp] theorem State.modOut_qp (s : State) (n : Nat) (f : ChOut → ChOut) : (s.modOut n f).qp = s.qp := rfl
@[simp] theorem State.modOut_grp (s : State) (n : Nat) (f : ChOut → ChOut) : (s.modOut n f).grp = s.grp := rfl
@[simp] theorem State.modOut_ic (s : State) (n : Nat) (f : ChOut → ChOut) : (s.modOut n f).ic = s.ic := rfl
@[simp] theorem State.modOut_err (s : State) (n : Nat) (f : ChOut → ChOut) : (s.modOut n f).err = s.err := rfl
@[simp] theorem State.modOut_perf (s : State) (n : Nat) (f : ChOut → ChOut) : (s.modOut n f).perf = s.perf := rfl
@[simp] theorem State.modOut_sec (s : State) (n : Nat) (f : ChOut → ChOut) : (s.modOut n f).sec = s.sec := rfl
@[simp] theorem State.modOut_tamper (s : State) (n : Nat) (f : ChOut → ChOut) : (s.modOut n f).tamper = s.tamper := rfl
@[simp] theorem State.modOut_pwr (s : State) (n : Nat) (f : ChOut → ChOut) : (s.modOut n f).pwr = s.pwr := rfl
@[simp] theorem State.modOut_rtc (s : State) (n : Nat) (f : ChOut → ChOut) : (s.modOut n f).rtc = s.rtc := rfl
@[simp] theorem State.modOut_deferred (s : State) (n : Nat) (f : ChOut → ChOut) : (s.modOut n f).deferred = s.deferred := rfl
@[simp] theorem State.modOut_lastRead (s : State) (n : Nat) (f : ChOut → ChOut) : (s.modOut n f).lastRead = s.lastRead := rfl
@[simp] theorem State.modOut_freeCnt (s : State) (n : Nat) (f : ChOut → ChOut) : (s.modOut n f).freeCnt = s.freeCnt := rfl

@[simp] theorem State.modPu_pending (s : State) (n : Nat) (f : PatUnit → PatUnit) : (s.modPu n f).pending = s.pending := rfl
@[simp] theorem State.modPu_tb (s : State) (n : Nat) (f : PatUnit → PatUnit) : (s.modPu n f).tb = s.tb := rfl
@[simp] theorem State.modPu_ref (s : State) (n : Nat) (f : PatUnit → PatUnit) : (s.modPu n f).ref = s.ref := rfl
@[simp] theorem State.modPu_pps (s : State) (n : Nat) (f : PatUnit → PatUnit) : (s.modPu n f).pps = s.pps := rfl
@[simp] theorem State.modPu_bx (s : State) (n : Nat) (f : PatUnit → PatUnit) : (s.modPu n f).bx = s.bx := rfl
@[simp] theorem State.modPu_cl (s : State) (n : Nat) (f : PatUnit → PatUnit) : (s.modPu n f).cl = s.cl := rfl
@[simp] theorem State.modPu_slot (s : State) (n : Nat) (f : PatUnit → PatUnit) : (s.modPu n f).slot = s.slot := rfl
@[simp] theorem State.modPu_dec (s : State) (n : Nat) (f : PatUnit → PatUnit) : (s.modPu n f).dec = s.dec := rfl
@[simp] theorem State.modPu_tim (s : State) (n : Nat) (f : PatUnit → PatUnit) : (s.modPu n f).tim = s.tim := rfl
@[simp] theorem State.modPu_timWr (s : State) (n : Nat) (f : PatUnit → PatUnit) : (s.modPu n f).timWr = s.timWr := rfl
@[simp] theorem State.modPu_brk (s : State) (n : Nat) (f : PatUnit → PatUnit) : (s.modPu n f).brk = s.brk := rfl
@[simp] theorem State.modPu_bank (s : State) (n : Nat) (f : PatUnit → PatUnit) : (s.modPu n f).bank = s.bank := rfl
@[simp] theorem State.modPu_mem (s : State) (n : Nat) (f : PatUnit → PatUnit) : (s.modPu n f).mem = s.mem := rfl
@[simp] theorem State.modPu_ue (s : State) (n : Nat) (f : PatUnit → PatUnit) : (s.modPu n f).ue = s.ue := rfl
@[simp] theorem State.modPu_dma (s : State) (n : Nat) (f : PatUnit → PatUnit) : (s.modPu n f).dma = s.dma := rfl
@[simp] theorem State.modPu_noStream (s : State) (n : Nat) (f : PatUnit → PatUnit) : (s.modPu n f).noStream = s.noStream := rfl
@[simp] theorem State.modPu_posted (s : State) (n : Nat) (f : PatUnit → PatUnit) : (s.modPu n f).posted = s.posted := rfl
@[simp] theorem State.modPu_mir (s : State) (n : Nat) (f : PatUnit → PatUnit) : (s.modPu n f).mir = s.mir := rfl
@[simp] theorem State.modPu_pcie (s : State) (n : Nat) (f : PatUnit → PatUnit) : (s.modPu n f).pcie = s.pcie := rfl
@[simp] theorem State.modPu_env (s : State) (n : Nat) (f : PatUnit → PatUnit) : (s.modPu n f).env = s.env := rfl
@[simp] theorem State.modPu_st (s : State) (n : Nat) (f : PatUnit → PatUnit) : (s.modPu n f).st = s.st := rfl
@[simp] theorem State.modPu_mb (s : State) (n : Nat) (f : PatUnit → PatUnit) : (s.modPu n f).mb = s.mb := rfl
@[simp] theorem State.modPu_goNext (s : State) (n : Nat) (f : PatUnit → PatUnit) : (s.modPu n f).goNext = s.goNext := rfl
@[simp] theorem State.modPu_qp (s : State) (n : Nat) (f : PatUnit → PatUnit) : (s.modPu n f).qp = s.qp := rfl
@[simp] theorem State.modPu_grp (s : State) (n : Nat) (f : PatUnit → PatUnit) : (s.modPu n f).grp = s.grp := rfl
@[simp] theorem State.modPu_ic (s : State) (n : Nat) (f : PatUnit → PatUnit) : (s.modPu n f).ic = s.ic := rfl
@[simp] theorem State.modPu_err (s : State) (n : Nat) (f : PatUnit → PatUnit) : (s.modPu n f).err = s.err := rfl
@[simp] theorem State.modPu_perf (s : State) (n : Nat) (f : PatUnit → PatUnit) : (s.modPu n f).perf = s.perf := rfl
@[simp] theorem State.modPu_sec (s : State) (n : Nat) (f : PatUnit → PatUnit) : (s.modPu n f).sec = s.sec := rfl
@[simp] theorem State.modPu_tamper (s : State) (n : Nat) (f : PatUnit → PatUnit) : (s.modPu n f).tamper = s.tamper := rfl
@[simp] theorem State.modPu_pwr (s : State) (n : Nat) (f : PatUnit → PatUnit) : (s.modPu n f).pwr = s.pwr := rfl
@[simp] theorem State.modPu_rtc (s : State) (n : Nat) (f : PatUnit → PatUnit) : (s.modPu n f).rtc = s.rtc := rfl
@[simp] theorem State.modPu_deferred (s : State) (n : Nat) (f : PatUnit → PatUnit) : (s.modPu n f).deferred = s.deferred := rfl
@[simp] theorem State.modPu_lastRead (s : State) (n : Nat) (f : PatUnit → PatUnit) : (s.modPu n f).lastRead = s.lastRead := rfl
@[simp] theorem State.modPu_freeCnt (s : State) (n : Nat) (f : PatUnit → PatUnit) : (s.modPu n f).freeCnt = s.freeCnt := rfl

@[simp] theorem State.modPr_pending (s : State) (n : Nat) (f : ChPair → ChPair) : (s.modPr n f).pending = s.pending := rfl
@[simp] theorem State.modPr_tb (s : State) (n : Nat) (f : ChPair → ChPair) : (s.modPr n f).tb = s.tb := rfl
@[simp] theorem State.modPr_ref (s : State) (n : Nat) (f : ChPair → ChPair) : (s.modPr n f).ref = s.ref := rfl
@[simp] theorem State.modPr_pps (s : State) (n : Nat) (f : ChPair → ChPair) : (s.modPr n f).pps = s.pps := rfl
@[simp] theorem State.modPr_bx (s : State) (n : Nat) (f : ChPair → ChPair) : (s.modPr n f).bx = s.bx := rfl
@[simp] theorem State.modPr_cl (s : State) (n : Nat) (f : ChPair → ChPair) : (s.modPr n f).cl = s.cl := rfl
@[simp] theorem State.modPr_slot (s : State) (n : Nat) (f : ChPair → ChPair) : (s.modPr n f).slot = s.slot := rfl
@[simp] theorem State.modPr_dec (s : State) (n : Nat) (f : ChPair → ChPair) : (s.modPr n f).dec = s.dec := rfl
@[simp] theorem State.modPr_tim (s : State) (n : Nat) (f : ChPair → ChPair) : (s.modPr n f).tim = s.tim := rfl
@[simp] theorem State.modPr_timWr (s : State) (n : Nat) (f : ChPair → ChPair) : (s.modPr n f).timWr = s.timWr := rfl
@[simp] theorem State.modPr_brk (s : State) (n : Nat) (f : ChPair → ChPair) : (s.modPr n f).brk = s.brk := rfl
@[simp] theorem State.modPr_bank (s : State) (n : Nat) (f : ChPair → ChPair) : (s.modPr n f).bank = s.bank := rfl
@[simp] theorem State.modPr_mem (s : State) (n : Nat) (f : ChPair → ChPair) : (s.modPr n f).mem = s.mem := rfl
@[simp] theorem State.modPr_ue (s : State) (n : Nat) (f : ChPair → ChPair) : (s.modPr n f).ue = s.ue := rfl
@[simp] theorem State.modPr_dma (s : State) (n : Nat) (f : ChPair → ChPair) : (s.modPr n f).dma = s.dma := rfl
@[simp] theorem State.modPr_noStream (s : State) (n : Nat) (f : ChPair → ChPair) : (s.modPr n f).noStream = s.noStream := rfl
@[simp] theorem State.modPr_posted (s : State) (n : Nat) (f : ChPair → ChPair) : (s.modPr n f).posted = s.posted := rfl
@[simp] theorem State.modPr_mir (s : State) (n : Nat) (f : ChPair → ChPair) : (s.modPr n f).mir = s.mir := rfl
@[simp] theorem State.modPr_pcie (s : State) (n : Nat) (f : ChPair → ChPair) : (s.modPr n f).pcie = s.pcie := rfl
@[simp] theorem State.modPr_env (s : State) (n : Nat) (f : ChPair → ChPair) : (s.modPr n f).env = s.env := rfl
@[simp] theorem State.modPr_st (s : State) (n : Nat) (f : ChPair → ChPair) : (s.modPr n f).st = s.st := rfl
@[simp] theorem State.modPr_mb (s : State) (n : Nat) (f : ChPair → ChPair) : (s.modPr n f).mb = s.mb := rfl
@[simp] theorem State.modPr_goNext (s : State) (n : Nat) (f : ChPair → ChPair) : (s.modPr n f).goNext = s.goNext := rfl
@[simp] theorem State.modPr_qp (s : State) (n : Nat) (f : ChPair → ChPair) : (s.modPr n f).qp = s.qp := rfl
@[simp] theorem State.modPr_grp (s : State) (n : Nat) (f : ChPair → ChPair) : (s.modPr n f).grp = s.grp := rfl
@[simp] theorem State.modPr_ic (s : State) (n : Nat) (f : ChPair → ChPair) : (s.modPr n f).ic = s.ic := rfl
@[simp] theorem State.modPr_err (s : State) (n : Nat) (f : ChPair → ChPair) : (s.modPr n f).err = s.err := rfl
@[simp] theorem State.modPr_perf (s : State) (n : Nat) (f : ChPair → ChPair) : (s.modPr n f).perf = s.perf := rfl
@[simp] theorem State.modPr_sec (s : State) (n : Nat) (f : ChPair → ChPair) : (s.modPr n f).sec = s.sec := rfl
@[simp] theorem State.modPr_tamper (s : State) (n : Nat) (f : ChPair → ChPair) : (s.modPr n f).tamper = s.tamper := rfl
@[simp] theorem State.modPr_pwr (s : State) (n : Nat) (f : ChPair → ChPair) : (s.modPr n f).pwr = s.pwr := rfl
@[simp] theorem State.modPr_rtc (s : State) (n : Nat) (f : ChPair → ChPair) : (s.modPr n f).rtc = s.rtc := rfl
@[simp] theorem State.modPr_deferred (s : State) (n : Nat) (f : ChPair → ChPair) : (s.modPr n f).deferred = s.deferred := rfl
@[simp] theorem State.modPr_lastRead (s : State) (n : Nat) (f : ChPair → ChPair) : (s.modPr n f).lastRead = s.lastRead := rfl
@[simp] theorem State.modPr_freeCnt (s : State) (n : Nat) (f : ChPair → ChPair) : (s.modPr n f).freeCnt = s.freeCnt := rfl

@[simp] theorem State.modCl_pending (s : State) (c : Nat) (f : Cluster → Cluster) : (s.modCl c f).pending = s.pending := rfl
@[simp] theorem State.modCl_tb (s : State) (c : Nat) (f : Cluster → Cluster) : (s.modCl c f).tb = s.tb := rfl
@[simp] theorem State.modCl_ref (s : State) (c : Nat) (f : Cluster → Cluster) : (s.modCl c f).ref = s.ref := rfl
@[simp] theorem State.modCl_pps (s : State) (c : Nat) (f : Cluster → Cluster) : (s.modCl c f).pps = s.pps := rfl
@[simp] theorem State.modCl_bx (s : State) (c : Nat) (f : Cluster → Cluster) : (s.modCl c f).bx = s.bx := rfl
@[simp] theorem State.modCl_ch (s : State) (c : Nat) (f : Cluster → Cluster) : (s.modCl c f).ch = s.ch := rfl
@[simp] theorem State.modCl_slot (s : State) (c : Nat) (f : Cluster → Cluster) : (s.modCl c f).slot = s.slot := rfl
@[simp] theorem State.modCl_dec (s : State) (c : Nat) (f : Cluster → Cluster) : (s.modCl c f).dec = s.dec := rfl
@[simp] theorem State.modCl_tim (s : State) (c : Nat) (f : Cluster → Cluster) : (s.modCl c f).tim = s.tim := rfl
@[simp] theorem State.modCl_timWr (s : State) (c : Nat) (f : Cluster → Cluster) : (s.modCl c f).timWr = s.timWr := rfl
@[simp] theorem State.modCl_brk (s : State) (c : Nat) (f : Cluster → Cluster) : (s.modCl c f).brk = s.brk := rfl
@[simp] theorem State.modCl_bank (s : State) (c : Nat) (f : Cluster → Cluster) : (s.modCl c f).bank = s.bank := rfl
@[simp] theorem State.modCl_mem (s : State) (c : Nat) (f : Cluster → Cluster) : (s.modCl c f).mem = s.mem := rfl
@[simp] theorem State.modCl_ue (s : State) (c : Nat) (f : Cluster → Cluster) : (s.modCl c f).ue = s.ue := rfl
@[simp] theorem State.modCl_dma (s : State) (c : Nat) (f : Cluster → Cluster) : (s.modCl c f).dma = s.dma := rfl
@[simp] theorem State.modCl_noStream (s : State) (c : Nat) (f : Cluster → Cluster) : (s.modCl c f).noStream = s.noStream := rfl
@[simp] theorem State.modCl_posted (s : State) (c : Nat) (f : Cluster → Cluster) : (s.modCl c f).posted = s.posted := rfl
@[simp] theorem State.modCl_mir (s : State) (c : Nat) (f : Cluster → Cluster) : (s.modCl c f).mir = s.mir := rfl
@[simp] theorem State.modCl_pcie (s : State) (c : Nat) (f : Cluster → Cluster) : (s.modCl c f).pcie = s.pcie := rfl
@[simp] theorem State.modCl_env (s : State) (c : Nat) (f : Cluster → Cluster) : (s.modCl c f).env = s.env := rfl
@[simp] theorem State.modCl_st (s : State) (c : Nat) (f : Cluster → Cluster) : (s.modCl c f).st = s.st := rfl
@[simp] theorem State.modCl_mb (s : State) (c : Nat) (f : Cluster → Cluster) : (s.modCl c f).mb = s.mb := rfl
@[simp] theorem State.modCl_goNext (s : State) (c : Nat) (f : Cluster → Cluster) : (s.modCl c f).goNext = s.goNext := rfl
@[simp] theorem State.modCl_qp (s : State) (c : Nat) (f : Cluster → Cluster) : (s.modCl c f).qp = s.qp := rfl
@[simp] theorem State.modCl_grp (s : State) (c : Nat) (f : Cluster → Cluster) : (s.modCl c f).grp = s.grp := rfl
@[simp] theorem State.modCl_ic (s : State) (c : Nat) (f : Cluster → Cluster) : (s.modCl c f).ic = s.ic := rfl
@[simp] theorem State.modCl_err (s : State) (c : Nat) (f : Cluster → Cluster) : (s.modCl c f).err = s.err := rfl
@[simp] theorem State.modCl_perf (s : State) (c : Nat) (f : Cluster → Cluster) : (s.modCl c f).perf = s.perf := rfl
@[simp] theorem State.modCl_sec (s : State) (c : Nat) (f : Cluster → Cluster) : (s.modCl c f).sec = s.sec := rfl
@[simp] theorem State.modCl_tamper (s : State) (c : Nat) (f : Cluster → Cluster) : (s.modCl c f).tamper = s.tamper := rfl
@[simp] theorem State.modCl_pwr (s : State) (c : Nat) (f : Cluster → Cluster) : (s.modCl c f).pwr = s.pwr := rfl
@[simp] theorem State.modCl_rtc (s : State) (c : Nat) (f : Cluster → Cluster) : (s.modCl c f).rtc = s.rtc := rfl
@[simp] theorem State.modCl_deferred (s : State) (c : Nat) (f : Cluster → Cluster) : (s.modCl c f).deferred = s.deferred := rfl
@[simp] theorem State.modCl_lastRead (s : State) (c : Nat) (f : Cluster → Cluster) : (s.modCl c f).lastRead = s.lastRead := rfl
@[simp] theorem State.modCl_freeCnt (s : State) (c : Nat) (f : Cluster → Cluster) : (s.modCl c f).freeCnt = s.freeCnt := rfl

@[simp] theorem State.modMe_pending (s : State) (c : Nat) (f : Microengine → Microengine) : (s.modMe c f).pending = s.pending := rfl
@[simp] theorem State.modMe_tb (s : State) (c : Nat) (f : Microengine → Microengine) : (s.modMe c f).tb = s.tb := rfl
@[simp] theorem State.modMe_ref (s : State) (c : Nat) (f : Microengine → Microengine) : (s.modMe c f).ref = s.ref := rfl
@[simp] theorem State.modMe_pps (s : State) (c : Nat) (f : Microengine → Microengine) : (s.modMe c f).pps = s.pps := rfl
@[simp] theorem State.modMe_bx (s : State) (c : Nat) (f : Microengine → Microengine) : (s.modMe c f).bx = s.bx := rfl
@[simp] theorem State.modMe_ch (s : State) (c : Nat) (f : Microengine → Microengine) : (s.modMe c f).ch = s.ch := rfl
@[simp] theorem State.modMe_slot (s : State) (c : Nat) (f : Microengine → Microengine) : (s.modMe c f).slot = s.slot := rfl
@[simp] theorem State.modMe_dec (s : State) (c : Nat) (f : Microengine → Microengine) : (s.modMe c f).dec = s.dec := rfl
@[simp] theorem State.modMe_tim (s : State) (c : Nat) (f : Microengine → Microengine) : (s.modMe c f).tim = s.tim := rfl
@[simp] theorem State.modMe_timWr (s : State) (c : Nat) (f : Microengine → Microengine) : (s.modMe c f).timWr = s.timWr := rfl
@[simp] theorem State.modMe_brk (s : State) (c : Nat) (f : Microengine → Microengine) : (s.modMe c f).brk = s.brk := rfl
@[simp] theorem State.modMe_bank (s : State) (c : Nat) (f : Microengine → Microengine) : (s.modMe c f).bank = s.bank := rfl
@[simp] theorem State.modMe_mem (s : State) (c : Nat) (f : Microengine → Microengine) : (s.modMe c f).mem = s.mem := rfl
@[simp] theorem State.modMe_ue (s : State) (c : Nat) (f : Microengine → Microengine) : (s.modMe c f).ue = s.ue := rfl
@[simp] theorem State.modMe_dma (s : State) (c : Nat) (f : Microengine → Microengine) : (s.modMe c f).dma = s.dma := rfl
@[simp] theorem State.modMe_noStream (s : State) (c : Nat) (f : Microengine → Microengine) : (s.modMe c f).noStream = s.noStream := rfl
@[simp] theorem State.modMe_posted (s : State) (c : Nat) (f : Microengine → Microengine) : (s.modMe c f).posted = s.posted := rfl
@[simp] theorem State.modMe_mir (s : State) (c : Nat) (f : Microengine → Microengine) : (s.modMe c f).mir = s.mir := rfl
@[simp] theorem State.modMe_pcie (s : State) (c : Nat) (f : Microengine → Microengine) : (s.modMe c f).pcie = s.pcie := rfl
@[simp] theorem State.modMe_env (s : State) (c : Nat) (f : Microengine → Microengine) : (s.modMe c f).env = s.env := rfl
@[simp] theorem State.modMe_st (s : State) (c : Nat) (f : Microengine → Microengine) : (s.modMe c f).st = s.st := rfl
@[simp] theorem State.modMe_mb (s : State) (c : Nat) (f : Microengine → Microengine) : (s.modMe c f).mb = s.mb := rfl
@[simp] theorem State.modMe_goNext (s : State) (c : Nat) (f : Microengine → Microengine) : (s.modMe c f).goNext = s.goNext := rfl
@[simp] theorem State.modMe_qp (s : State) (c : Nat) (f : Microengine → Microengine) : (s.modMe c f).qp = s.qp := rfl
@[simp] theorem State.modMe_grp (s : State) (c : Nat) (f : Microengine → Microengine) : (s.modMe c f).grp = s.grp := rfl
@[simp] theorem State.modMe_ic (s : State) (c : Nat) (f : Microengine → Microengine) : (s.modMe c f).ic = s.ic := rfl
@[simp] theorem State.modMe_err (s : State) (c : Nat) (f : Microengine → Microengine) : (s.modMe c f).err = s.err := rfl
@[simp] theorem State.modMe_perf (s : State) (c : Nat) (f : Microengine → Microengine) : (s.modMe c f).perf = s.perf := rfl
@[simp] theorem State.modMe_sec (s : State) (c : Nat) (f : Microengine → Microengine) : (s.modMe c f).sec = s.sec := rfl
@[simp] theorem State.modMe_tamper (s : State) (c : Nat) (f : Microengine → Microengine) : (s.modMe c f).tamper = s.tamper := rfl
@[simp] theorem State.modMe_pwr (s : State) (c : Nat) (f : Microengine → Microengine) : (s.modMe c f).pwr = s.pwr := rfl
@[simp] theorem State.modMe_rtc (s : State) (c : Nat) (f : Microengine → Microengine) : (s.modMe c f).rtc = s.rtc := rfl
@[simp] theorem State.modMe_deferred (s : State) (c : Nat) (f : Microengine → Microengine) : (s.modMe c f).deferred = s.deferred := rfl
@[simp] theorem State.modMe_lastRead (s : State) (c : Nat) (f : Microengine → Microengine) : (s.modMe c f).lastRead = s.lastRead := rfl
@[simp] theorem State.modMe_freeCnt (s : State) (c : Nat) (f : Microengine → Microengine) : (s.modMe c f).freeCnt = s.freeCnt := rfl

@[simp] theorem State.modSch_pending (s : State) (c : Nat) (f : Sched → Sched) : (s.modSch c f).pending = s.pending := rfl
@[simp] theorem State.modSch_tb (s : State) (c : Nat) (f : Sched → Sched) : (s.modSch c f).tb = s.tb := rfl
@[simp] theorem State.modSch_ref (s : State) (c : Nat) (f : Sched → Sched) : (s.modSch c f).ref = s.ref := rfl
@[simp] theorem State.modSch_pps (s : State) (c : Nat) (f : Sched → Sched) : (s.modSch c f).pps = s.pps := rfl
@[simp] theorem State.modSch_bx (s : State) (c : Nat) (f : Sched → Sched) : (s.modSch c f).bx = s.bx := rfl
@[simp] theorem State.modSch_ch (s : State) (c : Nat) (f : Sched → Sched) : (s.modSch c f).ch = s.ch := rfl
@[simp] theorem State.modSch_slot (s : State) (c : Nat) (f : Sched → Sched) : (s.modSch c f).slot = s.slot := rfl
@[simp] theorem State.modSch_dec (s : State) (c : Nat) (f : Sched → Sched) : (s.modSch c f).dec = s.dec := rfl
@[simp] theorem State.modSch_tim (s : State) (c : Nat) (f : Sched → Sched) : (s.modSch c f).tim = s.tim := rfl
@[simp] theorem State.modSch_timWr (s : State) (c : Nat) (f : Sched → Sched) : (s.modSch c f).timWr = s.timWr := rfl
@[simp] theorem State.modSch_brk (s : State) (c : Nat) (f : Sched → Sched) : (s.modSch c f).brk = s.brk := rfl
@[simp] theorem State.modSch_bank (s : State) (c : Nat) (f : Sched → Sched) : (s.modSch c f).bank = s.bank := rfl
@[simp] theorem State.modSch_mem (s : State) (c : Nat) (f : Sched → Sched) : (s.modSch c f).mem = s.mem := rfl
@[simp] theorem State.modSch_ue (s : State) (c : Nat) (f : Sched → Sched) : (s.modSch c f).ue = s.ue := rfl
@[simp] theorem State.modSch_dma (s : State) (c : Nat) (f : Sched → Sched) : (s.modSch c f).dma = s.dma := rfl
@[simp] theorem State.modSch_noStream (s : State) (c : Nat) (f : Sched → Sched) : (s.modSch c f).noStream = s.noStream := rfl
@[simp] theorem State.modSch_posted (s : State) (c : Nat) (f : Sched → Sched) : (s.modSch c f).posted = s.posted := rfl
@[simp] theorem State.modSch_mir (s : State) (c : Nat) (f : Sched → Sched) : (s.modSch c f).mir = s.mir := rfl
@[simp] theorem State.modSch_pcie (s : State) (c : Nat) (f : Sched → Sched) : (s.modSch c f).pcie = s.pcie := rfl
@[simp] theorem State.modSch_env (s : State) (c : Nat) (f : Sched → Sched) : (s.modSch c f).env = s.env := rfl
@[simp] theorem State.modSch_st (s : State) (c : Nat) (f : Sched → Sched) : (s.modSch c f).st = s.st := rfl
@[simp] theorem State.modSch_mb (s : State) (c : Nat) (f : Sched → Sched) : (s.modSch c f).mb = s.mb := rfl
@[simp] theorem State.modSch_goNext (s : State) (c : Nat) (f : Sched → Sched) : (s.modSch c f).goNext = s.goNext := rfl
@[simp] theorem State.modSch_qp (s : State) (c : Nat) (f : Sched → Sched) : (s.modSch c f).qp = s.qp := rfl
@[simp] theorem State.modSch_grp (s : State) (c : Nat) (f : Sched → Sched) : (s.modSch c f).grp = s.grp := rfl
@[simp] theorem State.modSch_ic (s : State) (c : Nat) (f : Sched → Sched) : (s.modSch c f).ic = s.ic := rfl
@[simp] theorem State.modSch_err (s : State) (c : Nat) (f : Sched → Sched) : (s.modSch c f).err = s.err := rfl
@[simp] theorem State.modSch_perf (s : State) (c : Nat) (f : Sched → Sched) : (s.modSch c f).perf = s.perf := rfl
@[simp] theorem State.modSch_sec (s : State) (c : Nat) (f : Sched → Sched) : (s.modSch c f).sec = s.sec := rfl
@[simp] theorem State.modSch_tamper (s : State) (c : Nat) (f : Sched → Sched) : (s.modSch c f).tamper = s.tamper := rfl
@[simp] theorem State.modSch_pwr (s : State) (c : Nat) (f : Sched → Sched) : (s.modSch c f).pwr = s.pwr := rfl
@[simp] theorem State.modSch_rtc (s : State) (c : Nat) (f : Sched → Sched) : (s.modSch c f).rtc = s.rtc := rfl
@[simp] theorem State.modSch_deferred (s : State) (c : Nat) (f : Sched → Sched) : (s.modSch c f).deferred = s.deferred := rfl
@[simp] theorem State.modSch_lastRead (s : State) (c : Nat) (f : Sched → Sched) : (s.modSch c f).lastRead = s.lastRead := rfl
@[simp] theorem State.modSch_freeCnt (s : State) (c : Nat) (f : Sched → Sched) : (s.modSch c f).freeCnt = s.freeCnt := rfl

@[simp] theorem State.modTask_pending (s : State) (c t : Nat) (f : Task → Task) : (s.modTask c t f).pending = s.pending := rfl
@[simp] theorem State.modTask_tb (s : State) (c t : Nat) (f : Task → Task) : (s.modTask c t f).tb = s.tb := rfl
@[simp] theorem State.modTask_ref (s : State) (c t : Nat) (f : Task → Task) : (s.modTask c t f).ref = s.ref := rfl
@[simp] theorem State.modTask_pps (s : State) (c t : Nat) (f : Task → Task) : (s.modTask c t f).pps = s.pps := rfl
@[simp] theorem State.modTask_bx (s : State) (c t : Nat) (f : Task → Task) : (s.modTask c t f).bx = s.bx := rfl
@[simp] theorem State.modTask_ch (s : State) (c t : Nat) (f : Task → Task) : (s.modTask c t f).ch = s.ch := rfl
@[simp] theorem State.modTask_slot (s : State) (c t : Nat) (f : Task → Task) : (s.modTask c t f).slot = s.slot := rfl
@[simp] theorem State.modTask_dec (s : State) (c t : Nat) (f : Task → Task) : (s.modTask c t f).dec = s.dec := rfl
@[simp] theorem State.modTask_tim (s : State) (c t : Nat) (f : Task → Task) : (s.modTask c t f).tim = s.tim := rfl
@[simp] theorem State.modTask_timWr (s : State) (c t : Nat) (f : Task → Task) : (s.modTask c t f).timWr = s.timWr := rfl
@[simp] theorem State.modTask_brk (s : State) (c t : Nat) (f : Task → Task) : (s.modTask c t f).brk = s.brk := rfl
@[simp] theorem State.modTask_bank (s : State) (c t : Nat) (f : Task → Task) : (s.modTask c t f).bank = s.bank := rfl
@[simp] theorem State.modTask_mem (s : State) (c t : Nat) (f : Task → Task) : (s.modTask c t f).mem = s.mem := rfl
@[simp] theorem State.modTask_ue (s : State) (c t : Nat) (f : Task → Task) : (s.modTask c t f).ue = s.ue := rfl
@[simp] theorem State.modTask_dma (s : State) (c t : Nat) (f : Task → Task) : (s.modTask c t f).dma = s.dma := rfl
@[simp] theorem State.modTask_noStream (s : State) (c t : Nat) (f : Task → Task) : (s.modTask c t f).noStream = s.noStream := rfl
@[simp] theorem State.modTask_posted (s : State) (c t : Nat) (f : Task → Task) : (s.modTask c t f).posted = s.posted := rfl
@[simp] theorem State.modTask_mir (s : State) (c t : Nat) (f : Task → Task) : (s.modTask c t f).mir = s.mir := rfl
@[simp] theorem State.modTask_pcie (s : State) (c t : Nat) (f : Task → Task) : (s.modTask c t f).pcie = s.pcie := rfl
@[simp] theorem State.modTask_env (s : State) (c t : Nat) (f : Task → Task) : (s.modTask c t f).env = s.env := rfl
@[simp] theorem State.modTask_st (s : State) (c t : Nat) (f : Task → Task) : (s.modTask c t f).st = s.st := rfl
@[simp] theorem State.modTask_mb (s : State) (c t : Nat) (f : Task → Task) : (s.modTask c t f).mb = s.mb := rfl
@[simp] theorem State.modTask_goNext (s : State) (c t : Nat) (f : Task → Task) : (s.modTask c t f).goNext = s.goNext := rfl
@[simp] theorem State.modTask_qp (s : State) (c t : Nat) (f : Task → Task) : (s.modTask c t f).qp = s.qp := rfl
@[simp] theorem State.modTask_grp (s : State) (c t : Nat) (f : Task → Task) : (s.modTask c t f).grp = s.grp := rfl
@[simp] theorem State.modTask_ic (s : State) (c t : Nat) (f : Task → Task) : (s.modTask c t f).ic = s.ic := rfl
@[simp] theorem State.modTask_err (s : State) (c t : Nat) (f : Task → Task) : (s.modTask c t f).err = s.err := rfl
@[simp] theorem State.modTask_perf (s : State) (c t : Nat) (f : Task → Task) : (s.modTask c t f).perf = s.perf := rfl
@[simp] theorem State.modTask_sec (s : State) (c t : Nat) (f : Task → Task) : (s.modTask c t f).sec = s.sec := rfl
@[simp] theorem State.modTask_tamper (s : State) (c t : Nat) (f : Task → Task) : (s.modTask c t f).tamper = s.tamper := rfl
@[simp] theorem State.modTask_pwr (s : State) (c t : Nat) (f : Task → Task) : (s.modTask c t f).pwr = s.pwr := rfl
@[simp] theorem State.modTask_rtc (s : State) (c t : Nat) (f : Task → Task) : (s.modTask c t f).rtc = s.rtc := rfl
@[simp] theorem State.modTask_deferred (s : State) (c t : Nat) (f : Task → Task) : (s.modTask c t f).deferred = s.deferred := rfl
@[simp] theorem State.modTask_lastRead (s : State) (c t : Nat) (f : Task → Task) : (s.modTask c t f).lastRead = s.lastRead := rfl
@[simp] theorem State.modTask_freeCnt (s : State) (c t : Nat) (f : Task → Task) : (s.modTask c t f).freeCnt = s.freeCnt := rfl

@[simp] theorem State.modSlot_pending (s : State) (k : Nat) (f : Slot → Slot) : (s.modSlot k f).pending = s.pending := rfl
@[simp] theorem State.modSlot_tb (s : State) (k : Nat) (f : Slot → Slot) : (s.modSlot k f).tb = s.tb := rfl
@[simp] theorem State.modSlot_ref (s : State) (k : Nat) (f : Slot → Slot) : (s.modSlot k f).ref = s.ref := rfl
@[simp] theorem State.modSlot_pps (s : State) (k : Nat) (f : Slot → Slot) : (s.modSlot k f).pps = s.pps := rfl
@[simp] theorem State.modSlot_bx (s : State) (k : Nat) (f : Slot → Slot) : (s.modSlot k f).bx = s.bx := rfl
@[simp] theorem State.modSlot_ch (s : State) (k : Nat) (f : Slot → Slot) : (s.modSlot k f).ch = s.ch := rfl
@[simp] theorem State.modSlot_cl (s : State) (k : Nat) (f : Slot → Slot) : (s.modSlot k f).cl = s.cl := rfl
@[simp] theorem State.modSlot_dec (s : State) (k : Nat) (f : Slot → Slot) : (s.modSlot k f).dec = s.dec := rfl
@[simp] theorem State.modSlot_tim (s : State) (k : Nat) (f : Slot → Slot) : (s.modSlot k f).tim = s.tim := rfl
@[simp] theorem State.modSlot_timWr (s : State) (k : Nat) (f : Slot → Slot) : (s.modSlot k f).timWr = s.timWr := rfl
@[simp] theorem State.modSlot_brk (s : State) (k : Nat) (f : Slot → Slot) : (s.modSlot k f).brk = s.brk := rfl
@[simp] theorem State.modSlot_bank (s : State) (k : Nat) (f : Slot → Slot) : (s.modSlot k f).bank = s.bank := rfl
@[simp] theorem State.modSlot_mem (s : State) (k : Nat) (f : Slot → Slot) : (s.modSlot k f).mem = s.mem := rfl
@[simp] theorem State.modSlot_ue (s : State) (k : Nat) (f : Slot → Slot) : (s.modSlot k f).ue = s.ue := rfl
@[simp] theorem State.modSlot_dma (s : State) (k : Nat) (f : Slot → Slot) : (s.modSlot k f).dma = s.dma := rfl
@[simp] theorem State.modSlot_noStream (s : State) (k : Nat) (f : Slot → Slot) : (s.modSlot k f).noStream = s.noStream := rfl
@[simp] theorem State.modSlot_posted (s : State) (k : Nat) (f : Slot → Slot) : (s.modSlot k f).posted = s.posted := rfl
@[simp] theorem State.modSlot_mir (s : State) (k : Nat) (f : Slot → Slot) : (s.modSlot k f).mir = s.mir := rfl
@[simp] theorem State.modSlot_pcie (s : State) (k : Nat) (f : Slot → Slot) : (s.modSlot k f).pcie = s.pcie := rfl
@[simp] theorem State.modSlot_env (s : State) (k : Nat) (f : Slot → Slot) : (s.modSlot k f).env = s.env := rfl
@[simp] theorem State.modSlot_st (s : State) (k : Nat) (f : Slot → Slot) : (s.modSlot k f).st = s.st := rfl
@[simp] theorem State.modSlot_mb (s : State) (k : Nat) (f : Slot → Slot) : (s.modSlot k f).mb = s.mb := rfl
@[simp] theorem State.modSlot_goNext (s : State) (k : Nat) (f : Slot → Slot) : (s.modSlot k f).goNext = s.goNext := rfl
@[simp] theorem State.modSlot_qp (s : State) (k : Nat) (f : Slot → Slot) : (s.modSlot k f).qp = s.qp := rfl
@[simp] theorem State.modSlot_grp (s : State) (k : Nat) (f : Slot → Slot) : (s.modSlot k f).grp = s.grp := rfl
@[simp] theorem State.modSlot_ic (s : State) (k : Nat) (f : Slot → Slot) : (s.modSlot k f).ic = s.ic := rfl
@[simp] theorem State.modSlot_err (s : State) (k : Nat) (f : Slot → Slot) : (s.modSlot k f).err = s.err := rfl
@[simp] theorem State.modSlot_perf (s : State) (k : Nat) (f : Slot → Slot) : (s.modSlot k f).perf = s.perf := rfl
@[simp] theorem State.modSlot_sec (s : State) (k : Nat) (f : Slot → Slot) : (s.modSlot k f).sec = s.sec := rfl
@[simp] theorem State.modSlot_tamper (s : State) (k : Nat) (f : Slot → Slot) : (s.modSlot k f).tamper = s.tamper := rfl
@[simp] theorem State.modSlot_pwr (s : State) (k : Nat) (f : Slot → Slot) : (s.modSlot k f).pwr = s.pwr := rfl
@[simp] theorem State.modSlot_rtc (s : State) (k : Nat) (f : Slot → Slot) : (s.modSlot k f).rtc = s.rtc := rfl
@[simp] theorem State.modSlot_deferred (s : State) (k : Nat) (f : Slot → Slot) : (s.modSlot k f).deferred = s.deferred := rfl
@[simp] theorem State.modSlot_lastRead (s : State) (k : Nat) (f : Slot → Slot) : (s.modSlot k f).lastRead = s.lastRead := rfl
@[simp] theorem State.modSlot_freeCnt (s : State) (k : Nat) (f : Slot → Slot) : (s.modSlot k f).freeCnt = s.freeCnt := rfl

@[simp] theorem State.modDec_pending (s : State) (d : Nat) (f : Decoder → Decoder) : (s.modDec d f).pending = s.pending := rfl
@[simp] theorem State.modDec_tb (s : State) (d : Nat) (f : Decoder → Decoder) : (s.modDec d f).tb = s.tb := rfl
@[simp] theorem State.modDec_ref (s : State) (d : Nat) (f : Decoder → Decoder) : (s.modDec d f).ref = s.ref := rfl
@[simp] theorem State.modDec_pps (s : State) (d : Nat) (f : Decoder → Decoder) : (s.modDec d f).pps = s.pps := rfl
@[simp] theorem State.modDec_bx (s : State) (d : Nat) (f : Decoder → Decoder) : (s.modDec d f).bx = s.bx := rfl
@[simp] theorem State.modDec_ch (s : State) (d : Nat) (f : Decoder → Decoder) : (s.modDec d f).ch = s.ch := rfl
@[simp] theorem State.modDec_cl (s : State) (d : Nat) (f : Decoder → Decoder) : (s.modDec d f).cl = s.cl := rfl
@[simp] theorem State.modDec_slot (s : State) (d : Nat) (f : Decoder → Decoder) : (s.modDec d f).slot = s.slot := rfl
@[simp] theorem State.modDec_tim (s : State) (d : Nat) (f : Decoder → Decoder) : (s.modDec d f).tim = s.tim := rfl
@[simp] theorem State.modDec_timWr (s : State) (d : Nat) (f : Decoder → Decoder) : (s.modDec d f).timWr = s.timWr := rfl
@[simp] theorem State.modDec_brk (s : State) (d : Nat) (f : Decoder → Decoder) : (s.modDec d f).brk = s.brk := rfl
@[simp] theorem State.modDec_bank (s : State) (d : Nat) (f : Decoder → Decoder) : (s.modDec d f).bank = s.bank := rfl
@[simp] theorem State.modDec_mem (s : State) (d : Nat) (f : Decoder → Decoder) : (s.modDec d f).mem = s.mem := rfl
@[simp] theorem State.modDec_ue (s : State) (d : Nat) (f : Decoder → Decoder) : (s.modDec d f).ue = s.ue := rfl
@[simp] theorem State.modDec_dma (s : State) (d : Nat) (f : Decoder → Decoder) : (s.modDec d f).dma = s.dma := rfl
@[simp] theorem State.modDec_noStream (s : State) (d : Nat) (f : Decoder → Decoder) : (s.modDec d f).noStream = s.noStream := rfl
@[simp] theorem State.modDec_posted (s : State) (d : Nat) (f : Decoder → Decoder) : (s.modDec d f).posted = s.posted := rfl
@[simp] theorem State.modDec_mir (s : State) (d : Nat) (f : Decoder → Decoder) : (s.modDec d f).mir = s.mir := rfl
@[simp] theorem State.modDec_pcie (s : State) (d : Nat) (f : Decoder → Decoder) : (s.modDec d f).pcie = s.pcie := rfl
@[simp] theorem State.modDec_env (s : State) (d : Nat) (f : Decoder → Decoder) : (s.modDec d f).env = s.env := rfl
@[simp] theorem State.modDec_st (s : State) (d : Nat) (f : Decoder → Decoder) : (s.modDec d f).st = s.st := rfl
@[simp] theorem State.modDec_mb (s : State) (d : Nat) (f : Decoder → Decoder) : (s.modDec d f).mb = s.mb := rfl
@[simp] theorem State.modDec_goNext (s : State) (d : Nat) (f : Decoder → Decoder) : (s.modDec d f).goNext = s.goNext := rfl
@[simp] theorem State.modDec_qp (s : State) (d : Nat) (f : Decoder → Decoder) : (s.modDec d f).qp = s.qp := rfl
@[simp] theorem State.modDec_grp (s : State) (d : Nat) (f : Decoder → Decoder) : (s.modDec d f).grp = s.grp := rfl
@[simp] theorem State.modDec_ic (s : State) (d : Nat) (f : Decoder → Decoder) : (s.modDec d f).ic = s.ic := rfl
@[simp] theorem State.modDec_err (s : State) (d : Nat) (f : Decoder → Decoder) : (s.modDec d f).err = s.err := rfl
@[simp] theorem State.modDec_perf (s : State) (d : Nat) (f : Decoder → Decoder) : (s.modDec d f).perf = s.perf := rfl
@[simp] theorem State.modDec_sec (s : State) (d : Nat) (f : Decoder → Decoder) : (s.modDec d f).sec = s.sec := rfl
@[simp] theorem State.modDec_tamper (s : State) (d : Nat) (f : Decoder → Decoder) : (s.modDec d f).tamper = s.tamper := rfl
@[simp] theorem State.modDec_pwr (s : State) (d : Nat) (f : Decoder → Decoder) : (s.modDec d f).pwr = s.pwr := rfl
@[simp] theorem State.modDec_rtc (s : State) (d : Nat) (f : Decoder → Decoder) : (s.modDec d f).rtc = s.rtc := rfl
@[simp] theorem State.modDec_deferred (s : State) (d : Nat) (f : Decoder → Decoder) : (s.modDec d f).deferred = s.deferred := rfl
@[simp] theorem State.modDec_lastRead (s : State) (d : Nat) (f : Decoder → Decoder) : (s.modDec d f).lastRead = s.lastRead := rfl
@[simp] theorem State.modDec_freeCnt (s : State) (d : Nat) (f : Decoder → Decoder) : (s.modDec d f).freeCnt = s.freeCnt := rfl

@[simp] theorem State.modTim_pending (s : State) (n : Nat) (f : Timer → Timer) : (s.modTim n f).pending = s.pending := rfl
@[simp] theorem State.modTim_tb (s : State) (n : Nat) (f : Timer → Timer) : (s.modTim n f).tb = s.tb := rfl
@[simp] theorem State.modTim_ref (s : State) (n : Nat) (f : Timer → Timer) : (s.modTim n f).ref = s.ref := rfl
@[simp] theorem State.modTim_pps (s : State) (n : Nat) (f : Timer → Timer) : (s.modTim n f).pps = s.pps := rfl
@[simp] theorem State.modTim_bx (s : State) (n : Nat) (f : Timer → Timer) : (s.modTim n f).bx = s.bx := rfl
@[simp] theorem State.modTim_ch (s : State) (n : Nat) (f : Timer → Timer) : (s.modTim n f).ch = s.ch := rfl
@[simp] theorem State.modTim_cl (s : State) (n : Nat) (f : Timer → Timer) : (s.modTim n f).cl = s.cl := rfl
@[simp] theorem State.modTim_slot (s : State) (n : Nat) (f : Timer → Timer) : (s.modTim n f).slot = s.slot := rfl
@[simp] theorem State.modTim_dec (s : State) (n : Nat) (f : Timer → Timer) : (s.modTim n f).dec = s.dec := rfl
@[simp] theorem State.modTim_timWr (s : State) (n : Nat) (f : Timer → Timer) : (s.modTim n f).timWr = s.timWr := rfl
@[simp] theorem State.modTim_brk (s : State) (n : Nat) (f : Timer → Timer) : (s.modTim n f).brk = s.brk := rfl
@[simp] theorem State.modTim_bank (s : State) (n : Nat) (f : Timer → Timer) : (s.modTim n f).bank = s.bank := rfl
@[simp] theorem State.modTim_mem (s : State) (n : Nat) (f : Timer → Timer) : (s.modTim n f).mem = s.mem := rfl
@[simp] theorem State.modTim_ue (s : State) (n : Nat) (f : Timer → Timer) : (s.modTim n f).ue = s.ue := rfl
@[simp] theorem State.modTim_dma (s : State) (n : Nat) (f : Timer → Timer) : (s.modTim n f).dma = s.dma := rfl
@[simp] theorem State.modTim_noStream (s : State) (n : Nat) (f : Timer → Timer) : (s.modTim n f).noStream = s.noStream := rfl
@[simp] theorem State.modTim_posted (s : State) (n : Nat) (f : Timer → Timer) : (s.modTim n f).posted = s.posted := rfl
@[simp] theorem State.modTim_mir (s : State) (n : Nat) (f : Timer → Timer) : (s.modTim n f).mir = s.mir := rfl
@[simp] theorem State.modTim_pcie (s : State) (n : Nat) (f : Timer → Timer) : (s.modTim n f).pcie = s.pcie := rfl
@[simp] theorem State.modTim_env (s : State) (n : Nat) (f : Timer → Timer) : (s.modTim n f).env = s.env := rfl
@[simp] theorem State.modTim_st (s : State) (n : Nat) (f : Timer → Timer) : (s.modTim n f).st = s.st := rfl
@[simp] theorem State.modTim_mb (s : State) (n : Nat) (f : Timer → Timer) : (s.modTim n f).mb = s.mb := rfl
@[simp] theorem State.modTim_goNext (s : State) (n : Nat) (f : Timer → Timer) : (s.modTim n f).goNext = s.goNext := rfl
@[simp] theorem State.modTim_qp (s : State) (n : Nat) (f : Timer → Timer) : (s.modTim n f).qp = s.qp := rfl
@[simp] theorem State.modTim_grp (s : State) (n : Nat) (f : Timer → Timer) : (s.modTim n f).grp = s.grp := rfl
@[simp] theorem State.modTim_ic (s : State) (n : Nat) (f : Timer → Timer) : (s.modTim n f).ic = s.ic := rfl
@[simp] theorem State.modTim_err (s : State) (n : Nat) (f : Timer → Timer) : (s.modTim n f).err = s.err := rfl
@[simp] theorem State.modTim_perf (s : State) (n : Nat) (f : Timer → Timer) : (s.modTim n f).perf = s.perf := rfl
@[simp] theorem State.modTim_sec (s : State) (n : Nat) (f : Timer → Timer) : (s.modTim n f).sec = s.sec := rfl
@[simp] theorem State.modTim_tamper (s : State) (n : Nat) (f : Timer → Timer) : (s.modTim n f).tamper = s.tamper := rfl
@[simp] theorem State.modTim_pwr (s : State) (n : Nat) (f : Timer → Timer) : (s.modTim n f).pwr = s.pwr := rfl
@[simp] theorem State.modTim_rtc (s : State) (n : Nat) (f : Timer → Timer) : (s.modTim n f).rtc = s.rtc := rfl
@[simp] theorem State.modTim_deferred (s : State) (n : Nat) (f : Timer → Timer) : (s.modTim n f).deferred = s.deferred := rfl
@[simp] theorem State.modTim_lastRead (s : State) (n : Nat) (f : Timer → Timer) : (s.modTim n f).lastRead = s.lastRead := rfl
@[simp] theorem State.modTim_freeCnt (s : State) (n : Nat) (f : Timer → Timer) : (s.modTim n f).freeCnt = s.freeCnt := rfl

@[simp] theorem State.modBrk_pending (s : State) (b : Nat) (f : Brake → Brake) : (s.modBrk b f).pending = s.pending := rfl
@[simp] theorem State.modBrk_tb (s : State) (b : Nat) (f : Brake → Brake) : (s.modBrk b f).tb = s.tb := rfl
@[simp] theorem State.modBrk_ref (s : State) (b : Nat) (f : Brake → Brake) : (s.modBrk b f).ref = s.ref := rfl
@[simp] theorem State.modBrk_pps (s : State) (b : Nat) (f : Brake → Brake) : (s.modBrk b f).pps = s.pps := rfl
@[simp] theorem State.modBrk_bx (s : State) (b : Nat) (f : Brake → Brake) : (s.modBrk b f).bx = s.bx := rfl
@[simp] theorem State.modBrk_ch (s : State) (b : Nat) (f : Brake → Brake) : (s.modBrk b f).ch = s.ch := rfl
@[simp] theorem State.modBrk_cl (s : State) (b : Nat) (f : Brake → Brake) : (s.modBrk b f).cl = s.cl := rfl
@[simp] theorem State.modBrk_slot (s : State) (b : Nat) (f : Brake → Brake) : (s.modBrk b f).slot = s.slot := rfl
@[simp] theorem State.modBrk_dec (s : State) (b : Nat) (f : Brake → Brake) : (s.modBrk b f).dec = s.dec := rfl
@[simp] theorem State.modBrk_tim (s : State) (b : Nat) (f : Brake → Brake) : (s.modBrk b f).tim = s.tim := rfl
@[simp] theorem State.modBrk_timWr (s : State) (b : Nat) (f : Brake → Brake) : (s.modBrk b f).timWr = s.timWr := rfl
@[simp] theorem State.modBrk_bank (s : State) (b : Nat) (f : Brake → Brake) : (s.modBrk b f).bank = s.bank := rfl
@[simp] theorem State.modBrk_mem (s : State) (b : Nat) (f : Brake → Brake) : (s.modBrk b f).mem = s.mem := rfl
@[simp] theorem State.modBrk_ue (s : State) (b : Nat) (f : Brake → Brake) : (s.modBrk b f).ue = s.ue := rfl
@[simp] theorem State.modBrk_dma (s : State) (b : Nat) (f : Brake → Brake) : (s.modBrk b f).dma = s.dma := rfl
@[simp] theorem State.modBrk_noStream (s : State) (b : Nat) (f : Brake → Brake) : (s.modBrk b f).noStream = s.noStream := rfl
@[simp] theorem State.modBrk_posted (s : State) (b : Nat) (f : Brake → Brake) : (s.modBrk b f).posted = s.posted := rfl
@[simp] theorem State.modBrk_mir (s : State) (b : Nat) (f : Brake → Brake) : (s.modBrk b f).mir = s.mir := rfl
@[simp] theorem State.modBrk_pcie (s : State) (b : Nat) (f : Brake → Brake) : (s.modBrk b f).pcie = s.pcie := rfl
@[simp] theorem State.modBrk_env (s : State) (b : Nat) (f : Brake → Brake) : (s.modBrk b f).env = s.env := rfl
@[simp] theorem State.modBrk_st (s : State) (b : Nat) (f : Brake → Brake) : (s.modBrk b f).st = s.st := rfl
@[simp] theorem State.modBrk_mb (s : State) (b : Nat) (f : Brake → Brake) : (s.modBrk b f).mb = s.mb := rfl
@[simp] theorem State.modBrk_goNext (s : State) (b : Nat) (f : Brake → Brake) : (s.modBrk b f).goNext = s.goNext := rfl
@[simp] theorem State.modBrk_qp (s : State) (b : Nat) (f : Brake → Brake) : (s.modBrk b f).qp = s.qp := rfl
@[simp] theorem State.modBrk_grp (s : State) (b : Nat) (f : Brake → Brake) : (s.modBrk b f).grp = s.grp := rfl
@[simp] theorem State.modBrk_ic (s : State) (b : Nat) (f : Brake → Brake) : (s.modBrk b f).ic = s.ic := rfl
@[simp] theorem State.modBrk_err (s : State) (b : Nat) (f : Brake → Brake) : (s.modBrk b f).err = s.err := rfl
@[simp] theorem State.modBrk_perf (s : State) (b : Nat) (f : Brake → Brake) : (s.modBrk b f).perf = s.perf := rfl
@[simp] theorem State.modBrk_sec (s : State) (b : Nat) (f : Brake → Brake) : (s.modBrk b f).sec = s.sec := rfl
@[simp] theorem State.modBrk_tamper (s : State) (b : Nat) (f : Brake → Brake) : (s.modBrk b f).tamper = s.tamper := rfl
@[simp] theorem State.modBrk_pwr (s : State) (b : Nat) (f : Brake → Brake) : (s.modBrk b f).pwr = s.pwr := rfl
@[simp] theorem State.modBrk_rtc (s : State) (b : Nat) (f : Brake → Brake) : (s.modBrk b f).rtc = s.rtc := rfl
@[simp] theorem State.modBrk_deferred (s : State) (b : Nat) (f : Brake → Brake) : (s.modBrk b f).deferred = s.deferred := rfl
@[simp] theorem State.modBrk_lastRead (s : State) (b : Nat) (f : Brake → Brake) : (s.modBrk b f).lastRead = s.lastRead := rfl
@[simp] theorem State.modBrk_freeCnt (s : State) (b : Nat) (f : Brake → Brake) : (s.modBrk b f).freeCnt = s.freeCnt := rfl

@[simp] theorem State.modBank_pending (s : State) (b : Nat) (f : Bank → Bank) : (s.modBank b f).pending = s.pending := rfl
@[simp] theorem State.modBank_tb (s : State) (b : Nat) (f : Bank → Bank) : (s.modBank b f).tb = s.tb := rfl
@[simp] theorem State.modBank_ref (s : State) (b : Nat) (f : Bank → Bank) : (s.modBank b f).ref = s.ref := rfl
@[simp] theorem State.modBank_pps (s : State) (b : Nat) (f : Bank → Bank) : (s.modBank b f).pps = s.pps := rfl
@[simp] theorem State.modBank_bx (s : State) (b : Nat) (f : Bank → Bank) : (s.modBank b f).bx = s.bx := rfl
@[simp] theorem State.modBank_ch (s : State) (b : Nat) (f : Bank → Bank) : (s.modBank b f).ch = s.ch := rfl
@[simp] theorem State.modBank_cl (s : State) (b : Nat) (f : Bank → Bank) : (s.modBank b f).cl = s.cl := rfl
@[simp] theorem State.modBank_slot (s : State) (b : Nat) (f : Bank → Bank) : (s.modBank b f).slot = s.slot := rfl
@[simp] theorem State.modBank_dec (s : State) (b : Nat) (f : Bank → Bank) : (s.modBank b f).dec = s.dec := rfl
@[simp] theorem State.modBank_tim (s : State) (b : Nat) (f : Bank → Bank) : (s.modBank b f).tim = s.tim := rfl
@[simp] theorem State.modBank_timWr (s : State) (b : Nat) (f : Bank → Bank) : (s.modBank b f).timWr = s.timWr := rfl
@[simp] theorem State.modBank_brk (s : State) (b : Nat) (f : Bank → Bank) : (s.modBank b f).brk = s.brk := rfl
@[simp] theorem State.modBank_mem (s : State) (b : Nat) (f : Bank → Bank) : (s.modBank b f).mem = s.mem := rfl
@[simp] theorem State.modBank_ue (s : State) (b : Nat) (f : Bank → Bank) : (s.modBank b f).ue = s.ue := rfl
@[simp] theorem State.modBank_dma (s : State) (b : Nat) (f : Bank → Bank) : (s.modBank b f).dma = s.dma := rfl
@[simp] theorem State.modBank_noStream (s : State) (b : Nat) (f : Bank → Bank) : (s.modBank b f).noStream = s.noStream := rfl
@[simp] theorem State.modBank_posted (s : State) (b : Nat) (f : Bank → Bank) : (s.modBank b f).posted = s.posted := rfl
@[simp] theorem State.modBank_mir (s : State) (b : Nat) (f : Bank → Bank) : (s.modBank b f).mir = s.mir := rfl
@[simp] theorem State.modBank_pcie (s : State) (b : Nat) (f : Bank → Bank) : (s.modBank b f).pcie = s.pcie := rfl
@[simp] theorem State.modBank_env (s : State) (b : Nat) (f : Bank → Bank) : (s.modBank b f).env = s.env := rfl
@[simp] theorem State.modBank_st (s : State) (b : Nat) (f : Bank → Bank) : (s.modBank b f).st = s.st := rfl
@[simp] theorem State.modBank_mb (s : State) (b : Nat) (f : Bank → Bank) : (s.modBank b f).mb = s.mb := rfl
@[simp] theorem State.modBank_goNext (s : State) (b : Nat) (f : Bank → Bank) : (s.modBank b f).goNext = s.goNext := rfl
@[simp] theorem State.modBank_qp (s : State) (b : Nat) (f : Bank → Bank) : (s.modBank b f).qp = s.qp := rfl
@[simp] theorem State.modBank_grp (s : State) (b : Nat) (f : Bank → Bank) : (s.modBank b f).grp = s.grp := rfl
@[simp] theorem State.modBank_ic (s : State) (b : Nat) (f : Bank → Bank) : (s.modBank b f).ic = s.ic := rfl
@[simp] theorem State.modBank_err (s : State) (b : Nat) (f : Bank → Bank) : (s.modBank b f).err = s.err := rfl
@[simp] theorem State.modBank_perf (s : State) (b : Nat) (f : Bank → Bank) : (s.modBank b f).perf = s.perf := rfl
@[simp] theorem State.modBank_sec (s : State) (b : Nat) (f : Bank → Bank) : (s.modBank b f).sec = s.sec := rfl
@[simp] theorem State.modBank_tamper (s : State) (b : Nat) (f : Bank → Bank) : (s.modBank b f).tamper = s.tamper := rfl
@[simp] theorem State.modBank_pwr (s : State) (b : Nat) (f : Bank → Bank) : (s.modBank b f).pwr = s.pwr := rfl
@[simp] theorem State.modBank_rtc (s : State) (b : Nat) (f : Bank → Bank) : (s.modBank b f).rtc = s.rtc := rfl
@[simp] theorem State.modBank_deferred (s : State) (b : Nat) (f : Bank → Bank) : (s.modBank b f).deferred = s.deferred := rfl
@[simp] theorem State.modBank_lastRead (s : State) (b : Nat) (f : Bank → Bank) : (s.modBank b f).lastRead = s.lastRead := rfl
@[simp] theorem State.modBank_freeCnt (s : State) (b : Nat) (f : Bank → Bank) : (s.modBank b f).freeCnt = s.freeCnt := rfl

@[simp] theorem State.modDma_pending (s : State) (k : Nat) (f : Dma → Dma) : (s.modDma k f).pending = s.pending := rfl
@[simp] theorem State.modDma_tb (s : State) (k : Nat) (f : Dma → Dma) : (s.modDma k f).tb = s.tb := rfl
@[simp] theorem State.modDma_ref (s : State) (k : Nat) (f : Dma → Dma) : (s.modDma k f).ref = s.ref := rfl
@[simp] theorem State.modDma_pps (s : State) (k : Nat) (f : Dma → Dma) : (s.modDma k f).pps = s.pps := rfl
@[simp] theorem State.modDma_bx (s : State) (k : Nat) (f : Dma → Dma) : (s.modDma k f).bx = s.bx := rfl
@[simp] theorem State.modDma_ch (s : State) (k : Nat) (f : Dma → Dma) : (s.modDma k f).ch = s.ch := rfl
@[simp] theorem State.modDma_cl (s : State) (k : Nat) (f : Dma → Dma) : (s.modDma k f).cl = s.cl := rfl
@[simp] theorem State.modDma_slot (s : State) (k : Nat) (f : Dma → Dma) : (s.modDma k f).slot = s.slot := rfl
@[simp] theorem State.modDma_dec (s : State) (k : Nat) (f : Dma → Dma) : (s.modDma k f).dec = s.dec := rfl
@[simp] theorem State.modDma_tim (s : State) (k : Nat) (f : Dma → Dma) : (s.modDma k f).tim = s.tim := rfl
@[simp] theorem State.modDma_timWr (s : State) (k : Nat) (f : Dma → Dma) : (s.modDma k f).timWr = s.timWr := rfl
@[simp] theorem State.modDma_brk (s : State) (k : Nat) (f : Dma → Dma) : (s.modDma k f).brk = s.brk := rfl
@[simp] theorem State.modDma_bank (s : State) (k : Nat) (f : Dma → Dma) : (s.modDma k f).bank = s.bank := rfl
@[simp] theorem State.modDma_mem (s : State) (k : Nat) (f : Dma → Dma) : (s.modDma k f).mem = s.mem := rfl
@[simp] theorem State.modDma_ue (s : State) (k : Nat) (f : Dma → Dma) : (s.modDma k f).ue = s.ue := rfl
@[simp] theorem State.modDma_noStream (s : State) (k : Nat) (f : Dma → Dma) : (s.modDma k f).noStream = s.noStream := rfl
@[simp] theorem State.modDma_posted (s : State) (k : Nat) (f : Dma → Dma) : (s.modDma k f).posted = s.posted := rfl
@[simp] theorem State.modDma_mir (s : State) (k : Nat) (f : Dma → Dma) : (s.modDma k f).mir = s.mir := rfl
@[simp] theorem State.modDma_pcie (s : State) (k : Nat) (f : Dma → Dma) : (s.modDma k f).pcie = s.pcie := rfl
@[simp] theorem State.modDma_env (s : State) (k : Nat) (f : Dma → Dma) : (s.modDma k f).env = s.env := rfl
@[simp] theorem State.modDma_st (s : State) (k : Nat) (f : Dma → Dma) : (s.modDma k f).st = s.st := rfl
@[simp] theorem State.modDma_mb (s : State) (k : Nat) (f : Dma → Dma) : (s.modDma k f).mb = s.mb := rfl
@[simp] theorem State.modDma_goNext (s : State) (k : Nat) (f : Dma → Dma) : (s.modDma k f).goNext = s.goNext := rfl
@[simp] theorem State.modDma_qp (s : State) (k : Nat) (f : Dma → Dma) : (s.modDma k f).qp = s.qp := rfl
@[simp] theorem State.modDma_grp (s : State) (k : Nat) (f : Dma → Dma) : (s.modDma k f).grp = s.grp := rfl
@[simp] theorem State.modDma_ic (s : State) (k : Nat) (f : Dma → Dma) : (s.modDma k f).ic = s.ic := rfl
@[simp] theorem State.modDma_err (s : State) (k : Nat) (f : Dma → Dma) : (s.modDma k f).err = s.err := rfl
@[simp] theorem State.modDma_perf (s : State) (k : Nat) (f : Dma → Dma) : (s.modDma k f).perf = s.perf := rfl
@[simp] theorem State.modDma_sec (s : State) (k : Nat) (f : Dma → Dma) : (s.modDma k f).sec = s.sec := rfl
@[simp] theorem State.modDma_tamper (s : State) (k : Nat) (f : Dma → Dma) : (s.modDma k f).tamper = s.tamper := rfl
@[simp] theorem State.modDma_pwr (s : State) (k : Nat) (f : Dma → Dma) : (s.modDma k f).pwr = s.pwr := rfl
@[simp] theorem State.modDma_rtc (s : State) (k : Nat) (f : Dma → Dma) : (s.modDma k f).rtc = s.rtc := rfl
@[simp] theorem State.modDma_deferred (s : State) (k : Nat) (f : Dma → Dma) : (s.modDma k f).deferred = s.deferred := rfl
@[simp] theorem State.modDma_lastRead (s : State) (k : Nat) (f : Dma → Dma) : (s.modDma k f).lastRead = s.lastRead := rfl
@[simp] theorem State.modDma_freeCnt (s : State) (k : Nat) (f : Dma → Dma) : (s.modDma k f).freeCnt = s.freeCnt := rfl

@[simp] theorem State.modMb_pending (s : State) (m : Nat) (f : Mailbox → Mailbox) : (s.modMb m f).pending = s.pending := rfl
@[simp] theorem State.modMb_tb (s : State) (m : Nat) (f : Mailbox → Mailbox) : (s.modMb m f).tb = s.tb := rfl
@[simp] theorem State.modMb_ref (s : State) (m : Nat) (f : Mailbox → Mailbox) : (s.modMb m f).ref = s.ref := rfl
@[simp] theorem State.modMb_pps (s : State) (m : Nat) (f : Mailbox → Mailbox) : (s.modMb m f).pps = s.pps := rfl
@[simp] theorem State.modMb_bx (s : State) (m : Nat) (f : Mailbox → Mailbox) : (s.modMb m f).bx = s.bx := rfl
@[simp] theorem State.modMb_ch (s : State) (m : Nat) (f : Mailbox → Mailbox) : (s.modMb m f).ch = s.ch := rfl
@[simp] theorem State.modMb_cl (s : State) (m : Nat) (f : Mailbox → Mailbox) : (s.modMb m f).cl = s.cl := rfl
@[simp] theorem State.modMb_slot (s : State) (m : Nat) (f : Mailbox → Mailbox) : (s.modMb m f).slot = s.slot := rfl
@[simp] theorem State.modMb_dec (s : State) (m : Nat) (f : Mailbox → Mailbox) : (s.modMb m f).dec = s.dec := rfl
@[simp] theorem State.modMb_tim (s : State) (m : Nat) (f : Mailbox → Mailbox) : (s.modMb m f).tim = s.tim := rfl
@[simp] theorem State.modMb_timWr (s : State) (m : Nat) (f : Mailbox → Mailbox) : (s.modMb m f).timWr = s.timWr := rfl
@[simp] theorem State.modMb_brk (s : State) (m : Nat) (f : Mailbox → Mailbox) : (s.modMb m f).brk = s.brk := rfl
@[simp] theorem State.modMb_bank (s : State) (m : Nat) (f : Mailbox → Mailbox) : (s.modMb m f).bank = s.bank := rfl
@[simp] theorem State.modMb_mem (s : State) (m : Nat) (f : Mailbox → Mailbox) : (s.modMb m f).mem = s.mem := rfl
@[simp] theorem State.modMb_ue (s : State) (m : Nat) (f : Mailbox → Mailbox) : (s.modMb m f).ue = s.ue := rfl
@[simp] theorem State.modMb_dma (s : State) (m : Nat) (f : Mailbox → Mailbox) : (s.modMb m f).dma = s.dma := rfl
@[simp] theorem State.modMb_noStream (s : State) (m : Nat) (f : Mailbox → Mailbox) : (s.modMb m f).noStream = s.noStream := rfl
@[simp] theorem State.modMb_posted (s : State) (m : Nat) (f : Mailbox → Mailbox) : (s.modMb m f).posted = s.posted := rfl
@[simp] theorem State.modMb_mir (s : State) (m : Nat) (f : Mailbox → Mailbox) : (s.modMb m f).mir = s.mir := rfl
@[simp] theorem State.modMb_pcie (s : State) (m : Nat) (f : Mailbox → Mailbox) : (s.modMb m f).pcie = s.pcie := rfl
@[simp] theorem State.modMb_env (s : State) (m : Nat) (f : Mailbox → Mailbox) : (s.modMb m f).env = s.env := rfl
@[simp] theorem State.modMb_st (s : State) (m : Nat) (f : Mailbox → Mailbox) : (s.modMb m f).st = s.st := rfl
@[simp] theorem State.modMb_goNext (s : State) (m : Nat) (f : Mailbox → Mailbox) : (s.modMb m f).goNext = s.goNext := rfl
@[simp] theorem State.modMb_qp (s : State) (m : Nat) (f : Mailbox → Mailbox) : (s.modMb m f).qp = s.qp := rfl
@[simp] theorem State.modMb_grp (s : State) (m : Nat) (f : Mailbox → Mailbox) : (s.modMb m f).grp = s.grp := rfl
@[simp] theorem State.modMb_ic (s : State) (m : Nat) (f : Mailbox → Mailbox) : (s.modMb m f).ic = s.ic := rfl
@[simp] theorem State.modMb_err (s : State) (m : Nat) (f : Mailbox → Mailbox) : (s.modMb m f).err = s.err := rfl
@[simp] theorem State.modMb_perf (s : State) (m : Nat) (f : Mailbox → Mailbox) : (s.modMb m f).perf = s.perf := rfl
@[simp] theorem State.modMb_sec (s : State) (m : Nat) (f : Mailbox → Mailbox) : (s.modMb m f).sec = s.sec := rfl
@[simp] theorem State.modMb_tamper (s : State) (m : Nat) (f : Mailbox → Mailbox) : (s.modMb m f).tamper = s.tamper := rfl
@[simp] theorem State.modMb_pwr (s : State) (m : Nat) (f : Mailbox → Mailbox) : (s.modMb m f).pwr = s.pwr := rfl
@[simp] theorem State.modMb_rtc (s : State) (m : Nat) (f : Mailbox → Mailbox) : (s.modMb m f).rtc = s.rtc := rfl
@[simp] theorem State.modMb_deferred (s : State) (m : Nat) (f : Mailbox → Mailbox) : (s.modMb m f).deferred = s.deferred := rfl
@[simp] theorem State.modMb_lastRead (s : State) (m : Nat) (f : Mailbox → Mailbox) : (s.modMb m f).lastRead = s.lastRead := rfl
@[simp] theorem State.modMb_freeCnt (s : State) (m : Nat) (f : Mailbox → Mailbox) : (s.modMb m f).freeCnt = s.freeCnt := rfl

@[simp] theorem State.modQp_pending (s : State) (q : Nat) (f : QueuePair → QueuePair) : (s.modQp q f).pending = s.pending := rfl
@[simp] theorem State.modQp_tb (s : State) (q : Nat) (f : QueuePair → QueuePair) : (s.modQp q f).tb = s.tb := rfl
@[simp] theorem State.modQp_ref (s : State) (q : Nat) (f : QueuePair → QueuePair) : (s.modQp q f).ref = s.ref := rfl
@[simp] theorem State.modQp_pps (s : State) (q : Nat) (f : QueuePair → QueuePair) : (s.modQp q f).pps = s.pps := rfl
@[simp] theorem State.modQp_bx (s : State) (q : Nat) (f : QueuePair → QueuePair) : (s.modQp q f).bx = s.bx := rfl
@[simp] theorem State.modQp_ch (s : State) (q : Nat) (f : QueuePair → QueuePair) : (s.modQp q f).ch = s.ch := rfl
@[simp] theorem State.modQp_cl (s : State) (q : Nat) (f : QueuePair → QueuePair) : (s.modQp q f).cl = s.cl := rfl
@[simp] theorem State.modQp_slot (s : State) (q : Nat) (f : QueuePair → QueuePair) : (s.modQp q f).slot = s.slot := rfl
@[simp] theorem State.modQp_dec (s : State) (q : Nat) (f : QueuePair → QueuePair) : (s.modQp q f).dec = s.dec := rfl
@[simp] theorem State.modQp_tim (s : State) (q : Nat) (f : QueuePair → QueuePair) : (s.modQp q f).tim = s.tim := rfl
@[simp] theorem State.modQp_timWr (s : State) (q : Nat) (f : QueuePair → QueuePair) : (s.modQp q f).timWr = s.timWr := rfl
@[simp] theorem State.modQp_brk (s : State) (q : Nat) (f : QueuePair → QueuePair) : (s.modQp q f).brk = s.brk := rfl
@[simp] theorem State.modQp_bank (s : State) (q : Nat) (f : QueuePair → QueuePair) : (s.modQp q f).bank = s.bank := rfl
@[simp] theorem State.modQp_mem (s : State) (q : Nat) (f : QueuePair → QueuePair) : (s.modQp q f).mem = s.mem := rfl
@[simp] theorem State.modQp_ue (s : State) (q : Nat) (f : QueuePair → QueuePair) : (s.modQp q f).ue = s.ue := rfl
@[simp] theorem State.modQp_dma (s : State) (q : Nat) (f : QueuePair → QueuePair) : (s.modQp q f).dma = s.dma := rfl
@[simp] theorem State.modQp_noStream (s : State) (q : Nat) (f : QueuePair → QueuePair) : (s.modQp q f).noStream = s.noStream := rfl
@[simp] theorem State.modQp_posted (s : State) (q : Nat) (f : QueuePair → QueuePair) : (s.modQp q f).posted = s.posted := rfl
@[simp] theorem State.modQp_mir (s : State) (q : Nat) (f : QueuePair → QueuePair) : (s.modQp q f).mir = s.mir := rfl
@[simp] theorem State.modQp_pcie (s : State) (q : Nat) (f : QueuePair → QueuePair) : (s.modQp q f).pcie = s.pcie := rfl
@[simp] theorem State.modQp_env (s : State) (q : Nat) (f : QueuePair → QueuePair) : (s.modQp q f).env = s.env := rfl
@[simp] theorem State.modQp_st (s : State) (q : Nat) (f : QueuePair → QueuePair) : (s.modQp q f).st = s.st := rfl
@[simp] theorem State.modQp_mb (s : State) (q : Nat) (f : QueuePair → QueuePair) : (s.modQp q f).mb = s.mb := rfl
@[simp] theorem State.modQp_goNext (s : State) (q : Nat) (f : QueuePair → QueuePair) : (s.modQp q f).goNext = s.goNext := rfl
@[simp] theorem State.modQp_grp (s : State) (q : Nat) (f : QueuePair → QueuePair) : (s.modQp q f).grp = s.grp := rfl
@[simp] theorem State.modQp_ic (s : State) (q : Nat) (f : QueuePair → QueuePair) : (s.modQp q f).ic = s.ic := rfl
@[simp] theorem State.modQp_err (s : State) (q : Nat) (f : QueuePair → QueuePair) : (s.modQp q f).err = s.err := rfl
@[simp] theorem State.modQp_perf (s : State) (q : Nat) (f : QueuePair → QueuePair) : (s.modQp q f).perf = s.perf := rfl
@[simp] theorem State.modQp_sec (s : State) (q : Nat) (f : QueuePair → QueuePair) : (s.modQp q f).sec = s.sec := rfl
@[simp] theorem State.modQp_tamper (s : State) (q : Nat) (f : QueuePair → QueuePair) : (s.modQp q f).tamper = s.tamper := rfl
@[simp] theorem State.modQp_pwr (s : State) (q : Nat) (f : QueuePair → QueuePair) : (s.modQp q f).pwr = s.pwr := rfl
@[simp] theorem State.modQp_rtc (s : State) (q : Nat) (f : QueuePair → QueuePair) : (s.modQp q f).rtc = s.rtc := rfl
@[simp] theorem State.modQp_deferred (s : State) (q : Nat) (f : QueuePair → QueuePair) : (s.modQp q f).deferred = s.deferred := rfl
@[simp] theorem State.modQp_lastRead (s : State) (q : Nat) (f : QueuePair → QueuePair) : (s.modQp q f).lastRead = s.lastRead := rfl
@[simp] theorem State.modQp_freeCnt (s : State) (q : Nat) (f : QueuePair → QueuePair) : (s.modQp q f).freeCnt = s.freeCnt := rfl

@[simp] theorem State.modSrc_pending (s : State) (k : Nat) (f : Source → Source) : (s.modSrc k f).pending = s.pending := rfl
@[simp] theorem State.modSrc_tb (s : State) (k : Nat) (f : Source → Source) : (s.modSrc k f).tb = s.tb := rfl
@[simp] theorem State.modSrc_ref (s : State) (k : Nat) (f : Source → Source) : (s.modSrc k f).ref = s.ref := rfl
@[simp] theorem State.modSrc_pps (s : State) (k : Nat) (f : Source → Source) : (s.modSrc k f).pps = s.pps := rfl
@[simp] theorem State.modSrc_bx (s : State) (k : Nat) (f : Source → Source) : (s.modSrc k f).bx = s.bx := rfl
@[simp] theorem State.modSrc_ch (s : State) (k : Nat) (f : Source → Source) : (s.modSrc k f).ch = s.ch := rfl
@[simp] theorem State.modSrc_cl (s : State) (k : Nat) (f : Source → Source) : (s.modSrc k f).cl = s.cl := rfl
@[simp] theorem State.modSrc_slot (s : State) (k : Nat) (f : Source → Source) : (s.modSrc k f).slot = s.slot := rfl
@[simp] theorem State.modSrc_dec (s : State) (k : Nat) (f : Source → Source) : (s.modSrc k f).dec = s.dec := rfl
@[simp] theorem State.modSrc_tim (s : State) (k : Nat) (f : Source → Source) : (s.modSrc k f).tim = s.tim := rfl
@[simp] theorem State.modSrc_timWr (s : State) (k : Nat) (f : Source → Source) : (s.modSrc k f).timWr = s.timWr := rfl
@[simp] theorem State.modSrc_brk (s : State) (k : Nat) (f : Source → Source) : (s.modSrc k f).brk = s.brk := rfl
@[simp] theorem State.modSrc_bank (s : State) (k : Nat) (f : Source → Source) : (s.modSrc k f).bank = s.bank := rfl
@[simp] theorem State.modSrc_mem (s : State) (k : Nat) (f : Source → Source) : (s.modSrc k f).mem = s.mem := rfl
@[simp] theorem State.modSrc_ue (s : State) (k : Nat) (f : Source → Source) : (s.modSrc k f).ue = s.ue := rfl
@[simp] theorem State.modSrc_dma (s : State) (k : Nat) (f : Source → Source) : (s.modSrc k f).dma = s.dma := rfl
@[simp] theorem State.modSrc_noStream (s : State) (k : Nat) (f : Source → Source) : (s.modSrc k f).noStream = s.noStream := rfl
@[simp] theorem State.modSrc_posted (s : State) (k : Nat) (f : Source → Source) : (s.modSrc k f).posted = s.posted := rfl
@[simp] theorem State.modSrc_mir (s : State) (k : Nat) (f : Source → Source) : (s.modSrc k f).mir = s.mir := rfl
@[simp] theorem State.modSrc_pcie (s : State) (k : Nat) (f : Source → Source) : (s.modSrc k f).pcie = s.pcie := rfl
@[simp] theorem State.modSrc_env (s : State) (k : Nat) (f : Source → Source) : (s.modSrc k f).env = s.env := rfl
@[simp] theorem State.modSrc_st (s : State) (k : Nat) (f : Source → Source) : (s.modSrc k f).st = s.st := rfl
@[simp] theorem State.modSrc_mb (s : State) (k : Nat) (f : Source → Source) : (s.modSrc k f).mb = s.mb := rfl
@[simp] theorem State.modSrc_goNext (s : State) (k : Nat) (f : Source → Source) : (s.modSrc k f).goNext = s.goNext := rfl
@[simp] theorem State.modSrc_qp (s : State) (k : Nat) (f : Source → Source) : (s.modSrc k f).qp = s.qp := rfl
@[simp] theorem State.modSrc_grp (s : State) (k : Nat) (f : Source → Source) : (s.modSrc k f).grp = s.grp := rfl
@[simp] theorem State.modSrc_err (s : State) (k : Nat) (f : Source → Source) : (s.modSrc k f).err = s.err := rfl
@[simp] theorem State.modSrc_perf (s : State) (k : Nat) (f : Source → Source) : (s.modSrc k f).perf = s.perf := rfl
@[simp] theorem State.modSrc_sec (s : State) (k : Nat) (f : Source → Source) : (s.modSrc k f).sec = s.sec := rfl
@[simp] theorem State.modSrc_tamper (s : State) (k : Nat) (f : Source → Source) : (s.modSrc k f).tamper = s.tamper := rfl
@[simp] theorem State.modSrc_pwr (s : State) (k : Nat) (f : Source → Source) : (s.modSrc k f).pwr = s.pwr := rfl
@[simp] theorem State.modSrc_rtc (s : State) (k : Nat) (f : Source → Source) : (s.modSrc k f).rtc = s.rtc := rfl
@[simp] theorem State.modSrc_deferred (s : State) (k : Nat) (f : Source → Source) : (s.modSrc k f).deferred = s.deferred := rfl
@[simp] theorem State.modSrc_lastRead (s : State) (k : Nat) (f : Source → Source) : (s.modSrc k f).lastRead = s.lastRead := rfl
@[simp] theorem State.modSrc_freeCnt (s : State) (k : Nat) (f : Source → Source) : (s.modSrc k f).freeCnt = s.freeCnt := rfl

@[simp] theorem State.modPwr_pending (s : State) (f : Power → Power) : (s.modPwr f).pending = s.pending := rfl
@[simp] theorem State.modPwr_tb (s : State) (f : Power → Power) : (s.modPwr f).tb = s.tb := rfl
@[simp] theorem State.modPwr_ref (s : State) (f : Power → Power) : (s.modPwr f).ref = s.ref := rfl
@[simp] theorem State.modPwr_pps (s : State) (f : Power → Power) : (s.modPwr f).pps = s.pps := rfl
@[simp] theorem State.modPwr_bx (s : State) (f : Power → Power) : (s.modPwr f).bx = s.bx := rfl
@[simp] theorem State.modPwr_ch (s : State) (f : Power → Power) : (s.modPwr f).ch = s.ch := rfl
@[simp] theorem State.modPwr_cl (s : State) (f : Power → Power) : (s.modPwr f).cl = s.cl := rfl
@[simp] theorem State.modPwr_slot (s : State) (f : Power → Power) : (s.modPwr f).slot = s.slot := rfl
@[simp] theorem State.modPwr_dec (s : State) (f : Power → Power) : (s.modPwr f).dec = s.dec := rfl
@[simp] theorem State.modPwr_tim (s : State) (f : Power → Power) : (s.modPwr f).tim = s.tim := rfl
@[simp] theorem State.modPwr_timWr (s : State) (f : Power → Power) : (s.modPwr f).timWr = s.timWr := rfl
@[simp] theorem State.modPwr_brk (s : State) (f : Power → Power) : (s.modPwr f).brk = s.brk := rfl
@[simp] theorem State.modPwr_bank (s : State) (f : Power → Power) : (s.modPwr f).bank = s.bank := rfl
@[simp] theorem State.modPwr_mem (s : State) (f : Power → Power) : (s.modPwr f).mem = s.mem := rfl
@[simp] theorem State.modPwr_ue (s : State) (f : Power → Power) : (s.modPwr f).ue = s.ue := rfl
@[simp] theorem State.modPwr_dma (s : State) (f : Power → Power) : (s.modPwr f).dma = s.dma := rfl
@[simp] theorem State.modPwr_noStream (s : State) (f : Power → Power) : (s.modPwr f).noStream = s.noStream := rfl
@[simp] theorem State.modPwr_posted (s : State) (f : Power → Power) : (s.modPwr f).posted = s.posted := rfl
@[simp] theorem State.modPwr_mir (s : State) (f : Power → Power) : (s.modPwr f).mir = s.mir := rfl
@[simp] theorem State.modPwr_pcie (s : State) (f : Power → Power) : (s.modPwr f).pcie = s.pcie := rfl
@[simp] theorem State.modPwr_env (s : State) (f : Power → Power) : (s.modPwr f).env = s.env := rfl
@[simp] theorem State.modPwr_st (s : State) (f : Power → Power) : (s.modPwr f).st = s.st := rfl
@[simp] theorem State.modPwr_mb (s : State) (f : Power → Power) : (s.modPwr f).mb = s.mb := rfl
@[simp] theorem State.modPwr_goNext (s : State) (f : Power → Power) : (s.modPwr f).goNext = s.goNext := rfl
@[simp] theorem State.modPwr_qp (s : State) (f : Power → Power) : (s.modPwr f).qp = s.qp := rfl
@[simp] theorem State.modPwr_grp (s : State) (f : Power → Power) : (s.modPwr f).grp = s.grp := rfl
@[simp] theorem State.modPwr_ic (s : State) (f : Power → Power) : (s.modPwr f).ic = s.ic := rfl
@[simp] theorem State.modPwr_err (s : State) (f : Power → Power) : (s.modPwr f).err = s.err := rfl
@[simp] theorem State.modPwr_perf (s : State) (f : Power → Power) : (s.modPwr f).perf = s.perf := rfl
@[simp] theorem State.modPwr_sec (s : State) (f : Power → Power) : (s.modPwr f).sec = s.sec := rfl
@[simp] theorem State.modPwr_tamper (s : State) (f : Power → Power) : (s.modPwr f).tamper = s.tamper := rfl
@[simp] theorem State.modPwr_rtc (s : State) (f : Power → Power) : (s.modPwr f).rtc = s.rtc := rfl
@[simp] theorem State.modPwr_deferred (s : State) (f : Power → Power) : (s.modPwr f).deferred = s.deferred := rfl
@[simp] theorem State.modPwr_lastRead (s : State) (f : Power → Power) : (s.modPwr f).lastRead = s.lastRead := rfl
@[simp] theorem State.modPwr_freeCnt (s : State) (f : Power → Power) : (s.modPwr f).freeCnt = s.freeCnt := rfl

@[simp] theorem State.modRtc_pending (s : State) (f : Rtc → Rtc) : (s.modRtc f).pending = s.pending := rfl
@[simp] theorem State.modRtc_tb (s : State) (f : Rtc → Rtc) : (s.modRtc f).tb = s.tb := rfl
@[simp] theorem State.modRtc_ref (s : State) (f : Rtc → Rtc) : (s.modRtc f).ref = s.ref := rfl
@[simp] theorem State.modRtc_pps (s : State) (f : Rtc → Rtc) : (s.modRtc f).pps = s.pps := rfl
@[simp] theorem State.modRtc_bx (s : State) (f : Rtc → Rtc) : (s.modRtc f).bx = s.bx := rfl
@[simp] theorem State.modRtc_ch (s : State) (f : Rtc → Rtc) : (s.modRtc f).ch = s.ch := rfl
@[simp] theorem State.modRtc_cl (s : State) (f : Rtc → Rtc) : (s.modRtc f).cl = s.cl := rfl
@[simp] theorem State.modRtc_slot (s : State) (f : Rtc → Rtc) : (s.modRtc f).slot = s.slot := rfl
@[simp] theorem State.modRtc_dec (s : State) (f : Rtc → Rtc) : (s.modRtc f).dec = s.dec := rfl
@[simp] theorem State.modRtc_tim (s : State) (f : Rtc → Rtc) : (s.modRtc f).tim = s.tim := rfl
@[simp] theorem State.modRtc_timWr (s : State) (f : Rtc → Rtc) : (s.modRtc f).timWr = s.timWr := rfl
@[simp] theorem State.modRtc_brk (s : State) (f : Rtc → Rtc) : (s.modRtc f).brk = s.brk := rfl
@[simp] theorem State.modRtc_bank (s : State) (f : Rtc → Rtc) : (s.modRtc f).bank = s.bank := rfl
@[simp] theorem State.modRtc_mem (s : State) (f : Rtc → Rtc) : (s.modRtc f).mem = s.mem := rfl
@[simp] theorem State.modRtc_ue (s : State) (f : Rtc → Rtc) : (s.modRtc f).ue = s.ue := rfl
@[simp] theorem State.modRtc_dma (s : State) (f : Rtc → Rtc) : (s.modRtc f).dma = s.dma := rfl
@[simp] theorem State.modRtc_noStream (s : State) (f : Rtc → Rtc) : (s.modRtc f).noStream = s.noStream := rfl
@[simp] theorem State.modRtc_posted (s : State) (f : Rtc → Rtc) : (s.modRtc f).posted = s.posted := rfl
@[simp] theorem State.modRtc_mir (s : State) (f : Rtc → Rtc) : (s.modRtc f).mir = s.mir := rfl
@[simp] theorem State.modRtc_pcie (s : State) (f : Rtc → Rtc) : (s.modRtc f).pcie = s.pcie := rfl
@[simp] theorem State.modRtc_env (s : State) (f : Rtc → Rtc) : (s.modRtc f).env = s.env := rfl
@[simp] theorem State.modRtc_st (s : State) (f : Rtc → Rtc) : (s.modRtc f).st = s.st := rfl
@[simp] theorem State.modRtc_mb (s : State) (f : Rtc → Rtc) : (s.modRtc f).mb = s.mb := rfl
@[simp] theorem State.modRtc_goNext (s : State) (f : Rtc → Rtc) : (s.modRtc f).goNext = s.goNext := rfl
@[simp] theorem State.modRtc_qp (s : State) (f : Rtc → Rtc) : (s.modRtc f).qp = s.qp := rfl
@[simp] theorem State.modRtc_grp (s : State) (f : Rtc → Rtc) : (s.modRtc f).grp = s.grp := rfl
@[simp] theorem State.modRtc_ic (s : State) (f : Rtc → Rtc) : (s.modRtc f).ic = s.ic := rfl
@[simp] theorem State.modRtc_err (s : State) (f : Rtc → Rtc) : (s.modRtc f).err = s.err := rfl
@[simp] theorem State.modRtc_perf (s : State) (f : Rtc → Rtc) : (s.modRtc f).perf = s.perf := rfl
@[simp] theorem State.modRtc_sec (s : State) (f : Rtc → Rtc) : (s.modRtc f).sec = s.sec := rfl
@[simp] theorem State.modRtc_tamper (s : State) (f : Rtc → Rtc) : (s.modRtc f).tamper = s.tamper := rfl
@[simp] theorem State.modRtc_pwr (s : State) (f : Rtc → Rtc) : (s.modRtc f).pwr = s.pwr := rfl
@[simp] theorem State.modRtc_deferred (s : State) (f : Rtc → Rtc) : (s.modRtc f).deferred = s.deferred := rfl
@[simp] theorem State.modRtc_lastRead (s : State) (f : Rtc → Rtc) : (s.modRtc f).lastRead = s.lastRead := rfl
@[simp] theorem State.modRtc_freeCnt (s : State) (f : Rtc → Rtc) : (s.modRtc f).freeCnt = s.freeCnt := rfl

@[simp] theorem State.modSec_pending (s : State) (f : Sec → Sec) : (s.modSec f).pending = s.pending := rfl
@[simp] theorem State.modSec_tb (s : State) (f : Sec → Sec) : (s.modSec f).tb = s.tb := rfl
@[simp] theorem State.modSec_ref (s : State) (f : Sec → Sec) : (s.modSec f).ref = s.ref := rfl
@[simp] theorem State.modSec_pps (s : State) (f : Sec → Sec) : (s.modSec f).pps = s.pps := rfl
@[simp] theorem State.modSec_bx (s : State) (f : Sec → Sec) : (s.modSec f).bx = s.bx := rfl
@[simp] theorem State.modSec_ch (s : State) (f : Sec → Sec) : (s.modSec f).ch = s.ch := rfl
@[simp] theorem State.modSec_cl (s : State) (f : Sec → Sec) : (s.modSec f).cl = s.cl := rfl
@[simp] theorem State.modSec_slot (s : State) (f : Sec → Sec) : (s.modSec f).slot = s.slot := rfl
@[simp] theorem State.modSec_dec (s : State) (f : Sec → Sec) : (s.modSec f).dec = s.dec := rfl
@[simp] theorem State.modSec_tim (s : State) (f : Sec → Sec) : (s.modSec f).tim = s.tim := rfl
@[simp] theorem State.modSec_timWr (s : State) (f : Sec → Sec) : (s.modSec f).timWr = s.timWr := rfl
@[simp] theorem State.modSec_brk (s : State) (f : Sec → Sec) : (s.modSec f).brk = s.brk := rfl
@[simp] theorem State.modSec_bank (s : State) (f : Sec → Sec) : (s.modSec f).bank = s.bank := rfl
@[simp] theorem State.modSec_mem (s : State) (f : Sec → Sec) : (s.modSec f).mem = s.mem := rfl
@[simp] theorem State.modSec_ue (s : State) (f : Sec → Sec) : (s.modSec f).ue = s.ue := rfl
@[simp] theorem State.modSec_dma (s : State) (f : Sec → Sec) : (s.modSec f).dma = s.dma := rfl
@[simp] theorem State.modSec_noStream (s : State) (f : Sec → Sec) : (s.modSec f).noStream = s.noStream := rfl
@[simp] theorem State.modSec_posted (s : State) (f : Sec → Sec) : (s.modSec f).posted = s.posted := rfl
@[simp] theorem State.modSec_mir (s : State) (f : Sec → Sec) : (s.modSec f).mir = s.mir := rfl
@[simp] theorem State.modSec_pcie (s : State) (f : Sec → Sec) : (s.modSec f).pcie = s.pcie := rfl
@[simp] theorem State.modSec_env (s : State) (f : Sec → Sec) : (s.modSec f).env = s.env := rfl
@[simp] theorem State.modSec_st (s : State) (f : Sec → Sec) : (s.modSec f).st = s.st := rfl
@[simp] theorem State.modSec_mb (s : State) (f : Sec → Sec) : (s.modSec f).mb = s.mb := rfl
@[simp] theorem State.modSec_goNext (s : State) (f : Sec → Sec) : (s.modSec f).goNext = s.goNext := rfl
@[simp] theorem State.modSec_qp (s : State) (f : Sec → Sec) : (s.modSec f).qp = s.qp := rfl
@[simp] theorem State.modSec_grp (s : State) (f : Sec → Sec) : (s.modSec f).grp = s.grp := rfl
@[simp] theorem State.modSec_ic (s : State) (f : Sec → Sec) : (s.modSec f).ic = s.ic := rfl
@[simp] theorem State.modSec_err (s : State) (f : Sec → Sec) : (s.modSec f).err = s.err := rfl
@[simp] theorem State.modSec_perf (s : State) (f : Sec → Sec) : (s.modSec f).perf = s.perf := rfl
@[simp] theorem State.modSec_tamper (s : State) (f : Sec → Sec) : (s.modSec f).tamper = s.tamper := rfl
@[simp] theorem State.modSec_pwr (s : State) (f : Sec → Sec) : (s.modSec f).pwr = s.pwr := rfl
@[simp] theorem State.modSec_rtc (s : State) (f : Sec → Sec) : (s.modSec f).rtc = s.rtc := rfl
@[simp] theorem State.modSec_deferred (s : State) (f : Sec → Sec) : (s.modSec f).deferred = s.deferred := rfl
@[simp] theorem State.modSec_lastRead (s : State) (f : Sec → Sec) : (s.modSec f).lastRead = s.lastRead := rfl
@[simp] theorem State.modSec_freeCnt (s : State) (f : Sec → Sec) : (s.modSec f).freeCnt = s.freeCnt := rfl

@[simp] theorem State.modBx_pending (s : State) (f : Basxus → Basxus) : (s.modBx f).pending = s.pending := rfl
@[simp] theorem State.modBx_tb (s : State) (f : Basxus → Basxus) : (s.modBx f).tb = s.tb := rfl
@[simp] theorem State.modBx_ref (s : State) (f : Basxus → Basxus) : (s.modBx f).ref = s.ref := rfl
@[simp] theorem State.modBx_pps (s : State) (f : Basxus → Basxus) : (s.modBx f).pps = s.pps := rfl
@[simp] theorem State.modBx_ch (s : State) (f : Basxus → Basxus) : (s.modBx f).ch = s.ch := rfl
@[simp] theorem State.modBx_cl (s : State) (f : Basxus → Basxus) : (s.modBx f).cl = s.cl := rfl
@[simp] theorem State.modBx_slot (s : State) (f : Basxus → Basxus) : (s.modBx f).slot = s.slot := rfl
@[simp] theorem State.modBx_dec (s : State) (f : Basxus → Basxus) : (s.modBx f).dec = s.dec := rfl
@[simp] theorem State.modBx_tim (s : State) (f : Basxus → Basxus) : (s.modBx f).tim = s.tim := rfl
@[simp] theorem State.modBx_timWr (s : State) (f : Basxus → Basxus) : (s.modBx f).timWr = s.timWr := rfl
@[simp] theorem State.modBx_brk (s : State) (f : Basxus → Basxus) : (s.modBx f).brk = s.brk := rfl
@[simp] theorem State.modBx_bank (s : State) (f : Basxus → Basxus) : (s.modBx f).bank = s.bank := rfl
@[simp] theorem State.modBx_mem (s : State) (f : Basxus → Basxus) : (s.modBx f).mem = s.mem := rfl
@[simp] theorem State.modBx_ue (s : State) (f : Basxus → Basxus) : (s.modBx f).ue = s.ue := rfl
@[simp] theorem State.modBx_dma (s : State) (f : Basxus → Basxus) : (s.modBx f).dma = s.dma := rfl
@[simp] theorem State.modBx_noStream (s : State) (f : Basxus → Basxus) : (s.modBx f).noStream = s.noStream := rfl
@[simp] theorem State.modBx_posted (s : State) (f : Basxus → Basxus) : (s.modBx f).posted = s.posted := rfl
@[simp] theorem State.modBx_mir (s : State) (f : Basxus → Basxus) : (s.modBx f).mir = s.mir := rfl
@[simp] theorem State.modBx_pcie (s : State) (f : Basxus → Basxus) : (s.modBx f).pcie = s.pcie := rfl
@[simp] theorem State.modBx_env (s : State) (f : Basxus → Basxus) : (s.modBx f).env = s.env := rfl
@[simp] theorem State.modBx_st (s : State) (f : Basxus → Basxus) : (s.modBx f).st = s.st := rfl
@[simp] theorem State.modBx_mb (s : State) (f : Basxus → Basxus) : (s.modBx f).mb = s.mb := rfl
@[simp] theorem State.modBx_goNext (s : State) (f : Basxus → Basxus) : (s.modBx f).goNext = s.goNext := rfl
@[simp] theorem State.modBx_qp (s : State) (f : Basxus → Basxus) : (s.modBx f).qp = s.qp := rfl
@[simp] theorem State.modBx_grp (s : State) (f : Basxus → Basxus) : (s.modBx f).grp = s.grp := rfl
@[simp] theorem State.modBx_ic (s : State) (f : Basxus → Basxus) : (s.modBx f).ic = s.ic := rfl
@[simp] theorem State.modBx_err (s : State) (f : Basxus → Basxus) : (s.modBx f).err = s.err := rfl
@[simp] theorem State.modBx_perf (s : State) (f : Basxus → Basxus) : (s.modBx f).perf = s.perf := rfl
@[simp] theorem State.modBx_sec (s : State) (f : Basxus → Basxus) : (s.modBx f).sec = s.sec := rfl
@[simp] theorem State.modBx_tamper (s : State) (f : Basxus → Basxus) : (s.modBx f).tamper = s.tamper := rfl
@[simp] theorem State.modBx_pwr (s : State) (f : Basxus → Basxus) : (s.modBx f).pwr = s.pwr := rfl
@[simp] theorem State.modBx_rtc (s : State) (f : Basxus → Basxus) : (s.modBx f).rtc = s.rtc := rfl
@[simp] theorem State.modBx_deferred (s : State) (f : Basxus → Basxus) : (s.modBx f).deferred = s.deferred := rfl
@[simp] theorem State.modBx_lastRead (s : State) (f : Basxus → Basxus) : (s.modBx f).lastRead = s.lastRead := rfl
@[simp] theorem State.modBx_freeCnt (s : State) (f : Basxus → Basxus) : (s.modBx f).freeCnt = s.freeCnt := rfl

@[simp] theorem State.modGrp_pending (s : State) (k : Nat) (f : Group → Group) : (s.modGrp k f).pending = s.pending := rfl
@[simp] theorem State.modGrp_tb (s : State) (k : Nat) (f : Group → Group) : (s.modGrp k f).tb = s.tb := rfl
@[simp] theorem State.modGrp_ref (s : State) (k : Nat) (f : Group → Group) : (s.modGrp k f).ref = s.ref := rfl
@[simp] theorem State.modGrp_pps (s : State) (k : Nat) (f : Group → Group) : (s.modGrp k f).pps = s.pps := rfl
@[simp] theorem State.modGrp_bx (s : State) (k : Nat) (f : Group → Group) : (s.modGrp k f).bx = s.bx := rfl
@[simp] theorem State.modGrp_ch (s : State) (k : Nat) (f : Group → Group) : (s.modGrp k f).ch = s.ch := rfl
@[simp] theorem State.modGrp_cl (s : State) (k : Nat) (f : Group → Group) : (s.modGrp k f).cl = s.cl := rfl
@[simp] theorem State.modGrp_slot (s : State) (k : Nat) (f : Group → Group) : (s.modGrp k f).slot = s.slot := rfl
@[simp] theorem State.modGrp_dec (s : State) (k : Nat) (f : Group → Group) : (s.modGrp k f).dec = s.dec := rfl
@[simp] theorem State.modGrp_tim (s : State) (k : Nat) (f : Group → Group) : (s.modGrp k f).tim = s.tim := rfl
@[simp] theorem State.modGrp_timWr (s : State) (k : Nat) (f : Group → Group) : (s.modGrp k f).timWr = s.timWr := rfl
@[simp] theorem State.modGrp_brk (s : State) (k : Nat) (f : Group → Group) : (s.modGrp k f).brk = s.brk := rfl
@[simp] theorem State.modGrp_bank (s : State) (k : Nat) (f : Group → Group) : (s.modGrp k f).bank = s.bank := rfl
@[simp] theorem State.modGrp_mem (s : State) (k : Nat) (f : Group → Group) : (s.modGrp k f).mem = s.mem := rfl
@[simp] theorem State.modGrp_ue (s : State) (k : Nat) (f : Group → Group) : (s.modGrp k f).ue = s.ue := rfl
@[simp] theorem State.modGrp_dma (s : State) (k : Nat) (f : Group → Group) : (s.modGrp k f).dma = s.dma := rfl
@[simp] theorem State.modGrp_noStream (s : State) (k : Nat) (f : Group → Group) : (s.modGrp k f).noStream = s.noStream := rfl
@[simp] theorem State.modGrp_posted (s : State) (k : Nat) (f : Group → Group) : (s.modGrp k f).posted = s.posted := rfl
@[simp] theorem State.modGrp_mir (s : State) (k : Nat) (f : Group → Group) : (s.modGrp k f).mir = s.mir := rfl
@[simp] theorem State.modGrp_pcie (s : State) (k : Nat) (f : Group → Group) : (s.modGrp k f).pcie = s.pcie := rfl
@[simp] theorem State.modGrp_env (s : State) (k : Nat) (f : Group → Group) : (s.modGrp k f).env = s.env := rfl
@[simp] theorem State.modGrp_st (s : State) (k : Nat) (f : Group → Group) : (s.modGrp k f).st = s.st := rfl
@[simp] theorem State.modGrp_mb (s : State) (k : Nat) (f : Group → Group) : (s.modGrp k f).mb = s.mb := rfl
@[simp] theorem State.modGrp_goNext (s : State) (k : Nat) (f : Group → Group) : (s.modGrp k f).goNext = s.goNext := rfl
@[simp] theorem State.modGrp_qp (s : State) (k : Nat) (f : Group → Group) : (s.modGrp k f).qp = s.qp := rfl
@[simp] theorem State.modGrp_ic (s : State) (k : Nat) (f : Group → Group) : (s.modGrp k f).ic = s.ic := rfl
@[simp] theorem State.modGrp_err (s : State) (k : Nat) (f : Group → Group) : (s.modGrp k f).err = s.err := rfl
@[simp] theorem State.modGrp_perf (s : State) (k : Nat) (f : Group → Group) : (s.modGrp k f).perf = s.perf := rfl
@[simp] theorem State.modGrp_sec (s : State) (k : Nat) (f : Group → Group) : (s.modGrp k f).sec = s.sec := rfl
@[simp] theorem State.modGrp_tamper (s : State) (k : Nat) (f : Group → Group) : (s.modGrp k f).tamper = s.tamper := rfl
@[simp] theorem State.modGrp_pwr (s : State) (k : Nat) (f : Group → Group) : (s.modGrp k f).pwr = s.pwr := rfl
@[simp] theorem State.modGrp_rtc (s : State) (k : Nat) (f : Group → Group) : (s.modGrp k f).rtc = s.rtc := rfl
@[simp] theorem State.modGrp_deferred (s : State) (k : Nat) (f : Group → Group) : (s.modGrp k f).deferred = s.deferred := rfl
@[simp] theorem State.modGrp_lastRead (s : State) (k : Nat) (f : Group → Group) : (s.modGrp k f).lastRead = s.lastRead := rfl
@[simp] theorem State.modGrp_freeCnt (s : State) (k : Nat) (f : Group → Group) : (s.modGrp k f).freeCnt = s.freeCnt := rfl

@[simp] theorem State.modMon_pending (s : State) (k : Nat) (f : Monitor → Monitor) : (s.modMon k f).pending = s.pending := rfl
@[simp] theorem State.modMon_tb (s : State) (k : Nat) (f : Monitor → Monitor) : (s.modMon k f).tb = s.tb := rfl
@[simp] theorem State.modMon_ref (s : State) (k : Nat) (f : Monitor → Monitor) : (s.modMon k f).ref = s.ref := rfl
@[simp] theorem State.modMon_pps (s : State) (k : Nat) (f : Monitor → Monitor) : (s.modMon k f).pps = s.pps := rfl
@[simp] theorem State.modMon_bx (s : State) (k : Nat) (f : Monitor → Monitor) : (s.modMon k f).bx = s.bx := rfl
@[simp] theorem State.modMon_ch (s : State) (k : Nat) (f : Monitor → Monitor) : (s.modMon k f).ch = s.ch := rfl
@[simp] theorem State.modMon_cl (s : State) (k : Nat) (f : Monitor → Monitor) : (s.modMon k f).cl = s.cl := rfl
@[simp] theorem State.modMon_slot (s : State) (k : Nat) (f : Monitor → Monitor) : (s.modMon k f).slot = s.slot := rfl
@[simp] theorem State.modMon_dec (s : State) (k : Nat) (f : Monitor → Monitor) : (s.modMon k f).dec = s.dec := rfl
@[simp] theorem State.modMon_tim (s : State) (k : Nat) (f : Monitor → Monitor) : (s.modMon k f).tim = s.tim := rfl
@[simp] theorem State.modMon_timWr (s : State) (k : Nat) (f : Monitor → Monitor) : (s.modMon k f).timWr = s.timWr := rfl
@[simp] theorem State.modMon_brk (s : State) (k : Nat) (f : Monitor → Monitor) : (s.modMon k f).brk = s.brk := rfl
@[simp] theorem State.modMon_bank (s : State) (k : Nat) (f : Monitor → Monitor) : (s.modMon k f).bank = s.bank := rfl
@[simp] theorem State.modMon_mem (s : State) (k : Nat) (f : Monitor → Monitor) : (s.modMon k f).mem = s.mem := rfl
@[simp] theorem State.modMon_ue (s : State) (k : Nat) (f : Monitor → Monitor) : (s.modMon k f).ue = s.ue := rfl
@[simp] theorem State.modMon_dma (s : State) (k : Nat) (f : Monitor → Monitor) : (s.modMon k f).dma = s.dma := rfl
@[simp] theorem State.modMon_noStream (s : State) (k : Nat) (f : Monitor → Monitor) : (s.modMon k f).noStream = s.noStream := rfl
@[simp] theorem State.modMon_posted (s : State) (k : Nat) (f : Monitor → Monitor) : (s.modMon k f).posted = s.posted := rfl
@[simp] theorem State.modMon_mir (s : State) (k : Nat) (f : Monitor → Monitor) : (s.modMon k f).mir = s.mir := rfl
@[simp] theorem State.modMon_pcie (s : State) (k : Nat) (f : Monitor → Monitor) : (s.modMon k f).pcie = s.pcie := rfl
@[simp] theorem State.modMon_st (s : State) (k : Nat) (f : Monitor → Monitor) : (s.modMon k f).st = s.st := rfl
@[simp] theorem State.modMon_mb (s : State) (k : Nat) (f : Monitor → Monitor) : (s.modMon k f).mb = s.mb := rfl
@[simp] theorem State.modMon_goNext (s : State) (k : Nat) (f : Monitor → Monitor) : (s.modMon k f).goNext = s.goNext := rfl
@[simp] theorem State.modMon_qp (s : State) (k : Nat) (f : Monitor → Monitor) : (s.modMon k f).qp = s.qp := rfl
@[simp] theorem State.modMon_grp (s : State) (k : Nat) (f : Monitor → Monitor) : (s.modMon k f).grp = s.grp := rfl
@[simp] theorem State.modMon_ic (s : State) (k : Nat) (f : Monitor → Monitor) : (s.modMon k f).ic = s.ic := rfl
@[simp] theorem State.modMon_err (s : State) (k : Nat) (f : Monitor → Monitor) : (s.modMon k f).err = s.err := rfl
@[simp] theorem State.modMon_perf (s : State) (k : Nat) (f : Monitor → Monitor) : (s.modMon k f).perf = s.perf := rfl
@[simp] theorem State.modMon_sec (s : State) (k : Nat) (f : Monitor → Monitor) : (s.modMon k f).sec = s.sec := rfl
@[simp] theorem State.modMon_tamper (s : State) (k : Nat) (f : Monitor → Monitor) : (s.modMon k f).tamper = s.tamper := rfl
@[simp] theorem State.modMon_pwr (s : State) (k : Nat) (f : Monitor → Monitor) : (s.modMon k f).pwr = s.pwr := rfl
@[simp] theorem State.modMon_rtc (s : State) (k : Nat) (f : Monitor → Monitor) : (s.modMon k f).rtc = s.rtc := rfl
@[simp] theorem State.modMon_deferred (s : State) (k : Nat) (f : Monitor → Monitor) : (s.modMon k f).deferred = s.deferred := rfl
@[simp] theorem State.modMon_lastRead (s : State) (k : Nat) (f : Monitor → Monitor) : (s.modMon k f).lastRead = s.lastRead := rfl
@[simp] theorem State.modMon_freeCnt (s : State) (k : Nat) (f : Monitor → Monitor) : (s.modMon k f).freeCnt = s.freeCnt := rfl

/-! The part an update changes. -/

@[simp] theorem State.modCh_chan (s : State) (n : Nat) (f : Channel → Channel) : (s.modCh n f).chan n = f (s.chan n) := by
  simp [State.modCh, State.chan]
@[simp] theorem State.modOut_chan (s : State) (n : Nat) (f : ChOut → ChOut) : (s.modOut n f).chan n = { s.chan n with out := f (s.chan n).out } := by
  simp [State.modOut, State.modCh, State.chan]
@[simp] theorem State.modIn_chan (s : State) (n : Nat) (f : ChIn → ChIn) : (s.modIn n f).chan n = { s.chan n with inp := f (s.chan n).inp } := by
  simp [State.modIn, State.modCh, State.chan]
@[simp] theorem State.modPu_chan (s : State) (n : Nat) (f : PatUnit → PatUnit) : (s.modPu n f).chan n = { s.chan n with pu := f (s.chan n).pu } := by
  simp [State.modPu, State.modCh, State.chan]
@[simp] theorem State.modPr_chan (s : State) (n : Nat) (f : ChPair → ChPair) : (s.modPr n f).chan n = { s.chan n with pr := f (s.chan n).pr } := by
  simp [State.modPr, State.modCh, State.chan]
@[simp] theorem State.modCal_chan (s : State) (n : Nat) (f : ChCal → ChCal) : (s.modCal n f).chan n = { s.chan n with cal := f (s.chan n).cal } := by
  simp [State.modCal, State.modCh, State.chan]
@[simp] theorem State.modCl_clus (s : State) (c : Nat) (f : Cluster → Cluster) : (s.modCl c f).clus c = f (s.clus c) := by
  simp [State.modCl, State.clus]
@[simp] theorem State.modMe_me (s : State) (c : Nat) (f : Microengine → Microengine) : (s.modMe c f).me c = f (s.me c) := by
  simp [State.modMe, State.modCl, State.me]
@[simp] theorem State.modSlot_slotAt (s : State) (k : Nat) (f : Slot → Slot) : (s.modSlot k f).slotAt k = f (s.slotAt k) := by
  simp [State.modSlot, State.slotAt]
@[simp] theorem State.modDec_decAt (s : State) (d : Nat) (f : Decoder → Decoder) : (s.modDec d f).decAt d = f (s.decAt d) := by
  simp [State.modDec, State.decAt]
@[simp] theorem State.modTim_timAt (s : State) (n : Nat) (f : Timer → Timer) : (s.modTim n f).timAt n = f (s.timAt n) := by
  simp [State.modTim, State.timAt]
@[simp] theorem State.modBrk_brkAt (s : State) (b : Nat) (f : Brake → Brake) : (s.modBrk b f).brkAt b = f (s.brkAt b) := by
  simp [State.modBrk, State.brkAt]
@[simp] theorem State.modBank_bankAt (s : State) (b : Nat) (f : Bank → Bank) : (s.modBank b f).bankAt b = f (s.bankAt b) := by
  simp [State.modBank, State.bankAt]
@[simp] theorem State.modDma_dmaAt (s : State) (k : Nat) (f : Dma → Dma) : (s.modDma k f).dmaAt k = f (s.dmaAt k) := by
  simp [State.modDma, State.dmaAt]
@[simp] theorem State.modMb_mbAt (s : State) (m : Nat) (f : Mailbox → Mailbox) : (s.modMb m f).mbAt m = f (s.mbAt m) := by
  simp [State.modMb, State.mbAt]
@[simp] theorem State.modQp_qpAt (s : State) (q : Nat) (f : QueuePair → QueuePair) : (s.modQp q f).qpAt q = f (s.qpAt q) := by
  simp [State.modQp, State.qpAt]
@[simp] theorem State.modSrc_srcAt (s : State) (k : Nat) (f : Source → Source) : (s.modSrc k f).srcAt k = f (s.srcAt k) := by
  simp [State.modSrc, State.srcAt]

end Sys2Proof.Machine
end

