-- ==== Sys2Proof/Laws/Send.lean ====
section
/-! SUPPORT. A command row: what the mailbox holds when its message has been posted, and when the message is taken. -/
namespace Sys2Proof.Machine

theorem vset_vset {α : Type} {n : Nat} [NeZero n] (v : Vector α n) (i : Nat) (a b : α) : vset (vset v i a) i b = vset v i b := by
  simp [vset]

theorem vmod_vmod {α : Type} {n : Nat} [NeZero n] (v : Vector α n) (i : Nat) (f g : α → α) : vmod (vmod v i f) i g = vmod v i fun x => g (f x) := by
  simp [vmod, vset_vset]

theorem State.modMb_modMb (s : State) (m : Nat) (f g : Mailbox → Mailbox) : (s.modMb m f).modMb m g = s.modMb m fun x => g (f x) := by
  simp [State.modMb, vmod_vmod]

theorem vset_self {α : Type} {n : Nat} [NeZero n] (v : Vector α n) (i : Nat) : vset v i (vget v i) = v := by
  simp [vset, vget]

theorem State.modMb_id (s : State) (m : Nat) : (s.modMb m fun x => x) = s := by
  simp [State.modMb, vmod, vset_self]

/-- Data words 1 to n written. -/
def fillWords (p : List W32) (n : Nat) (v : Vector W32 16) : Vector W32 16 :=
  (List.range n).foldl (fun v j => vset v (j + 1) (pw p (j + 1))) v

theorem fillWords_succ (p : List W32) (n : Nat) (v : Vector W32 16) :
    fillWords p (n + 1) v = vset (fillWords p n v) (n + 1) (pw p (n + 1)) := by
  simp [fillWords, List.range_succ]

theorem fillWords_get (p : List W32) (v : Vector W32 16) : ∀ (n : Nat), n ≤ 15 → ∀ i, i < n → vget (fillWords p n v) (i + 1) = pw p (i + 1)
  | 0, _, _, hi => absurd hi (Nat.not_lt_zero _)
  | n + 1, hn, i, hi => by
    rw [fillWords_succ]
    by_cases e : i = n
    · subst e; exact vget_vset_self _ _ _
    · rw [vget_vset_ne _ _ (by omega)]
      exact fillWords_get p v n (by omega) i (by omega)

/-- The host's data writes into a mailbox that it may write. -/
theorem State.hostWords (p : List W32) (mb : Nat) : ∀ (n : Nat) (s : State), (s.mbAt mb).state.open_ = true →
    (s.each (List.range n) fun s j => s.mbWrite mb (j + 1) (pw p (j + 1))) = s.modMb mb fun x => { x with data := fillWords p n x.data }
  | 0, s, _ => by simp only [List.range_zero, State.each, List.foldl_nil, fillWords]; exact (State.modMb_id s mb).symm
  | n + 1, s, h => by
    have ih := State.hostWords p mb n s h
    simp only [State.each] at ih
    simp only [State.each, List.range_succ, List.foldl_append, List.foldl_cons, List.foldl_nil]
    rw [ih]
    simp only [State.mbWrite, State.modMb_mbAt, h, if_true, State.modMb_modMb, fillWords_succ]

/-- The header that a row writes. -/
def msgHeader (m : Msg) (op : Nat) : W32 := w32 (put 16 16 op + put 8 8 m.len + m.seq.toNat)

/-- The mailbox after the host's writes, before GO. -/
def msgFill (m : Msg) (op : Nat) (p : List W32) (x : Mailbox) : Mailbox :=
  { x with data := vset (fillWords p m.len x.data) 0 (msgHeader m op) }

theorem State.hostPost_open (s : State) (m : Msg) (op : Nat) (p : List W32) (h : (s.mbAt m.mb).state.open_ = true) :
    s.hostPost m op p = (s.modMb m.mb (msgFill m op p)).mbGo m.mb := by
  unfold State.hostPost
  dsimp only
  rw [State.hostWords p m.mb m.len s h]
  simp only [State.mbWrite, State.modMb_mbAt, h, if_true, State.modMb_modMb]
  rfl

/-- The mailbox of a message that GO has just posted. -/
def Mailbox.posted (x : Mailbox) (order now : Nat) : Mailbox :=
  { x with state := .posted, ackDone := false, ackTaken := false, ackTimeout := false, ackRestarted := false,
           ackCode := 0, ackRlen := 0, ackSeq := x.seq, goOrder := order, tmoAt := some (now + x.tmoMs * msTq),
           applied := false, wait := .none }

theorem same_eq {l : List Kind} {k : Kind} {α : Type} {x y : α} (h : k ∈ l ∨ y = x) (n : l.contains k = false) : y = x := by
  cases h with
  | inl m => rw [List.contains_iff_mem.mpr m] at n; cases n
  | inr e => exact e

theorem State.lines_mb (s : State) : s.lines.mb = s.mb := same_eq (l := [.ic]) (State.lines_same rfl (Same.refl _ s)).mb rfl
theorem State.lines_pwr (s : State) : s.lines.pwr = s.pwr := same_eq (l := [.ic]) (State.lines_same rfl (Same.refl _ s)).pwr rfl
theorem State.wakeBy_mb (s : State) (b : Nat) : (s.wakeBy b).mb = s.mb := same_eq (l := [.pwr]) (State.wakeBy_same rfl (Same.refl _ s) b).mb rfl

theorem State.mbGo_mb (s : State) (m : Nat) (h : (s.mbAt m).state.open_ = true) :
    (s.mbGo m).mb = vmod s.mb m fun x => x.posted s.goNext s.now := by
  unfold State.mbGo
  simp only [h, if_true, State.lines_mb, State.wakeBy_mb]
  rfl

theorem State.hostPost_mb (s : State) (m : Msg) (op : Nat) (p : List W32) (h : (s.mbAt m.mb).state.open_ = true) :
    (s.hostPost m op p).mb = vmod s.mb m.mb fun x => (msgFill m op p x).posted s.goNext s.now := by
  rw [State.hostPost_open s m op p h, State.mbGo_mb _ _ (by rw [State.modMb_mbAt]; exact h)]
  simp only [State.modMb, vmod_vmod]
  rfl

theorem State.hostPost_mbAt (s : State) (m : Msg) (op : Nat) (p : List W32) (h : (s.mbAt m.mb).state.open_ = true) :
    (s.hostPost m op p).mbAt m.mb = (msgFill m op p (s.mbAt m.mb)).posted s.goNext s.now := by
  simp only [State.mbAt, State.hostPost_mb s m op p h, vget_vmod_self]

theorem msgHeader_bits (m : Msg) (op : Nat) (h : op < 65536) :
    bits (msgHeader m op) 31 16 = op ∧ bits (msgHeader m op) 15 8 = m.len.val ∧ bits (msgHeader m op) 7 0 = m.seq.toNat := by
  have hl := m.len.isLt
  have hs := m.seq.isLt
  simp only [bits, msgHeader, w32, put, BitVec.toNat_ofNat]
  simp only [Nat.reducePow, Nat.reduceSub, Nat.reduceAdd] at *
  omega

theorem msgFill_header (m : Msg) (op : Nat) (p : List W32) (x : Mailbox) (a b : Nat) : ((msgFill m op p x).posted a b).header = msgHeader m op := by
  simp [Mailbox.header, msgFill, Mailbox.posted]

/-- The payload words of a row: the first LEN of its words. -/
def msgPayload (m : Msg) (p : List W32) : List W32 := (List.range m.len).map fun j => pw p (j + 1)

theorem msgFill_payload (m : Msg) (op : Nat) (h : op < 65536) (p : List W32) (x y : Mailbox) (hd : y.data = (msgFill m op p x).data) :
    y.payload = msgPayload m p := by
  have hl := m.len.isLt
  have hh : y.header = msgHeader m op := by simp [Mailbox.header, hd, msgFill]
  have hn : y.len = m.len := by simp only [Mailbox.len, hh]; exact (msgHeader_bits m op h).2.1
  apply List.ext_getElem
  · simp [Mailbox.payload, msgPayload, hn]; omega
  · intro i h1 h2
    have hi : i < m.len := by simpa [msgPayload] using h2
    have e := fillWords_get p x.data m.len (by omega) i hi
    simp only [Mailbox.payload, List.getElem_take, List.getElem_drop, Vector.getElem_toList, msgPayload, List.getElem_map, List.getElem_range, hd, msgFill]
    rw [← e, ← vget_vset_ne (fillWords p m.len x.data) (i := 0) (j := i + 1) (msgHeader m op) (by omega)]
    simp only [vget]
    congr 1
    omega

theorem State.mbTake_mb (s : State) (m : Nat) :
    (s.mbTake m).mb = vmod s.mb m fun x => { x with state := .taken, ackTaken := true, takenAt := s.now } := by
  simp only [State.mbTake, State.lines_mb, State.modMb]

/-- What the mailbox of a row holds when its message has been taken. -/
theorem State.hostPost_taken (s : State) (m : Msg) (op : Nat) (hop : op < 65536) (p : List W32) (h : (s.mbAt m.mb).state.open_ = true) :
    (((s.hostPost m op p).mbTake m.mb).mbAt m.mb).opcode = op ∧ (((s.hostPost m op p).mbTake m.mb).mbAt m.mb).len = m.len.val ∧
      (((s.hostPost m op p).mbTake m.mb).mbAt m.mb).payload = msgPayload m p := by
  have e : ((s.hostPost m op p).mbTake m.mb).mbAt m.mb =
      { (msgFill m op p (s.mbAt m.mb)).posted s.goNext s.now with state := .taken, ackTaken := true, takenAt := (s.hostPost m op p).now } := by
    simp only [State.mbAt, State.mbTake_mb, vget_vmod_self]
    exact congrArg (fun x : Mailbox => { x with state := .taken, ackTaken := true, takenAt := (s.hostPost m op p).now }) (State.hostPost_mbAt s m op p h)
  have b := msgHeader_bits m op hop
  have hh : (((s.hostPost m op p).mbTake m.mb).mbAt m.mb).header = msgHeader m op := by
    rw [e]; exact msgFill_header m op p (s.mbAt m.mb) s.goNext s.now
  refine ⟨?_, ?_, ?_⟩
  · simp only [Mailbox.opcode, hh]; exact b.1
  · simp only [Mailbox.len, hh]; exact b.2.1
  · exact msgFill_payload m op hop p (s.mbAt m.mb) _ (by rw [e]; rfl)

/-- A row whose mailbox cannot take its words changes nothing but flags, a report and counters. -/
theorem State.send_closed (s : State) (m : Msg) (op : Nat) (p : List W32) (h : (s.mbAt m.mb).state.open_ = false) :
    s.send m op p = s.hostPost m op p := by
  simp [State.send, h]

/-- A row whose message is taken at once. -/
theorem State.send_open (s : State) (m : Msg) (op : Nat) (p : List W32) (h : (s.mbAt m.mb).state.open_ = true) :
    s.send m op p = (s.hostPost m op p).take m.mb m.env := by
  simp [State.send, h]

/-- A non-secure row taken at once, with a packet that passes the checks of R376, runs the handler of its opcode. -/
theorem State.send_runs (s : State) (m : Msg) (op : Nat) (p : List W32) (hop : op < 65536)
    (hn : op ≠ 0x0103 ∧ op ≠ 0x0B00 ∧ op ≠ 0x0B01 ∧ op ≠ 0x0B02) (h : (s.mbAt m.mb).state.open_ = true)
    (ht : (s.hostPost m op p).canTake m.mb = true) (hs : secureMb m.mb = false)
    (hc : ((s.hostPost m op p).mbTake m.mb).packetCheck m.mb op m.len = 0) :
    s.send m op p = State.finish (((s.hostPost m op p).mbTake m.mb).guarded 0 m.mb op m.env (msgPayload m p)) m.mb := by
  obtain ⟨e1, e2, e3⟩ := State.hostPost_taken s m op hop p h
  rw [State.send_open s m op p h]
  simp only [State.take, ht, hs, State.runPacket, e1, e2, e3, hc]
  simp only [Bool.not_true, Bool.false_eq_true, if_false, ne_eq, not_true_eq_false]
  split
  · exact absurd rfl hn.1
  · exact absurd rfl hn.2.1
  · exact absurd rfl hn.2.2.1
  · exact absurd rfl hn.2.2.2
  · rfl

/-- What posting, taking and answering a message may change besides what its handler changes. -/
def mailKinds : List Kind := [.mb, .goNext, .ic, .err, .perf, .pwr]

/-- The frame of a row of a non-secure opcode: that of the packet's run and of the mailbox. -/
theorem State.send_frameOf {kl : List Kind} (hw : within mailKinds kl = true) (s : State) (m : Msg) (op : Nat) (p : List W32) (hop : op < 65536)
    (hsec : secureOp op = false)
    (hc : ∀ {t : State}, Same kl s t → (t.mbAt m.mb).opcode = op → Same kl s (t.runPacket m.mb m.env)) : Same kl s (s.send m op p) := by
  have hp : Same kl s (s.hostPost m op p) := State.hostPost_same (within_trans (by decide) hw) (Same.refl _ s) m op p
  cases h : (s.mbAt m.mb).state.open_
  · rw [State.send_closed s m op p h]; exact hp
  · rw [State.send_open s m op p h]
    unfold State.take
    apply Same.ite
    · exact hp
    have ht := State.mbTake_same (within_trans (by decide) hw) hp m.mb
    have e1 := (State.hostPost_taken s m op hop p h).1
    dsimp only
    split
    · unfold State.runSecure
      dsimp only
      rename_i g
      rw [if_pos]
      · exact State.mbDone_same (within_trans (by decide) hw) ht _ _ _
      · rw [e1]
        unfold State.packetCheck
        split
        · decide
        · simp only [hsec, g, firstCode]
          show rcDenied ≠ 0
          decide
    · exact hc ht e1

/-- The frame of a packet whose opcode has a handler of the common kind. -/
theorem State.runPacket_frame {kl : List Kind} (hw : within mailKinds kl = true) {s t : State} (ht : Same kl s t) (mb op : Nat) (env : Env)
    (e1 : (t.mbAt mb).opcode = op) (hn : op ≠ 0x0103 ∧ op ≠ 0x0B00 ∧ op ≠ 0x0B01 ∧ op ≠ 0x0B02)
    (hc : ∀ q, Same kl s (t.command mb op env q).state) : Same kl s (t.runPacket mb env) := by
  unfold State.runPacket
  dsimp only
  apply Same.ite
  · exact State.mbDone_same (within_trans (by decide) hw) ht _ _ _
  rw [e1]
  split
  · exact absurd rfl hn.1
  · exact absurd rfl hn.2.1
  · exact absurd rfl hn.2.2.1
  · exact absurd rfl hn.2.2.2
  · apply State.finish_same (within_trans (by decide) hw)
    unfold State.guarded
    dsimp only
    apply Same.iteRes
    · exact fail_same ht _
    · exact hc _

/-- The frame of a row whose opcode has a handler of the common kind. -/
theorem State.send_frame {kl : List Kind} (hw : within mailKinds kl = true) (s : State) (m : Msg) (op : Nat) (p : List W32) (hop : op < 65536)
    (hn : op ≠ 0x0103 ∧ op ≠ 0x0B00 ∧ op ≠ 0x0B01 ∧ op ≠ 0x0B02) (hsec : secureOp op = false)
    (hc : ∀ {t : State}, Same kl s t → ∀ q, Same kl s (t.command m.mb op m.env q).state) : Same kl s (s.send m op p) :=
  State.send_frameOf hw s m op p hop hsec fun ht e => State.runPacket_frame hw ht m.mb op m.env e hn (hc ht)

/-- The frame of SYS_RESET and of the group commands. -/
theorem State.runPacket_special {kl : List Kind} (hw : within mailKinds kl = true) {s t : State} (ht : Same kl s t) (mb op : Nat) (env : Env)
    (e1 : (t.mbAt mb).opcode = op)
    (h0 : op = 0x0103 → ∀ {u : State}, Same kl s u → ∀ q, Same kl s (u.sysReset q env.silent))
    (h1 : op = 0x0B00 → ∀ q, Same kl s (cmdGrpPrepare t env q).state) (h2 : op = 0x0B01 → ∀ q, Same kl s (cmdGrpCommit t q).state)
    (h3 : op = 0x0B02 → ∀ q, Same kl s (cmdGrpAbandon t q).state)
    (h : op = 0x0103 ∨ op = 0x0B00 ∨ op = 0x0B01 ∨ op = 0x0B02) : Same kl s (t.runPacket mb env) := by
  unfold State.runPacket
  dsimp only
  apply Same.ite
  · exact State.mbDone_same (within_trans (by decide) hw) ht _ _ _
  rw [e1]
  split
  · apply Same.ite
    · exact State.mbDone_same (within_trans (by decide) hw) ht _ _ _
    · exact h0 rfl (State.finish_same (within_trans (by decide) hw) (okay_same ht _) _) _
  · exact State.finish_same (within_trans (by decide) hw) (h1 rfl _) _
  · exact State.finish_same (within_trans (by decide) hw) (h2 rfl _) _
  · exact State.finish_same (within_trans (by decide) hw) (h3 rfl _) _
  · rcases h with h | h | h | h <;> simp_all

/-- What the secure path may change. -/
def secureKinds : List Kind := [.ch, .cl, .env, .st, .mb, .goNext, .qp, .ic, .err, .perf, .sec, .tamper, .pwr]

/-- The frame of a row of a secure opcode. -/
theorem State.send_frameSec {kl : List Kind} (hw : within secureKinds kl = true) (s : State) (m : Msg) (op : Nat) (p : List W32) (hop : op < 65536)
    (hsec : secureOp op = true) : Same kl s (s.send m op p) := by
  have hp : Same kl s (s.hostPost m op p) := State.hostPost_same (within_trans (by decide) hw) (Same.refl _ s) m op p
  cases h : (s.mbAt m.mb).state.open_
  · rw [State.send_closed s m op p h]; exact hp
  · rw [State.send_open s m op p h]
    unfold State.take
    apply Same.ite
    · exact hp
    have ht := State.mbTake_same (within_trans (by decide) hw) hp m.mb
    have e1 := (State.hostPost_taken s m op hop p h).1
    dsimp only
    split
    · exact State.runSecure_same (within_trans (by decide) hw) ht _ _
    · unfold State.runPacket
      dsimp only
      rename_i g
      rw [if_pos]
      · exact State.mbDone_same (within_trans (by decide) hw) ht _ _ _
      · rw [e1]
        unfold State.packetCheck
        split
        · decide
        · simp only [hsec, g, firstCode]
          show rcDenied ≠ 0
          decide

end Sys2Proof.Machine
end

