-- ==== Sys2Proof/Laws/SameExec.lean ====
section
/-! SUPPORT. The frame of every command. -/
namespace Sys2Proof.Machine

/-- A row's state. -/
theorem ofSend {l : List Kind} {s u : State} (h : ∀ t, u = t → Same l s t) : ∀ t, Host.Outcome.next (φ := Fault) (ρ := Refusal) u = .next t → Same l s t := by
  intro t e; cases e; exact h _ rfl

/-- A command changes no other kind of state than its row says. -/
theorem exec_frame (i : Instr) (s : State) : ∀ t, exec i s = .next t → Same i.mayChange s t :=
  match i with
  | .sysPing m => ofSend fun t e => by cases e; exact State.send_frame rfl s m 0x0100 m.words (by decide) (by decide) rfl fun ht q => cmdSysPing_same rfl ht _
  | .sysGetInfo m => ofSend fun t e => by cases e; exact State.send_frame rfl s m 0x0101 m.words (by decide) (by decide) rfl fun ht q => cmdSysGetInfo_same rfl ht _
  | .sysGetHealth m => ofSend fun t e => by cases e; exact State.send_frame rfl s m 0x0102 m.words (by decide) (by decide) rfl fun ht q => cmdSysGetHealth_same rfl ht
  | .sysResetFirmware m => ofSend fun t e => by
    cases e
    exact State.send_frameOf rfl s m 0x0103 (setField 1 1 0 0 m.words) (by decide) rfl fun ht e => State.runPacket_special rfl ht _ _ _ e (fun _ _ hu q => State.sysReset_same rfl hu q _) (fun h => absurd h (by decide)) (fun h => absurd h (by decide)) (fun h => absurd h (by decide)) (by decide)
  | .sysResetDevice m => ofSend fun t e => by
    cases e
    exact State.send_frameOf rfl s m 0x0103 (setField 1 1 0 1 m.words) (by decide) rfl fun ht e => State.runPacket_special rfl ht _ _ _ e (fun _ _ hu q => State.sysReset_same rfl hu q _) (fun h => absurd h (by decide)) (fun h => absurd h (by decide)) (fun h => absurd h (by decide)) (by decide)
  | .sysSetMirror m => ofSend fun t e => by cases e; exact State.send_frame rfl s m 0x0104 m.words (by decide) (by decide) rfl fun ht q => cmdSysSetMirror_same rfl ht _
  | .tsSetReference m => ofSend fun t e => by cases e; exact State.send_frame rfl s m 0x0200 m.words (by decide) (by decide) rfl fun ht q => cmdTsSetReference_same rfl ht _
  | .tsSetTick m => ofSend fun t e => by cases e; exact State.send_frame rfl s m 0x0201 m.words (by decide) (by decide) rfl fun ht q => cmdTsSetTick_same rfl ht _ _
  | .tsDiscipline m => ofSend fun t e => by cases e; exact State.send_frame rfl s m 0x0202 m.words (by decide) (by decide) rfl fun ht q => cmdTsDiscipline_same rfl ht _ _
  | .tsSetTimeAtTick m => ofSend fun t e => by cases e; exact State.send_frame rfl s m 0x0203 (setField 1 1 0 0 m.words) (by decide) (by decide) rfl fun ht q => cmdTsSetTime_same rfl ht _ _
  | .tsSetTimeAtPps m => ofSend fun t e => by cases e; exact State.send_frame rfl s m 0x0203 (setField 1 1 0 1 m.words) (by decide) (by decide) rfl fun ht q => cmdTsSetTime_same rfl ht _ _
  | .tsSetTimeCancel m => ofSend fun t e => by cases e; exact State.send_frame rfl s m 0x0203 (setField 1 1 0 2 m.words) (by decide) (by decide) rfl fun ht q => cmdTsSetTime_same rfl ht _ _
  | .tsRtcSetNow m => ofSend fun t e => by cases e; exact State.send_frame rfl s m 0x0204 (setField 1 1 0 0 m.words) (by decide) (by decide) rfl fun ht q => cmdTsRtcSet_same rfl ht _
  | .tsRtcSetAtNextMark m => ofSend fun t e => by cases e; exact State.send_frame rfl s m 0x0204 (setField 1 1 0 1 m.words) (by decide) (by decide) rfl fun ht q => cmdTsRtcSet_same rfl ht _
  | .tsRtcSetAtPps m => ofSend fun t e => by cases e; exact State.send_frame rfl s m 0x0204 (setField 1 1 0 2 m.words) (by decide) (by decide) rfl fun ht q => cmdTsRtcSet_same rfl ht _
  | .tsRtcSetOffsetOnly m => ofSend fun t e => by cases e; exact State.send_frame rfl s m 0x0204 (setField 1 1 0 3 m.words) (by decide) (by decide) rfl fun ht q => cmdTsRtcSet_same rfl ht _
  | .tsRtcRead m => ofSend fun t e => by cases e; exact State.send_frame rfl s m 0x0205 m.words (by decide) (by decide) rfl fun ht q => cmdTsRtcRead_same rfl ht
  | .chSetInput m => ofSend fun t e => by cases e; exact State.send_frame rfl s m 0x0300 m.words (by decide) (by decide) rfl fun ht q => cmdChSetInput_same rfl ht _
  | .chSetOutput m => ofSend fun t e => by cases e; exact State.send_frame rfl s m 0x0301 m.words (by decide) (by decide) rfl fun ht q => cmdChSetOutput_same rfl ht _
  | .chEnable m => ofSend fun t e => by cases e; exact State.send_frame rfl s m 0x0302 m.words (by decide) (by decide) rfl fun ht q => cmdChEnable_same rfl ht _
  | .chDisable m => ofSend fun t e => by cases e; exact State.send_frame rfl s m 0x0303 m.words (by decide) (by decide) rfl fun ht q => cmdChDisable_same rfl ht _
  | .measDefine m => ofSend fun t e => by cases e; exact State.send_frame rfl s m 0x0400 m.words (by decide) (by decide) rfl fun ht q => cmdMeasDefine_same rfl ht _
  | .measArm m => ofSend fun t e => by cases e; exact State.send_frame rfl s m 0x0401 m.words (by decide) (by decide) rfl fun ht q => cmdMeasArm_same rfl ht _
  | .measStop m => ofSend fun t e => by cases e; exact State.send_frame rfl s m 0x0402 m.words (by decide) (by decide) rfl fun ht q => cmdMeasStop_same rfl ht _
  | .measRead m => ofSend fun t e => by cases e; exact State.send_frame rfl s m 0x0403 m.words (by decide) (by decide) rfl fun ht q => cmdMeasRead_same rfl ht _
  | .histDefine m => ofSend fun t e => by cases e; exact State.send_frame rfl s m 0x0404 m.words (by decide) (by decide) rfl fun ht q => cmdHistDefine_same rfl ht _
  | .synPattern m => ofSend fun t e => by cases e; exact State.send_frame rfl s m 0x0500 (setField 1 31 31 0 m.words) (by decide) (by decide) rfl fun ht q => cmdSynPattern_same rfl ht _
  | .synPatternShadow m => ofSend fun t e => by cases e; exact State.send_frame rfl s m 0x0500 (setField 1 31 31 1 m.words) (by decide) (by decide) rfl fun ht q => cmdSynPattern_same rfl ht _
  | .synPair m => ofSend fun t e => by cases e; exact State.send_frame rfl s m 0x0501 m.words (by decide) (by decide) rfl fun ht q => cmdSynPair_same rfl ht _
  | .synBrakeCfgSetInput m => ofSend fun t e => by cases e; exact State.send_frame rfl s m 0x0502 (setField 1 8 8 1 m.words) (by decide) (by decide) rfl fun ht q => cmdSynBrakeCfg_same rfl ht _
  | .synBrakeCfgSetGuard m => ofSend fun t e => by cases e; exact State.send_frame rfl s m 0x0502 (setField 1 9 9 1 m.words) (by decide) (by decide) rfl fun ht q => cmdSynBrakeCfg_same rfl ht _
  | .synBrakeClear m => ofSend fun t e => by cases e; exact State.send_frame rfl s m 0x0503 m.words (by decide) (by decide) rfl fun ht q => cmdSynBrakeClear_same rfl ht _
  | .qdDefine m => ofSend fun t e => by cases e; exact State.send_frame rfl s m 0x0600 m.words (by decide) (by decide) rfl fun ht q => cmdQdDefine_same rfl ht _
  | .qdRead m => ofSend fun t e => by cases e; exact State.send_frame rfl s m 0x0601 m.words (by decide) (by decide) rfl fun ht q => cmdQdRead_same rfl ht _
  | .ucLoad m => ofSend fun t e => by cases e; exact State.send_frame rfl s m 0x0700 m.words (by decide) (by decide) rfl fun ht q => cmdUcLoad_same rfl ht _
  | .taskSet m => ofSend fun t e => by cases e; exact State.send_frame rfl s m 0x0701 m.words (by decide) (by decide) rfl fun ht q => cmdTaskSet_same rfl ht _
  | .taskRemove m => ofSend fun t e => by cases e; exact State.send_frame rfl s m 0x0702 m.words (by decide) (by decide) rfl fun ht q => cmdTaskRemove_same rfl ht _
  | .schedCheck m => ofSend fun t e => by cases e; exact State.send_frame rfl s m 0x0703 m.words (by decide) (by decide) rfl fun ht q => cmdSchedCheck_same rfl ht _
  | .timerSet m => ofSend fun t e => by cases e; exact State.send_frame rfl s m 0x0704 m.words (by decide) (by decide) rfl fun ht q => cmdTimerSet_same rfl ht _
  | .calRun m => ofSend fun t e => by cases e; exact State.send_frame rfl s m 0x0800 m.words (by decide) (by decide) rfl fun ht q => cmdCalRun_same rfl ht _
  | .calStatus m => ofSend fun t e => by cases e; exact State.send_frame rfl s m 0x0801 m.words (by decide) (by decide) rfl fun ht q => cmdCalStatus_same rfl ht _
  | .calPolicy m => ofSend fun t e => by cases e; exact State.send_frame rfl s m 0x0802 m.words (by decide) (by decide) rfl fun ht q => cmdCalPolicy_same rfl ht _
  | .envTdrMeasure m => ofSend fun t e => by cases e; exact State.send_frame rfl s m 0x0803 (setField 1 17 16 0 m.words) (by decide) (by decide) rfl fun ht q => cmdEnvTdr_same rfl ht _
  | .envTdrApply m => ofSend fun t e => by cases e; exact State.send_frame rfl s m 0x0803 (setField 1 17 16 1 m.words) (by decide) (by decide) rfl fun ht q => cmdEnvTdr_same rfl ht _
  | .envTdrSet m => ofSend fun t e => by cases e; exact State.send_frame rfl s m 0x0803 (setField 1 17 16 2 m.words) (by decide) (by decide) rfl fun ht q => cmdEnvTdr_same rfl ht _
  | .envTdrClear m => ofSend fun t e => by cases e; exact State.send_frame rfl s m 0x0803 (setField 1 17 16 3 m.words) (by decide) (by decide) rfl fun ht q => cmdEnvTdr_same rfl ht _
  | .envMonitors m => ofSend fun t e => by cases e; exact State.send_frame rfl s m 0x0804 (setField 1 9 8 0 m.words) (by decide) (by decide) rfl fun ht q => cmdEnvMonitors_same rfl ht _
  | .envMonitorsSetWin m => ofSend fun t e => by cases e; exact State.send_frame rfl s m 0x0804 (setField 1 8 8 1 m.words) (by decide) (by decide) rfl fun ht q => cmdEnvMonitors_same rfl ht _
  | .envMonitorsClearTrip m => ofSend fun t e => by cases e; exact State.send_frame rfl s m 0x0804 (setField 1 9 9 1 m.words) (by decide) (by decide) rfl fun ht q => cmdEnvMonitors_same rfl ht _
  | .streamOpenCapture m => ofSend fun t e => by cases e; exact State.send_frame rfl s m 0x0900 (setField 1 5 4 0 m.words) (by decide) (by decide) rfl fun ht q => cmdStreamOpen_same rfl ht _
  | .streamOpenBlock m => ofSend fun t e => by cases e; exact State.send_frame rfl s m 0x0900 (setField 1 5 4 1 m.words) (by decide) (by decide) rfl fun ht q => cmdStreamOpen_same rfl ht _
  | .streamOpenCopy m => ofSend fun t e => by cases e; exact State.send_frame rfl s m 0x0900 (setField 1 5 4 2 m.words) (by decide) (by decide) rfl fun ht q => cmdStreamOpen_same rfl ht _
  | .streamClose m => ofSend fun t e => by cases e; exact State.send_frame rfl s m 0x0901 (setField 1 8 8 0 m.words) (by decide) (by decide) rfl fun ht q => cmdStreamClose_same rfl ht _
  | .streamCloseDiscard m => ofSend fun t e => by cases e; exact State.send_frame rfl s m 0x0901 (setField 1 8 8 1 m.words) (by decide) (by decide) rfl fun ht q => cmdStreamClose_same rfl ht _
  | .bankAssign m => ofSend fun t e => by cases e; exact State.send_frame rfl s m 0x0902 m.words (by decide) (by decide) rfl fun ht q => cmdBankAssign_same rfl ht _
  | .pwrSetStateTrim m => ofSend fun t e => by cases e; exact State.send_frame rfl s m 0x0A00 (setField 1 1 1 0 m.words) (by decide) (by decide) rfl fun ht q => cmdPwrSetState_same rfl ht _ _
  | .pwrSetStateRetain m => ofSend fun t e => by cases e; exact State.send_frame rfl s m 0x0A00 (setField 1 1 0 2 m.words) (by decide) (by decide) rfl fun ht q => cmdPwrSetState_same rfl ht _ _
  | .pwrSetStateBackupOnly m => ofSend fun t e => by cases e; exact State.send_frame rfl s m 0x0A00 (setField 1 1 0 3 m.words) (by decide) (by decide) rfl fun ht q => cmdPwrSetState_same rfl ht _ _
  | .pwrRetainBanks m => ofSend fun t e => by cases e; exact State.send_frame rfl s m 0x0A01 m.words (by decide) (by decide) rfl fun ht q => cmdPwrRetainBanks_same rfl ht _
  | .grpPrepare m => ofSend fun t e => by
    cases e
    exact State.send_frameOf rfl s m 0x0B00 m.words (by decide) rfl fun ht e => State.runPacket_special rfl ht _ _ _ e (fun h => absurd h (by decide)) (fun _ q => cmdGrpPrepare_same rfl ht _ q) (fun h => absurd h (by decide)) (fun h => absurd h (by decide)) (by decide)
  | .grpCommit m => ofSend fun t e => by
    cases e
    exact State.send_frameOf rfl s m 0x0B01 m.words (by decide) rfl fun ht e => State.runPacket_special rfl ht _ _ _ e (fun h => absurd h (by decide)) (fun h => absurd h (by decide)) (fun _ q => cmdGrpCommit_same rfl ht q) (fun h => absurd h (by decide)) (by decide)
  | .grpAbandon m => ofSend fun t e => by
    cases e
    exact State.send_frameOf rfl s m 0x0B02 m.words (by decide) rfl fun ht e => State.runPacket_special rfl ht _ _ _ e (fun h => absurd h (by decide)) (fun h => absurd h (by decide)) (fun h => absurd h (by decide)) (fun _ q => cmdGrpAbandon_same rfl ht q) (by decide)
  | .bxLink m => ofSend fun t e => by cases e; exact State.send_frame rfl s m 0x0C00 m.words (by decide) (by decide) rfl fun ht q => cmdBxLink_same rfl ht _
  | .bxAlign m => ofSend fun t e => by cases e; exact State.send_frame rfl s m 0x0C01 m.words (by decide) (by decide) rfl fun ht q => cmdBxAlign_same rfl ht _
  | .secChallenge m => ofSend fun t e => by cases e; exact State.send_frameSec rfl s m 0x0F00 (setField 1 3 0 0 m.words) (by decide) rfl
  | .secOpen m => ofSend fun t e => by cases e; exact State.send_frameSec rfl s m 0x0F00 (setField 1 3 0 1 m.words) (by decide) rfl
  | .secClose m => ofSend fun t e => by cases e; exact State.send_frameSec rfl s m 0x0F00 (setField 1 3 0 2 m.words) (by decide) rfl
  | .secEnroll m => ofSend fun t e => by cases e; exact State.send_frameSec rfl s m 0x0F00 (setField 1 3 0 3 m.words) (by decide) rfl
  | .secRemove m => ofSend fun t e => by cases e; exact State.send_frameSec rfl s m 0x0F00 (setField 1 3 0 4 m.words) (by decide) rfl
  | .secSignRecordSlot m => ofSend fun t e => by cases e; exact State.send_frameSec rfl s m 0x0F01 (setField 2 1 0 0 m.words) (by decide) rfl
  | .secSignRecordBlobPart m => ofSend fun t e => by cases e; exact State.send_frameSec rfl s m 0x0F01 (setField 2 1 0 1 m.words) (by decide) rfl
  | .secSignRecordBlobEnd m => ofSend fun t e => by cases e; exact State.send_frameSec rfl s m 0x0F01 (setField 2 1 0 2 m.words) (by decide) rfl
  | .secSealCalSeal m => ofSend fun t e => by cases e; exact State.send_frameSec rfl s m 0x0F02 (setField 2 1 0 0 m.words) (by decide) rfl
  | .secSealCalClear m => ofSend fun t e => by cases e; exact State.send_frameSec rfl s m 0x0F02 (setField 2 1 0 1 m.words) (by decide) rfl
  | .secAuditRead m => ofSend fun t e => by cases e; exact State.send_frameSec rfl s m 0x0F03 m.words (by decide) rfl
  | .secZeroize m => ofSend fun t e => by cases e; exact State.send_frameSec rfl s m 0x0F04 (setField 2 1 0 0 m.words) (by decide) rfl
  | .tamperCfg m => ofSend fun t e => by cases e; exact State.send_frameSec rfl s m 0x0F04 (setField 2 1 0 1 m.words) (by decide) rfl
  | .secFwUpdateBegin m => ofSend fun t e => by cases e; exact State.send_frameSec rfl s m 0x0F05 (setField 2 1 0 0 m.words) (by decide) rfl
  | .secFwUpdateData m => ofSend fun t e => by cases e; exact State.send_frameSec rfl s m 0x0F05 (setField 2 1 0 1 m.words) (by decide) rfl
  | .secFwUpdateCommit m => ofSend fun t e => by cases e; exact State.send_frameSec rfl s m 0x0F05 (setField 2 1 0 2 m.words) (by decide) rfl
  | .secFwUpdateAbort m => ofSend fun t e => by cases e; exact State.send_frameSec rfl s m 0x0F05 (setField 2 1 0 3 m.words) (by decide) rfl
  | .secDebugUnlock m => ofSend fun t e => by cases e; exact State.send_frameSec rfl s m 0x0F06 m.words (by decide) rfl
  | .secExportCert m => ofSend fun t e => by cases e; exact State.send_frameSec rfl s m 0x0F07 m.words (by decide) rfl
  | .doorbellFrame => (execDoorbellFrame_same rfl (Same.refl _ s)).next_same
  | .doorbellSelfTest pass => (execDoorbellSelfTest_same rfl (Same.refl _ s) pass).next_same
  | .doorbellCloseSessions => (execDoorbellCloseSessions_same rfl (Same.refl _ s)).next_same
  | .doorbellLockDebug => (execDoorbellLockDebug_same rfl (Same.refl _ s)).next_same
  | .go mb => (execGo_same rfl (Same.refl _ s) mb).next_same
  | .cancel mb => (execCancel_same rfl (Same.refl _ s) mb).next_same
  | .mbDataWrite mb k v => (execMbDataWrite_same rfl (Same.refl _ s) mb k v).next_same
  | .messageTake mb e => (execMessageTake_same rfl (Same.refl _ s) mb e).next_same
  | .mailboxTimeout mb => (execMailboxTimeout_same rfl (Same.refl _ s) mb).next_same
  | .secureTimeout mb => (execSecureTimeout_same rfl (Same.refl _ s) mb).next_same
  | .qpH2dPush q v => (execQpH2dPush_same rfl (Same.refl _ s) q v).next_same
  | .qpD2hRead q => (execQpD2hRead_same rfl (Same.refl _ s) q).next_same
  | .qpDescriptorForward q => (execQpDescriptorForward_same rfl (Same.refl _ s) q).next_same
  | .hostRegisterWrite off v => (execHostRegisterWrite_same rfl (Same.refl _ s) off v).next_same
  | .hostOddSizeAccess bar4 off len data => (execHostOddSizeAccess_same rfl (Same.refl _ s) bar4 off len data).next_same
  | .readClear off => (execReadClear_same rfl (Same.refl _ s) off).next_same
  | .tsCapture => (execTsCapture_same rfl (Same.refl _ s)).next_same
  | .rtcSubRead => (execRtcSubRead_same rfl (Same.refl _ s)).next_same
  | .pcSnapRead n host => (execPcSnapRead_same rfl (Same.refl _ s) n host).next_same
  | .mirrorDisable => (execMirrorDisable_same rfl (Same.refl _ s)).next_same
  | .dmaRingTailWrite k v => (execDmaRingTailWrite_same rfl (Same.refl _ s) k v).next_same
  | .dmaRingHeadWrite k v => (execDmaRingHeadWrite_same rfl (Same.refl _ s) k v).next_same
  | .flush k => (execFlush_same rfl (Same.refl _ s) k).next_same
  | .hostBankAccess addr len data e => (execHostBankAccess_same rfl (Same.refl _ s) addr len data e).next_same
  | .icEoi sec n => (execIcEoi_same rfl (Same.refl _ s) sec n).next_same
  | .chEqPush n w0 w1 w2 w3 => (execChEqPush_same rfl (Same.refl _ s) n w0 w1 w2 w3).next_same
  | .puCmpWrite n v => (execPuCmpWrite_same rfl (Same.refl _ s) n v).next_same
  | .puPerWrite n v => (execPuPerWrite_same rfl (Same.refl _ s) n v).next_same
  | .puShadowWrite n r v => (execPuShadowWrite_same rfl (Same.refl _ s) n r v).next_same
  | .puLockClear n => (execPuLockClear_same rfl (Same.refl _ s) n).next_same
  | .gptStart n => (execGptStart_same rfl (Same.refl _ s) n).next_same
  | .gptStop n => (execGptStop_same rfl (Same.refl _ s) n).next_same
  | .gptSync n => (execGptSync_same rfl (Same.refl _ s) n).next_same
  | .gptClrFlags n => (execGptClrFlags_same rfl (Same.refl _ s) n).next_same
  | .uNop c ue => (execUNop_same rfl (Same.refl _ s) c ue).next_same
  | .uReti c ue => (execUReti_same rfl (Same.refl _ s) c ue).next_same
  | .uEi c ue => (execUEi_same rfl (Same.refl _ s) c ue).next_same
  | .uDi c ue => (execUDi_same rfl (Same.refl _ s) c ue).next_same
  | .uLdlc c ue => (execULdlc_same rfl (Same.refl _ s) c ue).next_same
  | .uSetf c ue => (execUSetf_same rfl (Same.refl _ s) c ue).next_same
  | .uFault c ue => (execUFault_same rfl (Same.refl _ s) c ue).next_same
  | .uAdd c ue => (execUAdd_same rfl (Same.refl _ s) c ue).next_same
  | .uAdc c ue => (execUAdc_same rfl (Same.refl _ s) c ue).next_same
  | .uSub c ue => (execUSub_same rfl (Same.refl _ s) c ue).next_same
  | .uSbc c ue => (execUSbc_same rfl (Same.refl _ s) c ue).next_same
  | .uAnd c ue => (execUAnd_same rfl (Same.refl _ s) c ue).next_same
  | .uOr c ue => (execUOr_same rfl (Same.refl _ s) c ue).next_same
  | .uXor c ue => (execUXor_same rfl (Same.refl _ s) c ue).next_same
  | .uAndn c ue => (execUAndn_same rfl (Same.refl _ s) c ue).next_same
  | .uMin c ue => (execUMin_same rfl (Same.refl _ s) c ue).next_same
  | .uMax c ue => (execUMax_same rfl (Same.refl _ s) c ue).next_same
  | .uMinu c ue => (execUMinu_same rfl (Same.refl _ s) c ue).next_same
  | .uMaxu c ue => (execUMaxu_same rfl (Same.refl _ s) c ue).next_same
  | .uAddsat c ue => (execUAddsat_same rfl (Same.refl _ s) c ue).next_same
  | .uSubsat c ue => (execUSubsat_same rfl (Same.refl _ s) c ue).next_same
  | .uCmp c ue => (execUCmp_same rfl (Same.refl _ s) c ue).next_same
  | .uTst c ue => (execUTst_same rfl (Same.refl _ s) c ue).next_same
  | .uShl c ue => (execUShl_same rfl (Same.refl _ s) c ue).next_same
  | .uShr c ue => (execUShr_same rfl (Same.refl _ s) c ue).next_same
  | .uSar c ue => (execUSar_same rfl (Same.refl _ s) c ue).next_same
  | .uRol c ue => (execURol_same rfl (Same.refl _ s) c ue).next_same
  | .uExt c ue => (execUExt_same rfl (Same.refl _ s) c ue).next_same
  | .uIns c ue => (execUIns_same rfl (Same.refl _ s) c ue).next_same
  | .uClz c ue => (execUClz_same rfl (Same.refl _ s) c ue).next_same
  | .uPopc c ue => (execUPopc_same rfl (Same.refl _ s) c ue).next_same
  | .uMull c ue => (execUMull_same rfl (Same.refl _ s) c ue).next_same
  | .uMulhu c ue => (execUMulhu_same rfl (Same.refl _ s) c ue).next_same
  | .uMulhs c ue => (execUMulhs_same rfl (Same.refl _ s) c ue).next_same
  | .uTadd c ue => (execUTadd_same rfl (Same.refl _ s) c ue).next_same
  | .uTsub c ue => (execUTsub_same rfl (Same.refl _ s) c ue).next_same
  | .uTaddi c ue => (execUTaddi_same rfl (Same.refl _ s) c ue).next_same
  | .uTdiff c ue => (execUTdiff_same rfl (Same.refl _ s) c ue).next_same
  | .uTcmp c ue => (execUTcmp_same rfl (Same.refl _ s) c ue).next_same
  | .uTld c ue => (execUTld_same rfl (Same.refl _ s) c ue).next_same
  | .uTset c ue => (execUTset_same rfl (Same.refl _ s) c ue).next_same
  | .uTlow c ue => (execUTlow_same rfl (Same.refl _ s) c ue).next_same
  | .uThigh c ue => (execUThigh_same rfl (Same.refl _ s) c ue).next_same
  | .uTmov c ue => (execUTmov_same rfl (Same.refl _ s) c ue).next_same
  | .uMovi c ue => (execUMovi_same rfl (Same.refl _ s) c ue).next_same
  | .uMov c ue => (execUMov_same rfl (Same.refl _ s) c ue).next_same
  | .uRdspec c ue => (execURdspec_same rfl (Same.refl _ s) c ue).next_same
  | .uWrspec c ue => (execUWrspec_same rfl (Same.refl _ s) c ue).next_same
  | .uTagPop c ue => (execUTagPop_same rfl (Same.refl _ s) c ue).next_same
  | .uTagPeek c ue => (execUTagPeek_same rfl (Same.refl _ s) c ue).next_same
  | .uTagLevel c ue => (execUTagLevel_same rfl (Same.refl _ s) c ue).next_same
  | .uTagClrloss c ue => (execUTagClrloss_same rfl (Same.refl _ s) c ue).next_same
  | .uEdgePush c ue => (execUEdgePush_same rfl (Same.refl _ s) c ue).next_same
  | .uEdgeQlevel c ue => (execUEdgeQlevel_same rfl (Same.refl _ s) c ue).next_same
  | .uIoRd c ue => (execUIoRd_same rfl (Same.refl _ s) c ue).next_same
  | .uIoWr c ue => (execUIoWr_same rfl (Same.refl _ s) c ue).next_same
  | .uBankLd c ue e => (execUBankLd_same rfl (Same.refl _ s) c ue e).next_same
  | .uBankSt c ue e => (execUBankSt_same rfl (Same.refl _ s) c ue e).next_same
  | .uBankAdd c ue e => (execUBankAdd_same rfl (Same.refl _ s) c ue e).next_same
  | .uBankSwap c ue e => (execUBankSwap_same rfl (Same.refl _ s) c ue e).next_same
  | .uSig c ue => (execUSig_same rfl (Same.refl _ s) c ue).next_same
  | .uEvclr c ue => (execUEvclr_same rfl (Same.refl _ s) c ue).next_same
  | .uEvclrm c ue => (execUEvclrm_same rfl (Same.refl _ s) c ue).next_same
  | .uWait c ue => (execUWait_same rfl (Same.refl _ s) c ue).next_same
  | .waitConditionMet c => (execWaitConditionMet_same rfl (Same.refl _ s) c).next_same
  | .waitTimeout c => (execWaitTimeout_same rfl (Same.refl _ s) c).next_same
  | .uJump c ue => (execUJump_same rfl (Same.refl _ s) c ue).next_same
  | .uCall c ue => (execUCall_same rfl (Same.refl _ s) c ue).next_same
  | .uRet c ue => (execURet_same rfl (Same.refl _ s) c ue).next_same
  | .uLoop c ue => (execULoop_same rfl (Same.refl _ s) c ue).next_same
  | .uDispatch c ue => (execUDispatch_same rfl (Same.refl _ s) c ue).next_same
  | .uEnd c ue => (execUEnd_same rfl (Same.refl _ s) c ue).next_same
  | .fastEntry c => (execFastEntry_same rfl (Same.refl _ s) c).next_same
  | .normalEntry c => (execNormalEntry_same rfl (Same.refl _ s) c).next_same
  | .handlerLong c => (execHandlerLong_same rfl (Same.refl _ s) c).next_same
  | .budgetCut c => (execBudgetCut_same rfl (Same.refl _ s) c).next_same
  | .guardBand c => (execGuardBand_same rfl (Same.refl _ s) c).next_same
  | .tickBoundary => (execTickBoundary_same rfl (Same.refl _ s)).next_same
  | .msPublish n => (execMsPublish_same rfl (Same.refl _ s) n).next_same
  | .qdSnapshotPublish d => (execQdSnapshotPublish_same rfl (Same.refl _ s) d).next_same
  | .mirrorWrite => (execMirrorWrite_same rfl (Same.refl _ s)).next_same
  | .inputTransition n rising dt => (execInputTransition_same rfl (Same.refl _ s) n rising dt).next_same
  | .conversionComplete n code => (execConversionComplete_same rfl (Same.refl _ s) n code).next_same
  | .qualifierRelease n => (execQualifierRelease_same rfl (Same.refl _ s) n).next_same
  | .lanePickup c l => (execLanePickup_same rfl (Same.refl _ s) c l).next_same
  | .mergeRelease c => (execMergeRelease_same rfl (Same.refl _ s) c).next_same
  | .tagImport c => (execTagImport_same rfl (Same.refl _ s) c).next_same
  | .histAdd n e => (execHistAdd_same rfl (Same.refl _ s) n e).next_same
  | .qdTagHandle d => (execQdTagHandle_same rfl (Same.refl _ s) d).next_same
  | .binTableUpdate n i1 hits => (execBinTableUpdate_same rfl (Same.refl _ s) n i1 hits).next_same
  | .tableSwap n i1 => (execTableSwap_same rfl (Same.refl _ s) n i1).next_same
  | .calStarved n i1 => (execCalStarved_same rfl (Same.refl _ s) n i1).next_same
  | .stealOverdue n => (execStealOverdue_same rfl (Same.refl _ s) n).next_same
  | .calCycleStart => (execCalCycleStart_same rfl (Same.refl _ s)).next_same
  | .deferredCalMeasure n => (execDeferredCalMeasure_same rfl (Same.refl _ s) n).next_same
  | .calMeasureDone n out tags => (execCalMeasureDone_same rfl (Same.refl _ s) n out tags).next_same
  | .tempTermUpdate => (execTempTermUpdate_same rfl (Same.refl _ s)).next_same
  | .ageingMeasure rings => (execAgeingMeasure_same rfl (Same.refl _ s) rings).next_same
  | .replan => (execReplan_same rfl (Same.refl _ s)).next_same
  | .baselineClear => (execBaselineClear_same rfl (Same.refl _ s)).next_same
  | .tdrChannelDone n r => (execTdrChannelDone_same rfl (Same.refl _ s) n r).next_same
  | .monitorReading k v invalid => (execMonitorReading_same rfl (Same.refl _ s) k v invalid).next_same
  | .thermalTrip k => (execThermalTrip_same rfl (Same.refl _ s) k).next_same
  | .refWindow w => (execRefWindow_same rfl (Same.refl _ s) w).next_same
  | .refMissingPulse => (execRefMissingPulse_same rfl (Same.refl _ s)).next_same
  | .refPhaseError => (execRefPhaseError_same rfl (Same.refl _ s)).next_same
  | .pllAcquireStart => (execPllAcquireStart_same rfl (Same.refl _ s)).next_same
  | .pllSlewDone => (execPllSlewDone_same rfl (Same.refl _ s)).next_same
  | .refLocked => (execRefLocked_same rfl (Same.refl _ s)).next_same
  | .refLockTimeout => (execRefLockTimeout_same rfl (Same.refl _ s)).next_same
  | .ppsEdge dt high => (execPpsEdge_same rfl (Same.refl _ s) dt high).next_same
  | .ppsLoss => (execPpsLoss_same rfl (Same.refl _ s)).next_same
  | .phaseSlewDone => (execPhaseSlewDone_same rfl (Same.refl _ s)).next_same
  | .dtcWrap => (execDtcWrap_same rfl (Same.refl _ s)).next_same
  | .ppsoutPulse => (execPpsoutPulse_same rfl (Same.refl _ s)).next_same
  | .bxPortUp up bad => (execBxPortUp_same rfl (Same.refl _ s) up bad).next_same
  | .bxLeaderTimeout rx => (execBxLeaderTimeout_same rfl (Same.refl _ s) rx).next_same
  | .bxPortLost up failed => (execBxPortLost_same rfl (Same.refl _ s) up failed).next_same
  | .bxCapReceived up cap rx => (execBxCapReceived_same rfl (Same.refl _ s) up cap rx).next_same
  | .bxTimeFrame up t bad => (execBxTimeFrame_same rfl (Same.refl _ s) up t bad).next_same
  | .bxOffsetUpdate up => (execBxOffsetUpdate_same rfl (Same.refl _ s) up).next_same
  | .bxTagFrame up src words => (execBxTagFrame_same rfl (Same.refl _ s) up src words).next_same
  | .bxControlFrame f => (execBxControlFrame_same rfl (Same.refl _ s) f).next_same
  | .brakeInputChange b dt => (execBrakeInputChange_same rfl (Same.refl _ s) b dt).next_same
  | .brakeTrip b => (execBrakeTrip_same rfl (Same.refl _ s) b).next_same
  | .brakeResume n => (execBrakeResume_same rfl (Same.refl _ s) n).next_same
  | .edgeCompute n => (execEdgeCompute_same rfl (Same.refl _ s) n).next_same
  | .edgeLaunch n => (execEdgeLaunch_same rfl (Same.refl _ s) n).next_same
  | .outputEvent n => (execOutputEvent_same rfl (Same.refl _ s) n).next_same
  | .puGenerate n => (execPuGenerate_same rfl (Same.refl _ s) n).next_same
  | .puHandover n => (execPuHandover_same rfl (Same.refl _ s) n).next_same
  | .gptTopEvent n => (execGptTopEvent_same rfl (Same.refl _ s) n).next_same
  | .gptCmpEvent n => (execGptCmpEvent_same rfl (Same.refl _ s) n).next_same
  | .gptTrigger n => (execGptTrigger_same rfl (Same.refl _ s) n).next_same
  | .dicDelivery sec => (execDicDelivery_same rfl (Same.refl _ s) sec).next_same
  | .coalTimeout n => (execCoalTimeout_same rfl (Same.refl _ s) n).next_same
  | .errlogWrite => (execErrlogWrite_same rfl (Same.refl _ s)).next_same
  | .dmaDescriptorFetch k f => (execDmaDescriptorFetch_same rfl (Same.refl _ s) k f).next_same
  | .dmaMove k n e h => (execDmaMove_same rfl (Same.refl _ s) k n e h).next_same
  | .flushTimeout k => (execFlushTimeout_same rfl (Same.refl _ s) k).next_same
  | .copyStep k e => (execCopyStep_same rfl (Same.refl _ s) k e).next_same
  | .handoverDrainEnd b => (execHandoverDrainEnd_same rfl (Same.refl _ s) b).next_same
  | .bankClearDone b => (execBankClearDone_same rfl (Same.refl _ s) b).next_same
  | .patrolScrub b e => (execPatrolScrub_same rfl (Same.refl _ s) b e).next_same
  | .retainCommit => (execRetainCommit_same rfl (Same.refl _ s)).next_same
  | .wake => (execWake_same rfl (Same.refl _ s)).next_same
  | .powerOnReset dt b => (execPowerOnReset_same rfl (Same.refl _ s) dt b).next_same
  | .railExcursion => (execRailExcursion_same rfl (Same.refl _ s)).next_same
  | .porN => (execPorN_same rfl (Same.refl _ s)).next_same
  | .ready dt cut sealOk => (execReady_same rfl (Same.refl _ s) dt cut sealOk).next_same
  | .mcWatchdog => (execMcWatchdog_same rfl (Same.refl _ s)).next_same
  | .hostReset linkDown => (execHostReset_same rfl (Same.refl _ s) linkDown).next_same
  | .pcieRetrain width speed => (execPcieRetrain_same rfl (Same.refl _ s) width speed).next_same
  | .backupSwitch vbat => (execBackupSwitch_same rfl (Same.refl _ s) vbat).next_same
  | .backupDomainLost => (execBackupDomainLost_same rfl (Same.refl _ s)).next_same
  | .xtalFail => (execXtalFail_same rfl (Same.refl _ s)).next_same
  | .rtcTrimMeasure trim => (execRtcTrimMeasure_same rfl (Same.refl _ s) trim).next_same
  | .rtcOffsetApply => (execRtcOffsetApply_same rfl (Same.refl _ s)).next_same
  | .tamperDetect k on => (execTamperDetect_same rfl (Same.refl _ s) k on).next_same
  | .sessionTimeout mb7 => (execSessionTimeout_same rfl (Same.refl _ s) mb7).next_same
  | .lockoutExpire k => (execLockoutExpire_same rfl (Same.refl _ s) k).next_same
  | .debouncedInactive b => (execDebouncedInactive_same rfl (Same.refl _ s) b).next_same
  | .quietTimeMet b => (execQuietTimeMet_same rfl (Same.refl _ s) b).next_same
  | .inAgePassed n out => (execInAgePassed_same rfl (Same.refl _ s) n out).next_same
  | .secondMark => (execSecondMark_same rfl (Same.refl _ s)).next_same
  | .busMasterEnable en => (execBusMasterEnable_same rfl (Same.refl _ s) en).next_same
  | .dataLinkUp width speed => (execDataLinkUp_same rfl (Same.refl _ s) width speed).next_same
  | .mcRestartComplete => (execMcRestartComplete_same rfl (Same.refl _ s)).next_same
  | .wakeScrubDone b e => (execWakeScrubDone_same rfl (Same.refl _ s) b e).next_same
  | .jtagInstruction k => (execJtagInstruction_same rfl (Same.refl _ s) k).next_same
  | .counterWrap n => (execCounterWrap_same rfl (Same.refl _ s) n).next_same

end Sys2Proof.Machine
end

