-- ==== Sys2Proof/Tests/Slice0.lean ====
section
/-! SUPPORT. The row's own tests: ill-formed terms, single steps, and states that meet the hypotheses of the statements. -/
namespace Sys2Proof.Tests
set_option Elab.async false
open Sys2Proof Sys2Proof.Machine Sys2Proof.Claims

/-- A device that is ready. -/
def up : State := { State.reset with pwr := { Power.reset with startup := .ready, mcUp := true } }

/-- A message of mailbox 0 with these payload words. -/
def msg (l : List W32) : Msg := { mb := 0, seq := 7, len := Fin.ofNat 16 l.length, words := l, env := { refuse := 0, silent := false } }

/-- What a row's message meets, as one test. -/
def sends (r : Row) (s : State) (m : Msg) : Bool :=
  decide (m.mb.val < 6) && (List.finRange 8).all (fun k => !decide (k.val < 6) || (s.mbAt k).state == .idle || (s.mbAt k).state == .done) &&
  s.pwr.mcUp && decide (r.lo ≤ m.len.val ∧ m.len.val ≤ r.hi) && (r.early || s.pwr.startup == .ready) && !s.groupBusy 0 r.op (payload r m)

theorem sends_of {r : Row} {s : State} {m : Msg} (h : sends r s m = true) : Sends r s m := by
  simp only [sends, Bool.and_eq_true, Bool.or_eq_true, Bool.not_eq_true', decide_eq_true_eq, beq_iff_eq, List.all_eq_true, List.mem_finRange, forall_const, decide_eq_false_iff_not] at h
  obtain ⟨⟨⟨⟨⟨h1, h2⟩, h3⟩, h4⟩, h5⟩, h6⟩ := h
  refine ⟨h1, fun k hk => ?_, h3, h4, h5, h6⟩
  rcases h2 k with (h | h) | h
  · exact absurd hk h
  · exact .inl h
  · exact .inr h

/-- A row's message can be sent and its condition holds. -/
def Meets (r : Row) (s : State) (m : Msg) (pre : State → Env → List W32 → Prop) : Prop :=
  Sends r s m ∧ pre (taken r s m) m.env (payload r m)

theorem meets_of {r : Row} {s : State} {m : Msg} {pre : State → Env → List W32 → Prop}
    [Decidable (pre (taken r s m) m.env (payload r m))] (h : (sends r s m && decide (pre (taken r s m) m.env (payload r m))) = true) :
    Meets r s m pre := by
  rw [Bool.and_eq_true, decide_eq_true_eq] at h
  exact ⟨sends_of h.1, h.2⟩

theorem slotAt_fresh {u : State} (h : u.slot = Vector.replicate 512 Slot.reset) (k : Nat) : u.slotAt k = Slot.reset := by
  simp only [State.slotAt, vget, h, Vector.getElem_replicate]
theorem unarmed {u : State} (h : u.slot = Vector.replicate 512 Slot.reset) (k : Nat) : (u.slotAt k).armed = false := by
  rw [slotAt_fresh h]; rfl
theorem gateRefused_fresh {u : State} (h : u.slot = Vector.replicate 512 Slot.reset) (c : Nat) : u.gateRefused c =
    (((List.range 32).any fun j => let x := u.chan (32 * c + j); x.inp.en || x.out.en || x.pu.run)
    || (u.dma.toList.any fun d => d.kind = 0 && d.state ≠ .idle && (d.cluster = c || decide (d.mask / 2 ^ (32 * c) % 2 ^ 32 ≠ 0)))
    || u.calRunBusy c || u.tdrBusy c) := by
  have e : (List.range 128).any (fun k => (u.slotAt (128 * c + k)).armed) = false := by
    rw [List.any_eq_false]; intro k _; rw [unarmed h]; exact Bool.false_ne_true
  simp only [State.gateRefused, e, Bool.or_false]
theorem none_of_range {n : Nat} {p : Nat → Bool} (h : ∀ k, p k = false) (b : Bool) : ((List.range n).any p || b) = b := by
  have e : (List.range n).any p = false := by rw [List.any_eq_false]; intro k _; rw [h]; exact Bool.false_ne_true
  rw [e, Bool.false_or]
theorem regionTaken_fresh {u : State} (h : ∀ k, (u.slotAt k).hist = none) (n : Nat) (r : Nat × Nat) :
    u.regionTaken n r = u.dma.toList.any fun d => d.rings.any fun q => overlap r q := by
  unfold State.regionTaken
  exact none_of_range (fun k => by rw [h, Bool.and_false]) _
theorem noHist {u : State} {x : Slot} (h : u.slot = (Vector.replicate 512 Slot.reset).set 0 x) (hx : x.hist = none) (k : Nat) : (u.slotAt k).hist = none := by
  simp only [State.slotAt, vget, h, Vector.getElem_set]
  split
  · exact hx
  · simp [Slot.reset]

end Sys2Proof.Tests
namespace Sys2Proof.Tests
set_option Elab.async false
open Sys2Proof Sys2Proof.Machine Sys2Proof.Claims

/-! Command rows on a mailbox: every condition of the statements is met. -/

theorem witness_sysPing : Meets rSysPing up (msg [1, 2]) fun _ _ _ => True := meets_of (by decide +kernel)
theorem witness_sysGetInfo : Meets rSysGetInfo up (msg [0]) (fun _ _ p => pw p 1 = 0) ∧ Meets rSysGetInfo up (msg [1]) (fun _ _ p => pw p 1 = 1) :=
  ⟨meets_of (by decide +kernel), meets_of (by decide +kernel)⟩
theorem witness_sysGetHealth : Meets rSysGetHealth up (msg []) fun _ _ _ => True := meets_of (by decide +kernel)
theorem witness_sysSetMirror : Meets rSysSetMirror up (msg [4]) (fun _ _ p => only (pw p 1) 0xFFFF) ∧
    Meets rSysSetMirror { up with mir := { up.mir with addrLo := 64 } } (msg [0x10001])
      (fun u _ p => only (pw p 1) 0x1FFFF ∧ bit (pw p 1) 16 = true ∧ bits (pw p 1) 15 0 ≠ 0 ∧ ¬ (u.mir.addrLo = 0 ∧ u.mir.addrHi = 0)) :=
  ⟨meets_of (by decide +kernel), meets_of (by decide +kernel)⟩
theorem witness_tsSetReference : Meets rTsSetReference up (msg [0x1121, 0, 1]) fun _ _ p => setReferenceRange p = false := meets_of (by decide +kernel)
theorem witness_tsSetTick : Meets rTsSetTick up (msg [2000]) fun u e p =>
    640 ≤ (pw p 1).toNat ∧ (pw p 1).toNat ≤ 6250000 ∧ (u.pps.mode ≠ 0 → 625000000 % (pw p 1).toNat = 0) ∧
      (∀ c : Fin 4, 8 * (u.clus c).sch.guard ≤ (pw p 1).toNat) ∧ ownTime u ∧ u.tb.tickPend = none ∧ u.committed = false ∧
      u.tickFits (pw p 1).toNat = true ∧ carried u e := meets_of (by decide +kernel)
theorem witness_tsDiscipline : Meets rTsDiscipline up (msg [1, 10, 0]) fun u e p =>
    only (pw p 1) 3 ∧ bits (pw p 1) 1 0 ≠ 3 ∧ 10 ≤ (pw p 2).toNat ∧ (pw p 2).toNat ≤ 100000 ∧
      (bits (pw p 1) 1 0 ≠ 0 → u.pps.mode = 0 → 625000000 % u.tb.tickP = 0 ∧ ∀ n, u.tb.tickPend = some n → 625000000 % n = 0) ∧
      ownTime u ∧ carried u e := by
  refine ⟨sends_of (by decide +kernel), ?_⟩
  refine ⟨by decide +kernel, by decide +kernel, by decide +kernel, by decide +kernel, fun _ _ => ⟨by decide +kernel, ?_⟩, by decide +kernel, by decide +kernel⟩
  intro n h
  have e : (taken rTsDiscipline up (msg [1, 10, 0])).tb.tickPend = none := by decide +kernel
  rw [e] at h; cases h
/-- PPSIN is watched. -/
def upPps : State := { up with pps := { up.pps with mode := 1 } }
theorem witness_tsSetTime :
    Meets rTsSetTimeAtTick up (msg [0, 12800, 0, 0]) (fun u e p =>
      only (pw p 1) 3 ∧ only (pw p 4) 0xFFFF ∧ u.extOf (pw p 2) (pw p 3) (pw p 4) % 12800 = 0 ∧ ownTime u ∧
      (∀ k : Fin 512, (u.slotAt k).armed = false) ∧ u.tb.step = none ∧ u.committed = false ∧ carried u e) ∧
    Meets rTsSetTimeAtPps upPps (msg [1, 0, 0, 0]) (fun u e p =>
      only (pw p 1) 3 ∧ only (pw p 4) 0xFFFF ∧ u.extOf (pw p 2) (pw p 3) (pw p 4) % 8000000000000 = 0 ∧ u.pps.mode ≠ 0 ∧ ownTime u ∧
      (∀ k : Fin 512, (u.slotAt k).armed = false) ∧ u.tb.step = none ∧ u.committed = false ∧ carried u e) ∧
    Meets rTsSetTimeCancel up (msg [2, 0, 0, 0]) (fun u e p =>
      only (pw p 1) 3 ∧ ownTime u ∧ (∀ k : Fin 512, (u.slotAt k).armed = false) ∧ u.committed = false ∧ carried u e) :=
  ⟨⟨sends_of (by decide +kernel), by decide +kernel, by decide +kernel, by decide +kernel, by decide +kernel, fun k => unarmed rfl k, by decide +kernel⟩,
   ⟨sends_of (by decide +kernel), by decide +kernel, by decide +kernel, by decide +kernel, by decide +kernel, by decide +kernel, fun k => unarmed rfl k, by decide +kernel⟩,
   ⟨sends_of (by decide +kernel), by decide +kernel, by decide +kernel, fun k => unarmed rfl k, by decide +kernel⟩⟩
theorem witness_tsRtcSet :
    Meets rTsRtcSetNow up (msg [0x10, 1000, 5]) (fun u _ p => rtcSetCheck u p = 0) ∧
    Meets rTsRtcSetAtNextMark up (msg [1, 1000, 0]) (fun u _ p => rtcSetCheck u p = 0) ∧
    Meets rTsRtcSetAtPps upPps (msg [2, 1000, 0]) (fun u _ p => rtcSetCheck u p = 0) ∧
    Meets rTsRtcSetOffsetOnly up (msg [0x13, 0, 0]) (fun u _ p => rtcSetCheck u p = 0 ∧ pw p 2 = 0) ∧
    Meets rTsRtcSetOffsetOnly { up with rtc := { up.rtc with slaved := some (0, 0) } } (msg [0x10013, 9, 0])
      (fun u _ p => rtcSetCheck u p = 0 ∧ pw p 2 ≠ 0) ∧
    Meets rTsRtcRead up (msg []) (fun _ _ _ => True) :=
  ⟨meets_of (by decide +kernel), meets_of (by decide +kernel), meets_of (by decide +kernel), meets_of (by decide +kernel), meets_of (by decide +kernel), meets_of (by decide +kernel)⟩

/-- Channels 0 and 1 have a configured input and output that are disabled; channels 4 and 5 have theirs enabled; outputs 0 to 5 are driven
by their pattern units, and unit 4 runs. -/
def upCh : State := (List.range 6).foldl (fun s n => s.modCh n fun c =>
  { c with
    inp := { c.inp with configured := true, en := decide (4 ≤ n) }, out := { c.out with configured := true, srcPu := true, en := decide (4 ≤ n) }
    pu := { c.pu with run := n = 4, mode := if n = 4 then 1 else 0 } }) up
theorem witness_channels :
    Meets rChSetInput upCh (msg [0x100, 0xFA00, 0, 0]) (fun u _ p => InputFits u p ∧ ∀ n ∈ rangeChans p, (u.chan n).inp.en = false) ∧
    Meets rChSetInput upCh (msg [0x504, 2, 0xFFFF, 12800000]) (fun u _ p => InputFits u p ∧ ∃ n ∈ rangeChans p, (u.chan n).inp.en = true) ∧
    Meets rChSetOutput upCh (msg [0x100, 0, 0x10000]) (fun u _ p => OutputFits u p ∧ ∀ n ∈ rangeChans p, (u.chan n).out.en = false) ∧
    Meets rChSetOutput upCh (msg [0x404, 0x5F, 0xFFF0FFE]) (fun u _ p => OutputFits u p ∧ ∃ n ∈ rangeChans p, (u.chan n).out.en = true) ∧
    Meets rChEnable upCh (msg [0x30100]) (fun u _ p => SwitchFits u p ∧ ∀ n ∈ rangeChans p,
      (bit (pw p 1) 16 = true → (u.chan n).inp.configured = true) ∧ (bit (pw p 1) 17 = true → (u.chan n).out.configured = true)) ∧
    Meets rChDisable up (msg [0x37F60]) (fun u _ p => SwitchFits u p) :=
  ⟨meets_of (by decide +kernel), meets_of (by decide +kernel), meets_of (by decide +kernel), meets_of (by decide +kernel), meets_of (by decide +kernel),
   meets_of (by decide +kernel)⟩

/-- Slot 0 is defined, slot 1 runs and slot 2 has a published block. -/
def upMs : State := ((up.modSlot 0 fun k => { k with state := .defined, type := 1 }).modSlot 1 fun k => { k with state := .running }).modSlot 2 fun k =>
  { k with state := .stopped, published := true }
theorem witness_measurements :
    Meets rMeasDefine up (msg [0x1FF, 0x7F00, 1048576, 0, 0]) (fun u _ p => DefineFits u p) ∧
    Meets rMeasArm upMs (msg [0, 0, 0, 0]) (fun u _ p =>
      ArmFits u p (if bit (pw p 1) 31 then u.extOf (pw p 2) (pw p 3) (pw p 4) else u.boundaryB)) ∧
    Meets rMeasArm upMs (msg [0x80000000, 80000000, 0, 0]) (fun u _ p =>
      ArmFits u p (if bit (pw p 1) 31 then u.extOf (pw p 2) (pw p 3) (pw p 4) else u.boundaryB)) ∧
    Meets rMeasStop upMs (msg [0x20001]) (fun _ _ p => slotsInCluster p ∧ only (pw p 1) 0x81FF01FF) ∧
    Meets rMeasRead upMs (msg [2])
      (fun u _ p => only (pw p 1) 0x1FF ∧ (u.slotAt (bits (pw p 1) 8 0)).published = true ∧ (u.slotAt (bits (pw p 1) 8 0)).state ≠ .idle) :=
  ⟨meets_of (by decide +kernel), meets_of (by decide +kernel), meets_of (by decide +kernel), meets_of (by decide +kernel), meets_of (by decide +kernel)⟩
/-- Slot 0 is defined for time intervals, and its cluster owns bank 3. -/
def upHist : State :=
  { up with slot := (Vector.replicate 512 Slot.reset).set 0 { Slot.reset with state := .defined, type := 1 }, bank := vset up.bank 3 { Bank.reset with owner := 4 } }
theorem witness_histogram :
    Meets rHistDefine upHist (msg [0x30000, 3, 131056, 16, 0x1000000, 0, 0]) (fun u _ p => HistFits u p) ∧
    Meets rHistDefine upHist (msg [0, 0, 0, 0, 0, 0, 0]) (fun u _ p => HistFits u p) := by
  refine ⟨⟨sends_of (by decide +kernel), ?_⟩, meets_of (by decide +kernel)⟩
  have e : ∀ n r, _ := regionTaken_fresh (noHist (u := taken rHistDefine upHist (msg [0x30000, 3, 131056, 16, 0x1000000, 0, 0])) rfl rfl)
  simp only [HistFits, e]
  decide +kernel


theorem witness_patternsAndPairs :
    Meets rSynPattern upCh (msg [0x100, 1, 100000, 50, 1, 1, 0, 0, 0, 0]) (fun u _ p => patternCheck u p = 0) ∧
    Meets rSynPattern upCh (msg [0x100, 0, 0, 0, 0, 0, 0, 0, 0, 0]) (fun u _ p => patternCheck u p = 0) ∧
    Meets rSynPatternShadow upCh (msg [0x80000404, 0, 100000, 50, 1, 1, 0, 0, 0, 0]) (fun u _ p => patternCheck u p = 0) ∧
    Meets rSynPair upCh (msg [0x100, 1, 100, 0xFFFFFF]) (fun u _ p => pairCheck u p = 0 ∧ ∀ a ∈ pairsNamed p, u.pairEnabled a = false) ∧
    Meets rSynPair upCh (msg [0x504, 0, 100, 0xFFFFFF]) (fun u _ p => pairCheck u p = 0 ∧ ∃ a ∈ pairsNamed p, u.pairEnabled a = true) :=
  ⟨meets_of (by decide +kernel), meets_of (by decide +kernel), meets_of (by decide +kernel), meets_of (by decide +kernel), meets_of (by decide +kernel)⟩

theorem witness_brakeCommands :
    Meets rSynBrakeCfgSetInput up (msg [0x1FF, 5, 1, 0, 0]) (fun u _ p => brakeCfgCheck u p = 0 ∧ bit (pw p 1) 9 = false) ∧
    Meets rSynBrakeCfgSetInput up (msg [0x380, 2500, 10000000, 0x1F00, 0xFF]) (fun u _ p => brakeCfgCheck u p = 0 ∧ bit (pw p 1) 9 = true) ∧
    Meets rSynBrakeCfgSetGuard up (msg [0x200, 0, 0, 0x1F00, 0xFF]) (fun u _ p => brakeCfgCheck u p = 0) ∧
    Meets rSynBrakeClear (up.modBrk 7 fun k => { k with tripped := true, quietUs := 0 }) (msg [0x80])
      (fun u _ p => bits (pw p 1) 7 0 ≠ 0 ∧ only (pw p 1) 0xFF ∧ ∀ b : Fin 8, (bits (pw p 1) 7 0).testBit b →
        let k := ((u.runTo u.edge).brkAt b).upTo (u.runTo u.edge).now
        ((u.runTo u.edge).brkAt b).tripped = true → k.activeAt (u.runTo u.edge).now = false ∧ k.notQuiet (u.runTo u.edge).now = false) :=
  ⟨meets_of (by decide +kernel), meets_of (by decide +kernel), meets_of (by decide +kernel), meets_of (by decide +kernel)⟩

/-- The microengine of cluster 0 holds an image of eight words and is idle; decoder 0 runs with a snapshot not read. -/
def upMe : State := (up.modMe 0 fun m => { m with state := .idle, loaded := true, image := { m.image with nwords := 8 } }).modDec 0 fun q =>
  { q with state := .run, snapNew := true }
theorem witness_decoders :
    Meets rQdDefine up (msg [0x10000, 3999, 3999, 0, 0, 3999, 0]) (fun u _ p =>
      only (pw p 1) 0x3FF1F ∧ only (pw p 4) 0x7FFF ∧ only (pw p 5) 0xFFFFF ∧ bits (pw p 1) 10 9 ≠ 3 ∧
      (pw p 3).toNat ≤ (pw p 2).toNat ∧ (pw p 6).toNat ≤ (pw p 2).toNat ∧
      (bit (pw p 1) 8 = true → u.qdChannels (bits (pw p 1) 4 0) (pw p 1) = true) ∧
      ((u.decAt (bits (pw p 1) 4 0)).state = .off ∨ bit (pw p 1) 16 = true ∨ (u.decAt (bits (pw p 1) 4 0)).cprM1 = (pw p 2).toNat) ∧
      u.qdPending (bits (pw p 1) 4 0) = false) ∧
    Meets rQdRead upMe (msg [0]) (fun u _ p => only (pw p 1) 0x1F ∧ (u.decAt (bits (pw p 1) 4 0)).snapNew = true) :=
  ⟨meets_of (by decide +kernel), meets_of (by decide +kernel)⟩
theorem witness_tasksAndTimers :
    Meets rTaskSet upMe (msg [0x1000000, 0x10000, 0, 1000]) (fun u _ p => taskSetCheck u p = 0) ∧
    Meets rTaskRemove upMe (msg [0xFF0000]) (fun u _ p => taskRemoveCheck u p = 0) ∧
    Meets rSchedCheck up (msg [0x300, 640, 64, 0, 0, 0, 0]) (fun u _ p =>
      only (pw p 1) 0x703 ∧ u.periodOk (assumed u p).1 = true ∧ 64 ≤ (assumed u p).2.1 ∧ (assumed u p).2.1 ≤ 1024 ∧
      (assumed u p).2.1 ≤ (assumed u p).1 / 8 ∧ (bit (pw p 1) 10 = true →
        taskRange (taskOf (p.drop 3)) (p.drop 3) ((assumed u p).1 - (assumed u p).2.1) (u.me (bits (pw p 1) 1 0)).image.nwords = false)) ∧
    Meets rTimerSet up (msg [0x800, 0x800, 0, 0, 0, 0, 0]) (fun u _ p => timerSetCheck u p = 0 ∧ bit (pw p 1) 8 = false) ∧
    Meets rTimerSet up (msg [0x100, 0x800, 0, 0, 0, 0, 0]) (fun u _ p => timerSetCheck u p = 0 ∧ bit (pw p 1) 8 = true ∧ bit (pw p 1) 10 = false) ∧
    Meets rTimerSet up (msg [0x51F, 0, 9, 0, 9, 0, 0]) (fun u _ p => timerSetCheck u p = 0 ∧ bit (pw p 1) 8 = true ∧ bit (pw p 1) 10 = true) :=
  ⟨meets_of (by decide +kernel), meets_of (by decide +kernel), meets_of (by decide +kernel), meets_of (by decide +kernel), meets_of (by decide +kernel),
   meets_of (by decide +kernel)⟩

end Sys2Proof.Tests
namespace Sys2Proof.Tests
set_option Elab.async false
open Sys2Proof Sys2Proof.Machine Sys2Proof.Claims

/-- Bank 5 holds an image of one NOP. -/
def upUc : State :=
  let b := 5 * 1048576
  { up with mem := [(b, 0x43), (b + 1, 0x55), (b + 2, 0x34), (b + 3, 0x4B), (b + 4, 1), (b + 8, 1), (b + 16, 1), (b + 18, 1)], bank := vset up.bank 5 { Bank.reset with owner := 1 } }
theorem witness_ucLoad :
    Meets rUcLoad upUc (msg ([0x501, 0, 144] ++ List.replicate 12 0)) (fun u _ p =>
      ucCheck u p = 0 ∧ headerOk (u.ucImage p) (ucLen p) = true ∧ firstBad (u.ucImage p) = none ∧ tablesOk (u.ucImage p) = true ∧
      ucHashOk p (u.ucHash p) = true) ∧
    Meets rUcLoad { upUc with mem := [] } (msg ([0x501, 0, 144] ++ List.replicate 12 0)) (fun u _ p => ucCheck u p = 0 ∧ headerOk (u.ucImage p) (ucLen p) = false) :=
  ⟨meets_of (by decide +kernel), meets_of (by decide +kernel)⟩

theorem witness_calibrationCommands :
    Meets rCalRun upCh (msg [0x30100]) (fun u _ p => calRunCheck u p = 0) ∧
    Meets rCalStatus up (msg [0x7F]) (fun _ _ p => only (pw p 1) 0x7F) ∧
    Meets rCalPolicy up (msg [0x10F, 600000, 2160]) (fun _ _ p =>
      bits (pw p 1) 3 0 ≠ 0 ∧ 1000 ≤ (pw p 2).toNat ∧ (pw p 2).toNat ≤ 600000 ∧ (pw p 3).toNat ≤ 2160 ∧ only (pw p 1) 0x10F) :=
  ⟨meets_of (by decide +kernel), meets_of (by decide +kernel), meets_of (by decide +kernel)⟩

/-- Channel 0 drives a full swing and has a usable cable measurement; a thermal trip is in force and every sensor has read 0. -/
def upEnv : State :=
  let s := upCh.modCh 0 fun c => { c with out := { c.out with voh := 0xFFF, vol := 0 }, cable := { c.cable with src := .tdr, rt := 1000, outcome := 1 } }
  { s with env := { s.env with trip := true, mon := s.env.mon.map fun m => { m with value := 1599, invalid := false } } }
theorem witness_environmentCommands :
    Meets rEnvTdrMeasure upEnv (msg [0, 0]) (fun u _ p => tdrCheck u p = 0) ∧
    Meets rEnvTdrApply upEnv (msg [0, 0]) (fun u _ p => tdrCheck u p = 0) ∧
    Meets rEnvTdrSet up (msg [0x1F00, 1000000]) (fun u _ p => tdrCheck u p = 0) ∧
    Meets rEnvTdrClear up (msg [0x7F60, 0]) (fun u _ p => tdrCheck u p = 0) ∧
    Meets rEnvMonitors up (msg [51, 0]) (fun _ _ p => bits (pw p 1) 5 0 < 52 ∧ only (pw p 1) 0x3F) ∧
    Meets rEnvMonitorsClearTrip upEnv (msg [0, 0]) (fun u _ p => monitorsCheck u p = 0) :=
  ⟨meets_of (by decide +kernel), meets_of (by decide +kernel), meets_of (by decide +kernel), meets_of (by decide +kernel), meets_of (by decide +kernel),
   meets_of (by decide +kernel)⟩
theorem witness_setWindow :
    Meets rEnvMonitorsSetWin up (msg [0x100, BitVec.ofNat 32 ((Monitor.defaults 0).1.toNat + (Monitor.defaults 0).2.toNat * 65536)])
      (fun u _ p => monitorsCheck u p = 0) := meets_of (by decide +kernel)

/-- DMA channel 0 has a ring and is idle, channel 1 captures, channel 2 moves blocks; bank 3 belongs to cluster 0 and bank 4 to DMA. -/
def upDma : State := (((((up.modDma 0 fun d => { d with sizeL := 4 }).modDma 1 fun d => { d with state := .run, kind := 0 }).modDma 2 fun d =>
  { d with state := .run, kind := 1 }).modBank 3 fun k => { k with owner := 4 }).modBank 4 fun k => { k with owner := 2 })
theorem witness_streams :
    Meets rStreamOpenCapture upDma (msg [0, 3, 1024, 0, 0, 1, 0, 0, 0]) (fun u _ p => CaptureFits u p) ∧
    Meets rStreamOpenBlock upDma (msg [0x10, 0, 0, 65536, 0, 0, 0, 0, 0]) (fun u _ p => BlockFits u p) ∧
    Meets rStreamOpenCopy upDma (msg [0x20, 0x80000, 0x80100, 256, 0, 0, 0, 0, 0]) (fun u _ p => CopyFits u p) ∧
    Meets rStreamClose upDma (msg [1]) (fun u _ p => CloseFits u p false ∧ (u.dmaAt (bits (pw p 1) 3 0)).kind = 0) ∧
    Meets rStreamClose upDma (msg [2]) (fun u _ p => CloseFits u p false ∧ (u.dmaAt (bits (pw p 1) 3 0)).kind ≠ 0) ∧
    Meets rStreamCloseDiscard upDma (msg [0x101]) (fun u _ p => CloseFits u p true) := by
  refine ⟨⟨sends_of (by decide +kernel), ?_⟩, meets_of (by decide +kernel), meets_of (by decide +kernel), meets_of (by decide +kernel),
    meets_of (by decide +kernel), meets_of (by decide +kernel)⟩
  have h : ∀ k, ((taken rStreamOpenCapture upDma (msg [0, 3, 1024, 0, 0, 1, 0, 0, 0])).slotAt k).hist = none := fun k => by
    rw [slotAt_fresh rfl]; rfl
  simp only [CaptureFits, regionTaken_fresh h]
  decide +kernel

theorem witness_bankAssign :
    Meets rBankAssign up (msg [0x03F3F]) (fun u _ p => AssignFits u p ∧ ¬ unsettled (assigned u p) p) ∧
    Meets rBankAssign up (msg [0x10000]) (fun u _ p => AssignFits u p ∧ unsettled (assigned u p) p) :=
  ⟨meets_of (by decide +kernel), meets_of (by decide +kernel)⟩

/-- Groups 1, 2 and 3 are open, failed and committed. -/
def upGrp : State := ((up.modGrp 0 fun _ => { Group.reset with num := 1, state := .opened }).modGrp 1 fun _ =>
  { Group.reset with num := 2, state := .failed }).modGrp 2 fun _ => { Group.reset with num := 3, state := .committed }
theorem witness_groups :
    Meets rGrpPrepare up (msg [0xF09, 0x03030100, 0x30000]) (fun u e p => PrepareFits u p ∧ ∀ c : Fin 4, prepared u e p c = 0) ∧
    Meets rGrpPrepare up (msg [0xF09, 0x03020100, 0x30000]) (fun u e p => PrepareFits u p ∧ ∃ c : Fin 4, prepared u e p c ≠ 0) ∧
    Meets rGrpCommit upGrp (msg [9, 0, 0, 0]) (fun u _ p => CommitFits u p ∧ u.groupOf (bits (pw p 1) 7 0) = none) ∧
    Meets rGrpCommit upGrp (msg [2, 0, 0, 0]) (fun u _ p =>
      CommitFits u p ∧ u.groupOf (bits (pw p 1) 7 0) = some 1 ∧ (u.grpAt 1).state = .failed) ∧
    Meets rGrpCommit upGrp (msg [3, 0, 0, 0]) (fun u _ p =>
      CommitFits u p ∧ u.groupOf (bits (pw p 1) 7 0) = some 2 ∧ (u.grpAt 2).state = .committed) ∧
    Meets rGrpCommit upGrp (msg [1, 0, 0, 0]) (fun u _ p => CommitFits u p ∧ ∃ k, u.groupOf (bits (pw p 1) 7 0) = some k ∧ (u.grpAt k).state = .opened) ∧
    Meets rGrpAbandon upGrp (msg [2]) (fun u _ p => only (pw p 1) 0xFF ∧ ∃ k, u.groupOf (bits (pw p 1) 7 0) = some k ∧ (u.grpAt k).state ≠ .committed) :=
  ⟨meets_of (by decide +kernel), meets_of (by decide +kernel), meets_of (by decide +kernel), meets_of (by decide +kernel), meets_of (by decide +kernel),
   ⟨sends_of (by decide +kernel), by decide +kernel, 0, by decide +kernel⟩, ⟨sends_of (by decide +kernel), by decide +kernel, 1, by decide +kernel⟩⟩
theorem witness_links :
    Meets rBxLink up (msg [7, 1, 0, 0, 0, 0, 0, 0, 0]) (fun _ _ p => only (pw p 1) 7) ∧
    Meets rBxAlign up (msg [1, 8000]) (fun u _ p =>
      only (pw p 1) 1 ∧ -8000 ≤ (pw p 2).toInt ∧ (pw p 2).toInt ≤ 8000 ∧ (bit (pw p 1) 0 = true → u.bx.leader = false)) :=
  ⟨meets_of (by decide +kernel), meets_of (by decide +kernel)⟩

theorem witness_power :
    Meets rPwrSetStateTrim up (msg [0xF01, 0x1FFF]) (fun u _ p =>
      powerWords p ∧ u.hasDeferred 0x0A00 (fun _ => true) = false ∧ u.pwr.retain = none ∧
      ∀ c : Fin 4, bits (pw p 1) 1 0 = 1 → (bits (pw p 1) 11 8).testBit c → u.gateRefused c = false) ∧
    Meets rPwrSetStateRetain up (msg [2, 4]) (fun u _ p =>
      powerWords p ∧ u.retainRefused = false ∧ u.hasDeferred 0x0A00 (fun _ => true) = false ∧ u.pwr.retain = none) ∧
    Meets rPwrSetStateBackupOnly up (msg [3, 4]) (fun u _ p =>
      powerWords p ∧ u.retainRefused = false ∧ u.hasDeferred 0x0A00 (fun _ => true) = false ∧ u.pwr.retain = none) ∧
    Meets rPwrRetainBanks up (msg [1, 2]) (fun _ _ _ => True) := by
  refine ⟨⟨sends_of (by decide +kernel), by decide +kernel, by decide +kernel, by decide +kernel, fun c _ _ => ?_⟩,
   ⟨sends_of (by decide +kernel), by decide +kernel, ?_, by decide +kernel, by decide +kernel⟩,
   ⟨sends_of (by decide +kernel), by decide +kernel, ?_, by decide +kernel, by decide +kernel⟩, meets_of (by decide +kernel)⟩
  · rw [gateRefused_fresh rfl]; revert c; decide +kernel
  · have e : ∀ c, _ := gateRefused_fresh (u := taken rPwrSetStateRetain up (msg [2, 4])) rfl
    simp only [State.retainRefused, e]; decide +kernel
  · have e : ∀ c, _ := gateRefused_fresh (u := taken rPwrSetStateBackupOnly up (msg [3, 4])) rfl
    simp only [State.retainRefused, e]; decide +kernel
theorem witness_resets :
    Meets rSysResetFirmware up (msg [0, 0xA5A50103]) (fun _ _ p => only (pw p 1) 3 ∧ bits (pw p 1) 1 1 = 0 ∧ pw p 2 = 0xA5A50103) ∧
    Meets rSysResetDevice up (msg [1, 0xA5A50103]) (fun _ _ p => only (pw p 1) 3 ∧ bits (pw p 1) 1 1 = 0 ∧ pw p 2 = 0xA5A50103) :=
  ⟨meets_of (by decide +kernel), meets_of (by decide +kernel)⟩

end Sys2Proof.Tests
namespace Sys2Proof.Tests
set_option Elab.async false
open Sys2Proof Sys2Proof.Machine Sys2Proof.Claims

/-! Secure services on MB6. -/

/-- A session of a role (1 CO, 2 User) on MB6. -/
def session (role : Nat) : Session := { handle := 5, role := role, key := 0, sk := 0, counter := 1, lastAt := 0, blob := [9] }

/-- The module is operational with such a session, and these words wait on QP3. -/
def upSec (role : Nat) (fr : List W32) : State :=
  { up with
    sec := { up.sec with state := .operational, keys := true, sess := vset up.sec.sess 0 (some (session role)) }
    qp := vset up.qp 3 { up.qpAt 3 with h2d := fr } }

/-- A message on MB6. -/
def secMsg (l : List W32) : Msg := { mb := 6, seq := 7, len := Fin.ofNat 16 l.length, words := l, env := { refuse := 0, silent := false } }

/-- The header and the words that the session's MAC covers. -/
def covered (r : Row) (ws : List W32) : SecReq :=
  { mb := 6, header := BitVec.ofNat 32 (r.op * 65536 + (ws.length + 4) * 256 + 7), words := ws ++ List.replicate 4 0 }

/-- A message on MB6 that carries the session's MAC. -/
def macMsg (r : Row) (role : Nat) (ws fr : List W32) : Msg := secMsg (ws ++ macOf (session role) (covered r ws) fr)

/-- What a secure row's message meets, as one test. -/
def asks (n : Nat) (s : State) (m : Msg) : Bool :=
  decide (6 ≤ m.mb.val) && ((s.mbAt m.mb).state == .idle || (s.mbAt m.mb).state == .done) && s.pwr.mcUp && decide (m.len.val = n) &&
  s.sec.queue.isEmpty && s.sec.answers.isEmpty && !m.env.silent

theorem asks_of {r : Row} {n : Nat} {s : State} {m : Msg} (h : asks n s m = true) : Asks r n s m := by
  simp only [asks, Bool.and_eq_true, Bool.or_eq_true, Bool.not_eq_true', decide_eq_true_eq, beq_iff_eq, List.isEmpty_iff] at h
  obtain ⟨⟨⟨⟨⟨⟨h1, h2⟩, h3⟩, h4⟩, h5⟩, h6⟩, h7⟩ := h
  exact ⟨h1, h2, h3, h4, h5, h6, h7⟩

/-- A frame for MB6 and SEQ 7 with these data words. -/
def frame (l : List W32) : List W32 := BitVec.ofNat 32 (10 * 2 ^ 28 + l.length * 65536 + 6 * 256 + 7) :: l

/-- An authenticated row's message, with its session and frame. -/
def MeetsSec (r : Row) (n : Nat) (user needs : Bool) (s : State) (role : Nat) (ws fr : List W32) (pre : State → SecReq → Session → List W32 → Prop) : Prop :=
  let m := macMsg r role ws fr
  Asks r n s m ∧ InSession user needs (cleaned r s m) (request r m) (session role) fr ∧ pre (cleaned r s m) (request r m) (session role) (fr.drop 1)

theorem meetsSec_of {r : Row} {n : Nat} {user needs : Bool} {s : State} {role : Nat} {ws fr : List W32} {pre : State → SecReq → Session → List W32 → Prop}
    (text : macText (session role) (request r (macMsg r role ws fr)) fr = macText (session role) (covered r ws) fr)
    (last : (List.range 4).map (fun i => (request r (macMsg r role ws fr)).w ((request r (macMsg r role ws fr)).len - 3 + i)) =
      macOf (session role) (covered r ws) fr)
    (h : let m := macMsg r role ws fr
      (asks n s m && decide (vget (cleaned r s m).sec.sess ((request r m).mb - 6) = some (session role) ∧
        BitVec.ofNat 32 (session role).handle = (request r m).w (if bits (request r m).header 31 16 = 0x0F00 then 2 else 1) ∧
        (if needs then (cleaned r s m).headFrame (request r m) = some fr else fr = []) ∧ ((session role).role = 1 ∨ user = true))) = true)
    (p : pre (cleaned r s (macMsg r role ws fr)) (request r (macMsg r role ws fr)) (session role) (fr.drop 1)) : MeetsSec r n user needs s role ws fr pre := by
  simp only [Bool.and_eq_true, decide_eq_true_eq] at h
  obtain ⟨h1, h2, h3, h4, h5⟩ := h
  have mac : macOk (session role) (request r (macMsg r role ws fr)) fr = true := by
    have e : macOf (session role) (request r (macMsg r role ws fr)) fr = macOf (session role) (covered r ws) fr := by rw [macOf, text]; rfl
    rw [macOk, e, last, beq_self_eq_true]
  exact ⟨asks_of h1, ⟨h2, h3, h4, mac, h5⟩, p⟩

/-- A secure row's message without a session. -/
def MeetsPlain (r : Row) (n : Nat) (s : State) (m : Msg) (pre : State → SecReq → Prop) : Prop := Asks r n s m ∧ pre (cleaned r s m) (request r m)

/-- A module without an owner, with a nonce for MB6 and an OPEN's frame; and one whose CO key index is locked. -/
def upUnowned : State :=
  { up with
    sec := { up.sec with state := .unowned, keys := true, nonce := vset up.sec.nonce 0 (some (3, 0)) }
    qp := vset up.qp 3 { up.qpAt 3 with h2d := frame (List.replicate 74 1) } }
def upLocked : State := { upUnowned with sec := { upUnowned.sec with state := .operational, locks := [(16, 5)] } }

theorem witness_challenge : MeetsPlain rSecChallenge 1 upUnowned (secMsg [0]) fun g q => q.w 1 = 0 ∧ (g.sec.state = .unowned ∨ operational g) :=
  ⟨asks_of (by decide +kernel), by decide +kernel⟩
/-- Which of the two clauses about a verified and a failed OPEN holds is Config.verify's choice (log 13). -/
theorem witness_open : MeetsPlain rSecOpen 1 upUnowned (secMsg [0x101]) (fun g q =>
      openFine g q ∧ g.sec.locked (16 * bits (q.w 1) 9 8 + bits (q.w 1) 14 12) = false ∧ g.headFrame q = some (frame (List.replicate 74 1)) ∧
      openKey g q ((frame (List.replicate 74 1)).drop 1) = some (List.replicate 25 1) ∧ g.validNonce (q.mb - 6) = some 3) ∧
    MeetsPlain rSecOpen 1 upLocked (secMsg [0x101]) (fun g q => openFine g q ∧ g.sec.locked (16 * bits (q.w 1) 9 8 + bits (q.w 1) 14 12) = true) :=
  ⟨⟨asks_of (by decide +kernel), by decide +kernel⟩, ⟨asks_of (by decide +kernel), by decide +kernel⟩⟩
/-- The certificate's length is Config.cert's choice. -/
theorem witness_exportCert (h : ((Config.cert false).length + 3) / 4 ≤ 1023) : MeetsPlain rSecExportCert 1 upUnowned (secMsg [0]) fun g q =>
    only (q.w 1) 3 ∧ bits (q.w 1) 1 0 ≤ 1 ∧ (g.sec.state = .unowned ∨ operational g) ∧
      g.frameFits (((Config.cert (bits (q.w 1) 1 0 = 1)).length + 3) / 4) = true := by
  refine ⟨asks_of (by decide +kernel), by decide +kernel, by decide +kernel, by decide +kernel, ?_⟩
  have e : (cleaned rSecExportCert upUnowned (secMsg [0])).frameFits (((Config.cert false).length + 3) / 4) =
    decide (((Config.cert false).length + 3) / 4 ≤ 1023 ∧ 0 + ((Config.cert false).length + 3) / 4 + 1 ≤ 1024) := rfl
  show (cleaned rSecExportCert upUnowned (secMsg [0])).frameFits (((Config.cert false).length + 3) / 4) = true
  rw [e, decide_eq_true_eq]
  omega

theorem witness_sessions :
    MeetsSec rSecClose 6 true false (upSec 2 []) 2 [2, 5] [] (fun g q _ _ => only (q.w 1) 0x730F ∧ operational g) ∧
    MeetsSec rSecEnroll 6 false true (upSec 1 (frame (List.replicate 25 1))) 1 [0x6203, 5] (frame (List.replicate 25 1)) (fun g q _ _ =>
      only (q.w 1) 0x730F ∧ bits (q.w 1) 9 8 = 2 ∧ bits (q.w 1) 14 12 ≠ 7 ∧ operational g ∧ vget g.sec.userKeys (bits (q.w 1) 14 12) = none) ∧
    MeetsSec rSecRemove 6 false false (upSec 1 []) 1 [0x204, 5] [] (fun g q _ _ =>
      only (q.w 1) 0x730F ∧ bits (q.w 1) 9 8 = 2 ∧ bits (q.w 1) 14 12 ≠ 7 ∧ operational g) :=
  ⟨meetsSec_of (by decide +kernel) (by rfl) (by decide +kernel) (by decide +kernel), meetsSec_of (by decide +kernel) (by rfl) (by decide +kernel) (by decide +kernel),
   meetsSec_of (by decide +kernel) (by rfl) (by decide +kernel) (by decide +kernel)⟩
theorem witness_records :
    MeetsSec rSecSignRecordSlot 13 true false ((upSec 2 []).modSlot 2 fun k => { k with published := true }) 2 [5, 0x20000, 0, 0, 0, 0, 0, 0, 0] []
      (fun g q _ _ => only (q.w 2) 0x1FF0003 ∧ g.sec.rctr < 2 ^ 32 - 1 ∧ (g.slotAt (bits (q.w 2) 24 16)).published = true ∧ operational g ∧
        g.frameFits 169 = true) ∧
    MeetsSec rSecSignRecordBlobPart 13 true true (upSec 2 (frame [4, 5])) 2 [5, 1, 0, 0, 0, 0, 0, 0, 0] (frame [4, 5])
      (fun g q _ _ => only (q.w 2) 0x1FF0003 ∧ operational g) ∧
    MeetsSec rSecSignRecordBlobEnd 13 true true (upSec 2 (frame [4, 5])) 2 [5, 2, 0, 0, 0, 1, 0, 0, 0] (frame [4, 5])
      (fun g q x d => only (q.w 2) 0x1FF0003 ∧ only (q.w 5) 0xFFFF ∧ g.sec.rctr < 2 ^ 32 - 1 ∧ g.blobStart q ≤ g.ext ∧
        g.ext ≤ g.blobStart q + 3600 * 8000000000000 ∧ ¬ (x.blob = [] ∧ d = []) ∧ operational g ∧ g.frameFits 139 = true) :=
  ⟨meetsSec_of (by decide +kernel) (by rfl) (by decide +kernel) (by decide +kernel), meetsSec_of (by decide +kernel) (by rfl) (by decide +kernel) (by decide +kernel),
   meetsSec_of (by decide +kernel) (by rfl) (by decide +kernel) (by decide +kernel)⟩
theorem witness_sealAndAudit :
    MeetsSec rSecSealCalSeal 6 false false (upSec 1 []) 1 [5, 0x800] [] (fun g q _ _ =>
      only (q.w 2) 0xF03 ∧ bits (q.w 2) 11 8 ≤ 8 ∧ g.sec.rctr < 2 ^ 32 - 1 ∧ operational g ∧ g.frameFits 139 = true ∧
      (∀ n : Fin 128, (g.chan n).inp.configured = true ∨ (g.chan n).out.configured = true → (g.chan n).cal.conf ≠ .failed) ∧
      ∀ c : Fin 4, g.calRunBusy c = false ∧ g.tdrBusy c = false) ∧
    MeetsSec rSecSealCalClear 6 false false (upSec 1 []) 1 [5, 1] [] (fun g q _ _ =>
      only (q.w 2) 0xF03 ∧ g.sec.rctr < 2 ^ 32 - 1 ∧ operational g ∧ g.frameFits 139 = true) ∧
    MeetsSec rSecAuditRead 6 true false (upSec 2 []) 2 [5, 0] [] (fun g q _ _ =>
      (q.w 2).toNat ≤ g.sec.auditWr ∧ g.sec.rctr < 2 ^ 32 - 1 ∧ operational g ∧ g.frameFits (8 * (auditFrom g q).length + 139) = true) :=
  ⟨meetsSec_of (by decide +kernel) (by rfl) (by decide +kernel) (by decide +kernel), meetsSec_of (by decide +kernel) (by rfl) (by decide +kernel) (by decide +kernel),
   meetsSec_of (by decide +kernel) (by rfl) (by decide +kernel) (by decide +kernel)⟩
/-- An update of 100 bytes has begun. -/
def upUpdate (fr : List W32) : State := { upSec 1 fr with sec := { (upSec 1 fr).sec with update := some { len := 100, words := [1] } } }
theorem witness_moduleCommands :
    MeetsSec rSecZeroize 7 false false (upSec 1 []) 1 [5, 0, 0x5A5A0F04] [] (fun g q _ _ => only (q.w 2) 3 ∧ q.w 3 = 0x5A5A0F04 ∧ operational g) ∧
    MeetsSec rTamperCfg 7 false false (upSec 1 []) 1 [5, 0x1FF01, 0] [] (fun g q _ _ => only (q.w 2) 0x1FF03 ∧ operational g) ∧
    MeetsSec rSecFwUpdateBegin 7 false false (upSec 1 []) 1 [5, 0, 4194304] [] (fun g q _ _ => only (q.w 2) 3 ∧ (q.w 3).toNat ≤ 4194304 ∧ operational g) ∧
    MeetsSec rSecFwUpdateData 7 false true (upUpdate (frame [4, 5])) 1 [5, 1, 4] (frame [4, 5]) (fun g q _ d =>
      only (q.w 2) 3 ∧ operational g ∧ g.sec.update = some { len := 100, words := [1] } ∧ (q.w 3).toNat = 4 * 1 ∧ 4 * (1 + d.length) < 100 + 4) ∧
    MeetsSec rSecFwUpdateAbort 7 false false (upUpdate []) 1 [5, 3, 0] [] (fun g q _ _ => only (q.w 2) 3 ∧ operational g ∧ g.sec.update ≠ none) :=
  ⟨meetsSec_of (by decide +kernel) (by rfl) (by decide +kernel) (by decide +kernel), meetsSec_of (by decide +kernel) (by rfl) (by decide +kernel) (by decide +kernel),
   meetsSec_of (by decide +kernel) (by rfl) (by decide +kernel) (by decide +kernel), meetsSec_of (by decide +kernel) (by rfl) (by decide +kernel) (by decide +kernel),
   meetsSec_of (by decide +kernel) (by rfl) (by decide +kernel) (by decide +kernel)⟩
/-- Whether the image is valid and its SVN high enough, and whether the token verifies, is Config's choice (logs 13, 14). -/
theorem witness_commitAndUnlock :
    MeetsSec rSecFwUpdateCommit 7 false false (upUpdate []) 1 [5, 2, 0] [] (fun g q _ _ =>
      only (q.w 2) 3 ∧ operational g ∧ g.sec.update = some { len := 100, words := [1] }) ∧
    MeetsSec rSecDebugUnlock 6 false true (upSec 1 (frame [4, 5])) 1 [5, 1] (frame [4, 5])
      (fun g q _ _ => only (q.w 2) 3 ∧ bits (q.w 2) 1 0 = 1 ∧ operational g) ∧
    MeetsSec rSecDebugUnlock 6 false true (upSec 1 (frame [4, 5])) 1 [5, 2] (frame [4, 5])
      (fun g q _ _ => only (q.w 2) 3 ∧ bits (q.w 2) 1 0 = 2 ∧ operational g) :=
  ⟨meetsSec_of (by decide +kernel) (by rfl) (by decide +kernel) (by decide +kernel), meetsSec_of (by decide +kernel) (by rfl) (by decide +kernel) (by decide +kernel),
   meetsSec_of (by decide +kernel) (by rfl) (by decide +kernel) (by decide +kernel)⟩

end Sys2Proof.Tests
namespace Sys2Proof.Tests
set_option Elab.async false
open Sys2Proof Sys2Proof.Machine Sys2Proof.Claims

/-! Microwords. -/

/-- A microword: CLASS, OP, DST, SRA, SRB, SEQ, TARGET, SEL and IMM, with FLG; the condition is ALWAYS (Table 9-1). -/
def word (cls op : Nat) (dst sra srb seq target sel imm : Nat := 0) : BitVec 128 :=
  BitVec.ofNat 128 (cls * 2 ^ 124 + op * 2 ^ 120 + dst * 2 ^ 115 + sra * 2 ^ 110 + srb * 2 ^ 105 + 2 ^ 103 + seq * 2 ^ 94 + target * 2 ^ 81 + sel * 2 ^ 64 + imm)

/-- Task 3 of cluster 0 is at this microword, with these two values in G1 and G2. -/
def meAt (w : BitVec 128) (a b : W64 := 0) : State := up.modMe 0 fun m =>
  { m with state := .task, loaded := true, store := [w], task := 3, g := vset (vset m.g 1 a) 2 b }

/-- The state after a step of the command. -/
def next {α : Type} (c : Instr) (s : State) (f : State → α) : Option α :=
  match step { s with pending := [c] } with
  | .next t => some (f t)
  | _ => none

theorem witness_microwords : ∀ e ∈ [Ecc.ok, Ecc.corrected, Ecc.bad], ∀ r ∈ allWords e, Ready r 0 (meAt (word r.cls r.op)) := by
  unfold Claims.Ready
  decide +kernel
theorem witness_next : ∀ r ∈ seqWords, Issues (meAt (word 0 0 (seq := r.op))) 0 ∧ mwSeq (atPc (meAt (word 0 0 (seq := r.op))) 0) = r.op ∧
    mwClass (atPc (meAt (word 0 0 (seq := r.op))) 0) = 0 ∧ mwOp (atPc (meAt (word 0 0 (seq := r.op))) 0) = 0 := by decide +kernel
theorem witness_nextOfAnyClass : Ready wAdd 0 (meAt (word 1 0 (seq := 1))) ∧ mwSeq (atPc (meAt (word 1 0 (seq := 1))) 0) = 1 := by
  unfold Claims.Ready
  decide +kernel

/-- A handler of source 200 that interrupted task 3. -/
def handler (fast : Bool) : MeHandler :=
  { src := 200, fast := fast, since := 0, before := .task, stack := [], wait := none, pc := 9, flags := up.me 0 |>.flags, lc := 4, inner := 0, from_ := 0 }
def inHandlerAt (w : BitVec 128) (fast : Bool) (stack : List MeFrame) : State := (meAt w).modMe 0 fun m =>
  { m with state := if fast then .fast else .normal, handlers := [handler fast], stack := stack, image := { m.image with fastMax := 4096, normMax := 4096 } }
theorem witness_reti :
    Ready wReti 0 (inHandlerAt (word 0 1) true []) ∧ ((inHandlerAt (word 0 1) true []).timSettle.me 0).state = .fast ∧
    Ready wReti 0 (inHandlerAt (word 0 1) false [{ ret := 9, saved := some (up.me 0).flags }]) ∧
    Ready wReti 0 (inHandlerAt (word 0 1) false [{ ret := 9, saved := none }]) ∧ Ready wReti 0 (inHandlerAt (word 0 1) false []) ∧
    ((inHandlerAt (word 0 1) false []).timSettle.me 0).state = .normal := by
  unfold Claims.Ready
  decide +kernel

/-- Every register that IO.WR may write: the offset of a channel's register, in channel 31 of the cluster; and a timer's. -/
theorem witness_ioWrite : (∀ off ∈ [0x10C, 0x110, 0x114, 0x118, 0x140, 0x148, 0x14C, 0x150, 0x154, 0x158, 0x15C, 0x160],
      let s := meAt (word 8 1 (sel := 32768 + 31 * 128 + off / 4))
      Ready wIoWr 0 s ∧ mwSel (atPc s 0) / 32768 = 1 ∧ mwSel (atPc s 0) % 32768 / 4096 = 0 ∧ 4 * (mwSel (atPc s 0) % 128) = off) ∧
    ∀ off ∈ [0x04, 0x08, 0x24],
      let s := (meAt (word 8 1 (sel := 65536 + 31 * 16 + off / 4))).modTim 31 fun t => { t with owner := 1 }
      Ready wIoWr 0 s ∧ mwSel (atPc s 0) / 32768 = 2 ∧ mwSel (atPc s 0) % 32768 / 16 < 32 ∧
      ((issued s 0).timAt (mwSel (atPc s 0) % 32768 / 16)).owner = 0 + 1 ∧ 4 * (mwSel (atPc s 0) % 16) = off := by
  unfold Claims.Ready
  decide +kernel

/-- Bank 0 belongs to the microengine, its last word holds an uncorrectable error. -/
def bankAt_ (w : BitVec 128) (a : W64) : State := { (meAt w a).modBank 0 (fun k => { k with owner := 8 }) with ue := [131071] }
theorem witness_bank : ∀ r ∈ [wBankLd .ok, wBankSt .ok, wBankAdd .ok, wBankSwap .ok],
    Ready r 0 (bankAt_ (word 9 r.op (sra := 1)) 0) ∧
    (let u := issued (bankAt_ (word 9 r.op (sra := 1)) 0) 0
     bankAddr (u.me 0) (word 9 r.op (sra := 1)) = 0 ∧ (u.bankAt 0).owner = 8 ∧ 0 ∉ u.ue) ∧
    (let u := issued (bankAt_ (word 9 r.op (sra := 1)) 131071) 0
     bankAddr (u.me 0) (word 9 r.op (sra := 1)) = 131071 ∧ 131071 / 131072 = 0 ∧ 131071 ∈ u.ue) ∧
    (let u := issued (bankAt_ (word 9 r.op (sra := 1)) 131072) 0
     bankAddr (u.me 0) (word 9 r.op (sra := 1)) = 131072 ∧ (u.bankAt 1).owner ≠ 8) := by
  unfold Claims.Ready
  decide +kernel

/-- A condition that holds and each next-address code, with an empty stack, a CALL entry, an INT entry and a full stack. -/
theorem witness_nextAddress : ∀ q ∈ [1, 2, 3, 4, 5, 6], ∀ l ∈ ([[], [{ ret := 5, saved := none }], [{ ret := 5, saved := some (up.me 0).flags }],
      List.replicate 16 { ret := 5, saved := none }] : List (List MeFrame)),
    ((meAt (word 0 0 (seq := q))).modMe 0 fun m => { m with stack := l }).holds 0 (word 0 0 (seq := q)) 0 = true ∧ mwSeq (word 0 0 (seq := q)) = q ∧
    inHandler ((meAt (word 0 0 (seq := q))).me 0) = false ∧ inHandler ((inHandlerAt (word 0 0 (seq := q)) true []).me 0) = true := by decide +kernel

/-- Results and flags Z, N, C, V of words of classes ALU, SHIFT and MUL, by hand from Table 9-4: OP, A, B; result, flags. -/
def results : List (Nat × Nat × W64 × W64 × W64 × Bool × Bool × Bool × Bool) :=
  [(1, 0, 0xFFFFFFFFFFFFFFFF, 1, 0, true, false, true, false), (1, 0, 0x7FFFFFFFFFFFFFFF, 1, 0x8000000000000000, false, true, false, true),
   (1, 2, 0, 1, 0xFFFFFFFFFFFFFFFF, false, true, true, false), (1, 2, 0x8000000000000000, 1, 0x7FFFFFFFFFFFFFFF, false, false, false, true),
   (1, 4, 0xF0, 0x3C, 0x30, false, false, false, false), (1, 5, 0xF0, 0x3C, 0xFC, false, false, false, false),
   (1, 6, 0xF0, 0x3C, 0xCC, false, false, false, false), (1, 7, 0xF0, 0x3C, 0xC0, false, false, false, false),
   (1, 8, 0xFFFFFFFFFFFFFFFF, 1, 0xFFFFFFFFFFFFFFFF, false, true, false, false), (1, 9, 0xFFFFFFFFFFFFFFFF, 1, 1, false, false, false, false),
   (1, 10, 0xFFFFFFFFFFFFFFFF, 1, 1, false, false, false, false), (1, 11, 0xFFFFFFFFFFFFFFFF, 1, 0xFFFFFFFFFFFFFFFF, false, true, false, false),
   (1, 12, 0x7FFFFFFFFFFFFFFF, 1, 0x7FFFFFFFFFFFFFFF, false, false, false, true),
   (1, 13, 0x8000000000000000, 1, 0x8000000000000000, false, true, false, true),
   (2, 0, 0x8000000000000001, 1, 2, false, false, true, false), (2, 1, 3, 1, 1, false, false, true, false),
   (2, 2, 0x8000000000000000, 63, 0xFFFFFFFFFFFFFFFF, false, true, false, false), (2, 3, 0x8000000000000001, 1, 3, false, false, false, false),
   (2, 6, 1, 0, 63, false, false, false, false), (2, 6, 0, 0, 64, false, false, false, false), (2, 7, 0xFF, 0, 8, false, false, false, false),
   (3, 0, 0x100000000, 0x100000000, 0, true, false, false, false), (3, 1, 0x100000000, 0x100000000, 1, false, false, false, false),
   (3, 2, 0xFFFFFFFFFFFFFFFF, 1, 0xFFFFFFFFFFFFFFFF, false, true, false, false)]
theorem test_results : ∀ x ∈ results, ∀ r ∈ dataWords, r.cls = x.1 → r.op = x.2.1 →
    next (r.make 0 false) (meAt (word x.1 x.2.1 (dst := 3) (sra := 1) (srb := 2)) x.2.2.1 x.2.2.2.1)
      (fun t => let m := t.me 0; (vget m.g 3, m.flags.z, m.flags.n, m.flags.c, m.flags.v)) = some x.2.2.2.2 := by decide +kernel
theorem test_cmp : next (.uCmp 0 false) (meAt (word 1 14 (dst := 3) (sra := 1) (srb := 2)) 1 2)
    (fun t => let m := t.me 0; (vget m.g 3, m.flags.z, m.flags.n, m.flags.c, m.flags.v, m.pc)) = some (0, false, true, true, false, 1) := by decide +kernel
theorem test_ext : next (.uExt 0 false) (meAt (word 2 4 (dst := 3) (sra := 1) (imm := 8 * 64 + 4)) 0xABCD 0) (fun t => vget (t.me 0).g 3) = some 0xBC := by
  decide +kernel
theorem test_ins : next (.uIns 0 false) (meAt (word 2 5 (dst := 1) (srb := 2) (imm := 8 * 64 + 4)) 0xFFFF 0) (fun t => vget (t.me 0).g 1) = some 0xF00F := by
  decide +kernel
theorem test_g0 : next (.uMovi 0 false) (meAt (word 5 0 (dst := 0) (imm := 5))) (fun t => (vget (t.me 0).g 0, (t.me 0).flags.z)) = some (0, false) := by
  decide +kernel
theorem test_wrongWord : next (.uAdd 0 false) (meAt (word 1 2)) (fun t => (t.me 0).pc) = some 0 := by decide +kernel
theorem test_jump : next (.uJump 0 false) (meAt (word 0 0 (seq := 1) (target := 77))) (fun t => (t.me 0).pc) = some 77 := by decide +kernel
theorem test_mull_late : next (.uMull 0 false) (meAt (word 3 0 (dst := 3) (sra := 1) (srb := 2)) 3 5) (fun t => ((t.me 0).ready.map fun x => (x.reg, x.at_))) =
    some [(3, 4 * 12800)] := by decide +kernel
theorem test_ioDenied : next (.uIoWr 0 false) (meAt (word 8 1 (sel := 32768))) (fun t => (t.me 0).fltCause) = some 6 := by decide +kernel

end Sys2Proof.Tests
namespace Sys2Proof.Tests
set_option Elab.async false
open Sys2Proof Sys2Proof.Machine Sys2Proof.Claims

/-! Waits, interrupts, tasks. -/

/-- A WAIT whose condition is Z (Table 9-1), for at most n cycles. -/
def waitWord (n : Nat) : BitVec 128 := word 11 0 (imm := n) + BitVec.ofNat 128 (1 * 2 ^ 98)
/-- A microengine in such a wait, with Z as given, until cycle 10, at a cycle. -/
def waiting (z : Bool) (cycle : Nat) : State := (meAt (waitWord 10)).modMe 0 fun m =>
  { m with wait := some { since := 0, limit := some (10 * 12800) }, nextAt := cycle * 12800, flags := { m.flags with z := z } }
theorem witness_wait :
    (Ready wWait 0 (meAt (word 11 0)) ∧ (issued (meAt (word 11 0)) 0).holds 0 (word 11 0) 0 = true) ∧
    (Ready wWait 0 (meAt (waitWord 10)) ∧ (issued (meAt (waitWord 10)) 0).holds 0 (waitWord 10) 0 = false) ∧
    ((waiting true 10).me 0).wait = some { since := 0, limit := some 128000 } ∧ 128000 < (waiting true 10).guardAt 0 ∧
    ((waiting true 10).runTo 128000).holds 0 (((waiting true 10).me 0).word 0) 128000 = true ∧
    ((waiting true 10).guardAt 0 ≤ 6250 * 12800) ∧ ((waiting true 6250).me 0).wait = some { since := 0, limit := some 128000 } := by
  unfold Claims.Ready
  decide +kernel

/-- An IO.RD that the machine carries out in full, ends at the guard band exactly, or begins one cycle later; and one that the budget of an ENFORCE
task or the limit of a handler cuts. -/
theorem witness_ioRead :
    (∀ x ∈ [(6, true), (5, false)],
      let s := { meAt (word 8 0) with tb := { up.tb with dtc := (6250 - 64 - x.1) * 12800 } }
      Ready wIoRd 0 s ∧ s.guardAt 0 = issueTime s 0 + x.1 * 12800 ∧ decide (runsOn (issued s 0) 0 (issueTime s 0) (issueTime s 0 + 6 * 12800)) = x.2) ∧
    (∀ x ∈ [(6, true), (5, false)],
      let s := ((meAt (word 8 0)).modMe 0 fun m => { m with budget := x.1 }).modTask 0 3 fun k => { k with enforce := true }
      Ready wIoRd 0 s ∧ decide (runsOn (issued s 0) 0 (issueTime s 0) (issueTime s 0 + 6 * 12800)) = x.2) ∧
    ∀ x ∈ [(6, true), (5, false)],
      let s := (inHandlerAt (word 8 0) true []).modMe 0 fun m => { m with image := { m.image with fastMax := x.1 } }
      Ready wIoRd 0 s ∧ decide (runsOn (issued s 0) 0 (issueTime s 0) (issueTime s 0 + 6 * 12800)) = x.2 := by
  unfold Claims.Ready
  decide +kernel

/-- Conditions of a wait that time alone changes: DTC_GE against T0 and BUDGET_LOW below IMM[47:32]. -/
theorem witness_condEdge :
    (let w := word 11 0 + BitVec.ofNat 128 (12 * 2 ^ 98)
     let s := (meAt w).modMe 0 fun m => { m with tm := vset m.tm 0 12801 }
     mwCinv w = false ∧ mwCond w = 12 ∧ s.cond 0 w 0 = false) ∧
    (let w := word 11 0 (imm := 5 * 2 ^ 32) + BitVec.ofNat 128 (17 * 2 ^ 98)
     let s := (meAt w).modMe 0 fun m => { m with budget := 100 }
     mwCinv w = false ∧ mwCond w = 17 ∧ s.cond 0 w 0 = false ∧ (s.me 0).state = .task) ∧
    (mwCond (waitWord 10) ≠ 12 ∧ mwCond (waitWord 10) ≠ 17) := by decide +kernel
/-- DTC_GE of T0 = 12,801 holds at the second CCLK edge, and BUDGET_LOW of 5 with 100 cycles left after 96. -/
theorem test_condEdge :
    ((meAt 0).modMe 0 fun m => { m with tm := vset m.tm 0 12801 }).condEdge 0 (word 11 0 + BitVec.ofNat 128 (12 * 2 ^ 98)) 0 = 25600 ∧
    ((meAt 0).modMe 0 fun m => { m with budget := 100 }).condEdge 0 (word 11 0 (imm := 5 * 2 ^ 32) + BitVec.ofNat 128 (17 * 2 ^ 98)) 0 = 96 * 12800 := by
  decide +kernel

/-- Sources 200 and 201 are pending for the microengine, 200 in the fast class if asked; its image allows handlers of 100 cycles. -/
def interrupted (fast ie : Bool) (at_ : Nat) : State :=
  let s := (meAt 0).modMe 0 fun m => { m with nextAt := at_, flags := { m.flags with ie := ie }, image := { m.image with fastMax := 100, normMax := 100, reserve := 1000 } }
  (State.modSrc { s with ic := { s.ic with dis := 0 } } 200 fun x => { x with pending := true, target := .me 0, fast := fast }).modSrc 201 fun x => { x with pending := true, target := .me 0, fast := false }
theorem witness_fastEntry :
    (interruptible (interrupted true true 12800) 0 ∧ (interrupted true true 12800).cicChoice 0 true = some 200 ∧
      Enters ((interrupted true true 12800).runTo 12800) 0 true 12800 ∧ decision (interrupted true true 12800) 0 = 12800) ∧
    (interruptible (interrupted true true 0) 0 ∧ (interrupted true true 0).cicChoice 0 true = some 200 ∧
      ¬ Enters ((interrupted true true 0).runTo 0) 0 true 0 ∧ decision (interrupted true true 0) 0 = 0) := by decide +kernel
theorem witness_normalEntry :
    (interruptible (interrupted false true 12800) 0 ∧ (interrupted false true 12800).cicChoice 0 true = none ∧
      (interrupted false true 12800).cicChoice 0 false = some 200 ∧ Enters ((interrupted false true 12800).runTo 12800) 0 false 12800) ∧
    (interruptible (interrupted false false 12800) 0 ∧ (interrupted false false 12800).cicChoice 0 false = some 200 ∧
      ¬ Enters ((interrupted false false 12800).runTo 12800) 0 false 12800) := by decide +kernel
theorem witness_fastFirst :
    ((interrupted true true 12800).cicChoice 0 true).isSome = true ∧ (interrupted true true 12800).cicChoice 0 false = some 201 ∧
    Enters (interrupted true true 12800) 0 true 12800 ∧ decision (interrupted true true 12800) 0 = 12800 := by decide +kernel

/-- Task 3 runs under ENFORCE with its budget spent or in a wait, and tasks 5 and 7 are due. -/
def tasked (wait : Bool) : State :=
  ((meAt 0).modMe 0 fun m => { m with budget := if wait then 10 else 0, wait := if wait then some { since := 0, limit := some 256000 } else none }).modSch 0
    fun h => { h with tasks := vset h.tasks 3 { vget h.tasks 3 with en := true, enforce := true }, due := [5, 7] }
theorem witness_handlerLong :
    (let s := (inHandlerAt 0 true []).modMe 0 fun m => { m with nextAt := 4096 * 12800 }
     (s.me 0).handlers = [handler true] ∧ (s.me 0).wait = none ∧ 4096 * 12800 ≤ s.issueAt 0) ∧
    (let s := (inHandlerAt 0 true []).modMe 0 fun m => { m with wait := some { since := 0, limit := none } }
     (s.me 0).handlers = [handler true] ∧ (s.me 0).wait = some { since := 0, limit := none }) ∧
    ((inHandlerAt 0 true []).me 0).wait = none ∧ ¬ 4096 * 12800 ≤ (inHandlerAt 0 true []).issueAt 0 := by decide +kernel
theorem witness_budgetCut :
    ((tasked false).me 0).state = .task ∧ ((tasked false).taskAt 0 3).enforce = true ∧ ((tasked false).me 0).wait = none ∧
    ((tasked false).me 0).nextAt + ((tasked false).me 0).budget * 12800 ≤ (tasked false).issueAt 0 ∧
    ((tasked false).me 0).nextAt + ((tasked false).me 0).budget * 12800 ≤ (tasked false).guardAt 0 ∧
    ((tasked true).me 0).wait = some { since := 0, limit := some 256000 } ∧
    ((tasked true).me 0).nextAt + ((tasked true).me 0).budget * 12800 ≤ 256000 ∧ 256000 ≤ (tasked true).guardAt 0 := by decide +kernel
theorem witness_guardBand : ((tasked false).clus 0).sch.guardTick ≠ some (tasked false).tb.tickIdx ∧ (tasked false).pwr.gated.testBit 0 = false ∧
    (((tasked false).modSch 0 fun h => { h with guardTick := some 0 }).clus 0).sch.guardTick = some 0 ∧ (tasked false).tb.tickIdx = 0 ∧
    ((tasked false).taskAt 0 3).enforce = true ∧ ((tasked false).me 0).nextAt + ((tasked false).me 0).budget * 12800 ≤ (tasked false).guardAt 0 ∧
    ((meAt 0).taskAt 0 3).enforce = false ∧ (up.me 0).state ≠ .task := by decide +kernel
theorem witness_dispatch : (tasked false).pwr.gated.testBit 0 = false ∧ (tasked false).now < (tasked false).guardAt 0 ∧
    ((tasked false).clus 0).sch.due = 5 :: [7] := by decide +kernel
theorem test_budgetCut : next (.budgetCut 0) (tasked false) (fun t => ((t.me 0).task, (t.clus 0).sch.cut, (t.clus 0).sch.due)) = some (5, 1, [7]) := by
  decide +kernel
theorem test_guardBand : next (.guardBand 0) ((tasked false).modSch 0 fun h => { h with tasks := vset h.tasks 3 { vget h.tasks 3 with enforce := false } }) (fun t => ((t.me 0).state, (t.clus 0).sch.ovr, (t.clus 0).sch.skip, (t.clus 0).sch.due)) =
    some (.idle, 1, 2, []) := by decide +kernel
theorem test_fastEntry : next (.fastEntry 0) (interrupted true true 12800) (fun t => ((t.me 0).state, (t.me 0).nextAt, (t.srcAt 200).active)) =
    some (.fast, 3 * 12800, true) := by decide +kernel

end Sys2Proof.Tests
namespace Sys2Proof.Tests
set_option Elab.async false
open Sys2Proof Sys2Proof.Machine Sys2Proof.Claims

/-! Ill-formed commands, and the machine as a whole. -/

/-- One ill-formed command for each check of operands. -/
theorem test_illFormed :
  ([.sysPing { msg [1] with len := 2 }, .hostRegisterWrite 4194304 0, .hostOddSizeAccess false 4194303 2 none, .hostOddSizeAccess true 65535 2 none,
   .readClear 4194301, .hostBankAccess 67108860 8 none [], .hostBankAccess 67108863 0 (some [1, 2]) [],
   .binTableUpdate 0 false { all := 1048577, nom := List.replicate 160 0, early := List.replicate 160 0, late := List.replicate 160 0 },
   .binTableUpdate 0 false { all := 0, nom := [], early := List.replicate 160 0, late := List.replicate 160 0 },
   .binTableUpdate 0 false { all := 0, nom := List.replicate 160 0, early := [], late := List.replicate 160 0 },
   .binTableUpdate 0 false { all := 0, nom := List.replicate 160 0, early := List.replicate 160 0, late := [] },
   .refWindow { complete := true, present := true, freq := 0, level := 0, dt := 8000000001 }, .dmaMove 0 0 [] (.data []), .dmaMove 0 65 [] (.data []),
   .pcieRetrain 3 1, .pcieRetrain 1 5, .dataLinkUp 16 1, .dataLinkUp 1 0, .lockoutExpire 15, .lockoutExpire 48, .jtagInstruction 256] : List Instr).all (fun c => !c.wellFormed) = true := by decide +kernel
theorem test_wellFormed : [Instr.sysPing (msg [1]), .hostRegisterWrite 4194303 0, .hostOddSizeAccess false 4194303 1 none, .readClear 4194300,
    .hostBankAccess 67108860 4 none [], .hostBankAccess 0 0 none [], .binTableUpdate 0 false { all := 0, nom := List.replicate 160 0, early := List.replicate 160 0, late := List.replicate 160 0 },
    .refWindow { complete := true, present := true, freq := 0, level := 0, dt := 8000000000 }, .dmaMove 0 64 [] (.data []), .pcieRetrain 8 4, .dataLinkUp 1 1,
    .lockoutExpire 16, .lockoutExpire 47, .jtagInstruction 255].all Instr.wellFormed = true := by decide +kernel

theorem witness_idleCycle : up.pending = [] ∧ up.pwr.startup ≠ .held ∧ { up.tb with dtc := 2 ^ 80 - 1 }.dtc < 2 ^ 80 := by decide +kernel
theorem witness_steps : ({ up with mem := [(0, 1), (67108863, 255)], tb := { up.tb with dtc := 2 ^ 80 - 1 }, pending := [.sysPing (msg [1])] } : State).Inv ∧
    next (.sysPing (msg [1])) { up with mem := [(0, 1), (67108863, 255)], tb := { up.tb with dtc := 2 ^ 80 - 1 }, pending := [] } (fun _ => 0) = some 0 := by
  unfold State.Inv QueuePair.Bounded
  decide +kernel
theorem test_windowEnd : next (.hostBankAccess 67108860 4 none []) up (fun _ => 0) = some 0 ∧ next (.hostBankAccess 67108860 5 none []) up (fun _ => 0) = none ∧
    next (.hostBankAccess 0 0 none []) up (fun _ => 0) = some 0 := by decide +kernel

/-- Mailbox 5 in a state, with a period that ends at cycle 1 and a message of 15 words. -/
def boxed (st : MbState) : State := up.modMb 5 fun x => { x with state := st, tmoAt := some 12800, data := vset x.data 0 0x01000F07, cancelLate := false }
theorem witness_boxes : ((boxed .posted).mbAt 5).state = .posted ∧ ((boxed .taken).mbAt 5).state = .taken ∧ ((boxed .idle).mbAt 5).state = .idle ∧
    ((boxed .done).mbAt 5).state = .done ∧ ((boxed .posted).mbAt 5).tmoAt = some 12800 := by decide +kernel
theorem witness_secureTimeout : (((boxed .taken).modMb 7 fun x => { x with state := .taken, wait := .secure }).mbAt 7).state = .taken ∧
    (((boxed .taken).modMb 7 fun x => { x with state := .taken, wait := .secure }).mbAt 7).wait = .secure := by decide +kernel
theorem test_go : next (.go 5) (boxed .idle) (fun t => ((t.mbAt 5).state, (t.mbAt 5).ack)) = some (.posted, 7) ∧
    next (.go 5) (boxed .posted) (fun t => (t.mbAt 5).goRej) = some true ∧
    next (.cancel 5) (boxed .taken) (fun t => ((t.mbAt 5).state, (t.mbAt 5).cancelLate)) = some (.taken, true) := by decide +kernel

/-- A word queue of this many words to the device and these to the host, with notices lost. -/
def queued (n : Nat) (l : List W32) (lost : W32) : State :=
  { up with qp := vmod up.qp 3 fun x => { x with h2dEn := true, h2d := List.replicate n 9, d2h := l, lostSince := lost } }
theorem witness_queues : ((queued 4095 [] 0).qpAt 3).h2dEn = true ∧ ((queued 4095 [] 0).qpAt 3).h2d.length = 4095 ∧
    ((queued 4096 [] 0).qpAt 3).h2d.length = 4096 ∧ (up.qpAt 3).h2dEn = false ∧ ((queued 0 [] 0).qpAt 3).d2h = [] ∧
    ((queued 0 (List.replicate 1023 5) 4).qpAt 3).d2h = 5 :: List.replicate 1022 5 ∧ ((queued 0 (List.replicate 1023 5) 4).qpAt 3).lostSince ≠ 0 ∧
    ((queued 0 (List.replicate 1024 5) 4).qpAt 3).d2h = 5 :: List.replicate 1023 5 := by decide +kernel
theorem test_queueNotice : next (.qpD2hRead 3) (queued 0 (List.replicate 1023 5) 4) (fun t => ((t.qpAt 3).d2h.length, (t.qpAt 3).lostSince)) = some (1024, 0) ∧
    next (.qpD2hRead 3) (queued 0 (List.replicate 1024 5) 4) (fun t => ((t.qpAt 3).d2h.length, (t.qpAt 3).lostSince)) = some (1023, 4) ∧
    next (.qpH2dPush 3 1) (queued 4096 [] 0) (fun t => ((t.qpAt 3).h2d.length, (t.qpAt 3).h2dDrop)) = some (4096, 1) := by decide +kernel

/-- A row that can be sent, and one that its handler refuses (CH_ENABLE of channel 128). -/
theorem witness_rows : Sends rSysPing up (msg [1, 2]) ∧ (up.mbAt 0).state = .idle := ⟨sends_of (by decide +kernel), by decide +kernel⟩
theorem witness_refused : Sends rChEnable up (msg [128]) ∧
    ((taken rChEnable up (msg [128])).command 0 rChEnable.op (msg [128]).env (payload rChEnable (msg [128]))).code = 0x04 :=
  ⟨sends_of (by decide +kernel), by decide +kernel⟩

/-- Messages posted on mailboxes 1 and 6, and one taken on mailbox 5 if asked; the header of both is given. -/
def posted (h : W32) (busy : Bool) : State :=
  let put (s : State) (k n : Nat) := s.modMb k fun x => { x with state := .posted, goOrder := n, data := vset x.data 0 h }
  (put (put up 1 0) 6 1).modMb 5 fun x => { x with state := if busy then .taken else .done }
theorem witness_turns :
    ((posted 0x01000F07 true).mbAt 1).state = .posted ∧ ((posted 0x01000F07 true).mbAt 5).state = .taken ∧
    ((posted 0x01000F07 true).mbAt 6).state = .posted ∧ ((posted 0x01000F07 true).mbAt 0).state = .idle ∧
    (∀ k : Fin 8, k.val < 6 → ((posted 0x01000F07 false).mbAt k).state ≠ .taken ∧ (k = 1 ∨ ((posted 0x01000F07 false).mbAt k).state ≠ .posted)) ∧
    ((posted 0x01000F07 false).mbAt 1).opcode = 0x0100 ∧ ((posted 0x01000F07 false).mbAt 1).len = 15 := by decide +kernel
/-- The code that each message's packet checks give, by R376 and Table 14-4. -/
theorem test_checks : ([(0x01050000, 1, 0x02), (0x0F030107, 1, 0x09), (0x01000F07, 6, 0x09), (0x01020107, 1, 0x03), (0x01000F07, 1, 0x00)] : List (W32 × Fin 8 × Nat)).all
    (fun (h, k, c) => next (.messageTake k { refuse := 0, silent := false }) (posted h false) (fun t => ((t.mbAt k).state, (t.mbAt k).ackCode)) == some (.done, c)) = true ∧
    next (.messageTake 1 { refuse := 0, silent := false }) (posted 0x01000F07 true) (fun t => (t.mbAt 1).state) = some .posted := by decide +kernel

end Sys2Proof.Tests
namespace Sys2Proof.Tests
set_option Elab.async false
open Sys2Proof Sys2Proof.Machine Sys2Proof.Claims

/-! Input channels and the merge. -/

/-- Channel 127 with a configured, enabled input whose comparator shows low, changed by f. -/
def input (f : ChIn → ChIn) : State := up.modIn 127 fun x =>
  f { x with configured := true, en := true, level := some false, lastInterp := some true }
/-- A transition's channel at the instant of the transition. -/
def at400 (f : ChIn → ChIn) : State := (input f).advance 400
theorem witness_transitions :
    (changes (input fun x => { x with en := false }) 127 true ∧ ¬ inputWorks (at400 fun x => { x with en := false }) 127) ∧
    (changes (input fun x => { x with blankUntil := 401 }) 127 true ∧ inputWorks (at400 fun x => { x with blankUntil := 401 }) 127 ∧ 400 < 401) ∧
    (inputWorks (at400 fun x => { x with blankUntil := 400, busy := vset (vset x.busy 0 401) 1 401 }) 127 ∧
      ¬ interpFree (at400 fun x => { x with blankUntil := 400, busy := vset (vset x.busy 0 401) 1 401 }) 127 false ∧
      ¬ interpFree (at400 fun x => { x with blankUntil := 400, busy := vset (vset x.busy 0 401) 1 401 }) 127 true) ∧
    (inputWorks (at400 fun x => { x with busy := vset (vset x.busy 0 400) 1 400 }) 127 ∧
      interpFree (at400 fun x => { x with busy := vset (vset x.busy 0 400) 1 400 }) 127 false ∧
      interpFree (at400 fun x => { x with busy := vset (vset x.busy 0 400) 1 400 }) 127 true ∧
      ((at400 id).chan 127).inp.lastInterp ≠ some false) ∧
    (interpFree (at400 fun x => { x with withheld := some false }) 127 true ∧ ¬ interpFree (at400 fun x => { x with withheld := some false }) 127 false) ∧
    ((at400 fun x => { x with lastInterp := none }).chan 127).inp.lastInterp = none := by decide +kernel
theorem test_transition : next (.inputTransition 127 true 3999) (input id) (fun t => (t.chan 127).inp.convs.map fun l => (l.interp1, l.tclk, l.phase)) = some [(false, 3200, 1)] := by
  decide +kernel

/-- Channel 127 awaits a code, and had a tag before. -/
def converting (last : Int) : State := (input fun x =>
  { x with convs := [{ interp1 := true, tclk := 9600, phase := 7, rising := true, phys := 12700, off := 0, dead := 0, blank := 0 }], lastTag := some { time := 5, phys := last, rising := false, q := false, dead := 0, blank := 0 } }).modCal 127
    fun k => { k with int1 := { k.int1 with table := List.replicate 160 (256 * 100) } }
theorem witness_codes : ∃ l, ((converting 5).chan 127).inp.convs = [l] ∧ ((converting 5).formTag 127 l 100).phys = 12316 ∧
    ((converting 12316).formTag 127 l 100).phys = 12317 ∧ ((converting 5).chan 127).inp.lastTag.isSome = true ∧ ((input id).chan 127).inp.lastTag = none :=
  ⟨_, rfl, by decide +kernel⟩
theorem test_rangeHit : [158, 159].map (fun c => next (.conversionComplete 127 (Fin.ofNat 160 c)) (converting 5) (fun t => (t.chan 127).cal.int1.rangeHit)) =
    [some false, some true] := by decide +kernel

/-- A tag at an instant, and a held leading edge at 50000 with a minimum pulse width of 100. -/
def tagAt (p : Int) (rising : Bool) : Tag := { time := p.toNat, phys := p, rising := rising, q := false, dead := 0, blank := 0 }
def holding (x : ChIn) : ChIn := { x with hold := some { tag := tagAt 50000 true, minpw := 100 }, minpw := 100, qualPol := false }
/-- A latch whose tag cannot be earlier than p. -/
def latchAt (p : Nat) : Latch := { interp1 := false, tclk := (p + 184) / 400 * 400, phase := 0, rising := true, phys := p, off := 0, dead := 0, blank := 0 }
theorem witness_hold :
    (∀ p ∈ [50216, 49816], ∃ h, ((input fun x => { holding x with convs := [latchAt p] }).chan 127).inp.hold = some h ∧ h.tag.phys + (h.minpw : Int) = 50100 ∧
      ∃ l, ((input fun x => { holding x with convs := [latchAt p] }).chan 127).inp.convs = [l] ∧ (input fun x => { holding x with convs := [latchAt p] }).latchBound 127 l = p) ∧
    (holding ChIn.reset).hold.isSome = true ∧ (holding ChIn.reset).waiting = [] ∧ ((tagAt 50099 false).phys - (tagAt 50000 true).phys < 100) ∧
    (tagAt 50099 false).rising ≠ (tagAt 50000 true).rising ∧ (tagAt 50099 false).dead = (tagAt 50000 true).dead ∧
    (tagAt 50099 false).blank = (tagAt 50000 true).blank ∧ ((1 : W32) ≠ (tagAt 50000 true).dead) ∧ ((100 : Nat) : Int) ≤ (tagAt 50100 false).phys - (tagAt 50000 true).phys := by
  refine ⟨fun p hp => ?_, by decide +kernel⟩
  simp only [List.mem_cons, List.not_mem_nil, or_false] at hp
  rcases hp with rfl | rfl <;> exact ⟨_, rfl, by decide +kernel, _, rfl, by decide +kernel⟩
/-- Inputs for the clauses of the qualifier, the edge selection and the FIFO. -/
theorem witness_inputs : ChIn.reset.hold = none ∧ ChIn.reset.minpw = 0 ∧ (fifoTags ChIn.reset.fifo < 512) ∧
    ({ ChIn.reset with minpw := 3 } : ChIn).minpw ≠ 0 ∧ (tagAt 0 true).rising ≠ ChIn.reset.qualPol ∧ ({ ChIn.reset with edge := 2 } : ChIn).edge = 2 ∧
    512 ≤ fifoTags (List.replicate 512 (.tag (tagAt 1 true))) ∧ fifoTags (.loss 0 1 0 0 :: List.replicate 511 (.tag (tagAt 1 true))) = 511 := by decide +kernel
theorem test_fifo : (({ ChIn.reset with fifo := List.replicate 512 (.tag (tagAt 1 true)) } : ChIn).accept (tagAt 9 true)).lossFifo = 1 ∧
    (({ ChIn.reset with fifo := List.replicate 512 (.tag (tagAt 1 true)) } : ChIn).accept (tagAt 9 true)).fifo.length = 512 ∧
    ((({ ChIn.reset with pendDead := 3 } : ChIn).accept (tagAt 9 true)).fifo.map fun | .tag t => (0, t.time) | .loss c n _ _ => (c, n)) = [(1, 3), (0, 9)] ∧
    (({ ChIn.reset with pendDead := 3, lossDead := 5 } : ChIn).accept { tagAt 9 true with dead := 4 }).pendDead = 1 := by decide +kernel

/-- A tag of channel 127 on its way: in the FIFO, in the merge of cluster 3 (late or not), and offered to cluster 0. -/
def tagWord (n : Nat) (p : Int) (late : Bool) : PWord := { sort := p, dtc := p.toNat, word := .tag n p.toNat true false, late := late }
def lane : State := input fun x => { x with fifo := [.tag (tagAt 7 true)] }
def merging (late : Bool) (now_ : Nat) : State := (up.advance now_).modCl 3 fun k => { k with pool := [tagWord 127 7 late] }
theorem witness_lane : lane.laneNext 3 3 = some 127 ∧ (lane.chan 127).inp.fifo = [.tag (tagAt 7 true)] := by decide +kernel
theorem witness_merge :
    (((merging true 0).clus 3).nextWord = some (tagWord 127 7 true) ∧ (merging true 0).mergeWaits 3 (tagWord 127 7 true) = false) ∧
    (((merging false 0).clus 3).nextWord = some (tagWord 127 7 false) ∧ (merging false 0).mergeWaits 3 (tagWord 127 7 false) = false) := by decide +kernel
theorem witness_tagQueue : (tagWord 127 7 false).word.channel = some 127 ∧ (tagWord 127 7 false).word.isTag = true ∧
    Microengine.reset.image.tagsel.testBit 127 = false ∧ (2 ^ 127).testBit 127 = true ∧ (List.replicate 63 (tagWord 127 7 false)).length < 64 ∧
    64 ≤ (List.replicate 64 (tagWord 127 7 false)).length := by decide +kernel
theorem witness_import : (up.modCl 3 fun k => { k with exchange := [(0, tagWord 127 7 false)] }).offered 0 = some (3, tagWord 127 7 false) ∧
    up.pwr.gated.testBit 0 = false := by decide +kernel
theorem test_lane : next (.lanePickup 3 3) lane (fun t => ((t.chan 127).inp.fifo.length, (t.clus 3).pool.length, vget (t.clus 3).laneLast 3)) = some (0, 1, some 7) ∧
    next (.tagImport 0) (up.modCl 3 fun k => { k with exchange := [(0, tagWord 127 7 false)] }) (fun t => ((t.clus 0).pool.length, (t.clus 3).exchange.length)) = some (1, 0) := by decide +kernel
theorem test_merge : next (.mergeRelease 3) (merging false 0) (fun t => ((t.clus 3).pool.length, (t.clus 3).releasedTo, t.now)) = some (0, some 7, 592) := by decide +kernel

end Sys2Proof.Tests
namespace Sys2Proof.Tests
set_option Elab.async false
open Sys2Proof Sys2Proof.Machine Sys2Proof.Claims

/-! Slots and decoders. -/

/-- An accumulator set that ended at an instant, and slot 511 with it closing. -/
def gate (e : Int) : Acc := { Acc.new 5 5 with stopAt := some e, stop := e.toNat }
def slotted (f : Slot → Slot) : State := up.modSlot 511 fun k => f { k with state := .running, published := false, acc := some (Acc.new 9 9) }
theorem witness_sample : Slot.reset.hist = none ∧ Slot.reset.closing = [] ∧ ({ Slot.reset with acc := some (Acc.new 9 9) } : Slot).acc = some (Acc.new 9 9) ∧
    -(2 ^ 63 : Int) ≤ 2 ^ 63 - 1 ∧ (2 ^ 63 - 1 : Int) < 2 ^ 63 ∧ Slot.reset.ivlMax = 0 ∧ (12800 : Int) ≤ ((1 : Nat) * 12800 : Nat) := by decide +kernel
theorem test_sample :
    ((({ Slot.reset with acc := some (Acc.new 9 9), ivlMax := 1 } : Slot).sample 20 12800 true true).acc.map fun a => (a.cnt, a.sum, a.ssq, a.qcnt, a.range)) =
      some (1, 12800, 163840000, 1, false) ∧
    ((({ Slot.reset with acc := some (Acc.new 9 9), ivlMax := 1 } : Slot).sample 20 12801 true true).acc.map fun a => (a.cnt, a.sum)) = some (0, 0) := by decide +kernel
/-- The guard band of the first tick begins 12,800 cycles less the band after it; a gate that ended so long before it is published, a later one waits. -/
theorem witness_publish :
    let g := up.guardInstant 3
    let late := slotted fun k => { k with closing := [gate (g - 1164799)] }
    let due := slotted fun k => { k with closing := [gate (g - 1164800)] }
    let busy := slotted fun k => { k with closing := [gate (g - 1164800)], state := .stopping, histq := [(0, 1)] }
    ((late.slotAt 511).closing = [gate (g - 1164799)] ∧ (late.guardInstant 3 : Int) < g - 1164799 + 1164800 + (late.maxMinpw 3 : Nat)) ∧
    ((due.slotAt 511).closing = [gate (g - 1164800)] ∧ g - 1164800 + 1164800 + (due.maxMinpw 3 : Nat) ≤ (due.guardInstant 3 : Int) ∧
      ¬ ((due.slotAt 511).state = .stopping)) ∧
    ((busy.slotAt 511).closing = [gate (g - 1164800)] ∧ (busy.slotAt 511).state = .stopping ∧ (busy.slotAt 511).histq ≠ []) := by decide +kernel
theorem witness_binAdd : ((slotted fun k => { k with histq := [(3, 1)], hist := some { bank := 63, offset := 131068, nbins := 4, width := 1, origin := 0 } }).slotAt 511).histq = (3, 1) :: [] ∧
    ((slotted fun k => { k with histq := [(3, 1)], hist := some { bank := 63, offset := 131068, nbins := 4, width := 1, origin := 0 } }).slotAt 511).hist =
      some { bank := 63, offset := 131068, nbins := 4, width := 1, origin := 0 } := by decide +kernel
theorem test_binAdd : next (.histAdd 511 .ok) (slotted fun k => { k with histq := [(3, 1)], hist := some { bank := 63, offset := 131068, nbins := 4, width := 1, origin := 0 } })
    (fun t => (Mem.word t.mem 8388607, (t.slotAt 511).histq)) = some (1, []) ∧
    next (.histAdd 511 .bad) (slotted fun k => { k with histq := [(3, 1)], hist := some { bank := 63, offset := 131068, nbins := 4, width := 1, origin := 0 } })
    (fun t => (Mem.word t.mem 8388607, (t.slotAt 511).drop)) = some (0, 1) := by decide +kernel

/-- Decoder 31 in RUN at the last position of a turn of 4, with both levels known, and with these tags held. -/
def decoding (l : List QdItem) : State := up.modDec 31 fun q =>
  { q with state := .run, en := true, knowA := true, knowB := true, pos := 3, cprM1 := 3, held := l, glt := 10, qwin := 100, spdValid := true }
def edgeOf (role : Nat) (p : Int) (rising : Bool) : QdItem := .tag role p p.toNat rising false
theorem witness_decoderTurn :
    ((decoding [edgeOf 0 500 true]).decAt 31).held = [edgeOf 0 500 true] ∧
    (decoding [edgeOf 0 500 true]).releasedBelow 31 (((decoding []).decAt 31).settledAt (edgeOf 0 500 true) []) = true ∧
    ((decoding [edgeOf 0 500 true]).modIn 124 holding).releasedBelow 31 (((decoding []).decAt 31).settledAt (edgeOf 0 60000 true) []) = false := by decide +kernel
theorem witness_decoderTags :
    ((decoding []).decAt 31).state ≠ .off ∧ ((decoding []).decAt 31).since ≤ 500 ∧
    glitchMate 10 (edgeOf 0 500 true) [edgeOf 0 509 false] = some (edgeOf 0 509 false) ∧
    (glitchMate 10 (edgeOf 0 500 true) [edgeOf 1 599 true] = none ∧ windowMate 10 100 1 500 none [edgeOf 1 599 true] = some (edgeOf 1 599 true)) ∧
    (glitchMate 10 (edgeOf 0 500 true) [edgeOf 1 600 true] = none ∧ windowMate 10 100 1 500 none [edgeOf 1 600 true] = none) ∧
    glitchMate 10 (edgeOf 0 500 true) [edgeOf 0 510 false] = none := by decide +kernel
theorem witness_transitionCount : ((decoding []).decAt 31).pos ≤ ((decoding []).decAt 31).cprM1 ∧ ((decoding []).decAt 31).lvlA ≠ true ∧
    ((decoding []).decAt 31).lvlA = false ∧ -(2 ^ 31 : Int) < ((decoding []).decAt 31).rev.toInt ∧ ((decoding []).decAt 31).rev.toInt < 2 ^ 31 - 1 := by decide +kernel
theorem test_turn : next (.qdTagHandle 31) (decoding [edgeOf 0 500 true]) (fun t => ((t.decAt 31).pos, (t.decAt 31).rev, (t.decAt 31).lvlA)) = some (0, 1, true) ∧
    next (.qdTagHandle 31) (decoding [edgeOf 1 500 true]) (fun t => ((t.decAt 31).pos, (t.decAt 31).rev, (t.decAt 31).lvlB)) = some (2, 0, true) := by decide +kernel
/-- A snapshot that becomes ready at the guard band of the first tick, or one tq after it. -/
def snapped (late : Int) : State :=
  let q := (decoding []).decAt 31
  let p : Int := (up.guardInstant 3 : Int) - 1164800 - (q.hold : Nat) + late
  (decoding []).modDec 31 fun q => { q with snaps := [{ QdSnap.empty with phys := p, pos := 2, q := true }] }
theorem witness_snapshot : ∀ late ∈ [0, 1], ∃ x, ((snapped late).decAt 31).snaps = [x] ∧
    x.phys + 1164800 + (((snapped late).decAt 31).hold : Nat) + ((snapped late).maxMinpw 3 : Nat) = (snapped late).guardInstant 3 + late := by
  intro late h
  simp only [List.mem_cons, List.not_mem_nil, or_false] at h
  rcases h with rfl | rfl <;> exact ⟨_, rfl, by decide +kernel⟩
theorem test_snapshot : next (.qdSnapshotPublish 31) (snapped 0) (fun t => ((t.decAt 31).snapNew, (t.decAt 31).snapSeq, (t.decAt 31).snap.pos)) = some (true, 1, 2) ∧
    next (.qdSnapshotPublish 31) (snapped 1) (fun t => (t.decAt 31).snapNew) = some false := by decide +kernel

end Sys2Proof.Tests
namespace Sys2Proof.Tests
set_option Elab.async false
open Sys2Proof Sys2Proof.Machine Sys2Proof.Claims

/-! Outputs, pattern units and brakes. -/

/-- A push of four words for channel 126 (Table 6-5): T, the channel and the level 1. -/
def push (t : Nat) : W32 × W32 × W32 × W32 := (BitVec.ofNat 32 t, BitVec.ofNat 32 (t / 2 ^ 32), BitVec.ofNat 32 (126 * 2 ^ 24 + t / 2 ^ 64), 1)
/-- Channel 126 with its queue bound to queue pair 2, which holds the words of a push. -/
def forwarding (f : ChOut → ChOut) : State :=
  let (a, b, c, d) := push 5000000
  (up.modOut 126 fun o => f { o with configured := true, qpBind := true, qp := 2 }).modQp 2 fun q => { q with h2dEn := true, h2d := [a, b, c, d, 9] }
/-- A descriptor for a time. -/
def descAt (t : Nat) (level : Bool) : Desc := { t := t, level := level, event := true, late := false, disorder := false, dt := 0, sp := false }
theorem witness_forward :
    ((forwarding id).qpAt 2).h2d = 5000000 :: 0 :: 0x7E000000 :: 1 :: [9] ∧ bits (0x7E000000 : W32) 30 24 = 126 ∧ (forwarding id).pwr.mcUp = true ∧
    (((forwarding id).chan 126).out.qpBind = true ∧ ((forwarding id).chan 126).out.qp = 2 ∧ ((forwarding id).chan 126).out.queue.length < 256) ∧
    ((forwarding fun o => { o with qp := 1 }).chan 126).out.qp ≠ 2 ∧
    256 ≤ ((forwarding fun o => { o with queue := List.replicate 256 (descAt 9 true) }).chan 126).out.queue.length := by decide +kernel
theorem test_forward : next (.qpDescriptorForward 2) (forwarding id) (fun t => (((t.chan 126).out.queue.map fun d => (d.t, d.level, d.event, d.late)), (t.qpAt 2).h2d)) =
    some ([(5000000, true, false, false)], [9]) := by decide +kernel
theorem test_push : next (.chEqPush 126 1600000 0 0x7E000000 1) up (fun t => (t.chan 126).out.queue.length) = some 1 ∧
    next (.chEqPush 126 1599999 0 0x7E000000 1) up (fun t => ((t.chan 126).out.queue.length, (t.chan 126).out.lateCnt, (t.chan 126).out.lateSeen)) = some (0, 1, true) := by decide +kernel

/-- Channel 126, single or of a pair, with an output changed by f. -/
def output (pair : Bool) (f : ChOut → ChOut) : State := (up.modOut 126 fun o => f { o with configured := true, en := true }).modPr 126 fun p => { p with complementary := pair }
theorem witness_edges :
    (output false id).paired 126 = false ∧ (output false id).srcChangeAt 126 = none ∧
    (let o := ((output false fun o => { o with queue := [descAt 5000001 true] }).chan 126).out
     o.srcPu = false ∧ o.entered = [] ∧ o.queue = descAt 5000001 true :: [] ∧ (descAt 5000001 true).late = false ∧ (descAt 5000001 true).disorder = false) ∧
    (let o := ((output false fun o => { o with srcPu := true, entered := [{ t := 5000001, level := true, dt := 0, sp := false }] }).chan 126).out
     o.srcPu = true ∧ o.entered = { t := 5000001, level := true, dt := 0, sp := false } :: []) ∧
    ({ descAt 5000001 true with disorder := true } : Desc).disorder = true ∧
    (let s := output true fun o => { o with srcPu := true, entered := [{ t := 5000001, level := true, dt := 0, sp := false }] }
     s.paired 126 = true ∧ s.paired 127 = true ∧ (s.chan 126).out.onReq = none ∧ (s.chan 127).out.onReq = none ∧ (s.chan 126).pr.resumeAt = none) := by decide +kernel
theorem witness_pairEdge : ∃ e, (output true fun o => { o with srcPu := true, entered := [{ t := 5000001, level := true, dt := 4, sp := false }] }).nextEdge 126 = some e ∧ e.time = some 5000001 :=
  ⟨_, rfl, by decide +kernel⟩
/-- CH_SET_OUTPUT waits for the boundary at 80,000,000: channel 126 leaves its pattern unit for its queue, whose first level is 1. -/
def leaving (s : State) : State := { s with deferred := [{ at_ := .phys 5, op := 0x0301, words := [0x7E7E, 8] }] }
theorem witness_change : (leaving (output false fun o => { o with srcPu := true })).paired 126 = false ∧
    (leaving (output false fun o => { o with srcPu := true })).nextEdge 126 = some (.change 80000000 true) := ⟨by decide +kernel, rfl⟩
theorem witness_deadTime : ∀ on ∈ [false, true], (((output true id).modPr 126 fun p => { p with xOn := !on }).chan 126).pr.xOn ≠ on ∧
    ((output true id).chan 127).out.onReq = none ∧ ((output true id).chan 127).out.pairOn = false ∧ ((output true id).chan 126).out.onReq = none ∧
    ((output true id).chan 126).out.pairOn = false := by decide +kernel
theorem witness_launch : ((output false fun o => { o with computed := [{ t := 5000001, level := true, launch := 4990000, unit1 := true }] }).chan 126).out.computed =
      { t := 5000001, level := true, launch := 4990000, unit1 := true } :: [] ∧
    ∀ e ∈ [OutEvent.zero, .period, .compare, .queue], ((output false fun o => { o with events := [(5000001, e)] }).chan 126).out.events = (5000001, e) :: [] := by decide +kernel
/-- An edge at 5000001 and the end of its pulse 3,200 tq later are computed; the end 3,199 tq later makes a short pulse (R176). -/
theorem test_edgeCompute : [3200, 3199].map (fun w => next (.edgeCompute 126)
      (output false fun o => { o with queue := [descAt (5000001 + w) false], tracked := true, computed := [{ t := 5000001, level := true, launch := 4990000, unit1 := true }] })
      (fun t => ((t.chan 126).out.computed.length, (t.chan 126).out.shortCnt))) = [some (2, 0), some (0, 1)] := by decide +kernel
theorem test_edgeLaunch : next (.edgeLaunch 126) (output false fun o => { o with computed := [{ t := 5000001, level := true, launch := 4990000, unit1 := true }] })
    (fun t => ((t.chan 126).out.driven, (t.chan 126).out.edgeCnt, t.now)) = some (true, 1, 4990000) := by decide +kernel
/-- The edge kept before is absent, or lies so far back that its pulse asks for no correction. -/
theorem witness_split : ((output false id).chan 126).out.lastKept = none ∧
    ((output false fun o => { o with lastT := some 0 }).chan 126).out.lastKept = some (0, true) ∧
    (3200 + (((output false id).clus 3).minpwGuard : Int) ≤ 5000000 - 0 ∧ (3199 : Int) - 0 < 3200) := by decide +kernel

/-- The pattern unit of channel 126 with PER 1000 and CMP 400, U = 128 tq, changed by f. -/
def pattern (f : PatUnit → PatUnit) : State := (output false fun o => { o with srcPu := true }).modPu 126 fun x =>
  f { x with mode := 1, pre := 6, act := { x.act with per := 1000, cmp := 400 } }
def unit_ (f : PatUnit → PatUnit) : PatUnit := (((pattern f).snapShadows 126).chan 126).pu
theorem witness_patternWrites :
    (let x := unit_ id
     x.upd = 0 ∧ x.lock = false ∧ Fits x.mode x.act.per 999 ∧ ¬ Fits x.mode x.act.per 1000 ∧ ¬ Fits x.mode x.act.per 0xFFFFFFFE ∧ PerFits x 401 ∧ ¬ PerFits x 400 ∧ x.written.any = false) ∧
    (let x := unit_ fun x => { x with run := true, act := { x.act with cmp := 9 } }
     x.upd = 0 ∧ x.lock = false ∧ PerFits x 50 ∧ ¬ PerFits x 49 ∧ PerFits { x with run := false } 49) ∧
    (let x := unit_ fun x => { x with mode := 3 }
     Fits x.mode x.act.per 0xFFFFFFFE ∧ Fits x.mode x.act.per 0xFFFFFFFF) ∧
    (let x := unit_ fun x => { x with upd := 1 }
     ¬ (x.upd = 0 ∧ x.lock = false) ∧ x.mode ≠ 3) := by
  unfold PerFits Fits
  decide +kernel
theorem witness_lockWrites :
    (let x := unit_ fun x => { x with lock := true, written := { x.written with cmp := true }, shadow := { x.shadow with cmp := 999 } }
     ¬ (x.upd = 0 ∧ x.lock = false) ∧ x.lock = true ∧ x.upd = 0 ∧ x.written.any = true ∧ MergedFits x ∧
       ¬ MergedFits { x with shadow := { x.shadow with cmp := 1000 } } ∧ x.started = false ∧ ({ x with started := true } : PatUnit).started = true) ∧
    (let x := unit_ fun x => { x with lock := true, upd := 1, written := { x.written with cmp := true }, shadow := { x.shadow with cmp := 1000 } }
     x.upd ≠ 0 ∧ x.lock = true ∧ x.written.any = true ∧ ¬ MergedFits x) := by
  unfold MergedFits Fits
  decide +kernel
theorem test_patternWrites : [999, 1000].map (fun v => next (.puCmpWrite 126 v) (pattern id) (fun t => ((t.chan 126).pu.act.cmp, (t.chan 126).pu.wrRej))) =
    [some (999, false), some (400, true)] ∧ [49, 50].map (fun v => next (.puPerWrite 126 v) (pattern fun x => { x with run := true, act := { x.act with cmp := 9 } })
    (fun t => ((t.chan 126).pu.act.per, (t.chan 126).pu.wrRej))) = [some (1000, true), some (50, false)] := by decide +kernel

/-- The unit runs in its period from 6400000, changed by f. -/
def generating (f : PatUnit → PatUnit) : State := pattern fun x => f { x with run := true, started := true, asserted := true, s := 6400000, perN := 1000, cmpN := 400 }
theorem witness_handover :
    (∃ c, (generating fun x => { x with upd := 1 }).handoverCycle 126 = some c ∧ ((generating fun x => { x with upd := 1 }).chan 126).pu.hoCycle ≠ some c) ∧
    (∃ c, (generating fun x => { x with upd := 2 }).handoverCycle 126 = some c ∧ ((generating fun x => { x with upd := 2 }).chan 126).pu.hoCycle ≠ some c) ∧
    ((generating fun x => { x with upd := 2 }).chan 126).pu.written.any = false ∧
    MergedFits ((generating fun x => { x with upd := 2, written := { x.written with per := true }, shadow := { x.shadow with per := 401 } }).chan 126).pu ∧
    ¬ MergedFits ((generating fun x => { x with upd := 2, written := { x.written with per := true }, shadow := { x.shadow with per := 400 } }).chan 126).pu := by
  unfold MergedFits Fits
  exact ⟨⟨_, rfl, by decide +kernel⟩, ⟨_, rfl, by decide +kernel⟩, by decide +kernel⟩
theorem witness_generate : ((generating id).chan 126).pu.run = true ∧ (generating id).paired 126 = false ∧ (generating id).srcChangeAt 126 = none ∧
    (((generating id).chan 126).pu.started = true ∧ ((generating id).chan 126).pu.matched = false ∧ ((generating id).chan 126).pu.cmpN < ((generating id).chan 126).pu.perN) ∧
    ((generating fun x => { x with started := false }).chan 126).pu.started = false ∧ ((generating fun x => { x with matched := true }).chan 126).pu.matched = true ∧
    ((generating fun x => { x with cmpN := 1000 }).chan 126).pu.perN ≤ ((generating fun x => { x with cmpN := 1000 }).chan 126).pu.cmpN := by decide +kernel
theorem witness_stopsAtChange :
    (leaving (generating fun x => { x with s := 79980000 })).srcChangeAt 126 = some 80000000 ∧
    ((leaving (generating fun x => { x with s := 79980000 })).chan 126).pu.next.1 = 79980000 + 400 * 128 ∧
    ((leaving (generating fun x => { x with s := 79980000 - 31200 })).chan 126).pu.next.1 = 80000000 ∧
    ((leaving (generating fun x => { x with s := 79980000 - 31201 })).chan 126).pu.next.1 < 80000000 := by decide +kernel
theorem witness_periods : ((generating fun x => { x with stopReq := true }).chan 126).pu.lastPeriod 6528000 = true ∧
    (let x := ((generating fun x => { x with mode := 2, act := { x.act with bper := 2, nburst := 1 } }).chan 126).pu
     x.lastPeriod 6528000 = false ∧ x.grpPos + 1 < (x.valsAt 6528000).bper ∧ ({ x with grpPos := 1 } : PatUnit).lastPeriod 6528000 = true) ∧
    ((generating id).chan 126).pu.lastPeriod 6528000 = false ∧ (((generating id).chan 126).pu.valsAt 6528000).bper ≤ ((generating id).chan 126).pu.grpPos + 1 := by
  decide +kernel
theorem test_compare : next (.puGenerate 126) (generating id) (fun t => ((t.chan 126).out.entered.map fun e => (e.t, e.level), (t.chan 126).pu.matched)) =
    some ([(6400000 + 400 * 128, false)], true) := by decide +kernel
theorem test_period : next (.puGenerate 126) (generating fun x => { x with matched := true, asserted := false })
    (fun t => ((t.chan 126).out.entered.map fun e => (e.t, e.level), (t.chan 126).pu.pidx, (t.chan 126).pu.s)) = some ([(6400000 + 128000, true)], 1, 6400000 + 128000) := by
  decide +kernel

/-- Brake 7 changed by f; it guards channels 112 to 127 (R211). -/
def braked (f : Brake → Brake) : State := up.modBrk 7 f
theorem witness_brakeInput :
    (∀ d ∈ [0, 5000], let u := (braked id).advance d
      Settled (seenBy (u.brkAt 7) u.now) u.now) ∧
    (let u := (braked fun k => { k with ball := true, ballAt := 3200 }).advance 3200
     Settled (seenBy (u.brkAt 7) u.now) u.now ∧ (seenBy (u.brkAt 7) u.now).seen = false) ∧
    (let u := (braked fun k => { k with ball := true, ballAt := 3200 }).advance 3201
     Settled (seenBy (u.brkAt 7) u.now) u.now ∧ (seenBy (u.brkAt 7) u.now).seen = true) := by
  unfold Settled
  decide +kernel
/-- A run of raw active samples from 3,200 tq on, which the sample at an instant ends. -/
def dipped (at_ : Nat) : Brake := { Brake.reset with seen := true, rawAt := 3200, ballAt := at_ }
theorem witness_samples :
    Brake.reset.seen = Brake.reset.ball ∧ ({ Brake.reset with ball := true } : Brake).seen ≠ true ∧ ({ Brake.reset with ball := true } : Brake).raw = false ∧
    (dipped 16000).seen ≠ (dipped 16000).ball ∧ (dipped 16000).raw = true ∧ (dipped 16000).active = false ∧ ((dipped 16000).ballAt - (dipped 16000).rawAt) / 3200 < (dipped 16000).deb ∧
    ¬ ((dipped 19200).ballAt - (dipped 19200).rawAt) / 3200 < (dipped 19200).deb := by decide +kernel
theorem witness_brakeEvents :
    (let k := ((braked fun k => { k with ball := true }).brkAt 7).sample
     k.en = true ∧ k.raw = true ∧ k.active = false ∧ (braked id).pwr.startup ≠ .held) ∧
    ((braked id).guardOf 112).testBit 7 = true ∧ ((braked id).guardOf 111).testBit 7 = false ∧
    (let k := ((braked fun k => { k with seen := true, active := true }).brkAt 7).sample
     k.raw = false ∧ k.active = true ∧ k.en = true ∧ k.quietOk = false) ∧
    (let p := ((up.modPr 127 fun p => { p with held := true, resumePend := true, resumeAt := some 6400 }).chan 127).pr
     p.resumePend = true ∧ p.resumeAt = some 6400) := by decide +kernel
theorem test_trip : next (.brakeTrip 7) (braked fun k => { k with ball := true }) (fun t => (t.now, (t.brkAt 7).tripped, (t.chan 127).pr.held, (t.chan 111).pr.held)) =
    some (4 * 3200, true, true, false) := by decide +kernel
/-- Four samples of the active level are a glitch and five are none (R210); a dip between two samples leaves no trace. -/
theorem test_glitch : ([16000, 19200].map fun x => ((dipped x).sample.glitchCnt, (dipped x).sample.quietFrom)) = [(1, 16000), (0, 19200)] ∧
    next (.brakeInputChange 7 100) ((braked fun k => { k with ball := true, seen := true, ballAt := 0 }).advance 3201) (fun t => ((t.brkAt 7).ballAt, (t.brkAt 7).rawAt)) =
      some (6400, 0) := by decide +kernel

end Sys2Proof.Tests
namespace Sys2Proof.Tests
set_option Elab.async false
open Sys2Proof Sys2Proof.Machine Sys2Proof.Claims

/-! Timers, the time scale, the calendar clock and the reference. -/

/-- Timer 31 with TOP 9 and CMP 5, changed by f. -/
def timed (f : Timer → Timer) : State := up.modTim 31 fun t => f { t with top := 9, cmp := 5, phase := 2 }
theorem witness_timerCommands :
    Alone (timed id).onEdge 31 ∧ ((timed id).onEdge.timSyncAllTo 0).timCounts 31 = false ∧
    (let u := (timed fun t => { t with run := true }).onEdge
     (u.timSyncAllTo u.now).timCounts 31 = true ∧ u.now < ((u.timSyncAllTo u.now).timAt 31).dueAt) ∧
    (let u := ((timed id).modTim 0 fun t => { t with slave := 1, master := 31 }).onEdge
     (u.timAt 0).slave = 1 ∧ (u.timAt 0).master = 31 ∧ ∀ w ∈ u.timWr, u.now < w.at_) := by
  unfold Alone
  decide +kernel
theorem witness_timerEvents :
    (let s := timed fun t => { t with run := true }
     Alone (s.timLead 31) 31 ∧ (s.timLead 31).timCounts 31 = true ∧ ((s.timLead 31).timAt 31).pre < 2 ^ ((s.timLead 31).timAt 31).psc ∧
     ((s.timLead 31).timAt 31).cnt < ((s.timLead 31).timAt 31).cmp ∧ ((s.timLead 31).timAt 31).cmp ≤ ((s.timLead 31).timAt 31).top) ∧
    (∀ b ∈ [false, true], let u := (timed fun t => { t with run := true, cnt := 5, oneshot := b }).timLead 31
     ¬ ((u.timAt 31).cnt < (u.timAt 31).cmp ∧ (u.timAt 31).cmp ≤ (u.timAt 31).top) ∧ u.timCounts 31 = true) ∧
    ((timed fun t => { t with run := true, cnt := 5, cmp := 0 }).timLead 31).timCounts 31 = true := by
  unfold Alone
  decide +kernel
/-- Timer 31 at a trigger edge at 25,600, and the state in which a trigger of input A acts. -/
def triggered (f : Timer → Timer) : State := (((timed f).runTo 25600).timSettleBy 25600).timSyncTo 31 25600
def atA (f : Timer → Timer) : State := (triggered f).modTim 31 fun t => { t with pendA := t.pendA.tail }
theorem witness_triggers :
    (∀ b ∈ [false, true], ((timed fun t => { t with pendB := [25600], capEn := b }).timAt 31).pendA = [] ∧
      ((timed fun t => { t with pendB := [25600], capEn := b }).timAt 31).pendB = 25600 :: [] ∧
      ((triggered fun t => { t with pendB := [25600], capEn := b }).timAt 31).capEn = b) ∧
    (let k := (triggered fun t => { t with pendA := [25600], trigStart := true }).timAt 31
     k.pendA = 25600 :: [] ∧ k.pendB = [] ∧ k.run = false ∧ k.trigStart = true) ∧
    (let k := (triggered fun t => { t with pendA := [25600], pendB := [25600], trigStart := true, capEn := true }).timAt 31
     k.pendA = 25600 :: [] ∧ k.pendB = 25600 :: [] ∧ k.run = false ∧ k.trigStart = true ∧ k.capEn = true) ∧
    (let k := (triggered fun t => { t with pendA := [25600] }).timAt 31
     k.run = false ∧ k.trigStart = false) ∧
    (let k := (triggered fun t => { t with pendA := [25600], run := true }).timAt 31
     k.run = true ∧ k.src ≠ 1) := by decide +kernel
theorem witness_countedTriggers :
    (∀ p ∈ [2, 3], let k := (triggered fun t => { t with pendA := [25600], run := true, src := 1, psc := 2, pre := p }).timAt 31
     k.run = true ∧ k.src = 1 ∧ k.slave ≠ 4 ∧ (k.pre + 1 < 2 ^ k.psc ∨ 2 ^ k.psc ≤ k.pre + 1)) ∧
    (atA fun t => { t with pendA := [25600], run := true, src := 1 }).frozen 31 = false ∧ (atA fun t => { t with pendA := [25600], run := true, src := 1 }).gateOpen 31 = true ∧
    (atA fun t => { t with pendA := [25600], run := true, src := 1, slave := 3, master := 0 }).gateOpen 31 = false ∧
    ({ (atA fun t => { t with freeze := true }) with pwr := { up.pwr with mcHalted := true } } : State).frozen 31 = true := by decide +kernel
theorem test_timer : next (.gptStart 31) (timed fun t => { t with done := true }) (fun t => ((t.timAt 31).run, (t.timAt 31).cnt, (t.timAt 31).done)) = some (true, 2, false) ∧
    next (.gptCmpEvent 31) (timed fun t => { t with run := true }) (fun t => ((t.timAt 31).cnt, t.now)) = some (5, 64000) ∧
    next (.gptTopEvent 31) (timed fun t => { t with run := true, cnt := 5 }) (fun t => ((t.timAt 31).cnt, (t.timAt 31).ovf, t.now)) = some (0, true, 64000) ∧
    next (.gptTrigger 31) (timed fun t => { t with pendB := [25600], capEn := true, cnt := 4, capf := true }) (fun t => ((t.timAt 31).cap, (t.timAt 31).capOvr)) =
      some (4, true) := by decide +kernel

/-- PPSIN in a mode, with an edge at 0.9 s or later as the last one. -/
def ppsIn (mode : Nat) (last : Option Nat) (armed : Option RtcArmed) : State :=
  { (up.advance 7900000000000) with pps := { Pps.reset with mode := mode, state := 1, lastAt := last, window := 1000 }, rtc := { Rtc.reset with armed := armed } }
theorem witness_pps :
    up.pwr.startup ≠ .held ∧ State.reset.pwr.startup = .held ∧ ({ up.tb with slew := some { tq := -3, since := 25600 } } : TimeBase).slew = some { tq := -3, since := 25600 } ∧
    up.tb.slew = none ∧ up.tb.dtc < 2 ^ 80 ∧
    (let u := (ppsIn 1 (some 800000000000) none).advance 100000000000
     (∀ l, u.pps.lastAt = some l → l + 7200000000000 ≤ u.now) ∧ u.pps.mode ≠ 0 ∧
      (((u.ext / 400 * 400 : Nat) : Int) - u.pps.comp - nearestSecond ((u.ext / 400 * 400 : Nat) - u.pps.comp)).natAbs ≤ u.pps.window * 8000) ∧
    (let u := (ppsIn 0 (some 800000000001) none).advance 100000000000
     (u.pps.lastAt = some 800000000001 ∧ ¬ 800000000001 + 7200000000000 ≤ u.now) ∧ u.pps.mode = 0) ∧
    (let u := (ppsIn 1 none (some { sec := 5, offset := 0, setOffset := true, wait := .pps })).advance 90000000000
     u.rtc.armed = some { sec := 5, offset := 0, setOffset := true, wait := .pps } ∧
      ¬ (((u.ext / 400 * 400 : Nat) : Int) - u.pps.comp - nearestSecond ((u.ext / 400 * 400 : Nat) - u.pps.comp)).natAbs ≤ u.pps.window * 8000) ∧
    ((ppsIn 1 (some 5) none).pps.lastAt = some 5 ∧ (ppsIn 1 (some 5) none).pps.mode ≠ 0 ∧ (ppsIn 1 (some 5) none).pps.state ≠ 0) := by
  refine ⟨by decide +kernel, by decide +kernel, by decide +kernel, by decide +kernel, by decide +kernel, ⟨fun l h => ?_, by decide +kernel⟩, by decide +kernel⟩
  have e : ((ppsIn 1 (some 800000000000) none).advance 100000000000).pps.lastAt = some 800000000000 := by decide +kernel
  rw [e] at h
  cases h
  decide +kernel
theorem test_pps : next (.ppsEdge 100000000399 true) (ppsIn 1 (some 800000000000) none) (fun t => (t.pps.cap, t.pps.state, t.pps.offset, t.pps.glitch)) =
      some (8000000000000, 1, 0, 0) ∧
    next (.ppsEdge 100000000399 true) (ppsIn 1 (some 800000000400) none) (fun t => (t.pps.cap, t.pps.glitch)) = some (0, 1) := by decide +kernel
theorem test_wrap : next .dtcWrap { up with tb := { up.tb with dtc := 2 ^ 80 - 3 } } (fun t => (t.tb.dtc, t.tb.wraps, t.tb.epochWrap, t.now)) = some (0, 1, true, 3) := by decide +kernel

/-- A capture on a boundary at which a step falls due, with and without one that may act, and off a boundary. -/
theorem witness_capture :
    (let u := atEdge ({ up with tb := { up.tb with step := some (.leader 12800) } }.advance 79987201)
     u.ext = u.tb.tickEnd ∧ u.stepAllowed = true ∧ u.stepDue u.tb.tickEnd = some (12800, 0, true)) ∧
    (let u := atEdge (up.advance 79987201)
     u.ext = u.tb.tickEnd ∧ u.stepDue u.tb.tickEnd = none) ∧ (atEdge up).ext ≠ (atEdge up).tb.tickEnd := by decide +kernel
theorem test_capture : next .tsCapture ({ up with tb := { up.tb with step := some (.leader 12800) } }.advance 79987201) (fun t => t.tb.cap) = some 80012800 ∧
    next .tsCapture (up.advance 79987201) (fun t => t.tb.cap) = some 80000000 := by decide +kernel

/-- The clock runs with the DTC, a setting waits if asked, and an offset is pending. -/
def clocked (armed : Option RtcArmed) (sl : Bool) : State :=
  { (up.advance 5) with rtc := { Rtc.reset with slaved := if sl then some (100, 0) else none, armed := armed, ofsPend := true, ofsNext := 7, ofsAt := 102, xtalRuns := true } }
theorem witness_clock :
    (clocked none true).rtc.armed = none ∧ (clocked (some { sec := 5, offset := 0, setOffset := false, wait := .mark 8000000000000 }) true).ext ≤ 8000000000000 ∧
    (clocked none true).rtc.slaved = some (100, 0) ∧ (clocked none false).rtc.slaved = none ∧ (clocked none true).pwr.mcUp = true ∧ (clocked none true).rtc.ofsPend = true ∧
    (clocked none true).rtc.dead = false ∧ (clocked none true).rtc.vbatNow = false ∧ (clocked none true).rtc.xtalRuns = true ∧
    ({ up.ref with ppsoutMode := 1 } : Reference).ppsoutMode = 1 ∧ ({ up.ref with ppsoutMode := 2, state := .locked } : Reference).ppsoutMode = 2 := by decide +kernel
theorem test_secondMark : next .secondMark (clocked none true) (fun t => (t.ext, t.rtcNow)) = some (8000000000000, (101, 0)) ∧
    next .rtcOffsetApply (clocked none true) (fun t => (t.ext, t.rtc.offset, t.rtc.ofsPend)) = some (16000000000000, 7, false) := by decide +kernel

/-- A 1 ms window at a mean frequency in mHz and a level in 0.1 dBm; REFIN was chosen as the source at 10 MHz, in a state. -/
def window (freq : Nat) (level : Int) : RefWin := { complete := true, present := true, freq := freq, level := level, dt := 8000000000 }
def referred (st : RefState) (bad : Nat) : State :=
  { up with ref := { up.ref with state := st, source := if st = .absent then none else some .refin, nominal := 2, badRun := bad, validRun := 3, runKey := 2 } }
/-- The edges of the three frequencies and of the level (R34). -/
theorem test_classes : [(10002000000, 150), (10002000001, 150), (10002000000, 151), (9998000000, -20), (9998000000, -21), (4999000000, 0), (100020000000, 0)].map
    (fun x => classOf (window x.1 x.2) false 0) = [.valid 2, .freqError, .levelHigh, .valid 2, .levelLow, .valid 1, .valid 3] := by decide +kernel
theorem witness_windows :
    (classOf (window 10000000000 0) false 0 = .valid 2 ∧ classOf (window 5000000000 0) false 0 = .valid 1 ∧ ∀ k, classOf (window 7 0) false 0 ≠ .valid k) ∧
    (referred .locked 0).ref.state = .locked ∧ (referred .locked 0).ref.source = some .refin ∧ (referred .locked 0).ref.badRun = 0 ∧ (referred .locked 1).ref.badRun ≠ 0 ∧
    ({ (referred .locked 0).ref with source := some .bxUp } : Reference).source = some .bxUp ∧ (referred .locked 0).ref.srcSel = 0 ∧
    ({ (referred .locked 0).ref with srcSel := 2 } : Reference).srcSel ≠ 0 ∧ (referred .absent 0).ref.state ≠ .locked ∧ (referred .detecting 0).ref.state = .detecting := by
  refine ⟨⟨by decide +kernel, by decide +kernel, fun k h => ?_⟩, by decide +kernel⟩
  have e : classOf (window 7 0) false 0 = .freqError := by decide +kernel
  rw [e] at h
  cases h
/-- A slew of 20 ppm has begun at 0, in each state; or has ended at an instant, in LOCKING. -/
theorem witness_slews :
    (∀ st ∈ [RefState.absent, .holdover, .locking], ∀ k ∈ [PllSlew.locking, .returning],
      ({ (referred st 0).ref with slew := k, osc := { (referred st 0).ref.osc with diff := 20000 } } : Reference).slew ≠ .none) ∧
    (referred .locking 0).ref.state = .locking ∧ (referred .locking 0).ref.slew = .none ∧ up.ref.slew = .none ∧
    ((referred .locking 0).advance 80000000000).now ≤ (referred .locking 0).ref.lockFrom + 80000000000 ∧
    (referred .locking 0).ref.lockFrom + 80000000000 < ((referred .locking 0).advance 80000000001).now := by decide +kernel
/-- A slew of 20 ppm takes 20 s from READY on (R38), and locking 1 ms after it (Table 2-1). -/
theorem test_slew :
    (let s := referred .locking 0
     next .pllSlewDone { s with ref := { s.ref with slew := .locking, osc := { s.ref.osc with diff := 20000, slow := true } } } (fun t => (t.ref.slew == .none, t.ref.lockFrom))) =
      some (true, 20 * 8000000000000) ∧
    next .refLocked (referred .locking 0) (fun t => (t.ref.state, t.now)) = some (.locked, 8000000000) := by decide +kernel
theorem test_reference :
    next (.refWindow (window 10000000000 0)) (referred .absent 0) (fun t => (t.ref.state, t.ref.validRun)) = some (.detecting, 4) ∧
    next (.refWindow (window 7 0)) (referred .locked 1) (fun t => (t.ref.state, t.ref.lossCnt)) = some (.holdover, 1) ∧
    next (.refWindow (window 7 0)) (referred .locked 0) (fun t => (t.ref.state, t.ref.badRun)) = some (.locked, 1) := by decide +kernel

end Sys2Proof.Tests
namespace Sys2Proof.Tests
set_option Elab.async false
open Sys2Proof Sys2Proof.Machine Sys2Proof.Claims

/-! The link and DMA. -/

/-- A capability word of a device with this number and tick period (R65): the part, version 1. -/
def capability (num tick : Nat) : W64 := BitVec.ofNat 64 (2 ^ 56 + tick * 2 ^ 32 + 2 ^ 29 + num * 2 ^ 20 + 0x4128)
/-- Both ports in a state, with alignment in a state, and a sum of offsets from one pair of frames. -/
def linked (l : LinkState) (a : AlignState) (theta : Int) (num : Option Nat) : State :=
  let p : BxPort := { BxPort.reset with en := true, link := l, pcap := capability 2 6250, partner := num, sumTheta := 2 * theta, pairs := 1 }
  { up with bx := { Basxus.reset with up := p, dn := p, align := a } }
theorem witness_ports :
    (linked .training .hold 0 (some 2)).bx.up.en = true ∧ (linked .training .hold 0 (some 2)).bx.up.link = .training ∧ (linked .training .hold 0 (some 15)).bx.up.partner = some 15 ∧
    (linked .training .acquire 0 (some 2)).bx.align ≠ .hold ∧ (linked .training .off 0 none).bx.dn.link = .training ∧
    ((linked .up .track 0 (some 2)).port true).link = .up ∧ ((linked .down .off 0 none).port false).link ≠ .up ∧ ((linked .refused .off 0 none).port true).en = true := by decide +kernel
theorem witness_capability : goodCap (capability 15 6250) ∧ ¬ goodCap (capability 1 6250 + 1) ∧ ¬ goodCap (capability 1 6250 + 2 ^ 56) := by
  unfold goodCap
  decide +kernel
theorem witness_offsets :
    (∀ a ∈ [AlignState.off, .acquire, .track, .hold, .fault], ∀ θ ∈ [0, 8, -9, 6399, 6400, 2 ^ 40 - 1, 2 ^ 40], let s := linked .up a θ (some 2)
      (s.port true).link = .up ∧ (s.port true).pairs ≠ 0 ∧ divNearest (s.port true).sumTheta (2 * (s.port true).pairs) = θ ∧ s.bx.align = a ∧
      bits64 (s.port true).pcap 54 32 = s.tb.tickP ∧ s.bx.stepWait = none ∧ s.tb.slew = none) ∧
    bits64 ({ (linked .up .acquire 0 none) with tb := { up.tb with tickP := 6251 } }.port true).pcap 54 32 ≠ 6251 ∧
    (2 * -(6399 : Int) + 12800) / 25600 * 12800 = 0 ∧ (2 * -(6401 : Int) + 12800) / 25600 * 12800 = -12800 := by decide +kernel
theorem witness_waits : ({ (linked .up .acquire 0 none) with bx := { (linked .up .acquire 0 none).bx with stepWait := some (12800, 0) } } : State).bx.stepWait ≠ none ∧
    ({ up.tb with slew := some { tq := 9, since := 0 } } : TimeBase).slew ≠ none := by decide +kernel
theorem witness_control : (linked .up .track 0 none).bx.up.link = .up ∧ (linked .down .off 0 none).bx.up.link ≠ .up ∧ (linked .up .track 0 none).bx.align ≠ .off ∧
    (linked .up .off 0 none).bx.align = .off ∧ (linked .up .off 0 none).bx.relay = false ∧ ({ (linked .up .off 0 none).bx with relay := true } : Basxus).relay = true := by decide +kernel
/-- Frames that a follower takes, and frames that its own conditions refuse. -/
theorem witness_frames :
    (∀ f ∈ [BxCtl.tick 2000, .discipline 1 10 0, .step (-12800), .cancel], frameFits (onward (linked .up .track 0 none) f) f) ∧
    frameFits (onward (linked .up .acquire 0 none) (.anchor 5)) (.anchor 5) ∧ ¬ frameFits (onward (linked .up .track 0 none) (.anchor 5)) (.anchor 5) ∧
    ¬ frameFits (onward (linked .up .track 0 none) (.tick 0)) (.tick 0) ∧ ¬ frameFits (onward (linked .up .track 0 none) (.discipline 1 9 0)) (.discipline 1 9 0) := by
  refine ⟨fun f h => ?_, rfl, fun h => ?_, fun h => ?_, fun h => ?_⟩
  · simp only [List.mem_cons, List.not_mem_nil, or_false] at h
    rcases h with rfl | rfl | rfl | rfl
    · exact ⟨by decide +kernel, by decide +kernel, by decide +kernel⟩
    · show State.disciplineRange _ _ _ = false
      decide +kernel
    · exact ⟨fun k => unarmed rfl k, by decide +kernel⟩
    · exact fun k => unarmed rfl k
  · exact absurd (show (linked .up .track 0 none).bx.align = .acquire from h) (by decide +kernel)
  · exact absurd h.1 (by decide +kernel)
  · exact absurd (show State.disciplineRange _ _ _ = false from h) (by decide +kernel)
/-- Channel 15 as the stream of device 3. -/
def remoteDma : State := up.modDma 15 fun d => { d with kind := 0, remote := true, rdev := 3, state := .run, writing := true, startAt := some 0 }
theorem witness_remote : up.remoteOf 3 = none ∧ remoteDma.remoteOf 3 = some 15 ∧ (remoteDma.dmaAt 15).gateAt = none ∧ (remoteDma.dmaAt 15).dropping = false ∧
    ((remoteDma.modDma 15 fun d => { d with gateAt := some 7 }).dmaAt 15).gateAt ≠ none ∧ ((remoteDma.modDma 15 fun d => { d with dropping := true }).dmaAt 15).dropping = true := by decide +kernel
def alignedTo (θ : Int) (t : State) : Bool :=
  if θ.natAbs ≤ 8 then t.bx.align == .track && t.tb.slew == none else t.bx.align == .acquire && (t.tb.slew == some { tq := 9, since := 0 } || t.bx.stepWait == some (-12800, 6399))
theorem test_offset : ([0, 8, -9, 6401] : List Int).map (fun θ => next (.bxOffsetUpdate true) (linked .up .acquire θ (some 2)) (alignedTo θ)) =
    [some true, some true, some true, some true] := by decide +kernel
theorem test_portUp : next (.bxPortUp true 0) (linked .training .hold 0 (some 2)) (fun t => (t.bx.devnum, t.bx.up.link, t.bx.align)) = some (some 3, .up, .acquire) ∧
    next (.bxPortUp true 0) (linked .training .hold 0 (some 15)) (fun t => (t.bx.devnum, t.bx.up.link, t.bx.align)) = some (none, .refused, .off) := by decide +kernel

/-- A descriptor of 4096 bytes at host address 8096 with these flags in word 0 (Table 13-4), of which some bytes have moved. -/
def dmaDesc (flags : Nat) (moved_ : Nat) : DmaDesc :=
  { words := vset (vset (Vector.replicate 8 0) 0 (BitVec.ofNat 32 flags)) 4 4096 |> (vset · 2 8096), moved := moved_, age := if moved_ = 0 then none else some 1, flushTo := none }
/-- Channel 15 of a kind in a state with HEAD 0, TAIL 1 in a ring of two, changed by f; DMA owns banks 0 and 63, and bus mastering is on. -/
def dma (kind : Nat) (st : DmaState) (f : Dma → Dma) : State :=
  let s := { (up.modDma 15 fun d => f { d with kind := kind, state := st, tail := 1, sizeL := 1, baseLo := 8, len := 64, off := 0, bank := 0, flushT := 1 }) with pcie := { up.pcie with bme := true } }
  (s.modBank 0 fun b => { b with owner := 2 }).modBank 63 fun b => { b with owner := 2 }
theorem witness_fetch : ∀ kind ∈ [0, 1], ∀ st ∈ [DmaState.wait, .run], let s := dma kind st id
    (s.dmaAt 15).state = st ∧ (s.dmaAt 15).kind < 2 ∧ (s.dmaAt 15).desc = none ∧ (s.dmaAt 15).head % 2 ^ (s.dmaAt 15).sizeL ≠ (s.dmaAt 15).tail % 2 ^ (s.dmaAt 15).sizeL ∧
    s.pcie.bme = true ∧ ({ s with pcie := up.pcie } : State).pcie.bme = false ∧ (s.dmaAt 15).chain < (s.dmaAt 15).hopmax ∧
    ((dma kind st fun d => { d with chain := 2, hopmax := 2 }).dmaAt 15).hopmax ≤ 2 ∧
    bit ([0x80000000, 0, 0, 0, 8].getD 0 0) 31 = true ∧ bit ([0, 0].getD 0 0) 31 = false ∧ (fetched [0x80000000, 0, 0, 0, 8, 0, 0, 0]).badFormat kind = false ∧
    (fetched [0x80000000, 0, 0, 0, 7, 0, 0, 0]).badFormat kind = true := by decide +kernel
theorem witness_descriptors :
    (let s := dma 0 .run fun d => { d with desc := some (dmaDesc 0 8) }
     (s.dmaAt 15).desc = some (dmaDesc 0 8) ∧ s.pcie.bme = true ∧ (s.dmaAt 15).state ≠ .closing ∧ (s.dmaAt 15).state ≠ .halted ∧ (dmaDesc 0 8).moved ≠ 0 ∧ (dmaDesc 0 8).age = some 1 ∧
      0 < (s.dmaAt 15).flushT ∧ (s.dmaAt 15).flushT ≤ 1 ∧ (dma 0 .run fun d => { d with flushT := 2 }).dmaAt 15 = { (dma 0 .run fun d => d).dmaAt 15 with flushT := 2 }) ∧
    (let s := dma 0 .halted fun d => { d with desc := some (dmaDesc 0 0) }
     (s.dmaAt 15).state = .halted ∧ (dmaDesc 0 0).moved = 0 ∧ (s.dmaAt 15).fill = 0) ∧ ((dma 1 .run id).dmaAt 15).kind ≠ 0 ∧ ((dma 0 .run id).dmaAt 15).state ≠ .halted ∧
    ((dma 0 .run id).dmaAt 15).desc = none := by decide +kernel
theorem witness_ringMove :
    (let s := dma 0 .run fun d => { d with desc := some (dmaDesc 0 0), w := 5 }
     let b := moveBegun s 15 (dmaDesc 0 0) 64
     ringPart (b.dmaAt 15) (dmaDesc 0 0) 64 = [0, 1, 2, 3, 4] ∧ ringPart ((moveBegun s 15 (dmaDesc 0 0) 0).dmaAt 15) (dmaDesc 0 0) 0 = [] ∧ s.pcie.bme = true ∧
      Clean s [] [0, 1, 2, 3, 4] ∧ eccAt [(4, .bad)] 4 = .bad ∧ b.now = 256 * 12800) ∧
    (let b := moveBegun (dma 0 .run fun d => { d with w := 64 }) 15 (dmaDesc 0 0) 64
     ringPart (b.dmaAt 15) (dmaDesc 0 0) 64 = [0, 1, 2, 3, 4, 5, 6, 7, 8, 9, 10, 11] ∧ b.now = 0) := by
  unfold Clean
  decide +kernel
theorem witness_blockMove :
    (let s := dma 1 .run fun d => { d with desc := some (dmaDesc 0 0) }
     (s.dmaAt 15).state = .run ∧ s.blockHeld (dmaDesc 0 0) 64 = false ∧ (dmaDesc 0 0).dirIn = false ∧ (dmaDesc 0 0).bankWords ((dmaDesc 0 0).room 32) = List.range 12 ∧
      (∀ w ∈ List.range 12, (s.bankAt (w / 131072)).owner = 2) ∧ Clean s [] (List.range 12)) ∧
    (let x := dmaDesc (2 ^ 30 + 131070) 192
     x.dirIn = true ∧ x.bankWords (x.room 2) = [131094, 131095]) ∧
    ((dmaDesc 131070 0).bankWords ((dmaDesc 131070 0).room 32)).find? (fun w => decide (((dma 1 .run id).bankAt (w / 131072)).owner ≠ 2)) = some 131072 ∧
    (dmaDesc (2 ^ 30 + 8388607) 0).bankWords 2 = [8388607, 0] ∧ (dma 1 .run id).blockHeld (dmaDesc (2 ^ 30 + 8388607) 0) 2 = false ∧
    (∀ w ∈ [8388607, 0], ((dma 1 .run id).bankAt (w / 131072)).owner = 2) := by
  unfold Clean
  decide +kernel
theorem witness_copy : ∀ st ∈ [DmaState.run, .closing],
    let s := dma 2 st fun d => { d with cnt := 1, src := 8388607, dst := 0 }
    (s.dmaAt 15).kind = 2 ∧ (s.dmaAt 15).state = st ∧ (s.dmaAt 15).cnt ≠ 0 ∧ (s.bankAt 63).owner = 2 ∧ (s.bankAt 0).owner = 2 ∧ (s.bankAt 1).owner ≠ 2 ∧ s.holdsAccess 63 = false ∧
    s.holdsAccess 0 = false ∧ 8388607 ∉ s.ue := by decide +kernel
theorem test_ringMove : next (.dmaMove 15 64 [] (.data [])) (dma 0 .run fun d => { d with desc := some (dmaDesc 0 0), w := 5 })
    (fun t => (t.posted.map (fun p => (p.addr, p.words.length)), (t.dmaAt 15).r, (t.dmaAt 15).desc.map fun x => x.moved)) = some ([(8096, 10)], 5, some 40) := by decide +kernel
theorem test_blockIn : next (.dmaMove 15 2 [] (.data [7, 9])) (dma 1 .run fun d => { d with desc := some (dmaDesc (2 ^ 30 + 8388607) 0) })
    (fun t => (Mem.word t.mem 8388607, Mem.word t.mem 0, (t.dmaAt 15).desc.map fun x => x.moved)) = some (7, 9, some 16) := by decide +kernel
theorem test_copy : next (.copyStep 15 .ok) { (dma 2 .run fun d => { d with cnt := 1, src := 8388607, dst := 0 }) with mem := [(67108856, 5)] }
    (fun t => (Mem.word t.mem 0, (t.dmaAt 15).state, (t.dmaAt 15).src)) = some (5, .idle, 0) ∧
    next (.copyStep 15 .bad) (dma 2 .run fun d => { d with cnt := 1, src := 8388607, dst := 0 }) (fun t => ((t.dmaAt 15).state, (t.dmaAt 15).cause, t.ue)) =
      some (.halted, 1, [8388607]) := by decide +kernel

end Sys2Proof.Tests
namespace Sys2Proof.Tests
set_option Elab.async false
open Sys2Proof Sys2Proof.Machine Sys2Proof.Claims

/-! Banks, interrupts, the error log and the counters. -/

/-- HOST owns bank 62 and not bank 63; bank 62 changed by f. -/
def banked (f : Bank → Bank) : State := { up.modBank 62 (fun b => f { b with owner := 1 }) with mem := [(65011704, 7), (66060287, 9)] }
theorem witness_hostAccess :
    (let u := (banked id).runTo (banked id).pwr.banksAt
     Mem.wf (banked id).mem = true ∧ hosts u 66060287 ∧ ¬ hosts u 66060288 ∧ u.holdsAccess 62 = false ∧ Readable u [] 66060280 16 ∧ 66060280 + 16 ≤ 67108864 ∧
      (8257535 : Nat) = 66060280 / 8 ∧ eccAt [(8257535, .bad)] 8257535 = .bad ∧ hosts u (8 * 8257535)) ∧
    (∀ f ∈ [fun b : Bank => { b with handover := true }, fun b : Bank => { b with clearAt := some 25600 }],
      ((banked f).runTo (banked f).pwr.banksAt).holdsAccess 62 = true ∧ hosts ((banked f).runTo (banked f).pwr.banksAt) 66060287) ∧ 66060287 % 1048576 + 1 ≤ 1048576 := by
  refine ⟨⟨by decide +kernel, by unfold hosts; decide +kernel, by unfold hosts; decide +kernel, by decide +kernel, fun w _ _ => ⟨by simp [eccAt], ?_⟩,
    by decide, by decide, by decide +kernel, by unfold hosts; decide +kernel⟩, by unfold hosts; decide +kernel, by decide⟩
  have e : ((banked id).runTo (banked id).pwr.banksAt).ue = [] := by decide +kernel
  rw [e]
  exact List.not_mem_nil
theorem test_hostAccess :
    next (.hostBankAccess 66060286 4 none []) (banked id) (fun t => (t.lastRead.bytes, t.lastRead.poisoned, (t.bankAt 63).denyCnt)) = some ([0, 9, 0, 0], false, 1) ∧
    next (.hostBankAccess 66060286 0 (some [1, 2, 3, 4]) []) (banked id) (fun t => ([66060286, 66060287, 66060288].map (Mem.read t.mem), (t.bankAt 63).denyWrite)) =
      some ([1, 2, 0], true) ∧
    next (.hostBankAccess 66060286 1 none [(8257535, .bad)]) (banked id) (fun t => (t.lastRead.bytes, t.lastRead.poisoned)) = some ([0xFF], true) := by decide +kernel
/-- An access of one byte that a hand-over or a clear holds. -/
def heldUp (hand : Bool) (w : Option (List Byte)) : State := banked fun b =>
  { b with handover := hand, drainAt := 25600, clearAt := some 38400, held := [{ addr := 66060287, data := w, len := 1, ecc := [] }] }
theorem witness_held :
    ((heldUp true none).bankAt 62).clearAt = some 38400 ∧ (heldUp true none).holdsAccess 62 = true ∧
    (∀ w ∈ [none, some [5]], let u := banked fun b => { b with held := [{ addr := 66060287, data := w, len := 1, ecc := [] }] }
      u.holdsAccess 62 = false ∧ (u.bankAt 62).held = [{ addr := 66060287, data := w, len := 1, ecc := [] }]) ∧
    (((heldUp true none).modMb 7 fun m => { m with state := .taken, wait := .banks [62] [1] }).mbAt 7).wait = .banks [62] [1] ∧
    ((heldUp true none).bankAt 62).handover = true ∧ ((banked id).bankAt 62).handover = false ∧ ((banked id).bankAt 62).clearAt = none := by decide +kernel
theorem test_held : next (.bankClearDone 62) (heldUp true (some [5])) (fun t => (t.now, Mem.read t.mem 66060287, (t.bankAt 62).held.length)) = some (38400, 5, 0) ∧
    next (.handoverDrainEnd 62) (heldUp true (some [5])) (fun t => (t.now, Mem.read t.mem 66060287, (t.bankAt 62).held.length)) = some (25600, 9, 1) := by decide +kernel
theorem witness_patrol : ((banked fun b => { b with patrolAt := 131071, scrub := true }).bankAt 62).patrol = true ∧ (banked id).pwr.state ≠ .retain ∧
    62 * 131072 + 131071 ∉ (banked id).ue ∧ (131071 : Nat) < 131072 ∧ (1 : Nat) ∈ ({ banked id with ue := [1] } : State).ue ∧ ((banked id).bankAt 62).scrub = false ∧ ((banked fun b => { b with patrolAt := 131071, scrub := true }).bankAt 62).scrub = true := by decide +kernel
theorem test_patrol : next (.patrolScrub 62 .bad) (banked fun b => { b with patrolAt := 131071 }) (fun t => (t.ue, (t.bankAt 62).patrolAt, (t.bankAt 62).ueCnt)) =
    some ([8257535], 0, 1) := by decide +kernel

/-- Sources 3, 9 and 10 pend for the management core with priorities 4, 5 and 5, and source 2 is in service with priority p. -/
def pendingAt (p : Nat) : State :=
  let src (s : State) (k q : Nat) := s.modSrc k fun x => { x with en := true, pending := true, prio := q, target := .mc }
  let s := src (src (src up 3 4) 9 5) 10 5
  let s := s.modSrc 2 fun x => { x with active := true, en := true, prio := p }
  { s with ic := { s.ic with dis := 0, stackMc := [(2, p)] } }
theorem witness_candidates : Candidate (pendingAt 4).ic false 9 ∧ (∀ j, ¬ Candidate (pendingAt 15).ic false j) ∧
    (pendingAt 3).ic.best [3, 9, 10] = some 9 ∧ [3, 9, 10].Pairwise (· < ·) := by
  refine ⟨⟨by decide, by decide +kernel, by decide +kernel, by decide +kernel, by decide +kernel, by decide +kernel, fun n p l h => ?_⟩, fun j ⟨h, _, h2, _, _, _, h3⟩ => ?_,
    by decide +kernel, by decide⟩
  · cases h; decide +kernel
  · have := h3 2 15 [] rfl
    have e : ∀ j : Fin 256, ¬ (15 < (vget (pendingAt 15).ic.src j).prio) := by decide +kernel
    exact e ⟨j, h⟩ this
theorem witness_delivery :
    let s := pendingAt 4
    let l := s.ic.candidates false
    let t := s.ic.handover false l ((s.st.readyAt + 25599) / 25600)
    (s.runTo (t * 25600)).ic.best (l.filter fun k => decide ((vget (s.runTo (t * 25600)).ic.src k).dicCycle < max t (((s.runTo (t * 25600)).now + 25599) / 25600))) = some 9 := by
  decide +kernel
theorem test_delivery : next (.dicDelivery false) (pendingAt 4) (fun t => ((t.srcAt 9).active, (t.srcAt 9).pending, t.ic.stackMc, t.ic.vectorMc)) =
    some (true, false, [(9, 5), (2, 4)], 72) := by decide +kernel
theorem witness_eoi : inService (pendingAt 4).ic false = (2, 4) :: [] ∧ inService (pendingAt 4).ic true = [] ∧ ((pendingAt 4).srcAt 2).active = true ∧
    (((pendingAt 4).modSrc 2 fun x => { x with active := false }).srcAt 2).active = false := by decide +kernel
theorem test_eoi : next (.icEoi false 2) (pendingAt 4) (fun t => (t.ic.stackMc, (t.srcAt 2).active, t.ic.spurCnt)) = some ([], false, 0) ∧
    next (.icEoi false 3) (pendingAt 4) (fun t => (t.ic.stackMc, t.ic.spurCnt, t.ic.spurLast)) = some ([(2, 4)], 1, 3) := by decide +kernel
theorem witness_coalesced : let x := (up.modSrc 9 fun x => { x with held := 1, coalTime := 1, en := true }).srcAt 9
    x.held ≠ 0 ∧ x.coalTime ≠ 0 ∧ x.en = true ∧ x.later = none := by decide +kernel
theorem test_coalesced : next (.coalTimeout 9) (up.modSrc 9 fun x => { x with held := 1, coalTime := 1, en := true }) (fun t => ((t.srcAt 9).held, (t.srcAt 9).pending, t.now)) =
    some (0, true, 16 * 12800) := by decide +kernel

/-- A report waits, or reports were merged, with a last SEQ. -/
def logging (l : List Report) (merged wr : Nat) : State := { up with err := { ErrLog.reset with fifo := l, merged := merged, mergedCls := 3, wr := wr } }
def report : Report := { cls := 5, code := 3, object := 7, arg0 := 1, arg1 := 2, time := 9, acc := 4 }
theorem witness_log : (logging [report] 0 0).err.fifo = report :: [] ∧ (logging [report] 0 0).err.merged = 0 ∧ (logging [] 2 0).err.merged ≠ 0 ∧ (logging [] 0 0).err.fifo = [] := by decide +kernel
theorem test_log : next .errlogWrite (logging [report] 0 (2 ^ 32 - 1)) (fun t => (t.err.wr, (vget t.err.entries 0).seq, (vget t.err.entries 0).report.object, t.now)) =
    some (1, 1, 7, 9 * 12800) := by decide +kernel

/-- Counters n and n - 1 at the top. -/
def topped (n : Nat) : State := { up with perf := { Perf.reset with en := true, val := vset (vset Perf.reset.val n 0xFFFFFFFF) (n - 1) 0xFFFFFFFF } }
theorem witness_counters :
    (chained 1 = false ∧ chained 0 = true ∧ vget (topped 1).perf.val 1 = 0xFFFFFFFF ∧ vget (topped 1).perf.val 0 = 0xFFFFFFFF ∧ (topped 1).perf.en = true) ∧
    (chained 63 = false ∧ chained 62 = false ∧ vget (topped 63).perf.val 63 = 0xFFFFFFFF) := by decide +kernel
theorem test_counterWrap : next (.counterWrap 1) (topped 1) (fun t => (vget t.perf.val 0, vget t.perf.val 1, t.perf.ovf)) = some (0, 0, 2) ∧
    next (.counterWrap 63) (topped 63) (fun t => (vget t.perf.val 62, vget t.perf.val 63, t.perf.ovf)) = some (0xFFFFFFFF, 0, 0x8000000000000000) := by decide +kernel

end Sys2Proof.Tests
namespace Sys2Proof.Tests
set_option Elab.async false
open Sys2Proof Sys2Proof.Machine Sys2Proof.Claims

/-! Host registers, host link, the secure module's events, power and reset. -/

theorem witness_registers :
    (5 % 4 ≠ 0 ∧ writable 0x30 = false ∧ up.regValue 0x1F0000 = none ∧ writable 0x1F0000 = false ∧ up.regValue 0 ≠ none ∧ writable 0 = false) ∧
    (up.mbAt 7).state = .idle ∧ (10000 : BitVec 14).toNat ≤ 10000 ∧ (3 : W32).toNat < 4 ∧ (0x1F03 : W32).toNat ||| 0x1F03 = 0x1F03 ∧ (0xFFFF : W32).toNat < 65536 ∧
    (up.dmaAt 15).state = .idle ∧ ((dma 1 .run id).dmaAt 15).state ≠ .idle ∧ (31 : W32).toNat < 32 ∧ (0xFFFFFFE0 : W32).toNat % 32 = 0 ∧
    ({ up.mir with en := true } : Mirror).en = true ∧ up.mir.en = false ∧ up.mir.addrLo % 256 = 0 ∧ (0xFFFFFF00 : W32).toNat % 256 = 0 ∧
    up.mir.ctrl.toNat ||| 1 = up.mir.ctrl.toNat ||| 1 ∧ bit up.mir.ctrl 0 = false ∧ State.reset.sec.serves = false := by decide +kernel
theorem witness_reads : (up.readValue 0x1F0000 = none) ∧ (up.readValue 0).isSome = true ∧ ((up.readEffect 0).readValue 4).isSome = true := by decide +kernel
/-- The window of BAR0 gives DEVICE_ID first (Table 19-1), and a write of a read-only register is recorded as class 1. -/
theorem test_registers : next (.hostRegisterWrite 0 1) up (fun t => t.err.fifo.map fun r => (r.cls, r.code, r.object)) = some [(1, 2, 0)] ∧
    next (.hostRegisterWrite 6 1) up (fun t => t.err.fifo.map fun r => (r.cls, r.code, r.object)) = some [(1, 1, 6)] ∧
    next (.hostRegisterWrite 0x60F14 9) up (fun t => (t.dmaAt 15).tail) = some 9 ∧
    next (.hostRegisterWrite 0x60F14 9) up (fun t => t.err.fifo.length) = some 0 := by decide +kernel
theorem test_readClear : next (.readClear 0x200010) (up.modIn 0 fun x => { x with hwm := 5, deadMiss := true })
    (fun t => ((t.chan 0).inp.hwm, (t.chan 0).inp.deadMiss)) = some (0, true) := by decide +kernel

/-- The mirror with a snapshot and its last SEQ, and the link up if asked. -/
def mirrored (seq : W32) (bme : Bool) : State :=
  { up with mir := { up.mir with seq := seq, snap := some (List.replicate 62 1), addrLo := 256 }, pcie := { up.pcie with bme := bme, dlUp := bme } }
theorem witness_mirror : (mirrored 0xFFFFFFFF true).mir.snap = some (List.replicate 62 1) ∧ (mirrored 0xFFFFFFFF true).pcie.bme = true ∧ (mirrored 5 false).pcie.bme = false ∧
    (mirrored 5 true).pcie.dlUp = true ∧ (mirrored 5 false).pcie.dlUp = false := by decide +kernel
theorem test_mirror : next .mirrorWrite (mirrored 0xFFFFFFFF true) (fun t => t.posted.map fun p => (p.addr, p.words.length, p.words.getD 0 0)) =
    some [(508, 1, 1), (260, 62, 1), (256, 1, 1)] ∧ next .mirrorWrite (mirrored 5 false) (fun t => (t.posted.length, t.mir.skip)) = some (0, 1) := by decide +kernel

/-- The module in a state, with its keys, a session on handle 1 and a locked administrator key. -/
def module_ (st : SecState) (debug : Nat) : State := up.modSec fun x =>
  { x with state := st, keys := true, debug := debug, sess := vset x.sess 1 (some { handle := 3, role := 2, key := 4, sk := 0, counter := 0, lastAt := 5, blob := [] }), locks := [(17, 99)] }
theorem witness_module :
    (∀ st ∈ [SecState.unowned, .operational, .zeroized], (module_ st 0).sec.state = st ∧ (module_ st 0).sec.debug = 0 ∧ (module_ st 1).sec.debug ≠ 0) ∧
    ((module_ .boot 0).sec.state ≠ .unowned ∧ (module_ .boot 0).sec.state ≠ .operational ∧ (module_ .boot 0).sec.state ≠ .zeroized) ∧
    (vget (module_ .operational 0).sec.sess 1).isSome = true ∧ (module_ .operational 0).sec.keys = true ∧ ({ up.sec with keys := false } : Sec).keys = false ∧
    (module_ .operational 0).sec.locks.find? (fun x => decide (x.1 = 17)) = some (17, 99) := by decide +kernel
theorem witness_tamper : up.rtc.dead = false ∧ up.tamper.extEn.testBit 3 = true ∧ up.tamper.extResp.testBit 3 = true ∧ ({ up.tamper with extResp := 7 } : Tamper).extResp.testBit 3 = false ∧
    up.tamper.latched = 0 ∧ ({ up.tamper with latched := 1 } : Tamper).latched ≠ 0 := by decide +kernel
theorem test_tamper : next (.tamperDetect 3 true) (module_ .operational 0) (fun t => (t.sec.state, t.sec.keys, t.tamper.latched)) = some (.zeroized, false, 8) ∧
    next (.sessionTimeout true) (module_ .operational 0) (fun t => ((vget t.sec.sess 1).isSome, t.now, t.sec.audit.map fun a => (a.kind, a.role, a.key))) =
      some (false, 600 * 8000000000000 + 5, [(1, 2, 4)]) := by decide +kernel

/-- A RETAIN command waits for its commit edge until a limit, with wake sources fired. -/
def sleeping (limit fired : Nat) : State :=
  { (up.advance 5).modMb 5 fun x => { x with state := .taken, wait := .retain [] } with
    pwr := { up.pwr with retain := some { mb := 5, backupOnly := false, limit := limit }, wakeFired := fired, retainMask := 2 ^ 63 } }
theorem witness_retain :
    (sleeping 12800 0).pwr.retain = some { mb := 5, backupOnly := false, limit := 12800 } ∧ (5 : Nat) < 8 ∧ (sleeping 12800 4).pwr.wakeFired ≠ 0 ∧
    (atEdge (sleeping 12800 0)).now = 12800 ∧ (atEdge (sleeping 12799 0)).now = 12800 ∧ Quiet (atEdge (sleeping 12800 0)) ∧
    ¬ Quiet (atEdge ((sleeping 12800 0).modMe 3 fun m => { m with state := .task })) ∧ up.pwr.retain = none := by
  unfold Quiet
  decide +kernel
theorem test_retain : next .retainCommit (sleeping 12799 0) (fun t => (t.pwr.state, t.pwr.gated, (t.mbAt 5).ackCode)) = some (.run, 0, 1) ∧
    next .wake (sleeping 12800 4) (fun t => (t.pwr.sleepAbort, (t.mbAt 5).ackCode)) = some (true, 0x0D) := by decide +kernel
/-- A device in RETAIN, with bank 63 retained, both banks 62 and 63 with a byte. -/
def retained : State := { up with pwr := { up.pwr with state := .retain, wakeFired := 2, retainMask := 2 ^ 63, gated := 15, mcUp := false }, mem := [(66060287, 9), (66060288, 7)] }
theorem witness_wake : retained.pwr.wakeFired ≠ 0 ∧ retained.pwr.retain = none ∧ retained.pwr.state = .retain ∧ Mem.wf retained.mem = true ∧ up.pwr.wakeFired = 0 ∧
    retained.pwr.safeOff = false ∧ retained.pwr.retainMask.testBit 63 = true ∧ retained.pwr.retainMask.testBit 62 = false := by decide +kernel
theorem test_wake : next .wake retained (fun t => (t.mem, t.pwr.wakeCause, (t.bankAt 62).lost, (t.bankAt 63).scrub)) = some ([(66060288, 7)], 2, true, true) := by decide +kernel

/-- Power-on reset is held; the images of the two slots are as given, with SVN_MIN 3. -/
def firmware (ok : Bool) (svn : Nat) : FwSlot := { valid := ok, svn := svn, hash := 1, version := 2 }
def holdingReset (a b : FwSlot) : State := { State.reset with sec := { State.reset.sec with fwA := a, fwB := b, svnMin := 3 } }
theorem witness_release :
    (holdingReset (firmware true 3) (firmware true 2)).pwr.startup = .held ∧ (holdingReset (firmware true 3) (firmware true 2)).pwr.jtag ∉ [0, 4, 5] ∧
    (holdingReset (firmware true 3) (firmware true 2)).sec.queue = [] ∧ (holdingReset (firmware true 3) (firmware true 2)).sec.answers = [] ∧
    State.reset.pwr.hostResetPend = false ∧ up.pwr.startup ≠ .held ∧ Starts (holdingReset (firmware true 3) (firmware true 2)).sec (programmed (firmware true 3) none) ∧
    ¬ Starts (holdingReset (firmware true 3) (firmware true 2)).sec (firmware true 2) ∧ ¬ Starts (holdingReset (firmware true 3) (firmware true 2)).sec (firmware false 3) ∧
    programmed (firmware false 0) (some { ok := true, svn := 67, hash := 1, version := 2 }) = firmware true 3 ∧ State.reset.rtc.dead = false ∧
    ({ State.reset.rtc with dead := true } : Rtc).dead = true := by
  unfold Starts
  decide +kernel
theorem test_release : ∀ x ∈ [(true, 3, Startup.running, false), (true, 2, Startup.running, true), (false, 3, Startup.running, true)],
    next (.powerOnReset 5 { pass := true, imgA := none, imgB := none }) (holdingReset (firmware x.1 x.2.1) (firmware true 3)) (fun t => (t.pwr.startup, t.sec.slotB)) =
      some x.2.2 := by decide +kernel
theorem witness_startUp : ({ up.pwr with startup := .running } : Power).startup = .running ∧ up.pwr.startup ≠ .running ∧ up.st.cycles < 8 ∧
    ¬ (({ up.st with cycles := 8, opHours := 24 } : Status).cycles < 8 ∨ ({ up.st with cycles := 8, opHours := 24 } : Status).opHours < 24) ∧
    (up.chan 0).kept = none ∧ ({ up.chan 0 with kept := some ChCal.reset } : Channel).kept = some ChCal.reset := by decide +kernel
/-- A debug instruction, with debug open or locked; a start-up whose calibration has begun and a slew that READY slows down. -/
theorem witness_debug : 0x80 ≤ 0x8F % 256 ∧ (module_ .operational 1).sec.debug = 1 ∧ (module_ .operational 1).pwr.jtag ∉ [0, 4, 5] ∧ (module_ .operational 0).sec.debug ≠ 1 ∧
    (0x90 : Nat) % 256 > 0x8F ∧ 260 % 256 ∈ [0, 4, 5] := by decide +kernel
theorem witness_ready : ({ up.st with calFrom := some 5 } : Status).calFrom ≠ none ∧ up.st.calFrom = none ∧ ({ up.ref with slew := .returning } : Reference).slew ≠ .none ∧
    ({ up.chan 0 with kept := some { ChCal.reset with inAt := some 1, outAt := some 1 } } : Channel).kept = some { ChCal.reset with inAt := some 1, outAt := some 1 } := by
  decide +kernel
theorem test_jtag : next (.jtagInstruction 4) up (fun t => (t.pwr.startup, t.pwr.jtag, t.pwr.mcUp)) = some (.held, 4, false) ∧
    next (.jtagInstruction 9) up (fun t => (t.pwr.startup, t.pwr.jtag)) = some (.ready, 9) := by decide +kernel

/-- Mailbox 4 is taken and its change made, mailbox 2 posted; groups 1 and 2 hold what was prepared and committed. -/
def working (mc : Bool) : State :=
  let s := (up.modMb 4 fun x => { x with state := .taken, applied := true }).modMb 2 fun x => { x with state := .posted }
  { s with pwr := { s.pwr with mcUp := mc, restartBy := if mc then none else some 77 }, qp := vmod s.qp 1 fun q => { q with d2hEn := true, h2d := [5], h2dWr := 1 }
           grp := vset (vset s.grp 1 { Group.reset with state := .opened }) 2 { Group.reset with state := .committed } }
theorem witness_restart : (working false).pwr.mcUp = false ∧ (working true).pwr.mcUp = true ∧ ((working true).mbAt 4).state = .taken ∧ ((working true).mbAt 2).state ≠ .taken ∧
    (working true).pwr.restartBy = none ∧ (working false).pwr.restartBy ≠ none ∧ (working false).pwr.hostResetPend = false ∧ (working false).sec.queue = [] ∧
    (working false).sec.answers = [] := by decide +kernel
theorem test_restart : next .mcWatchdog (working true) (fun t => ((t.mbAt 4).ackCode, (t.mbAt 4).ackRestarted, vget (t.mbAt 4).data 1, (vget t.grp 1).state, (vget t.grp 2).state)) =
    some (0x0C, true, 1, .free, .committed) := by decide +kernel
theorem witness_hostReset : State.reset.pwr.startup = .held ∧ (working true).pwr.startup ≠ .held ∧ ((working true).dmaAt 0).kind ≠ 2 ∧ ((dma 2 .run id).dmaAt 15).kind = 2 ∧
    ((working true).mbAt 2).state = .posted ∧ ((working true).qpAt 1).d2hEn = true ∧ ((working true).qpAt 1).lostSince = 0 ∧ ((working true).qpAt 1).d2h.length ≤ 1022 ∧
    ((working true).qpAt 0).d2hEn = false := by decide +kernel
theorem test_hostReset : (((working true).mbHostReset 2).mbAt 2).ackCode = 0x0E ∧
    (let q := ((working true).qpAt 1).hostReset 1 1
     (q.d2h, q.h2d, q.h2dCons) = ([0x01010000, 1], [], 1)) := by decide +kernel

end Sys2Proof.Tests
namespace Sys2Proof.Tests
set_option Elab.async false
open Sys2Proof Sys2Proof.Machine Sys2Proof.Claims

/-! Calibration, the environment and tick boundaries. -/

/-- An update with 2¹⁹ nominal hits on codes 16 to 143 and k hits a code of the lead, codes 8 to 15, and of the tail, codes 144 to 151. -/
def hitsOf (k : Nat) : Hits :=
  { all := 2 ^ 20, nom := List.replicate 16 0 ++ List.replicate 128 4096 ++ List.replicate 16 0, late := List.replicate 8 0 ++ List.replicate 8 k ++ List.replicate 144 0
    early := List.replicate 144 0 ++ List.replicate 8 k ++ List.replicate 8 0 }
/-- Channel 127 with a table in use in interpolator 1, which is changed by f, and another one waiting; its input changed by g. -/
def tabled (f : Interp → Interp) (g : ChIn → ChIn) : State := (up.modCal 127 fun k => { k with int1 := f { k.int1 with
  table := hitsEntries (hitsOf 8192), completed := 1, next := some { entries := hitsEntries (hitsOf 8192), lead := 100, tail := 100 } } }).modIn 127 g
/-- Interpolator 1 of channel 127 so. -/
def int1Of (f : Interp → Interp) : Interp := ((tabled f id).chan 127).cal.interp true
theorem witness_update :
    (let x := int1Of fun x => { x with completed := 0 }
     x.table ≠ [] ∧ hitsLegal x.hits (hitsOf 8192) = true ∧ (addHits x.hits (hitsOf 8192)).all = 2 ^ 20 ∧ x.hits.all < 2 ^ 20 ∧
       hitsPasses (addHits x.hits (hitsOf 8192)) 96 true [] = true ∧ hitsPasses (addHits x.hits (hitsOf 8191)) 96 true [] = false ∧
       hitsPasses (addHits x.hits (hitsOf 8192)) 101 true [] = false) ∧
    (let x := int1Of fun x => { x with completed := 2, last := hitsEntries (hitsOf 8192) }
     hitsPasses (addHits x.hits (hitsOf 8192)) 96 false (hitsEntries (hitsOf 8192)) = true ∧ jumpOk x.last (hitsEntries (addHits x.hits (hitsOf 8192))) = true) ∧
    (addHits (int1Of id).hits { hitsOf 0 with all := 4, nom := [2] }).all ≠ 2 ^ 20 := by decide +kernel
theorem witness_rejected :
    (int1Of id).rejRun = 0 ∧ (int1Of fun x => { x with rejRun := 1 }).rejRun ≠ 0 ∧ (int1Of fun x => { x with rejRun := 2 }).rejRun ≤ 2 ∧
    (let x := int1Of fun x => { x with completed := 5, next := none }
     x.completed = 5 ∧ x.accepted = 0 ∧ x.next = none ∧ x.rejRun ≤ 2) ∧
    hitsLegal noHits { hitsOf 0 with nom := [2 ^ 19 + 1] } = false ∧ ((up.chan 127).cal.interp true).table = [] ∧ up.pwr.gated.testBit 3 = false ∧
    up.pwr.startup ≠ .running ∧ ({ up.st with calFrom := some 5 } : Status).calFrom ≠ none := by decide +kernel
theorem witness_swap : (int1Of id).next = some { entries := hitsEntries (hitsOf 8192), lead := 100, tail := 100 } ∧ (((tabled id id).chan 127).cal.interp false).next = none ∧
    (∀ c ∈ ((tabled id id).chan 127).inp.convs, c.interp1 ≠ true) ∧
    (∃ c ∈ ((tabled id fun x => { x with convs := [{ interp1 := true, tclk := 0, phase := 0, rising := true, phys := 0, off := 0, dead := 0, blank := 0 }] }).chan 127).inp.convs, c.interp1 = true) := by
  decide +kernel
/-- Twice 2²⁰ hits: a rejected update starts its counts again (R119, R120); a second one in a row fails the channel. -/
theorem test_update : ([0, 1].map fun r => next (.binTableUpdate 127 true (hitsOf 8191)) (tabled (fun x => { x with completed := 0, rejRun := r }) id)
    (fun t => let k := (t.chan 127).cal; (k.int1.rejected, k.int1.hits.all, k.failed))) = [some (true, 0, false), some (true, 0, true)] := by decide +kernel
theorem witness_starved : ∀ a ∈ [false, true], ∀ b ∈ [false, true], ∃ k : ChCal, k = { ChCal.reset with int0 := { Interp.reset with starved := a }, int1 := { Interp.reset with starved := b } } ∧
    ((up.modCal 127 fun _ => k).chan 127).cal.int0.starved = a ∧ ((up.modCal 127 fun _ => k).chan 127).cal.int1.starved = b := by
  intro a _ b _
  refine ⟨_, rfl, ?_⟩
  cases a <;> cases b <;> decide +kernel
theorem test_tableSwap : next (.tableSwap 127 true) (tabled id id) (fun t => ((t.chan 127).cal.int1.updCnt, (t.chan 127).cal.int1.activeBank, (t.chan 127).cal.int1.lead)) =
    some (1, true, 100) := by decide +kernel
/-- The entries of the codes at the ends and in the middle, from R118 by hand: code 16 begins at 100 tq and is 3.125 tq wide. -/
theorem test_entries : (hitsEntries (hitsOf 8192)).getD 16 0 = 184 * 256 + 400 ∧ (hitsEntries (hitsOf 8192)).getD 15 0 = 184 * 256 - 1600 := by decide +kernel

/-- A measurement of channel 127 is in progress, after which its input and output were at these terms. -/
def measured (f : ChCal → ChCal) : State := (up.modCal 127 f).modIn 127 fun x => { x with configured := true }
theorem witness_calibration :
    up.pwr.startup = .ready ∧ State.reset.pwr.startup ≠ .ready ∧ (measured id).pwr.startup = .ready ∧ ((measured id).chan 127).inp.configured = true ∧
    Startable (measured fun k => { k with deferred := true }) 127 ∧ ¬ Startable (measured id) 127 ∧ Measurable (measured fun k => { k with deferred := true }) 127 ∧
    ¬ Measurable ((measured id).modIn 127 fun x => { x with en := true }) 127 ∧
    ((measured fun k => { k with meas := some { run := false, since := 4 } }).chan 127).cal.meas = some { run := false, since := 4 } ∧
    ((measured fun k => { k with measOut := some { run := false, since := 4 } }).chan 127).cal.measOut = some { run := false, since := 4 } ∧
    ((measured fun k => { k with inAt := some 4 }).chan 127).cal.inAt = some 4 ∧ ((measured fun k => { k with outAt := some 4 }).chan 127).cal.outAt = some 4 := by
  have e : vget (measured fun k => { k with deferred := true }).env.tdr 3 = none := by decide +kernel
  have o : ((measured fun k => { k with deferred := true }).chan 127).inp.enTo = none := by decide +kernel
  have m : Measurable (measured fun k => { k with deferred := true }) 127 :=
    ⟨by decide +kernel, by decide +kernel, by decide +kernel, fun r h => absurd (e.symm.trans h) (by simp)⟩
  exact ⟨by decide +kernel, by decide +kernel, by decide +kernel, by decide +kernel, ⟨by decide +kernel, m, fun b h => absurd (o.symm.trans h) (by simp)⟩,
    fun h => absurd h.1 (by decide +kernel), m, fun h => absurd h.1 (by decide +kernel), by decide +kernel⟩
/-- 16,384 tags with a tandem offset of 8·d/16 tq on each side: the odd edges d tq later than the even ones. -/
def tandems (d : Int) : List Int := (List.range 16384).map fun i => if i % 2 = 1 then d else 0
theorem tandems_getD (d : Int) (i : Nat) (h : i < 16384) : (tandems d).getD i 0 = if i % 2 = 1 then d else 0 := by
  simp only [tandems, List.getD_eq_getElem?_getD, List.getElem?_map, List.getElem?_range h, Option.map_some, Option.getD_some]
theorem tandemOf_tandems (d : Int) : tandemOf (tandems d) = divNearest (8 * (8192 * d * 8191 - 8191 * -d * 8192)) (8192 * 8191) := by
  have a : ((List.range 8192).map fun i => (tandems d).getD (2 * i + 1) 0 - (tandems d).getD (2 * i) 0).sum = 8192 * d := by
    rw [List.map_congr_left (g := fun _ => d), List.map_const', List.length_range, List.sum_replicate_int]
    · simp
    · intro i h
      rw [List.mem_range] at h
      rw [tandems_getD d _ (by omega), tandems_getD d _ (by omega), if_pos (by omega), if_neg (by omega)]
      omega
  have b : ((List.range 8191).map fun i => (tandems d).getD (2 * i + 2) 0 - (tandems d).getD (2 * i + 1) 0).sum = 8191 * -d := by
    rw [List.map_congr_left (g := fun _ => -d), List.map_const', List.length_range, List.sum_replicate_int]
    · simp
    · intro i h
      rw [List.mem_range] at h
      rw [tandems_getD d _ (by omega), tandems_getD d _ (by omega), if_neg (by omega), if_pos (by omega)]
      omega
  simp only [tandemOf, a, b]
/-- The limits of R127: 640/16 tq of tandem offset pass, 656/16 do not. -/
theorem witness_tandem : (tandems 40).length = 16384 ∧ (tandemOf (tandems 40)).natAbs = 640 ∧ 640 < (tandemOf (tandems 41)).natAbs := by
  rw [tandemOf_tandems, tandemOf_tandems]
  exact ⟨by rw [tandems, List.length_map, List.length_range], by decide, by decide⟩
/-- An input term of channel 127 that its tags show to be off by j/16 tq (R127): 128 pass, 129 do not. -/
def jumped (j : Int) : State := measured fun k => { k with meas := some { run := false, since := 4 }, inTerm := meanOf (tandems 40) - Config.branch 127 - j }
theorem runTo_chan (s : State) (p n : Nat) : (s.runTo p).chan n = s.chan n := by
  unfold State.chan
  rw [(State.runTo_same (kl := [.tb, .ic, .perf, .pwr]) rfl (Same.refl _ s) p).ch.resolve_left (by decide)]
theorem jumped_projected (j : Int) (x : Nat) : ((jumped j).runTo x).projectedIn 127 = meanOf (tandems 40) - Config.branch 127 - j := by
  have b : ((jumped j).chan 127).cal.points false = [] := rfl
  simp only [State.projectedIn, runTo_chan, b, or_true, if_true]
  rfl
theorem witness_jump : ∀ x : Nat, (meanOf (tandems 40) - Config.branch 127 - ((jumped 128).runTo x).projectedIn 127).natAbs ≤ 128 ∧
    128 < (meanOf (tandems 40) - Config.branch 127 - ((jumped 129).runTo x).projectedIn 127).natAbs := by
  intro x
  rw [jumped_projected, jumped_projected]
  omega
/-- An output measurement of 4,096 tags (R128): 256/16 tq from the term in use pass, 272/16 do not. -/
theorem witness_outputTags : (List.replicate 4096 (16 : Int)).length = 4096 ∧ meanOf (List.replicate 4096 16) = 256 ∧ meanOf (List.replicate 4096 17) = 272 ∧
    ((measured id).chan 127).cal.inTerm = 0 ∧ ((measured id).chan 127).cal.outTerm = 0 := by
  refine ⟨List.length_replicate, ?_, ?_, by decide +kernel, by decide +kernel⟩ <;> (rw [meanOf, List.sum_replicate_int, List.length_replicate]; decide)
/-- The model runs on a recorded term once BASELINE is clear (R136, R141). -/
theorem witness_model : up.st.baseline = true ∨ ({ up.st with baseline := false } : Status).baseline = false := .inr rfl
theorem witness_points : ({ ChCal.reset with hist := [{ cycle := 1, deg := 0, inT := some { term := 5, d1 := 0, at_ := 0, temp := 0, hours := 0 }, outT := none }] } : ChCal).points false ≠ [] := by
  decide +kernel
theorem witness_fitted : Fitted (measured id) 127 false ∧ ¬ Fitted (measured id) 127 true := by
  unfold Fitted
  decide +kernel
theorem witness_cycle : ({ up with st := { up.st with cycleOn := true } } : State).st.cycleOn = true ∧
    (∀ n : Fin 128, ((up.chan n).inp.configured = true → (up.chan n).cal.inCycle = true) ∧ ((up.chan n).out.configured = true → (up.chan n).cal.outCycle = true)) ∧
    up.st.cycleOn = false ∧ ((measured id).chan 127).cal.inCycle = false ∧
    (∀ n : Fin 128, ((up.chan n).inp.configured = true → (up.chan n).cal.inRun = true) ∧ ((up.chan n).out.configured = true → (up.chan n).cal.outRun = true)) ∧
    ((measured id).chan 127).inp.configured = true ∧ ((measured id).chan 127).cal.inRun = false := by decide +kernel
theorem witness_ageing :
    ([(1, 2), (3, 4)] : List (W32 × W32))[(1 : Fin 4).val]? = some (3, 4) ∧ up.pwr.gated.testBit 1 = false ∧ (2 : Nat).testBit 1 = true ∧
    ({ up.st with baseline := true } : Status).baseline = true ∧ ({ up.st with baseline := false } : Status).baseline = false ∧
    (vget up.env.mon 48).invalid = false ∧ (vget (vset up.env.mon 48 { Monitor.resetOf 48 with invalid := true }) 48).invalid = true := by decide +kernel
theorem witness_plan : (∀ c : Fin 4, (up.clus c).capH = 0) ∧ (let u := up.modCl 3 fun k => { k with capH := 5, degPpm := 9999 }
    (u.clus 3).capH ≠ 0 ∧ (∀ d : Fin 4, (u.clus d).capH ≠ 0 → (u.clus 3).capH ≤ (u.clus d).capH) ∧ ∀ e : Fin 4, (u.clus e).degPpm ≤ (u.clus 3).degPpm) ∧
    (let x := { up.st with baseline := true, cycles := 8, opHours := 24 }
     8 ≤ x.cycles ∧ 24 ≤ x.opHours) := by decide +kernel
/-- The longest interval is the smallest CAP_H that is not 0 (R136). -/
theorem witness_cap : IsCap up 2160 ∧ IsCap (up.modCl 3 fun k => { k with capH := 5 }) 5 := by
  refine ⟨.inl ⟨by decide +kernel, rfl⟩, .inr ⟨3, by decide +kernel, by decide +kernel, by decide +kernel⟩⟩

/-- A TDR run of cluster 3 is at channel 127 or 96, to 127; half of the swing of channel 96 is 825 mV. -/
def reflecting (cur : Nat) (auto : Bool) : State := (up.modOut 96 fun o => { o with voh := 3072, vol := 1024 }) |> fun s =>
  { s with env := { s.env with mon := vset s.env.mon 20 { Monitor.resetOf 20 with value := 3300 }, tdr := vset s.env.tdr 3 (some { cur := cur, last := 127, auto := auto, unlocked := false, since := 0 }) } }
/-- Steps of a search that find these 16 bits, and a result of two searches and of tags of pass B at an instant, with a spread of 2·k tq. -/
def steps (code : Nat) : List Nat := (List.range 16).map fun i => if code.testBit (15 - i) then 9 else 8
def reflection (c1 c2 : Nat) (rt : Int) (k : Int) : TdrResult :=
  { seen1 := steps c1, seen2 := steps c2, tagsA := List.replicate 256 0, tagsB := List.replicate 128 (rt - k) ++ List.replicate 128 (rt + k) }
/-- V1 of channel 96 is half of the swing at code 37,534; V2 of an open end lies at code 47,365, of a short at 27,704, and one 1/6 above V1 at 39,172. -/
theorem witness_tdr :
    (vget (reflecting 96 true).env.tdr 3).isSome = true ∧ up.env.tdr = Vector.replicate 4 none ∧
    (let s := reflecting 96 true
     let v (c : Nat) : Int := voltage (found (steps c)) - s.level4096 96 (s.chan 96).out.vol
     let w := s.swing4096 96
     (¬ (10 * v 37534 < 3 * w ∨ 7 * w < 10 * v 37534 ∨ v 37534 ≤ 0) ∧ 10 * v 27704 < 3 * w ∧ 7 * w < 10 * v 47365) ∧
     5 * (v 39172 - v 37534).natAbs < v 37534 ∧ v 37534 ≤ 5 * (v 47365 - v 37534).natAbs ∧ 8 * v 37534 ≤ 10 * (v 47365 - v 37534) ∧
     10 * (v 27704 - v 37534) ≤ -(8 * v 37534)) ∧
    ((up.chan 97).pr.held = false ∧ (up.chan 97).inp.en = false ∧ (up.chan 97).out.en = false) ∧ ({ up.ref with state := .locked } : Reference).state = .locked := by
  decide +kernel
theorem witness_spread : Wide (reflection 0 0 0 65).tagsB ∧ ¬ Wide (reflection 0 0 0 64).tagsB := by
  unfold Wide
  decide +kernel
theorem test_tdr : next (.tdrChannelDone 96 (reflection 37534 47365 102400 0)) (reflecting 96 false)
    (fun t => ((t.chan 96).cable.outcome, (t.chan 96).cable.rt, (t.chan 96).cable.cls, t.env.cur, t.env.runs)) = some (1, 102400, 0, 97, 1) ∧
    next (.tdrChannelDone 96 (reflection 37534 47365 102399 0)) (reflecting 96 false) (fun t => ((t.chan 96).cable.outcome, (t.chan 96).cable.rt)) = some (3, 0) := by decide +kernel

/-- Monitor 0 (window 760 to 840, Table 11-4) with runs of readings, in fault if asked. -/
def monitored (fault : Bool) (out ins : Nat) : State :=
  { up with env := { up.env with mon := vset up.env.mon 0 { Monitor.resetOf 0 with fault := fault, outRun := out, inRun := ins } } }
theorem witness_monitors : Outside (vget up.env.mon 0) 759 false ∧ ¬ Outside (vget up.env.mon 0) 760 false ∧ ¬ Outside (vget up.env.mon 0) 840 false ∧ Outside (vget up.env.mon 0) 841 false ∧
    Outside (vget up.env.mon 0) 800 true ∧ (vget (monitored false 1 0).env.mon 0).outRun = 1 ∧ (vget (monitored true 0 7).env.mon 0).inRun = 7 ∧ up.env.trip = false ∧
    ({ up.env with trip := true } : Envir).trip = true := by
  unfold Outside
  decide +kernel
theorem test_monitors : next (.monitorReading 0 841 false) (monitored false 1 0) (fun t => ((vget t.env.mon 0).fault, (vget t.env.mon 0).fcnt)) = some (true, 1) ∧
    next (.monitorReading 0 840 false) (monitored true 0 7) (fun t => (vget t.env.mon 0).fault) = some false ∧
    next (.monitorReading 0 760 false) (monitored true 0 6) (fun t => (vget t.env.mon 0).fault) = some true := by decide +kernel
theorem test_trip11 : next (.thermalTrip 11) (output false id) (fun t => (t.env.trip, t.env.sensor, (t.chan 126).out.en)) = some (true, 11, false) := by decide +kernel

/-- The time base at 5 tq before the first tick boundary, changed by f. -/
def ticking (f : TimeBase → TimeBase) : State := { up with tb := f (up.tb.count 79999995) }
theorem witness_ticks :
    PlainBoundary (ticking id) ∧ 0 < (ticking id).tb.tickP * 12800 ∧ (ticking fun t => { t with tickPend := some 7000 }).stepDue 80000000 = none ∧ (ticking id).tb.tickEnd = 80000000 ∧
    (ticking id).pps.mode = 0 ∧ (2 ^ 80 - 1 < 2 ^ 80) ∧ (ticking fun t => { t with step := some (.atTick 12800) }).ext ≤ 80000000 ∧
    MayStep (ticking fun t => { t with step := some (.atTick 12800) }) ∧ ¬ MayStep (generating id) ∧
    ({ up.mir with en := true, left := some 0 } : Mirror).left = some 0 ∧ ({ up.mir with en := true, left := some 1 } : Mirror).left = some (0 + 1) ∧ up.deferred = [] := by
  unfold PlainBoundary MayStep
  decide +kernel
theorem witness_gates : (∀ l ∈ [1, 2], GateOpen { Slot.reset with state := .running, acc := some (gate 5), left := l, ngate := l, gates := 1 }) ∧
    ({ Slot.reset with state := .armed, b0 := 80000000 } : Slot).b0 ≤ 80000000 ∧ Slot.reset.state ∉ [SlotState.armed, SlotState.running] ∧
    ({ Slot.reset with state := .running, acc := some (gate 5), stopAt := some (true, 7) } : Slot).stopAt = some (true, 7) := by
  unfold GateOpen
  decide +kernel
theorem test_gates : (({ Slot.reset with state := .running, acc := some (gate 5), left := 1, ngate := 2, gates := 1, g := 3 } : Slot).tick 90 91 92 93 false false |> fun k =>
      (k.closing.map fun a => (a.stop, a.stopAt), k.left, k.gates, k.state)) = ([(90, some 93)], 3, 2, .running) ∧
    (({ Slot.reset with state := .running, acc := some (gate 5), left := 1, ngate := 2, gates := 2, g := 3 } : Slot).tick 90 91 92 93 false false |> fun k =>
      (k.closing.length, k.state)) = (1, .stopping) := by decide +kernel
theorem witness_steals : ((up.clus 3).monitor = false ∧ up.pwr.gated.testBit 3 = false ∧ { up.tb with tickIdx := 127 }.tickIdx % 64 = 127 % 64) ∧ up.tb.tickIdx % 64 ≠ 127 % 64 ∧
    ((up.modCal 127 fun k => { k with stealActive := true }).chan 127).cal.stealActive = true ∧ (up.chan 127).cal.stealActive = false := by decide +kernel
theorem witness_deferred : dueNow { at_ := .phys 5, op := 0x0302, words := [] } 9 5 ∧ ¬ dueNow { at_ := .phys 6, op := 0x0302, words := [] } 9 5 ∧
    dueNow { at_ := .dtc 9, op := 0x0302, words := [] } 9 5 ∧ ¬ dueNow { at_ := .dtc 10, op := 0x0302, words := [] } 9 5 := by
  unfold dueNow
  decide
theorem witness_actions : ((vget (vset up.grp 2 { Group.reset with state := .committed, commitAt := some 9 }) 2).dueAt 9 = true ∧ (vget up.grp 2).dueAt 9 = false) ∧
    rangeFirst [0x3027F00] ≤ 127 ∧ 127 ≤ rangeLast [0x3027F00] ∧ (up.pwr.gated < 16) ∧ bits (0x801 : W32) 1 0 = 1 ∧ bits (0x801 : W32) 11 8 = 8 ∧
    ({ up.chan 127 with cable := { Cable.reset with outcome := 1, rt := 16 } } : Channel).cable.usable = true ∧ (up.chan 127).cable.usable = false ∧
    (up.dmaAt 15).state = .idle ∧ ((dma 0 .run id).dmaAt 15).state ≠ .idle := by decide +kernel

end Sys2Proof.Tests
end

section
/-! PROOFS. Launches on the 2 tq grid (chapter 6, R174). -/
namespace Sys2Proof.Machine

/-- R178 corrects only widths from 3,200 tq up to MINPW_GUARD more. -/
theorem widthShift_eq_zero (n : Nat) {guard : Nat} {w : Int} (h : w < 3200 ∨ 3200 + (guard : Int) ≤ w) :
    widthShift n guard w = 0 := by
  unfold widthShift
  rw [if_neg (by omega)]

/-- Where the edge kept before asks for no correction, the launch is `t - lout` on the 2 tq grid alone. -/
theorem State.place_computed_of_uncorrected (s : State) (n : Nat) (t : Int) (level : Bool)
    (h : ∀ p l, (s.chan n).out.lastKept = some (p, l) → t - p < 3200 ∨ 3200 + ((s.clus (n / 32)).minpwGuard : Int) ≤ t - p) :
    ((s.place n t level).chan n).out.computed = (s.chan n).out.computed ++
      [{ t := t, level := level, launch := evenUp (t - s.lout n), unit1 := !(s.chan n).out.lastUnit1 }] := by
  cases hk : (s.chan n).out.lastKept with
  | none => simp [State.place, hk]
  | some kept => simp [State.place, hk, widthShift_eq_zero n (h kept.1 kept.2 hk)]

/-- Rounding to the 2 tq grid moves a time by 0 or 1 tq, never back. -/
theorem evenUp_bounds (x : Int) : x ≤ evenUp x ∧ evenUp x ≤ x + 1 := by
  unfold evenUp
  omega

/-- Rounding to the 2 tq grid rounds the remainder mod 3,200 by itself, for 3,200 is even. -/
theorem evenUp_eq_periods_add_remainder (x : Int) : evenUp x = 3200 * (x / 3200) + (x % 3200 + x % 3200 % 2) := by
  unfold evenUp
  omega

/-- The split of R174: `evenUp x` in whole TCLK periods and an even fine delay below a period. -/
theorem evenUp_split (x : Int) : let r := x % 3200 + x % 3200 % 2
    ∃ periods fine : Int, evenUp x = 3200 * periods + fine ∧ 0 ≤ fine ∧ fine ≤ 3198 ∧ fine % 2 = 0 ∧
      (r < 3200 → fine = r ∧ periods = x / 3200) ∧ (3200 ≤ r → fine = 0 ∧ periods = x / 3200 + 1) := by
  intro r
  have hlaunch : evenUp x = 3200 * (x / 3200) + r := evenUp_eq_periods_add_remainder x
  rcases Int.lt_or_le r 3200 with hlt | hle
  · exact ⟨x / 3200, r, hlaunch, by omega, by omega, by omega, fun _ => ⟨rfl, rfl⟩, fun hle => by omega⟩
  · exact ⟨x / 3200 + 1, 0, by omega, Int.le_refl 0, by decide, rfl, fun hlt => by omega, fun _ => ⟨rfl, rfl⟩⟩

/-- Settles O41: the edge placed has `evenUp (t - lout)` for its launch, which splits as R174 says. -/
theorem launchTimesAreSplit : Obligations.LaunchTimesAreSplit := by
  unfold Obligations.LaunchTimesAreSplit
  intro u n t level huncorrected x r
  obtain ⟨periods, fine, hlaunch, hfine0, hfine, heven, hsame, hnext⟩ := evenUp_split x
  obtain ⟨hnotEarly, hwithin1⟩ := evenUp_bounds (t - u.lout n)
  exact ⟨_, periods, fine, u.place_computed_of_uncorrected n t level huncorrected, rfl, rfl, hlaunch, hfine0, hfine, heven, hsame, hnext,
    by dsimp only; omega, by dsimp only; omega⟩

end Sys2Proof.Machine
end

section
/-! PROOFS. CANCEL of a mailbox (chapter 14, R374). -/
namespace Sys2Proof.Machine

/-- A report of the error log touches no mailbox (R399). -/
theorem State.report_mb (s : State) (cls code object : Nat) (arg0 arg1 : W32) : (s.report cls code object arg0 arg1).mb = s.mb :=
  same_eq (l := [.ic, .err, .perf, .pwr]) (State.report_same rfl (Same.refl _ s) cls code object arg0 arg1).mb rfl

/-- A message that ends without being taken changes the mailboxes at its own place alone. -/
theorem State.mbUntaken_mb (s : State) (m code : Nat) :
    (s.mbUntaken m code).mb = vmod s.mb m fun x =>
      { x with state := .done, ackDone := true, ackTaken := false, ackRestarted := false, ackCode := code, ackRlen := 0, tmoAt := none } := by
  simp only [State.mbUntaken, State.lines_mb, State.modMb]

/-- The mailbox of a message that ends without being taken: R374's fields, everything else as it was. -/
theorem State.mbUntaken_mbAt (s : State) (m code : Nat) :
    (s.mbUntaken m code).mbAt m =
      { s.mbAt m with state := .done, ackDone := true, ackTaken := false, ackRestarted := false, ackCode := code, ackRlen := 0, tmoAt := none } := by
  simp only [State.mbAt, State.mbUntaken_mb, vget_vmod_self]

/-- The other mailboxes do not see a message that ends without being taken. -/
theorem State.mbUntaken_mbAt_ne (s : State) {m k : Fin 8} (code : Nat) (h : k ≠ m) : (s.mbUntaken m code).mbAt k = s.mbAt k := by
  have hplace : m.val % 8 ≠ k.val % 8 := by omega
  simp only [State.mbAt, State.mbUntaken_mb, vget_vmod_ne _ _ hplace]

/-- A CANCEL write always answers: the register write of R374. -/
theorem exec_cancel (m : Fin 8) (s : State) : exec (.cancel m) s = .next (s.mbCancel m) := rfl

/-- What CANCEL does to a message that is still posted. -/
theorem State.mbCancel_posted (s : State) (m : Nat) (h : (s.mbAt m).state = .posted) : s.mbCancel m = s.mbUntaken m rcAborted := by
  simp only [State.mbCancel, h]

/-- The mailboxes after a CANCEL that comes too late: the take has won. -/
theorem State.mbCancel_taken_mb (s : State) (m : Nat) (h : (s.mbAt m).state = .taken) :
    (s.mbCancel m).mb = vmod s.mb m fun x => { x with cancelLate := true } := by
  simp only [State.mbCancel, h, State.report_mb, State.modMb]

/-- CANCEL has no effect where no message waits or runs. -/
theorem State.mbCancel_open (s : State) (m : Nat) (h : (s.mbAt m).state = .idle ∨ (s.mbAt m).state = .done) : s.mbCancel m = s := by
  rcases h with hidle | hdone
  · simp only [State.mbCancel, hidle]
  · simp only [State.mbCancel, hdone]

/-- Settles O8: a posted message ends untaken with ABORTED, a taken one has its CANCEL_LATE set, and elsewhere CANCEL has no effect. -/
theorem cancelWithdrawsAPostedMessage : Obligations.CancelWithdrawsAPostedMessage := by
  unfold Obligations.CancelWithdrawsAPostedMessage
  intro m s
  refine ⟨fun hposted => ⟨s.mbUntaken m rcAborted, ?_, ?_⟩, fun htaken => ⟨s.mbCancel m, exec_cancel m s, ?_, ?_⟩, fun hopen => ?_⟩
  · rw [exec_cancel, s.mbCancel_posted m hposted]
  · dsimp only
    rw [s.mbUntaken_mbAt m rcAborted]
    exact ⟨rfl, rfl, rfl, rfl, rfl, rfl, rfl, rfl, fun k hk => s.mbUntaken_mbAt_ne rcAborted hk, State.mbUntaken_same rfl (Same.refl _ s) m rcAborted⟩
  · exact s.mbCancel_taken_mb m htaken
  · exact State.mbCancel_same rfl (Same.refl _ s) m
  · rw [exec_cancel, s.mbCancel_open m hopen]

end Sys2Proof.Machine
end
